-- ==== Sys2Proof/Word.lean ====
section
/-! DEFINITION. The word and byte types of the device: registers are 32-bit words (R66), memory is bytes. -/

namespace Sys2Proof

/-- A 32-bit register or window word. -/
abbrev Word := BitVec 32

/-- One byte. -/
abbrev Byte := BitVec 8

end Sys2Proof
end

