-- ==== Sys2Proof/Syntax.lean ====
section
/-! DEFINITION. The commands of the block: one constructor of `Instr` per row of the opcode table, with the operands the
row carries. What the world outside decides (a measurement, a frame's bytes, the outcome of an analog or a
non-volatile operation) comes in as an operand. -/

namespace Sys2Proof

/-- A host processor: A on HCSA#, B on HCSB# (R61). -/
inductive Proc where
  | A
  | B
  deriving DecidableEq, Repr

/-- Who makes a register write: a host, a plan row of a thread, or a BOOT record (R8, R404). -/
inductive Writer where
  | host (p : Proc)
  | row (t : Fin 16)
  | boot
  deriving DecidableEq, Repr

/-- What the check bits of a fetched SRAM word showed (R25). -/
inductive Ecc where
  | clean
  | corrected
  | double
  deriving DecidableEq, Repr

/-- The wake sources of R31. -/
inductive WakeSource where
  | aoTimeout
  | analog
  | gauge
  | loop
  | link
  | host
  | gpio
  | fault
  deriving DecidableEq, Repr

/-- One host frame, from the fall of a chip select to its rise (R50). -/
structure Frame where
  /-- Whose chip select. -/
  p      : Proc
  /-- HCSA# and HCSB# were low together at some point of the frame (R64). -/
  both   : Bool
  /-- The bytes the host sent, the command first. -/
  bytes  : List Byte
  /-- For a read: data words whose last bit was shifted out before the chip select rose (R57). -/
  words  : Nat
  /-- For a read: the wait bytes before the marker; `none` when the fetch cannot complete within 64 (R54, R56). -/
  waits  : Option Nat
  /-- For a read of an SRAM window: what the check bits of each word showed, the first word first; the words beyond the
  list were clean (R25). -/
  ecc    : List Ecc
  deriving DecidableEq, Repr

/-- What discovery finds on a flash chip select (R383): log2 of the part's bytes, whether it can be addressed with 3 bytes,
quad-read support and the page size. -/
structure Sfdp where
  log2  : Nat
  addr3 : Bool
  quad  : Bool
  page  : Nat
  deriving DecidableEq, Repr

/-- The input as the half-bridge's law has seen it (R218): the input current, mA, and ∫(MA − IIN) dt ÷ 1 ms since the last
sample, mA. -/
structure HbSample where
  iin : Nat
  acc : Int
  deriving DecidableEq, Repr

/-- One channel of a finished scan (R185–R187): the raw codes of ADC-A's and ADC-B's samples, and the value in the channel's
unit where the spec gives no conversion from the code. -/
structure AdcSample where
  ch    : Nat
  a     : List Nat
  b     : List Nat
  value : Nat
  deriving DecidableEq, Repr

/-- What a phase showed in the last period of its loop (R116, R117): ISENk − ISREF on average and at its peak, µV, and the
crossing of its comparator: the time after the slot start, 78.125 ps units, with the sensed voltage and the demand there. -/
structure PhaseMeas where
  k      : Nat
  avg    : Int
  peak   : Int
  on     : Nat
  isen   : Int
  demand : Int
  deriving DecidableEq, Repr

/-- What one quantity of a health probe delivered (R151), in the units of the HEALTH registers: per phase the share error,
the inductance and the thermal rise; per loop the crossover and phase margin, and the output capacitance and ESR. -/
inductive Measured where
  | share (v : List (Nat × Int))
  | ind (v : List (Nat × Nat))
  | resp (fc pm : Nat)
  | cout (cout esr : Nat)
  | therm (v : List (Nat × Nat))
  /-- The condition of R151 was not met. -/
  | skipped
  deriving DecidableEq, Repr

/-- A frame as a link receiver saw it (R266): an SD followed the preamble, a Manchester violation fell inside it, and its
bits between SD and ED, first bit first. -/
structure RxFrame where
  sd        : Bool
  violation : Bool
  bits      : List Bool
  deriving DecidableEq, Repr

/-- A reply that answers nothing (R266, R269): a frame that is not accepted, a reply whose epoch is an older one, or one whose
kind does not fit the request. -/
inductive BadReply where
  | invalid (r : RxFrame)
  | stale
  | unexpected
  deriving DecidableEq, Repr

/-- What the physical array showed while an OTP operation or the boot reads ran (R393, R402, R407). -/
structure OtpSense where
  /-- Words read with a single-bit error, or with an uncorrectable one. -/
  corrected : List Nat
  uncorr    : List Nat
  /-- Words whose two readings differ. -/
  marginal  : List Nat
  /-- The step of a programming sequence (word of a row, then fuse) whose verification failed for good. -/
  fails     : Option Nat
  /-- Re-pulses used. -/
  pulses    : Nat
  /-- VIN fell below 12 V during this step's pulse. -/
  lowv      : Option Nat
  deriving DecidableEq, Repr

/-- One conversion of a remote channel (R328): the diode's forward voltages in µV, or the thermistor's resistance in
ohms. -/
structure TdReading where
  v10  : Nat
  v100 : Nat
  ohm  : Nat
  deriving DecidableEq, Repr


/-- The commands: one per row of the opcode table, in its order. -/
inductive Instr where
  /-- AO_POWER_ON (R28): The AO supply rises through 2.2 V and the power-on reset clears chip time and every power state. -/
  | aoPowerOn 
  /-- BOOT_START (R202): VIN rises through UVLO (8.0 V) and the boot flow starts at step 1, bringing up VDRV and VCORE and charging VHOLD. -/
  | bootStart 
  /-- BOOT_SUPPLIES_READY (R202): VDRV and VCORE reach regulation, WAKE and AO run, and STATUS and ID become answerable. -/
  | bootSuppliesReady 
  /-- BOOT_TRIM_READ_DONE (R401): The TRIM and IDENT reads complete and are checked, with built-in trims used if they fail. -/
  | bootTrimReadDone (o : OtpSense) (bad : List Nat)
  /-- BOOT_SHADOW_LOADED (R202): The BOOT region reads complete; the shadow, class, settings and SEQ table load, BOOT records apply and the BOOTON requests are issued. -/
  | bootShadowLoaded (o : OtpSense)
  /-- RSTO_RELEASE (R203): The RSTO# delay after the boot plan and RSTOMASK slots are GOOD expires; RSTO# is released, READY set and the first-failure capture armed. -/
  | rstoRelease 
  /-- FALLOW_ENTRY (R29): The idle conditions have held for IDLE AO ticks, so the device stops its fast clocks at a tick edge and enters FALLOW. -/
  | fallowEntry 
  /-- WAKE (R31): A wake source asserts in FALLOW and the wake controller starts the WAKE oscillator and the PLL. -/
  | wake (src : WakeSource)
  /-- ENG_LOCK (R32): The PLL locks, the engine switches to ENG, LINK and FLASH clocks start and the state becomes FULL. -/
  | engLock 
  /-- SUBTICK_ALIGN (R41): The first AO tick edge after ENG lock aligns the sub-tick counter, after which chip time carries a valid sub-tick. -/
  | subtickAlign 
  /-- PLL_LOCK_TIMEOUT (R34): ENG has not locked 100 us after PLL enable; FS40 is raised, PLLFAIL set and the device stays AWAKE. -/
  | pllLockTimeout 
  /-- PLL_LOCK_RETRY (R34): Every IDLE AO ticks after a lock failure the device retries the PLL lock. -/
  | pllLockRetry 
  /-- AO_XTAL_LOST (R38): No crystal edge for four RC periods; AO switches to the RC backup, XTALLOST is set and FS40 raised. -/
  | aoXtalLost 
  /-- XTAL_RETURN (R40): The crystal has run 4,096 good periods within tolerance and AO switches back to it at a tick edge. -/
  | xtalReturn 
  /-- PWM_OSC_LOST (R38): The PWM oscillator is out of range; every loop's phases go to mid-level and the loops are reported faulted. -/
  | pwmOscLost 
  /-- GAUGE_OSC_LOST (R250): The GAUGE oscillator is lost; integration stops, CNTINV is set and the anchor discarded. -/
  | gaugeOscLost 
  /-- WAKE_OSC_FAIL (R38): WAKE shows no edge for two AO periods after enable; the device returns to FALLOW and retries. -/
  | wakeOscFail 
  /-- TIMECAP_GO (R43): A write of SYS.TIMECAP.GO captures chip time into the writer's snapshot bank. -/
  | timecapGo (w : Writer)
  /-- CHIP_RESET (R207): A keyed write of SYS.CTRL.CHIPRST performs a chip reset and reruns the boot flow from step 2. -/
  | chipReset (w : Writer) (d : Word)
  /-- RESET_PIN (R207): RESET# is held low for at least 1 us, causing a chip reset. -/
  | resetPin 
  /-- REGISTER_WRITE (R8): A host or row write to a register with no row of its own acts on its writable fields by access code. -/
  | registerWrite (w : Writer) (a : Nat) (d : Word)
  /-- READ (R50): A host READ frame is checked, its word fetched from one instant and returned after wait bytes and the marker. -/
  | read (f : Frame)
  /-- READ_BURST (R55): A host READ_BURST frame returns successive words of a page until the chip select rises. -/
  | readBurst (f : Frame)
  /-- WRITE (R53): A host WRITE frame is checked and, when accepted, applied at the chip-select rise and entered in the Logbook. -/
  | write (f : Frame)
  /-- WRITE_BURST (R53): A host WRITE_BURST frame is checked and, if accepted, its first word is applied at the chip-select rise. -/
  | writeBurst (f : Frame)
  /-- BURST_WORD_APPLY (R53): The next word of an accepted burst is applied once the previous one has been applied. -/
  | burstWordApply 
  /-- STATUS (R59): A host STATUS frame returns the chip-select-specific status word with no wait bytes. -/
  | status (f : Frame)
  /-- ID (R58): A host ID frame returns SYS.ID with no wait bytes. -/
  | id (f : Frame)
  /-- MBOX_OUT_WRITE (R63): A write of HOSTIF.MBOX_OUT places the word in the other processor's MBOX_IN and raises MAILBOX. -/
  | mboxOutWrite (p : Proc) (d : Word)
  /-- MBOX_IN_READ (R63): A read of MBOX_IN clears it and the sender's MBFULL. -/
  | mboxInRead (p : Proc)
  /-- WATCHDOG_ENABLE (R72): A write of WDCTRL.EN = 1 starts the processor's watchdog. -/
  | watchdogEnable (p : Proc) (d : Word)
  /-- WATCHDOG_KICK (R73): A write of WDKICK restarts the count for key 0x5A5A or counts as an expiry otherwise. -/
  | watchdogKick (p : Proc) (d : Word)
  /-- WATCHDOG_WARN (R73): The watchdog count reaches WARNPCT of the period and WARN is set and signalled. -/
  | watchdogWarn (p : Proc)
  /-- WATCHDOG_EXPIRE (R73): The watchdog period expires; EXPIRED is set, EXPCNT incremented, FS41 or FS42 raised and the count restarted. -/
  | watchdogExpire (p : Proc)
  /-- PLAN_ROW_LOWER_WRITE (R70): A host write to the lower word of a plan row is held in the chip select's staging register. -/
  | planRowLowerWrite (p : Proc) (r : Fin 16384) (d : Word)
  /-- PLAN_ROW_UPPER_WRITE (R70): A host write to the upper word of a plan row stores the whole row with new check bits and sets PATCHED. -/
  | planRowUpperWrite (p : Proc) (r : Fin 16384) (d : Word)
  /-- NOP (R86): A NOP row issues and does nothing. -/
  | nop (t : Fin 16) (ecc : Ecc)
  /-- ILLEGAL_ROW (R79): A row with a reserved opcode, condition or operand faults its thread at decode and raises FS33. -/
  | illegalRow (t : Fin 16)
  /-- JMP (R86): A JMP row sets the PC to the target. -/
  | jmp (t : Fin 16)
  /-- CALL (R88): A CALL row pushes PC + 1 and jumps, faulting at SP = 4. -/
  | call (t : Fin 16)
  /-- RET (R88): A RET row pops the PC, faulting at SP = 0. -/
  | ret (t : Fin 16)
  /-- DBNZ (R86): A DBNZ row decrements a register and branches if the result is non-zero. -/
  | dbnz (t : Fin 16)
  /-- HALT (R86): A HALT row advances the PC and halts the thread. -/
  | halt (t : Fin 16)
  /-- START (R97): A START row starts a HALTED or FAULT thread at the target. -/
  | start (t : Fin 16)
  /-- STOP (R97): A STOP row halts the named thread at its next row boundary. -/
  | stop (t : Fin 16)
  /-- JMPX (R87): A JMPX row jumps to the target plus a register, faulting when out of range. -/
  | jmpx (t : Fin 16)
  /-- MOV (R86): A MOV row loads a register from B. -/
  | mov (t : Fin 16)
  /-- LDH (R86): An LDH row loads the upper half of a register. -/
  | ldh (t : Fin 16)
  /-- ADD (R87): An ADD row adds B to a register and sets flags. -/
  | add (t : Fin 16)
  /-- SUB (R87): A SUB row subtracts B from a register and sets flags. -/
  | sub (t : Fin 16)
  /-- CMP (R87): A CMP row compares a register with B and sets flags. -/
  | cmp (t : Fin 16)
  /-- AND (R86): An AND row ANDs B into a register. -/
  | and (t : Fin 16)
  /-- OR (R86): An OR row ORs B into a register. -/
  | or (t : Fin 16)
  /-- XOR (R86): An XOR row XORs B into a register. -/
  | xor (t : Fin 16)
  /-- TST (R86): A TST row ANDs a register with B and sets flags only. -/
  | tst (t : Fin 16)
  /-- SHL (R87): An SHL row shifts a register left. -/
  | shl (t : Fin 16)
  /-- SHR (R87): An SHR row shifts a register right logically. -/
  | shr (t : Fin 16)
  /-- ASR (R87): An ASR row shifts a register right arithmetically. -/
  | asr (t : Fin 16)
  /-- MUL (R87): A MUL row forms a saturating unsigned product over four cycles. -/
  | mul (t : Fin 16)
  /-- DIV (R87): A DIV row forms an unsigned quotient over 18 cycles. -/
  | div (t : Fin 16)
  /-- ADDS (R87): An ADDS row adds with unsigned saturation. -/
  | adds (t : Fin 16)
  /-- SUBS (R87): A SUBS row subtracts with saturation at 0. -/
  | subs (t : Fin 16)
  /-- MIN (R87): A MIN row takes the unsigned minimum. -/
  | min (t : Fin 16)
  /-- MAX (R87): A MAX row takes the unsigned maximum. -/
  | max (t : Fin 16)
  /-- LD (R89): An LD row loads a word from the register space after its domain latency. -/
  | ld (t : Fin 16)
  /-- ST (R90): An ST row posts a store to the register space. -/
  | st (t : Fin 16)
  /-- STORE_APPLY (R90): A posted store reaches its target register within its domain latency. -/
  | storeApply (t : Fin 16)
  /-- SYNC (R90): A SYNC row keeps the thread busy until all its stores are applied. -/
  | sync (t : Fin 16)
  /-- ROW_COMPLETE (R81): A multi-cycle row completes and its busy thread becomes ready again. -/
  | rowComplete (t : Fin 16) (ecc : Ecc)
  /-- SEMGET (R98): A SEMGET row takes a free semaphore or sets C. -/
  | semget (t : Fin 16)
  /-- SEMPUT (R98): A SEMPUT row releases a semaphore held by the thread. -/
  | semput (t : Fin 16)
  /-- WAIT (R92): A WAIT row waits level-sensitively on selected block events with an optional timeout. -/
  | wait (t : Fin 16)
  /-- WAIT_EVENT_END (R92): A selected block event becomes present and the waiting thread resumes with the event mask in W7. -/
  | waitEventEnd (t : Fin 16)
  /-- WAITP (R94): A WAITP row waits until any selected post flag is set. -/
  | waitp (t : Fin 16)
  /-- WAITP_END (R94): A waited post flag becomes visible; the first waiting thread consumes it and resumes. -/
  | waitpEnd (t : Fin 16)
  /-- WAIT_TIMEOUT (R93): The B-th AO tick edge after a WAIT or WAITP arrives and the wait ends with C set. -/
  | waitTimeout (t : Fin 16)
  /-- POST (R94): A POST row sets post flags. -/
  | post (t : Fin 16)
  /-- HOST_POST_SET (R94): A host write to the SET alias of PLAN.POST sets post flags. -/
  | hostPostSet (p : Proc) (d : Word)
  /-- DLY (R95): A DLY row keeps the thread busy for A microseconds. -/
  | dly (t : Fin 16)
  /-- DLY_END (R95): A DLY delay expires and the thread becomes ready. -/
  | dlyEnd (t : Fin 16)
  /-- SIGNAL (R86): A SIGNAL row stores SIGDATAn and sets PLAN_SIGNALn pending. -/
  | signal (t : Fin 16)
  /-- TCAP (R43): A TCAP row captures chip time into the plan bank and two registers. -/
  | tcap (t : Fin 16)
  /-- LOG (R86): A LOG row posts an Almanac entry with code, data, thread and chip time. -/
  | log (t : Fin 16)
  /-- RAISE (R99): A RAISE row raises a fault source with its programmed reaction set. -/
  | raise (t : Fin 16)
  /-- LRES (R310): An LRES row asks the ledger to reserve power for a point. -/
  | lres (t : Fin 16)
  /-- LCOM (R311): An LCOM row commits a reservation and optionally sends a Forecast. -/
  | lcom (t : Fin 16)
  /-- LREL (R313): An LREL row releases a point's ledger record. -/
  | lrel (t : Fin 16)
  /-- LSHED (R315): An LSHED row runs a shed-scan freeing committed power lowest priority first. -/
  | lshed (t : Fin 16)
  /-- LSEND (R286): An LSEND row enqueues a descriptor image for a point after checks. -/
  | lsend (t : Fin 16) (ecc : List Ecc)
  /-- RAIL (R196): A RAIL row makes an off, on or query request on a rail-table slot. -/
  | rail (t : Fin 16)
  /-- THCMD_HALT (R100): A host THCMD HALT halts a running or waiting thread. -/
  | thcmdHalt (p : Proc) (t : Fin 16)
  /-- THCMD_START (R100): A host THCMD START starts a halted or faulted thread at a given PC. -/
  | thcmdStart (p : Proc) (t : Fin 16) (pc : BitVec 14)
  /-- THCMD_RESUME (R100): A host THCMD RESUME resumes a thread at its present PC. -/
  | thcmdResume (p : Proc) (t : Fin 16)
  /-- THCMD_STEP (R100): A host THCMD STEP executes one row of a halted thread. -/
  | thcmdStep (p : Proc) (t : Fin 16)
  /-- THREAD_REG_WRITE (R101): A write to PLAN.THWn_m changes the register only while the thread is HALTED or FAULT. -/
  | threadRegWrite (w : Writer) (n : Fin 16) (m : Fin 8) (d : Word)
  /-- WLOCK_SET (R102): A write of PLAN.CTRL.WLOCK = 1 makes the plan window read-only until chip reset. -/
  | wlockSet (w : Writer)
  /-- SEM_RELEASE (R98): A host write to the CLR alias of PLAN.SEM releases semaphores. -/
  | semRelease (p : Proc) (d : Word)
  /-- PLAN_LOAD_OTP (R107): A write of PLAN.LOAD with SRC 1 starts a load of the OTP boot plan. -/
  | planLoadOtp (w : Writer)
  /-- PLAN_LOAD_PLAN_A (R107): A write of PLAN.LOAD with SRC 2 starts a load from the PLAN_A partition. -/
  | planLoadPlanA (w : Writer)
  /-- PLAN_LOAD_PLAN_B (R107): A write of PLAN.LOAD with SRC 3 starts a load from the PLAN_B partition. -/
  | planLoadPlanB (w : Writer)
  /-- LOAD_THREADS_HALTED (R107): All busy rows have completed and the load proceeds to read the header. -/
  | loadThreadsHalted 
  /-- LOAD_HEADER_READ (R106): The flash image header has been read and checked. -/
  | loadHeaderRead (ok : Bool)
  /-- LOAD_PASS1_DONE (R106): Pass 1 streaming ends with BCRC, class and IMAGE entries checked. -/
  | loadPass1Done (ok : Bool) (o : OtpSense)
  /-- LOAD_PASS2_DONE (R107): Pass 2 ends; rows are written, threads reset, load status set and T0 started, or the OTP fallback is loaded. -/
  | loadPass2Done (ok : Bool) (same : Bool)
  /-- OTP_PLAN_HEADER_READ (R103): The boot-plan header word is read and judged. -/
  | otpPlanHeaderRead (o : OtpSense)
  /-- OTP_PLAN_READ_DONE (R103): All PLAN region words have been read into staging and the closing word checked. -/
  | otpPlanReadDone (o : OtpSense)
  /-- OTP_PLAN_WRITE_DONE (R107): The staged boot-plan rows are written to plan memory and the plan starts. -/
  | otpPlanWriteDone 
  /-- PHASE_ASSIGN_WRITE (R112): A write to PHASE.ASSIGNk changes a phase's loop or role, or is refused under R113. -/
  | phaseAssignWrite (w : Writer) (k : Fin 16) (d : Word)
  /-- LOOP_ON_REQUEST (R197): A write of LOOPn.CTRL.EN = 1 is an on request for slot n. -/
  | loopOnRequest (w : Writer) (n : Fin 4) (d : Word)
  /-- LOOP_OFF_REQUEST (R197): A write of LOOPn.CTRL.EN = 0 is an off request for slot n. -/
  | loopOffRequest (w : Writer) (n : Fin 4) (d : Word)
  /-- LOOP_START_COMPLETE (R122): The reference reaches the target with VOUT in window and the loop enters RUN with PGOOD set. -/
  | loopStartComplete (n : Fin 4) (vout : Nat)
  /-- TARGET_WRITE (R121): A write to LOOPn.TARGET latches the slew rate and starts the reference moving. -/
  | targetWrite (w : Writer) (n : Fin 4) (d : Word)
  /-- SLEW_DONE (R121): The reference reaches the latest target and SLEWDONE is set. -/
  | slewDone (n : Fin 4)
  /-- SOFTOFF_DONE (R122): The soft-off reference reaches 0 V and the loop enters OFF. -/
  | softoffDone (n : Fin 4)
  /-- PERIOD_START (R131): A loop period starts; add and shed are evaluated, role changes and re-spreads take effect. -/
  | periodStart (n : Fin 4) (vout : Nat) (ms : List PhaseMeas)
  /-- SHED_COMMIT (R131): A SHED_PEND phase's commit window ends at its slot start and the shed commits. -/
  | shedCommit (k : Fin 16)
  /-- PHASE_ADDED (R131): An ADD_PEND phase reaches its slot start in the new layout and switches. -/
  | phaseAdded (k : Fin 16)
  /-- SHED_INHIBIT_END (R131): The shed inhibit time expires and INHIBIT clears. -/
  | shedInhibitEnd (n : Fin 4)
  /-- BURST_ENTRY (R129): The loop's current stays below ENTER for 64 periods at MINPH and the loop enters BURST. -/
  | burstEntry (n : Fin 4)
  /-- BURST_TICK (R129): A burst tick wakes the lead phase, which pulses if VOUT is low, and exit conditions are judged. -/
  | burstTick (n : Fin 4) (vout : Nat)
  /-- GUST_TRIP (R133): VOUT falls below the Gust threshold for FILT cycles and shed phases return. -/
  | gustTrip (n : Fin 4) (vout : Nat)
  /-- PHASE_CURRENT_LIMIT (R135): A phase reaches ILIM, ending its on-time and counting the event. -/
  | phaseCurrentLimit (k : Fin 16) (t : Nat) (uv : Int)
  /-- LOOP_OC_FAULT (R137): Phases reach ILIM in OCCYC consecutive periods and the loop fault with cause OC is raised. -/
  | loopOcFault (n : Fin 4) (vout : Nat)
  /-- NEGATIVE_CURRENT_LIMIT (R136): A phase's current falls below the negative limit and it goes to mid-level for the period. -/
  | negativeCurrentLimit (k : Fin 16) (uv : Int)
  /-- OV_CROWBAR (R138): VOUT exceeds the OV threshold for 200 ns; the loop crowbars and raises its fault with cause OV. -/
  | ovCrowbar (n : Fin 4) (vout : Nat)
  /-- CROWBAR_RELEASE (R139): EN has been written 0 and VOUT is below 10 % of target, so the crowbar releases to OFF. -/
  | crowbarRelease (n : Fin 4) (vout : Nat)
  /-- LOOP_UV_FAULT (R140): VOUT stays below the UV threshold for UVFILT and the loop raises its UV fault and adds phases. -/
  | loopUvFault (n : Fin 4) (vout : Nat)
  /-- LOOP_PGOOD_LOST (R125): VOUT leaves the PGOOD window and PGOOD falls. -/
  | loopPgoodLost (n : Fin 4) (vout : Nat)
  /-- STAGE_FAULT (R141): SFLT# is low for 100 ns; FS14 is raised and last-fault records captured. -/
  | stageFault 
  /-- SYNC_LOCK (R127): The PWM oscillator locks to SYNCI and SYNCLOCK is set. -/
  | syncLock (per : Nat)
  /-- SYNC_LOSS (R127): SYNCI goes missing or out of range; SYNCLOCK clears and the trim is held. -/
  | syncLoss 
  /-- PROBE_GO (R149): A write of HEALTH.PROBE.GO starts or refuses a probe of a loop. -/
  | probeGo (w : Writer) (n : Fin 4) (meas : BitVec 5)
  /-- PROBE_ABORT (R152): A write of HEALTH.PROBE.ABORT aborts the running probe with cause USER. -/
  | probeAbort (w : Writer)
  /-- PROBE_MEAS_DONE (R151): One probe quantity completes its measurement and the next begins. -/
  | probeMeasDone (m : Measured)
  /-- REBASE (R154): A write of HEALTH.CTRL.REBASE marks a loop's baseline for recapture and clears its proposal. -/
  | rebase (w : Writer) (d : Word)
  /-- HEALTH_APPLY (R162): A write of HEALTH.APPLY applies, defers or refuses the loop's proposal. -/
  | healthApply (w : Writer) (d : Word)
  /-- HEALTH_DUE (R165): A loop's probe schedule or confirmation delay expires and its DUE bit is set. -/
  | healthDue (n : Fin 4)
  /-- RAIL_WINDOW_CHANGE (R177): An integrated rail enters or leaves its window, feeding its slot's qualification. -/
  | railWindowChange (k : Fin 6) (mv : Nat)
  /-- VMON_WINDOW_CHANGE (R180): VMONn enters or leaves its window after its deglitch, feeding its slot. -/
  | vmonWindowChange (n : Fin 8) (mv : Nat)
  /-- REGULATOR_FAULT (R178): A buck or LDO fault cause is met; the cause is recorded, its fault raised and a record captured. -/
  | regulatorFault (k : Fin 6) (cause : Nat) (vout : Nat) (vin : Nat)
  /-- ADC_SCAN_START (R186): The ADC scan period expires and a scan starts. -/
  | adcScanStart 
  /-- ADC_SCAN_GO (R186): A write of SCANCFG.GO starts a one-shot scan. -/
  | adcScanGo (w : Writer) (d : Word)
  /-- ADC_SCAN_DONE (R186): A scan completes, values are stored and cross-check disagreements counted. -/
  | adcScanDone (xs : List AdcSample)
  /-- ADC_SELFTEST_DONE (R187): Both converters' self-test conversions complete and a converter may be retired. -/
  | adcSelftestDone (a b : Nat × Nat)
  /-- GPIO_EDGE (R190): A GPIO edge that matches its WAKE setting sets its event and wakes the device. -/
  | gpioEdge (k : Fin 12) (level : Bool)
  /-- SLOT_ON_REQUEST (R196): A write of SEQ.REQ with ON = 1 makes an on request for a slot. -/
  | slotOnRequest (w : Writer) (k : Fin 32)
  /-- SLOT_OFF_REQUEST (R199): A write of SEQ.REQ with ON = 0 makes an off request and may start a power-down run. -/
  | slotOffRequest (w : Writer) (k : Fin 32)
  /-- SEQ_DOWN (R199): A write of SEQ.DOWN starts a power-down run of the masked slots and their dependents. -/
  | seqDown (w : Writer) (d : Word)
  /-- SLOT_QUALIFIED (R193): A slot's qualification count reaches QUAL and the slot becomes GOOD, releasing waiting dependents. -/
  | slotQualified (k : Fin 32)
  /-- SLOT_START_TIMEOUT (R193): A slot's start timer reaches TSTART and it fails with cause TIMEOUT. -/
  | slotStartTimeout (k : Fin 32)
  /-- SLOT_DISCHARGED (R193): A stopping slot falls below its discharge threshold and reaches OFF. -/
  | slotDischarged (k : Fin 32) (mv : Nat)
  /-- SLOT_DISCHARGE_TIMEOUT (R193): A stopping slot's discharge timer expires; the pull-down is forced and FS21 raised. -/
  | slotDischargeTimeout (k : Fin 32)
  /-- SLOT_PEND_DUE (R198): MINOFF has passed since a slot with PEND reached OFF and the latched on request is handled. -/
  | slotPendDue (k : Fin 32)
  /-- SLOT_DEP_WRITE (R201): A write to SEQ.SLOTkDEP is stored or refused as BUSY or CYCLE. -/
  | slotDepWrite (w : Writer) (k : Fin 32) (d : Word)
  /-- VSYS_COLLAPSE_WARN (R204): VSYS stays below VCW for 5 us; FS2 is raised and the first-failure capture fires if armed. -/
  | vsysCollapseWarn (vsys : Nat)
  /-- FIRSTFAIL_REARM (R204): VSYS has stayed above VCW + HYST with no GOOD slot lost for REARM ms and the capture re-arms. -/
  | firstfailRearm (vsys : Nat) (since : Nat)
  /-- FFARM_WRITE (R204): A write of SEQ.CTRL.FFARM re-arms the first-failure capture at once. -/
  | ffarmWrite (w : Writer)
  /-- VIN_UV (R205): VIN falls below 7.5 V and FS0 is raised. -/
  | vinUv (vin : Nat)
  /-- VIN_OV (R340): VIN exceeds 38 V for 10 us and FS1 is raised. -/
  | vinOv (vin : Nat)
  /-- VHOLD_LOW (R340): VHOLD falls below VHOLD_MIN for 10 us after being armed and FS3 is raised. -/
  | vholdLow (vhold : Nat)
  /-- COLLAPSE_RELEASE (R206): VIN stays below 7.0 V for 1 us and every output is released without order. -/
  | collapseRelease (vin : Nat)
  /-- VAC_WINDOW_CHANGE (R213): VAC crosses a window or band bound and the hand-over state machine reacts. -/
  | vacWindowChange (vac : Nat)
  /-- VAC_QUALIFIED (R221): VAC has stayed in the qualification band for VACQUAL and the path enters RECONNECT. -/
  | vacQualified 
  /-- RECONNECT_BATDRV_OFF (R224): 20 us after boost restart from a closed bypass, BATDRV opens and the ACDRV ramp starts. -/
  | reconnectBatdrvOff 
  /-- RECONNECT_COMPLETE (R224): The ACDRV ramp completes with VAC in window and the path enters SOURCE. -/
  | reconnectComplete 
  /-- DETECT_TIMEOUT (R221): 50 us in DETECT expire; ACDRV goes off, FS22 is raised and the path moves to BRIDGE or QUALIFY. -/
  | detectTimeout 
  /-- BRIDGE_SETTLED (R221): VSYS has held within 2 % of VSYSHOLD for BRIDGET and the path enters ON_BATTERY. -/
  | bridgeSettled (vsys : Nat)
  /-- BYPASS_CLOSE (R225): VSYS falls below VBAT - 0.2 V for 2 us and BATDRV closes. -/
  | bypassClose (vsys : Nat) (vbat : Nat)
  /-- REVERSE_CURRENT_BLOCK (R215): Reverse input current or VAC below VSYS for 200 ns turns ACDRV off. -/
  | reverseCurrentBlock 
  /-- REVERSE_BLOCK_RELEASE (R215): VAC exceeds VSYS by 100 mV for 10 us in SOURCE or DETECT and ACDRV turns back on. -/
  | reverseBlockRelease (vac : Nat) (vsys : Nat)
  /-- INPUT_TRIP (R216): Input current exceeds TRIP % of MA for 20 us; ACDRV goes off and the path enters DETECT. -/
  | inputTrip (iin : Nat)
  /-- SUPPLEMENT_START (R218): u stays below -0.2 A for 10 us and the half-bridge supplements VSYS or INREG is set. -/
  | supplementStart (x : HbSample)
  /-- SUPPLEMENT_END (R218): u has stayed above 0 for 1 ms and supplement ends. -/
  | supplementEnd (x : HbSample)
  /-- INPUT_SATURATED (R218): The input has been held above MA for 1 ms without supplement and INSAT is set. -/
  | inputSaturated (x : HbSample)
  /-- BOUNCE_CLEAR (R223): The path has stayed 1 s in SOURCE and the bounce count clears. -/
  | bounceClear 
  /-- INEN_WRITE (R222): A write of PATH.CTRL.INEN arms or disarms the input connection. -/
  | inenWrite (w : Writer) (d : Word)
  /-- HOEN_WRITE (R222): A write of PATH.CTRL.HOEN arms or disarms hand-over to the battery. -/
  | hoenWrite (w : Writer) (d : Word)
  /-- BATGO (R226): A write of PATH.CTRL.BATGO enters BRIDGE or releases the bypass, or is latched pending. -/
  | batgo (w : Writer) (d : Word)
  /-- CHGEN_ON (R232): A write of CHGEN = 1 starts the charger or latches CHGPEND. -/
  | chgenOn (w : Writer) (d : Word)
  /-- CHGEN_OFF (R228): A write of CHGEN = 0 ramps the charge current down through STOPPING. -/
  | chgenOff (w : Writer) (d : Word)
  /-- TRST (R231): A host write of PATH.CTRL.TRST takes the charger out of TIMEOUT. -/
  | trst (p : Proc) (d : Word)
  /-- CHARGE_RESUME (R228): The charge conditions come to hold and the charger leaves WAIT for the phase VBAT selects. -/
  | chargeResume (vbat : Nat)
  /-- CHARGE_PHASE_ADVANCE (R228): VBAT crosses a phase threshold for 1 s or reaches VREG and the charger advances a phase. -/
  | chargePhaseAdvance (vbat : Nat)
  /-- CHARGE_TERMINATED (R228): The current stays below TERM for TERMDLY in CV and the charger enters DONE. -/
  | chargeTerminated (ma : Nat)
  /-- RECHARGE (R228): VBAT stays below VREG - RECHG for 10 s in DONE and the charger returns to CC. -/
  | recharge (vbat : Nat)
  /-- CHARGE_TIMEOUT (R231): A charge safety timer expires; the charger enters TIMEOUT and FS24 is raised. -/
  | chargeTimeout 
  /-- CHARGER_STOPPED (R228): The charge current reaches 0 in STOPPING and the charger enters OFF. -/
  | chargerStopped 
  /-- CHARGER_PEND_DUE (R232): MINOFF has passed with CHGPEND set and the charger re-enables. -/
  | chargerPendDue 
  /-- CHARGER_HW_LIMIT (R233): A charger hardware limit triggers and stops one direction, raising FS25. -/
  | chargerHwLimit (cause : Fin 6) (v : Nat)
  /-- CHARGER_LIMIT_RELEASE (R233): A charger hardware limit's release condition is met and its direction returns to service. -/
  | chargerLimitRelease (cause : Fin 6) (v : Nat)
  /-- PRESENCE_TEST_START (R234): A due presence test starts sinking 20 mA from VBAT once its conditions hold. -/
  | presenceTestStart 
  /-- PRESENCE_TEST_DONE (R234): A presence test's 20 ms end and the battery is judged present or absent. -/
  | presenceTestDone (vbat : Nat)
  /-- BATTERY_PRESENT (R234): VBAT has stood at or above 7.0 V for 100 ms and the battery becomes present. -/
  | batteryPresent (vbat : Nat)
  /-- BATTERY_ABSENT (R234): VBAT has stood below 6.0 V for 10 ms; the battery becomes absent and FS26 is raised. -/
  | batteryAbsent (vbat : Nat)
  /-- GAUGE_EN_WRITE (R241): A write of GAUGE.CTRL.EN starts or freezes gauge counting. -/
  | gaugeEnWrite (w : Writer) (d : Word)
  /-- AZGO (R241): A write of GAUGE.CTRL.AZGO starts an auto-zero at once. -/
  | azgo (w : Writer) (d : Word)
  /-- STOREGO (R253): A write of GAUGE.CTRL.STOREGO triggers a gauge slot write. -/
  | storego (w : Writer) (d : Word)
  /-- RELEARN_WRITE (R245): A write of GAUGE.CTRL.RELEARN marks capacity for re-learning. -/
  | relearnWrite (w : Writer) (d : Word)
  /-- AUTOZERO_START (R240): AZPER expires and the converter shorts its inputs for an 8 ms auto-zero. -/
  | autozeroStart 
  /-- AUTOZERO_DONE (R240): The 8 ms auto-zero ends, the offset is updated and the mode returns. -/
  | autozeroDone (meas : Int)
  /-- GAUGE_UPDATE (R247): A gauge update falls due; charge is added and RM, SOC, ENERGY, flags, rests and learning are processed. -/
  | gaugeUpdate (counts : Int) (ms : Nat)
  /-- GAUGE_WAKE_ACTIVE (R241): The 1 ms mean current reaches twice ISLEEP in QUIET; the gauge returns to ACTIVE with an immediate update. -/
  | gaugeWakeActive (ma : Int) (counts : Int) (ms : Nat)
  /-- GAUGE_SAMPLE (R242): The auxiliary converter samples VBAT and the cell temperature. -/
  | gaugeSample (uv : Nat) (temp : Int) (ms : Nat)
  /-- IMPEDANCE_UPDATE (R246): VBAT is sampled 20 ms after a current step and the pack resistance is updated. -/
  | impedanceUpdate (dv : Int) (di : Int)
  /-- PROVE_GO (R252): A write of PROVE.GO starts or refuses a proving discharge. -/
  | proveGo (w : Writer) (d : Word)
  /-- PROVE_ABORT (R252): A write of PROVE.ABORT ends the proving run with cause ABORT. -/
  | proveAbort (w : Writer) (d : Word)
  /-- GAUGE_STORE_PERIODIC (R253): STORE.PERIOD hours expire and a gauge slot write is triggered. -/
  | gaugeStorePeriodic 
  /-- GAUGE_STORE_DONE (R253): A gauge slot write completes and verifies, or fails with FS28. -/
  | gaugeStoreDone 
  /-- GAUGE_STORE_RETRY (R253): 10 s after a failed store the gauge retries the slot write. -/
  | gaugeStoreRetry 
  /-- FCC_WRITE (R258): A write of GAUGE.FCC sets FCC and rescales RM. -/
  | fccWrite (w : Writer) (d : Word)
  /-- RM_WRITE (R258): A write of GAUGE.RM sets RM and recomputes SOC. -/
  | rmWrite (w : Writer) (d : Word)
  /-- DESIGN_MAH_WRITE (R255): A write of DESIGN.MAH while FCC is 0 sets FCC from it. -/
  | designMahWrite (w : Writer) (d : Word)
  /-- LINK_ENABLE (R276): A write of LINKn.CTRL.EN = 1 enables the port, releases its ledger records and resets its entries, or is refused. -/
  | linkEnable (w : Writer) (n : Fin 8) (d : Word)
  /-- LINK_DISABLE (R276): A write of LINKn.CTRL.EN = 0 completes the transaction, sends the shed set, flushes queues and releases the line. -/
  | linkDisable (w : Writer) (n : Fin 8) (d : Word)
  /-- LINK_TRANSACTION_START (R291): At the end of a gap the port starts the highest-ranked pending transaction, checking stamps and latches at dequeue. -/
  | linkTransactionStart (n : Fin 8)
  /-- FRAME_SENT (R288): A NOREPLY frame or train ends; descriptors complete SENT and shed verification polls are queued. -/
  | frameSent (n : Fin 8)
  /-- STATUS_REPLY (R293): A valid STATUS reply is received and the point entry, masks, faults, shed verification and draw are updated. -/
  | statusReply (n : Fin 8) (epoch : Fin 16) (query : Bool) (payload : List Byte)
  /-- ACK_REPLY (R274): A valid ACK is received and the descriptor completes, adopting role and epoch after ROLE. -/
  | ackReply (n : Fin 8) (epoch : Fin 16) (out : Fin 8)
  /-- NAK_REPLY (R288): A NAK is received and the descriptor completes with the reason. -/
  | nakReply (n : Fin 8) (epoch : Fin 16) (reason : Fin 256)
  /-- NAK_EPOCH_REPLY (R283): A NAK_EPOCH is received; the point is re-arrived or released with FS30. -/
  | nakEpochReply (n : Fin 8) (epoch : Fin 16)
  /-- DATA_REPLY (R288): A DATA reply is received and its payload stored in the descriptor. -/
  | dataReply (n : Fin 8) (epoch : Fin 16) (query : Bool) (payload : List Byte)
  /-- IDENT_R_REPLY (R274): A valid IDENT_R is received and the point arrives as NEW. -/
  | identRReply (n : Fin 8) (epoch : Fin 16) (vendor : BitVec 16) (model : BitVec 16) (serial : Word)
  /-- BAD_REPLY (R269): An invalid, stale or unexpected reply is received and is retried or completes the descriptor. -/
  | badReply (n : Fin 8) (bad : BadReply)
  /-- REPLY_TIMEOUT (R269): No reply SD arrives by the timeout; the request is retried or a miss counted. -/
  | replyTimeout (n : Fin 8)
  /-- LINE_ALERT (R278): A low of 10 us outside a frame is an alert and an alert poll is queued. -/
  | lineAlert (n : Fin 8)
  /-- ALERT_POLL_SLOTS_DONE (R278): The 64 alert-poll slots are sampled and follow-up polls queued. -/
  | alertPollSlotsDone (n : Fin 8) (lo : Word) (hi : Word)
  /-- LINK_COLLISION (R270): Read-back differs from the driven level; the device stops driving, counts a collision and resends. -/
  | linkCollision (n : Fin 8)
  /-- LINK_STUCK (R295): The line stays low for 200 us outside a frame and FS29 STUCK is raised. -/
  | linkStuck (n : Fin 8)
  /-- SCAN_ROUND_START (R292): The scan period elapses and a round starts, or an overrun is counted. -/
  | scanRoundStart (n : Fin 8)
  /-- SHEDMASK_SET (R289): A write to a SHEDMASK SET alias queues urgent SHED frames and may abandon a lower-rank frame. -/
  | shedmaskSet (w : Writer) (n : Fin 8) (m : Fin 2) (mask : Word)
  /-- GRANT_LATCH_DUE (R290): MINOFF has passed since TOFF and the latched GRANT is sent at rank 5 or dropped as stale. -/
  | grantLatchDue (n : Fin 8) (a : Fin 64)
  /-- HOSTPUSH (R286): A write of LINKn.HOSTPUSH queues the host descriptor image or refuses it. -/
  | hostpush (w : Writer) (n : Fin 8) (d : Word)
  /-- DESCRIPTOR_WRITE (R287): A write to a queue descriptor changes or frees it only while FREE or DONE. -/
  | descriptorWrite (w : Writer) (n : Fin 8) (q : Fin 8) (i : Fin 16) (j : Fin 4) (d : Word)
  /-- LEDGER_OP_DEQUEUE (R18): A ledger operation waiting behind another takes the ledger and reads its values. -/
  | ledgerOpDequeue 
  /-- HOSTOP_LRES (R316): A host HOSTOP LRES reserves power for a point. -/
  | hostopLres (w : Writer) (point : BitVec 9) (b : BitVec 3)
  /-- HOSTOP_LCOM (R316): A host HOSTOP LCOM commits a reservation with an optional Forecast. -/
  | hostopLcom (w : Writer) (point : BitVec 9) (b : BitVec 3)
  /-- HOSTOP_LREL (R316): A host HOSTOP LREL releases a point's record. -/
  | hostopLrel (w : Writer) (point : BitVec 9) (b : BitVec 3)
  /-- HOSTOP_LSHED (R316): A host HOSTOP LSHED runs a shed-scan. -/
  | hostopLshed (w : Writer) (point : BitVec 9) (b : BitVec 3)
  /-- RESERVATION_TIMEOUT (R314): A reservation stays RESERVED for RESTO and is released at the next AO tick. -/
  | reservationTimeout (gp : Fin 512)
  /-- FORECAST_HOLD_END (R312): A loop's Forecast hold expires; FCMW and the loop's FCAST clear. -/
  | forecastHoldEnd (n : Fin 4)
  /-- THERMAL_SAMPLE (R327): The thermal converter samples every sensor; levels, cross-checks and open or short faults are judged. -/
  | thermalSample (die : List Int) (ends : Nat) (td : List TdReading)
  /-- DIE_SHUTDOWN (R334): A die SHUT comparator trips for 20 us and the device releases all outputs and halts threads. -/
  | dieShutdown (k : Fin 8)
  /-- SHUTDOWN_RECORD_WRITTEN (R335): The SHUTDOWN record write completes and the device enters the thermal hold. -/
  | shutdownRecordWritten 
  /-- THAW_AUTO (R336): Every die position has stayed below SHUT - HSHUT for DLY in AUTO and the device thaws. -/
  | thawAuto 
  /-- THAW_KEY (R336): A write of 0x7A4E to THAW.KEY while the condition holds thaws the device. -/
  | thawKey (w : Writer) (d : Word)
  /-- RECENT_THAW_EXPIRE (R336): An automatic Thaw leaves the 3,600 s window and RECENT falls. -/
  | recentThawExpire 
  /-- FAULT_ENDED (R347): A level source's condition ends, or an event source's raise cycle passes, and the Lull starts if AUTO. -/
  | faultEnded (k : Fin 48)
  /-- LULL_EXPIRE (R348): A source's Lull timer expires and a recovery is counted, sending it to IDLE or SQUALL. -/
  | lullExpire (k : Fin 48)
  /-- FAULT_CLEAR (R349): A write of FAULT.CLEAR0 or CLEAR1 clears sources whose conditions allow. -/
  | faultClear (w : Writer) (i : Fin 2) (d : Word)
  /-- REACT_WRITE (R342): A write to FAULT.REACTk re-routes notification and flag and may move the source by AUTO. -/
  | reactWrite (w : Writer) (k : Fin 48) (d : Word)
  /-- HISTORY_CLEAR (R351): A host write of FAULT.CTRL.HCLR empties the history ring. -/
  | historyClear (p : Proc)
  /-- EXT_FAULT_IN (R354): The external fault input stands active or inactive for DEGL and FS44's condition begins or ends. -/
  | extFaultIn (active : Bool)
  /-- EXTIN_WRITE (R354): A write of FAULT.EXTIN ends FS44's condition and rejudges the input. -/
  | extinWrite (w : Writer) (d : Word)
  /-- INTC_SOURCE_EDGE (R357): An interrupt source input changes and its pending bit and outputs follow. -/
  | intcSourceEdge (i : Fin 96)
  /-- PEND_CLEAR (R357): A write clearing a pending bit lowers it and shuts its hold-off group. -/
  | pendClear (w : Writer) (i : Fin 4) (mask : Word)
  /-- NMIPEND_CLEAR (R359): A write clearing an NMIPEND bit releases the NMI output. -/
  | nmipendClear (w : Writer) (i : Fin 2) (mask : Word)
  /-- INTC_CFG_WRITE (R361): A write to INTC CFGk changes sensing, clearing pending, or moves the source's target. -/
  | intcCfgWrite (w : Writer) (k : Fin 96) (d : Word)
  /-- HOLDOFF_REOPEN (R360): A shut group's TICKS count expires and the group reopens, presenting pending members. -/
  | holdoffReopen (g : Fin 8)
  /-- RECORD_READPAGE (R373): RECORD.CMD READPAGE copies a logical page into the buffer. -/
  | recordReadpage (w : Writer) (page : BitVec 8)
  /-- RECORD_TAILS (R378): RECORD.CMD TAILS copies the newest Almanac and Logbook entries to record flash. -/
  | recordTails (w : Writer)
  /-- RECORD_SDWRITE (R373): RECORD.CMD SDWRITE writes an orderly SHUTDOWN record. -/
  | recordSdwrite (w : Writer) (reason : BitVec 8)
  /-- RECORD_TRIG (R376): RECORD.CMD TRIG issues an Almanac trigger. -/
  | recordTrig (w : Writer)
  /-- RECORD_RESUME (R376): RECORD.CMD RESUME returns a HELD Almanac to RUN. -/
  | recordResume (w : Writer)
  /-- ALMANAC_FREEZE (R376): POST entries are written or POSTMS elapses and the Almanac freezes and starts its copies. -/
  | almanacFreeze 
  /-- FREEZE_COPY_DONE (R378): The freeze copies complete and the Almanac resumes or is held. -/
  | freezeCopyDone 
  /-- RECORD_PROGRAM_DONE (R369): A record-flash program completes and is verified, retried or remapped, and the next record work starts. -/
  | recordProgramDone (ok : Bool)
  /-- RECORD_ERASE_DONE (R370): A record-flash page erase completes. -/
  | recordEraseDone 
  /-- LOGBOOK_FLUSH (R381): A Logbook mirror group stays incomplete for FLUSH ms and is written padded. -/
  | logbookFlush 
  /-- FLASH_HOST_READ (R388): FLASH.HCMD READ copies flash bytes into the buffer, or is refused. -/
  | flashHostRead (w : Writer) (len : BitVec 9)
  /-- FLASH_HOST_PROGRAM (R388): FLASH.HCMD PROGRAM writes buffer bytes to flash and verifies them, or is refused. -/
  | flashHostProgram (w : Writer) (len : BitVec 9)
  /-- FLASH_HOST_ERASE (R388): FLASH.HCMD ERASE erases a 4 KB sector, or is refused. -/
  | flashHostErase (w : Writer) (len : BitVec 9)
  /-- FLASH_WORK_START (R387): The flash port takes up its next queued work in priority order. -/
  | flashWorkStart 
  /-- FLASH_OP_DONE (R389): A flash read, program or erase completes, verification is judged and completion signalled. -/
  | flashOpDone (cs : Fin 2) (ok : Bool)
  /-- FLASH_OP_TIMEOUT (R389): A flash program or erase exceeds its timeout and FS37 is raised. -/
  | flashOpTimeout (cs : Fin 2)
  /-- FLASH_REDISCOVER (R383): A write of FLASH.CTRL.REDISC starts discovery of both chip selects. -/
  | flashRediscover (w : Writer) (d : Word)
  /-- FLASH_EN_WRITE (R383): A write of FLASH.CTRL.EN enables or disables the port and may start discovery. -/
  | flashEnWrite (w : Writer) (d : Word)
  /-- FLASH_DISCOVERY_START (R383): The first entry into FULL after READY starts flash discovery. -/
  | flashDiscoveryStart 
  /-- FLASH_DISCOVERY_DONE (R384): Discovery completes; densities and the partition table are judged. -/
  | flashDiscoveryDone (c0 : Option Sfdp) (c1 : Option Sfdp)
  /-- OTP_READ (R406): OTP.CMD READ reads a word at the chosen margin. -/
  | otpRead (w : Writer) (arg : BitVec 11) (margin : BitVec 2)
  /-- OTP_PROGRAM (R407): OTP.CMD PROGRAM burns DATA into a word, or is refused. -/
  | otpProgram (w : Writer) (arg : BitVec 11) (key : BitVec 8)
  /-- OTP_LOCK (R399): OTP.CMD LOCK blows a region's lock fuses after checking it, or is refused. -/
  | otpLock (w : Writer) (arg : BitVec 11) (key : BitVec 8)
  /-- OTP_REPAIR (R408): OTP.CMD REPAIR copies a row into a spare row and redirects it. -/
  | otpRepair (w : Writer) (arg : BitVec 11) (key : BitVec 8)
  /-- OTP_CHECK (R406): OTP.CMD CHECK computes a region's closing-word CRC. -/
  | otpCheck (w : Writer) (arg : BitVec 11)
  /-- OTP_REAPPLY (R406): OTP.CMD REAPPLY applies the shadow's records again. -/
  | otpReapply (w : Writer)
  /-- OTP_CMD_COMPLETE (R406): An OTP operation finishes; RES is set and OTP_DONE pulsed. -/
  | otpCmdComplete (o : OtpSense)
  /-- OTP_RLOCK_WRITE (R398): A write of OTP.RLOCK sets sticky read locks. -/
  | otpRlockWrite (w : Writer) (d : Word)
  /-- OTP_WLOCK_WRITE (R398): A write of OTP.WLOCK sets sticky write locks. -/
  | otpWlockWrite (w : Writer) (d : Word)
  /-- SHADOW_WRITE (R405): A write to the shadow window overrides a shadow word, or is refused. -/
  | shadowWrite (w : Writer) (i : Fin 320) (d : Word)
  /-- OVERRIDE_CLEAR (R405): A write of OTP.CTRL.OVRCLR discards overrides and reloads the shadow. -/
  | overrideClear (w : Writer)
  /-- TIMER_INCREMENT (R412): The prescaler phase reaches DIV, the counter increments and compares are matched. -/
  | timerIncrement (n : Fin 4)
  /-- TIMER_CAPTURE (R415): A capture-pin edge appends the counter to the timer's queue or is dropped as overflow. -/
  | timerCapture (n : Fin 4) (rising : Bool) (late : Bool)
  /-- TIMER_SNAP (R416): TMRt.CMD SNAP copies the counter into the writer's bank. -/
  | timerSnap (w : Writer) (n : Fin 4)
  /-- TIMER_POP (R416): TMRt.CMD POP moves the oldest capture into the writer's bank. -/
  | timerPop (w : Writer) (n : Fin 4)
  /-- TIMER_LOAD (R416): TMRt.CMD LOAD loads the counter and clears the prescaler phase. -/
  | timerLoad (w : Writer) (n : Fin 4)
  /-- TIMER_CLRQ (R416): TMRt.CMD CLRQ empties the capture queue. -/
  | timerClrq (w : Writer) (n : Fin 4)
  /-- CRC_INIT (R421): A write of CRC.CTRL selecting POLY or INIT queues an initialisation. -/
  | crcInit (w : Writer) (d : Word)
  /-- CRC_DIN8 (R421): A write of CRC.DIN8 queues one byte. -/
  | crcDin8 (w : Writer) (d : Word)
  /-- CRC_DIN16 (R421): A write of CRC.DIN16 queues two bytes. -/
  | crcDin16 (w : Writer) (d : Word)
  /-- CRC_DIN32 (R421): A write of CRC.DIN32 queues four bytes. -/
  | crcDin32 (w : Writer) (d : Word)
  /-- CRC_QUEUE_APPLY (R421): The next queued feed or control entry is applied to the CRC register. -/
  | crcQueueApply 
  /-- CRC_OWNER_WRITE (R423): A write of CRC.OWNER claims or releases the unit, pulsing CRC_IDLE on release. -/
  | crcOwnerWrite (w : Writer) (d : Word)
  /-- RESET_PIN_RELEASE (R207): RESET# returns high after a reset and the device leaves reset to run the boot flow from step 2. -/
  | resetPinRelease 
  /-- AO_POWER_LOSS (R28): The AO supply (higher of VIN and VHOLD) falls below 2.2 V and the AO power-on reset asserts, clearing chip time and every power state. -/
  | aoPowerLoss 
  /-- WAKE_STABLE (R32): 2 us after a wake trigger the WAKE oscillator is stable, the register pages and interrupt controller run and pending events are synchronised. -/
  | wakeStable 
  /-- WAKE_START_RETRY (R38): Once per AO tick after a WAKE start failure the device retries starting the WAKE oscillator. -/
  | wakeStartRetry 
  /-- GAUGE_OSC_RETURN (R250): The GAUGE oscillator returns after a loss and charge integration resumes with CNTINV kept set. -/
  | gaugeOscReturn 
  /-- LOOP_PGOOD_REGAINED (R125): A running loop's VOUT returns into the PGOOD window after a loss, PGOOD rises and the PGOOD event is set. -/
  | loopPgoodRegained (n : Fin 4) (vout : Nat)
  /-- HEADROOM_CHANGE (R229): VSYS crosses below VBAT + 1.5 V or back above VBAT + 1.7 V, and the charge ceiling and STAT.HEADROOM change. -/
  | headroomChange (vsys : Nat) (vbat : Nat)
  /-- VHOLD_CHARGED (R370): VHOLD reaches 10.0 V, arming VHOLD_LOW and letting a waiting background ring-page erase start. -/
  | vholdCharged 
  deriving DecidableEq, Repr

end Sys2Proof
end

