-- ==== Sys2Proof/Decode.lean ====
section
/-! DEFINITION. The command that a word of the opcode table spells. The table gives no row of this block any bits: a command
is an event with operands, and none is encoded in a word. (The engine's plan rows are not commands of the table's words;
their decoding stands in Machine/Operands.lean.) -/

namespace Sys2Proof

/-- No row of the table gives bits, so no word spells a command. -/
def decodeTableWord (_nbits _w : Nat) : Option Instr := none

end Sys2Proof
end

