-- ==== Sys2Proof/Config.lean ====
section
/-! DEFINITION. Values the spec leaves open. Each is a constant with no body, so that nothing can be proved about the
value it takes: a claim about the model holds whatever it is. -/

namespace Sys2Proof.Config

/-- A fresh unspecified number for each use: the step applies it to the counter `State.freeCtr` and advances the
counter (log entry 5). -/
opaque freeNat : Nat → Nat

/-- The 7 check bits that the OTP's code stores beside a 32-bit word: R392 names a code, the spec does not print it
(log entry 6). -/
opaque otpCheck : Word → BitVec 7

/-- The words of the TRIM and IDENT regions (0–191) as delivered: programmed by the maker, not printed in the spec (log
entry 6). -/
opaque otpFactory : Nat → Word

/-- The trimmed code of converter `conv` (0 ADC-A, 1 ADC-B) on self-test channel `ch`: R187 keeps it in the TRIM region, whose
layout the spec does not print (log entry 6). -/
opaque adcTrim (conv ch : Nat) : Nat

/-- The codes that stand for `adcTrim` on the built-in mid-range trims (R401), which the spec does not print (log entry 6). -/
opaque adcMidTrim (conv ch : Nat) : Nat

/-- The current, mA, that the charger's voltage loop asks of the half-bridge with VBAT at or above VREG.MV (mV): R229 says
that the loop holds VBAT at or below VREG and states no gains (log entry 103). -/
opaque vbatLoop (vbat vreg : Nat) : Nat

/-- The current into VSYS, mA, that the voltage loop of R219 asks for at VSYS against VSYSHOLD (mV): a proportional-integral
loop whose gains are not stated (log entry 103). -/
opaque vsysLoop (vsys hold : Nat) : Nat

/-- What the field at bit `bit` of register `reg` holds after a write of `v`, where the spec states the field's range, `v`
lies outside it, and no rule says what is stored (log entry 64). -/
opaque outOfRange (reg bit v : Nat) : Nat

end Sys2Proof.Config
end

