-- ==== Sys2Proof/Machine/Bits.lean ====
section
/-! DEFINITION. Bit fields, signed readings, byte order and the CRC algorithms (R51, R265, R374, R420). -/

namespace Sys2Proof.Machine

/-- Bits [lo + n - 1 : lo] of a word as a number. -/
def getBits (w : Word) (lo n : Nat) : Nat := (w.toNat >>> lo) % 2 ^ n

/-- The word with 1 in bits [lo + n - 1 : lo] and 0 elsewhere. -/
def maskBits (lo n : Nat) : Word := BitVec.ofNat 32 ((2 ^ n - 1) <<< lo)

/-- `w` with bits [lo + n - 1 : lo] replaced by the low `n` bits of `v`. -/
def putBits (w : Word) (lo n v : Nat) : Word :=
  (w &&& ~~~ maskBits lo n) ||| BitVec.ofNat 32 ((v % 2 ^ n) <<< lo)

/-- Bit `i` of a word. -/
def bit (w : Word) (i : Nat) : Bool := w.getLsbD i

/-- The word with only bit `i` set (0 beyond bit 31). -/
def bitAt (i : Nat) : Word := BitVec.ofNat 32 (1 <<< i)

/-- 1 for true, 0 for false. -/
def b2n (b : Bool) : Nat := if b then 1 else 0

/-- `n` bits read as a two's-complement number. -/
def signed (n v : Nat) : Int := if v % 2 ^ n < 2 ^ (n - 1) then (v % 2 ^ n : Int) else (v % 2 ^ n : Int) - (2 ^ n : Int)

/-- An integer as `n` bits of two's complement, saturated to their range. -/
def toSigned (n : Nat) (i : Int) : Nat :=
  let lo : Int := -(2 ^ (n - 1) : Int)
  let hi : Int := (2 ^ (n - 1) : Int) - 1
  let j := max lo (min hi i)
  (if j < 0 then j + (2 ^ n : Int) else j).toNat

/-- Quotient rounded to the nearest integer, halves upward. -/
def divRound (a b : Nat) : Nat := (2 * a + b) / (2 * b)

/-- Quotient rounded up. -/
def divCeil (a b : Nat) : Nat := (a + b - 1) / b

/-- `v` brought into `lo`..`hi`. -/
def clampNat (lo hi v : Nat) : Nat := max lo (min hi v)

/-- An integer brought into `lo`..`hi`. -/
def clampInt (lo hi v : Int) : Int := max lo (min hi v)

/-- `v + 1`, saturating at `m`. -/
def satInc (m v : Nat) : Nat := min m (v + 1)

/-- The `n` low bytes of `v`, most significant first (R374). -/
def bytesBE (n v : Nat) : List Byte :=
  (List.range n).map fun i => BitVec.ofNat 8 (v >>> (8 * (n - 1 - i)))

/-- Bytes read as one number, most significant first. -/
def natBE (bs : List Byte) : Nat := bs.foldl (fun acc b => acc * 256 + b.toNat) 0

/-- The word at four bytes, most significant first. -/
def wordBE (bs : List Byte) : Word := BitVec.ofNat 32 (natBE bs)

/-- One shift of a non-reflected CRC register of `n` bits. -/
def crcShift (n poly r : Nat) : Nat :=
  let s := r <<< 1
  if r.testBit (n - 1) then (s ^^^ poly) % 2 ^ n else s % 2 ^ n

/-- `k` shifts. -/
def crcShifts (n poly : Nat) : Nat → Nat → Nat
  | 0, r => r
  | k + 1, r => crcShifts n poly k (crcShift n poly r)

/-- One byte fed to a non-reflected CRC register. -/
def crcByte (n poly r : Nat) (b : Byte) : Nat := crcShifts n poly 8 (r ^^^ (b.toNat <<< (n - 8)))

/-- One right shift of a reflected 32-bit CRC register (`poly` already reflected). -/
def crcShiftR (poly r : Nat) : Nat := if r.testBit 0 then (r >>> 1) ^^^ poly else r >>> 1

/-- `k` right shifts. -/
def crcShiftsR (poly : Nat) : Nat → Nat → Nat
  | 0, r => r
  | k + 1, r => crcShiftsR poly k (crcShiftR poly r)

/-- One byte fed to a reflected 32-bit CRC register. -/
def crcByteR (poly r : Nat) (b : Byte) : Nat := crcShiftsR poly 8 (r ^^^ b.toNat)

/-- CRC-8, polynomial 0x07, initial 0 (R51). -/
def crc8 (bs : List Byte) : Nat := bs.foldl (crcByte 8 0x07) 0

/-- CRC-16/CCITT, polynomial 0x1021, initial 0xFFFF (R265). -/
def crc16 (bs : List Byte) : Nat := bs.foldl (crcByte 16 0x1021) 0xFFFF

/-- CRC-32C (R420, POLY 3). -/
def crc32c (bs : List Byte) : Nat := (bs.foldl (crcByteR 0x82F63B78) 0xFFFFFFFF) ^^^ 0xFFFFFFFF

/-- A record of big-endian fields, each a value and its size in bytes. -/
def packBE (fields : List (Nat × Nat)) : List Byte := fields.flatMap fun (v, n) => bytesBE n v

/-- A record followed by its CRC-32C (R204, R373 and the other record layouts). -/
def withCrc32c (bs : List Byte) : List Byte := bs ++ bytesBE 4 (crc32c bs)

/-- Bits set among the low `n` bits. -/
def popCount (n v : Nat) : Nat := (List.range n).foldl (fun acc i => acc + b2n (v.testBit i)) 0

/-- The indices below `n` whose bit is set, ascending. -/
def bitList (n v : Nat) : List Nat := (List.range n).filter fun i => v.testBit i

/-- The integer square root by bisection, `k` halvings of the interval. -/
def isqrtGo (v : Nat) : Nat → Nat → Nat → Nat
  | 0, lo, _ => lo
  | k + 1, lo, hi =>
    if hi ≤ lo + 1 then lo
    else
      let m := (lo + hi) / 2
      if m * m ≤ v then isqrtGo v k m hi else isqrtGo v k lo m

end Sys2Proof.Machine
end

