-- ==== Sys2Proof/Machine/RegMap.lean ====
section
/-! DEFINITION. The register map: every register page of R68 as a table of rows (offset, access masks, reset
word), and the name of every register and field, written out from the tables of the owning chapters of spec/. -/

namespace Sys2Proof.Machine

/-- One row of a page's register table: `count` registers from offset `base`, `stride` bytes apart, with the access
codes of R8 as bit masks and the reset word of the owning chapter. A bit in no mask is RO or reserved. -/
structure RegRow where
  base   : Nat
  stride : Nat
  count  : Nat
  /-- Value after reset. -/
  reset  : Word
  /-- RW bits. -/
  rw     : Word
  /-- W1C bits. -/
  w1c    : Word
  /-- SC bits (SET and CLR aliases exist). -/
  sc     : Word
  /-- ROC bits. -/
  roc    : Word
  /-- WO bits. -/
  wo     : Word
  /-- Bits that the tables mark (AO): a chip reset keeps them. -/
  ao     : Word
  deriving DecidableEq, Repr

/-- How a written field value is brought into its stated range before it is stored. -/
inductive Norm where
  /-- Stored clamped to `lo`..`hi`. -/
  | clamp (lo hi : Nat)
  /-- 0 stays 0; any other value is clamped to `lo`..`hi`. -/
  | clampOrZero (lo hi : Nat)
  /-- Values above `hi` are stored as `v`. -/
  | above (hi v : Nat)
  /-- Values from `lo` to `hi` are stored as `v`. -/
  | between (lo hi v : Nat)
  /-- Clamped to `lo`..`hi`, then rounded down to a multiple of `step`. -/
  | stepDown (lo hi step : Nat)
  /-- The spec states a range and does not say what is stored outside it: a value outside `lo`..`hi`, or off the step, is
  stored as a free value (log entry 64). -/
  | openRange (lo hi step : Nat)
  deriving DecidableEq, Repr

/-- One range rule of a page: which field of which registers, and its norm. -/
structure NormRow where
  base   : Nat
  stride : Nat
  count  : Nat
  lo     : Nat
  width  : Nat
  norm   : Norm
  deriving DecidableEq, Repr

/-- A register field: word address, lowest bit and width. -/
structure Fld where
  addr  : Nat
  lo    : Nat
  width : Nat
  deriving DecidableEq, Repr

/-- Register rows of the SYS page (R46, R74). -/
def rowsSYS : List RegRow :=
  [⟨0x60, 0x4, 1, 0x20002, 0x3FFFF, 0x0, 0x0, 0x0, 0x0, 0x0⟩,
   ⟨0x64, 0x4, 1, 0x6, 0x0, 0xF8, 0x0, 0x0, 0x0, 0xFC⟩,
   ⟨0x68, 0x4, 1, 0x0, 0x0, 0x0, 0x0, 0x0, 0x1, 0x0⟩,
   ⟨0x6C, 0x4, 1, 0x0, 0x0, 0x0, 0x0, 0x0, 0x0, 0x0⟩,
   ⟨0x70, 0x4, 1, 0x0, 0x0, 0x0, 0x0, 0x0, 0x0, 0x0⟩,
   ⟨0x0, 0x4, 1, 0xA5125811, 0x0, 0x0, 0x0, 0x0, 0x0, 0x0⟩,
   ⟨0x4, 0x4, 1, 0x0, 0x0, 0x0, 0x0, 0x0, 0xFFFF0001, 0x0⟩,
   ⟨0x8, 0x4, 1, 0x0, 0x0, 0x0, 0x0, 0x0, 0x0, 0x0⟩,
   ⟨0xC, 0x4, 1, 0x0, 0x0, 0x3, 0x0, 0x0, 0x0, 0x0⟩,
   ⟨0x10, 0x4, 1, 0x0, 0x0, 0x0, 0x3, 0x0, 0x0, 0x0⟩,
   ⟨0x14, 0x4, 1, 0x0, 0x0, 0x0, 0x0, 0x0, 0x0, 0x0⟩,
   ⟨0x40, 0x4, 1, 0x0, 0x0, 0x0, 0x0, 0x0, 0x0, 0x0⟩]

/-- Register rows of the HOSTIF page (R66, R75). -/
def rowsHOSTIF : List RegRow :=
  [⟨0x0, 0x4, 1, 0x0, 0x0, 0x0, 0x0, 0x0, 0x0, 0x0⟩,
   ⟨0x4, 0x4, 1, 0x1, 0x1, 0x0, 0x0, 0x0, 0x0, 0x0⟩,
   ⟨0x8, 0x4, 1, 0x0, 0x0, 0x4, 0x0, 0x0, 0x0, 0x0⟩,
   ⟨0xC, 0x4, 1, 0x0, 0x0, 0x3, 0x0, 0x0, 0x0, 0x0⟩,
   ⟨0x10, 0x4, 1, 0x0, 0x0, 0x0, 0x3, 0x0, 0x0, 0x0⟩,
   ⟨0x14, 0x4, 1, 0x0, 0x0, 0x0, 0x0, 0x0, 0x0, 0x0⟩,
   ⟨0x40, 0x4, 1, 0x0, 0x0, 0x0, 0x0, 0xFFFF, 0x0, 0x0⟩,
   ⟨0x44, 0x4, 1, 0x0, 0x0, 0x0, 0x0, 0x0, 0x0, 0x0⟩,
   ⟨0x48, 0x4, 1, 0x80000010, 0xFFFF00FF, 0x0, 0x0, 0x0, 0x0, 0x0⟩,
   ⟨0x4C, 0x4, 1, 0x0, 0x0, 0x0, 0x0, 0x0, 0x0, 0x0⟩,
   ⟨0x50, 0x4, 1, 0x4B03E8, 0x80FFFFFF, 0x0, 0x0, 0x0, 0x0, 0x0⟩,
   ⟨0x54, 0x4, 1, 0x0, 0x0, 0x0, 0x0, 0x0, 0xFFFF, 0x0⟩,
   ⟨0x58, 0x4, 1, 0x0, 0x0, 0x3, 0x0, 0x0, 0x0, 0x0⟩,
   ⟨0x60, 0x4, 1, 0x0, 0xFFFFFFFF, 0x0, 0x0, 0x0, 0x0, 0x0⟩,
   ⟨0x64, 0x4, 1, 0x0, 0x0, 0x0, 0x0, 0xFFFFFFFF, 0x0, 0x0⟩]

/-- Register rows of the PLAN page (R66, R111). -/
def rowsPLAN : List RegRow :=
  [⟨0x0, 0x4, 1, 0x0, 0x0, 0x0, 0x0, 0x0, 0x0, 0x0⟩,
   ⟨0x4, 0x4, 1, 0x0, 0x1, 0x0, 0x0, 0x0, 0x0, 0x0⟩,
   ⟨0x8, 0x4, 1, 0x0, 0x0, 0x0, 0x0, 0x0, 0x0, 0x0⟩,
   ⟨0xC, 0x4, 1, 0x0, 0x0, 0xFFFF, 0x0, 0x0, 0x0, 0x0⟩,
   ⟨0x10, 0x4, 1, 0x0, 0x0, 0x0, 0xFFFF, 0x0, 0x0, 0x0⟩,
   ⟨0x14, 0x4, 1, 0x0, 0x0, 0x0, 0x0, 0x0, 0x0, 0x0⟩,
   ⟨0x40, 0x4, 1, 0x0, 0x0, 0x0, 0x0, 0x0, 0x3FFF007F, 0x0⟩,
   ⟨0x44, 0x4, 1, 0x0, 0x0, 0x0, 0x0, 0x0, 0x3, 0x0⟩,
   ⟨0x48, 0x4, 1, 0x0, 0x0, 0x0, 0x0, 0x0, 0x0, 0x0⟩,
   ⟨0x4C, 0x4, 1, 0x0, 0x0, 0x0, 0x0, 0x0, 0x0, 0x0⟩,
   ⟨0x50, 0x4, 1, 0x0, 0x0, 0x0, 0x0, 0x0, 0x0, 0x0⟩,
   ⟨0x54, 0x4, 1, 0x0, 0x0, 0x0, 0xFFFF, 0x0, 0x0, 0x0⟩,
   ⟨0x58, 0x4, 1, 0x0, 0x0, 0x0, 0xFFFF, 0x0, 0x0, 0x0⟩,
   ⟨0x5C, 0x4, 1, 0x0, 0x0, 0x0, 0x0, 0xFFFF, 0x0, 0x0⟩,
   ⟨0x60, 0x4, 8, 0x0, 0x0, 0x0, 0x0, 0x0, 0x0, 0x0⟩,
   ⟨0x80, 0x4, 1, 0x0, 0x0, 0x0, 0x0, 0x0, 0x0, 0x0⟩,
   ⟨0xC0, 0x4, 16, 0x0, 0x0, 0x0, 0x0, 0x0, 0x0, 0x0⟩,
   ⟨0x100, 0x4, 128, 0x0, 0xFFFFFFFF, 0x0, 0x0, 0x0, 0x0, 0x0⟩,
   ⟨0x300, 0x4, 64, 0x0, 0xFFFFFFFF, 0x0, 0x0, 0x0, 0x0, 0x0⟩,
   ⟨0x84, 0x4, 1, 0x0, 0x0, 0x0, 0x0, 0x0, 0x0, 0x0⟩]

/-- Register rows of the LEDGER page (R66, R324). -/
def rowsLEDGER : List RegRow :=
  [⟨0x0, 0x4, 1, 0x0, 0x0, 0x0, 0x0, 0x0, 0x0, 0x0⟩,
   ⟨0x4, 0x4, 1, 0x4, 0xF, 0x0, 0x0, 0x0, 0x0, 0x0⟩,
   ⟨0x8, 0x4, 1, 0x0, 0x0, 0x0, 0x0, 0x0, 0x0, 0x0⟩,
   ⟨0xC, 0x4, 1, 0x0, 0x0, 0xFF, 0x0, 0x0, 0x0, 0x0⟩,
   ⟨0x10, 0x4, 1, 0x0, 0x0, 0x0, 0xFF, 0x0, 0x0, 0x0⟩,
   ⟨0x14, 0x4, 1, 0x0, 0x0, 0x0, 0x0, 0x0, 0x0, 0x0⟩,
   ⟨0x40, 0x4, 1, 0x0, 0x0, 0x0, 0x0, 0x0, 0x0, 0x0⟩,
   ⟨0x44, 0x4, 1, 0x0, 0x0, 0x0, 0x0, 0x0, 0x0, 0x0⟩,
   ⟨0x48, 0x4, 1, 0x0, 0x0, 0x0, 0x0, 0x0, 0x0, 0x0⟩,
   ⟨0x4C, 0x4, 1, 0x0, 0x0, 0x0, 0x0, 0x0, 0x0, 0x0⟩,
   ⟨0x50, 0x4, 1, 0x0, 0x0, 0x0, 0x0, 0x0, 0x0, 0x0⟩,
   ⟨0x54, 0x4, 1, 0x0, 0x0, 0x0, 0x0, 0x0, 0x0, 0x0⟩,
   ⟨0x58, 0x4, 1, 0x0, 0x0, 0x0, 0x0, 0x0, 0x0, 0x0⟩,
   ⟨0x5C, 0x4, 1, 0x0, 0x0, 0x0, 0x0, 0x0, 0x0, 0x0⟩,
   ⟨0x60, 0x4, 1, 0x0, 0x0, 0x0, 0x0, 0x0, 0x0, 0x0⟩,
   ⟨0x64, 0x4, 1, 0x0, 0x0, 0x0, 0x0, 0x0, 0x0, 0x0⟩,
   ⟨0x68, 0x4, 1, 0x0, 0xFFFFFFFF, 0x0, 0x0, 0x0, 0x0, 0x0⟩,
   ⟨0x6C, 0x4, 1, 0x1388, 0xFFFF, 0x0, 0x0, 0x0, 0x0, 0x0⟩,
   ⟨0x70, 0x4, 1, 0x0, 0x77, 0x0, 0x0, 0x0, 0x0, 0x0⟩,
   ⟨0x74, 0x4, 1, 0x320A2832, 0xFFFFFFFF, 0x0, 0x0, 0x0, 0x0, 0x0⟩,
   ⟨0x78, 0x4, 1, 0x2D0A5000, 0xFFFFFF00, 0x0, 0x0, 0x0, 0x0, 0x0⟩,
   ⟨0x7C, 0x4, 1, 0x0, 0xFFFFFFFF, 0x0, 0x0, 0x0, 0x0, 0x0⟩,
   ⟨0x80, 0x4, 1, 0x1E0014, 0xFFFFFFFF, 0x0, 0x0, 0x0, 0x0, 0x0⟩,
   ⟨0x84, 0x4, 1, 0x320028, 0xFFFFFFFF, 0x0, 0x0, 0x0, 0x0, 0x0⟩] ++
  [⟨0x88, 0x4, 1, 0x50003C, 0xFFFFFFFF, 0x0, 0x0, 0x0, 0x0, 0x0⟩,
   ⟨0x8C, 0x4, 1, 0x780064, 0xFFFFFFFF, 0x0, 0x0, 0x0, 0x0, 0x0⟩,
   ⟨0x90, 0x4, 1, 0x5A, 0xFF, 0x0, 0x0, 0x0, 0x0, 0x0⟩,
   ⟨0x94, 0x4, 1, 0x0, 0xFFFFFFFF, 0x0, 0x0, 0x0, 0x0, 0x0⟩,
   ⟨0x98, 0x4, 1, 0xA, 0xFFFF, 0x0, 0x0, 0x0, 0x0, 0x0⟩,
   ⟨0x9C, 0x4, 1, 0x1403, 0xFF03, 0x0, 0x0, 0x0, 0x0, 0x0⟩,
   ⟨0xA0, 0x4, 1, 0x1F, 0x1F, 0x0, 0x0, 0x0, 0x0, 0x0⟩,
   ⟨0xA4, 0x4, 1, 0x44444444, 0xFFFFFFFF, 0x0, 0x0, 0x0, 0x0, 0x0⟩,
   ⟨0xA8, 0x4, 1, 0x444444, 0xFFFFFF, 0x0, 0x0, 0x0, 0x0, 0x0⟩,
   ⟨0xAC, 0x4, 1, 0x0, 0x0, 0x0, 0x0, 0xFFFF, 0x0, 0x0⟩,
   ⟨0xB0, 0x4, 1, 0x0, 0x0, 0x0, 0x0, 0x0, 0x0, 0x0⟩,
   ⟨0xB4, 0x4, 1, 0x0, 0x0, 0x0, 0x0, 0x0, 0x0, 0x0⟩,
   ⟨0xC0, 0x8, 4, 0x0, 0x0, 0x0, 0x0, 0x0, 0x0, 0x0⟩,
   ⟨0xC4, 0x8, 4, 0x0, 0x0, 0x0, 0x0, 0x0, 0x0, 0x0⟩,
   ⟨0xE0, 0x4, 4, 0x0, 0x0, 0x0, 0x0, 0x0, 0x0, 0x0⟩,
   ⟨0x100, 0x4, 14, 0x0, 0x0, 0x0, 0x0, 0x0, 0x0, 0x0⟩,
   ⟨0x140, 0x4, 1, 0x0, 0xFFFFFFFF, 0x0, 0x0, 0x0, 0x0, 0x0⟩,
   ⟨0x144, 0x4, 1, 0x0, 0x0, 0x0, 0x0, 0x0, 0xF00701FF, 0x0⟩,
   ⟨0x148, 0x4, 1, 0x0, 0x0, 0x0, 0x0, 0x0, 0x0, 0x0⟩,
   ⟨0x14C, 0x4, 1, 0x0, 0x0, 0x0, 0x0, 0x0, 0x0, 0x0⟩]

/-- Register rows of the CONV page (R66, R144). -/
def rowsCONV : List RegRow :=
  [⟨0x0, 0x4, 1, 0x0, 0x0, 0x0, 0x0, 0x0, 0x0, 0x0⟩,
   ⟨0x4, 0x4, 1, 0x1, 0x7, 0x0, 0x0, 0x0, 0x0, 0x0⟩,
   ⟨0x8, 0x4, 1, 0x0, 0x0, 0x0, 0x0, 0x0, 0x0, 0x0⟩,
   ⟨0xC, 0x4, 1, 0x0, 0x0, 0xF, 0x0, 0x0, 0x0, 0x0⟩,
   ⟨0x10, 0x4, 1, 0x0, 0x0, 0x0, 0xF, 0x0, 0x0, 0x0⟩,
   ⟨0x14, 0x4, 1, 0x0, 0x0, 0x0, 0x0, 0x0, 0x0, 0x0⟩,
   ⟨0x40, 0x4, 1, 0x0, 0x731FFFF, 0x0, 0x0, 0x0, 0x0, 0x0⟩,
   ⟨0x44, 0x4, 1, 0x0, 0x0, 0x0, 0x0, 0x0, 0x0, 0x0⟩,
   ⟨0x80, 0x4, 16, 0x140803, 0x7F7F7F07, 0x0, 0x0, 0x0, 0x0, 0x0⟩]

/-- Register rows of the LOOP page (R66, R145). -/
def rowsLOOP : List RegRow :=
  [⟨0x0, 0x4, 1, 0x0, 0x0, 0x0, 0x0, 0x0, 0x0, 0x0⟩,
   ⟨0x4, 0x4, 1, 0x0, 0xFBF, 0x0, 0x0, 0x0, 0x0, 0x0⟩,
   ⟨0x8, 0x4, 1, 0x0, 0x0, 0x0, 0x0, 0x0, 0x0, 0x0⟩,
   ⟨0xC, 0x4, 1, 0x0, 0x0, 0x7FF, 0x0, 0x0, 0x0, 0x0⟩,
   ⟨0x10, 0x4, 1, 0x0, 0x0, 0x0, 0x7FF, 0x0, 0x0, 0x0⟩,
   ⟨0x14, 0x4, 1, 0x0, 0x0, 0x0, 0x0, 0x0, 0x0, 0x0⟩,
   ⟨0x40, 0x4, 1, 0x0, 0xFFFF, 0x0, 0x0, 0x0, 0x0, 0x0⟩,
   ⟨0x44, 0x4, 1, 0x14, 0x1FF, 0x0, 0x0, 0x0, 0x0, 0x0⟩,
   ⟨0x48, 0x4, 1, 0x0, 0x0, 0x0, 0x0, 0x0, 0x0, 0x0⟩,
   ⟨0x4C, 0x4, 1, 0x6400, 0x1FFFF, 0x0, 0x0, 0x0, 0x0, 0x0⟩,
   ⟨0x50, 0x4, 1, 0x0, 0x1FFFF, 0x0, 0x0, 0x0, 0x0, 0x0⟩,
   ⟨0x54, 0x4, 1, 0x32, 0x1FF00FF, 0x0, 0x0, 0x0, 0x0, 0x0⟩,
   ⟨0x58, 0x4, 1, 0x0, 0x3FF03FF, 0x0, 0x0, 0x0, 0x0, 0x0⟩,
   ⟨0x5C, 0x4, 1, 0x0, 0xFF03FF, 0x0, 0x0, 0x0, 0x0, 0x0⟩,
   ⟨0x60, 0x4, 1, 0x10000000, 0xF3FF03FF, 0x0, 0x0, 0x0, 0x0, 0x0⟩,
   ⟨0x64, 0x4, 1, 0x1007D0, 0xFFFFFF, 0x0, 0x0, 0x0, 0x0, 0x0⟩,
   ⟨0x68, 0x4, 1, 0x8, 0x71F, 0x0, 0x0, 0x0, 0x0, 0x0⟩,
   ⟨0x6C, 0x4, 1, 0xA0000, 0x1F03FF, 0x0, 0x0, 0x0, 0x0, 0x0⟩,
   ⟨0x70, 0x4, 1, 0x5140F0F, 0x1FFF1F1F, 0x0, 0x0, 0x0, 0x0, 0x0⟩,
   ⟨0x74, 0x4, 1, 0x0, 0x0, 0x0, 0x0, 0x0, 0x0, 0x0⟩,
   ⟨0x78, 0x4, 1, 0x0, 0x0, 0x0, 0x0, 0x0, 0x0, 0x0⟩,
   ⟨0x80, 0x4, 1, 0x0, 0x0, 0x0, 0x0, 0x0, 0x0, 0x0⟩,
   ⟨0x84, 0x4, 1, 0x0, 0x0, 0x0, 0x0, 0x0, 0x0, 0x0⟩,
   ⟨0x88, 0x4, 1, 0x0, 0x0, 0x0, 0x0, 0x0, 0x0, 0x0⟩] ++
  [⟨0x8C, 0x4, 1, 0x0, 0x0, 0x0, 0x0, 0x0, 0x0, 0x0⟩,
   ⟨0x90, 0x4, 1, 0x0, 0x0, 0x0, 0x0, 0x0, 0x0, 0x0⟩]

/-- Register rows of the PHASE page (R66, R146). -/
def rowsPHASE : List RegRow :=
  [⟨0x0, 0x4, 1, 0x0, 0x0, 0x0, 0x0, 0x0, 0x0, 0x0⟩,
   ⟨0x8, 0x4, 1, 0x0, 0x0, 0x0, 0x0, 0x0, 0x0, 0x0⟩,
   ⟨0xC, 0x4, 1, 0x0, 0x0, 0xFFFF, 0x0, 0x0, 0x0, 0x0⟩,
   ⟨0x10, 0x4, 1, 0x0, 0x0, 0x0, 0xFFFF, 0x0, 0x0, 0x0⟩,
   ⟨0x14, 0x4, 1, 0x0, 0x0, 0x0, 0x0, 0x0, 0x0, 0x0⟩,
   ⟨0x40, 0x4, 16, 0x0, 0x33, 0x0, 0x0, 0x0, 0x0, 0x0⟩,
   ⟨0x80, 0x4, 16, 0x0, 0x0, 0x0, 0x0, 0x0, 0x0, 0x0⟩,
   ⟨0xC0, 0x4, 16, 0x0, 0x0, 0x0, 0x0, 0x0, 0x0, 0x0⟩,
   ⟨0x100, 0x4, 16, 0x0, 0x0, 0x0, 0x0, 0xFFFF, 0x0, 0x0⟩,
   ⟨0x4, 0x4, 1, 0x0, 0x0, 0x0, 0x0, 0x0, 0x0, 0x0⟩]

/-- Register rows of the HEALTH page (R66, R167). -/
def rowsHEALTH : List RegRow :=
  [⟨0x0, 0x4, 1, 0x0, 0x0, 0x0, 0x0, 0x0, 0x0, 0x0⟩,
   ⟨0x4, 0x4, 1, 0x6, 0x7, 0x0, 0x0, 0x0, 0x310, 0x0⟩,
   ⟨0x8, 0x4, 1, 0x0, 0x0, 0xF0000, 0x0, 0x0, 0x0, 0x0⟩,
   ⟨0xC, 0x4, 1, 0x0, 0x0, 0x7F, 0x0, 0x0, 0x0, 0x0⟩,
   ⟨0x10, 0x4, 1, 0x0, 0x0, 0x0, 0x7F, 0x0, 0x0, 0x0⟩,
   ⟨0x14, 0x4, 1, 0x0, 0x0, 0x0, 0x0, 0x0, 0x0, 0x0⟩,
   ⟨0x40, 0x4, 1, 0x0, 0x0, 0x0, 0x0, 0x0, 0xC000031F, 0x0⟩,
   ⟨0x44, 0x4, 1, 0x0, 0x0, 0x0, 0x0, 0x0, 0x0, 0x0⟩,
   ⟨0x48, 0x4, 1, 0x1E140005, 0xFFFF00FF, 0x0, 0x0, 0x0, 0x0, 0x0⟩,
   ⟨0x4C, 0x4, 1, 0x28462554, 0xFFFFFFFF, 0x0, 0x0, 0x0, 0x0, 0x0⟩,
   ⟨0x50, 0x4, 1, 0x18145A32, 0xFFFFFFFF, 0x0, 0x0, 0x0, 0x0, 0x0⟩,
   ⟨0x54, 0x4, 1, 0xA8003C, 0xFFFFFFFF, 0x0, 0x0, 0x0, 0x0, 0x0⟩,
   ⟨0x58, 0x4, 1, 0x0, 0x0, 0x0, 0x0, 0x0, 0xFF0003, 0x0⟩,
   ⟨0x5C, 0x4, 1, 0x0, 0x0, 0x0, 0x0, 0x0, 0x0, 0x0⟩,
   ⟨0x60, 0x4, 1, 0x0, 0x0, 0x0, 0x0, 0x0, 0x0, 0x0⟩,
   ⟨0x64, 0x4, 1, 0x648000, 0x0, 0x0, 0x0, 0x0, 0x0, 0x0⟩,
   ⟨0x100, 0x40, 4, 0x0, 0x0, 0x0, 0x0, 0x0, 0x0, 0x0⟩,
   ⟨0x104, 0x40, 4, 0x0, 0x0, 0x0, 0x0, 0x0, 0x0, 0x0⟩,
   ⟨0x108, 0x40, 4, 0x64000000, 0x3FF, 0x0, 0x0, 0x0, 0x0, 0x0⟩,
   ⟨0x10C, 0x40, 4, 0x0, 0x0, 0x0, 0x0, 0x0, 0x0, 0x0⟩,
   ⟨0x110, 0x40, 4, 0x0, 0x0, 0x0, 0x0, 0x0, 0x0, 0x0⟩,
   ⟨0x114, 0x40, 4, 0xF, 0xF, 0x0, 0x0, 0x0, 0x0, 0x0⟩,
   ⟨0x118, 0x40, 4, 0x14D55, 0x1FFFF, 0x0, 0x0, 0x0, 0x0, 0x0⟩,
   ⟨0x11C, 0x40, 4, 0x0, 0x0, 0x0, 0x0, 0x0, 0x0, 0x0⟩] ++
  [⟨0x120, 0x40, 4, 0x0, 0x0, 0x0, 0x0, 0x0, 0x0, 0x0⟩,
   ⟨0x124, 0x40, 4, 0x0, 0x0, 0x0, 0x0, 0x0, 0x0, 0x0⟩,
   ⟨0x128, 0x40, 4, 0x0, 0x0, 0x0, 0x0, 0x0, 0x0, 0x0⟩,
   ⟨0x12C, 0x40, 4, 0x0, 0x0, 0x0, 0x0, 0x0, 0x0, 0x0⟩,
   ⟨0x300, 0x10, 16, 0x0, 0x0, 0x0, 0x0, 0x0, 0x0, 0x0⟩,
   ⟨0x304, 0x10, 16, 0x0, 0x0, 0x0, 0x0, 0x0, 0x0, 0x0⟩,
   ⟨0x308, 0x10, 16, 0xF0000164, 0xF0000000, 0x0, 0x0, 0x0, 0x0, 0x0⟩]

/-- Register rows of the RAILS page (R66, R189). -/
def rowsRAILS : List RegRow :=
  [⟨0x0, 0x4, 1, 0x0, 0x0, 0x0, 0x0, 0x0, 0x0, 0x0⟩,
   ⟨0x4, 0x4, 1, 0x1, 0x1, 0x0, 0x0, 0x0, 0x0, 0x0⟩,
   ⟨0x8, 0x4, 1, 0x0, 0x0, 0x0, 0x0, 0x0, 0x0, 0x0⟩,
   ⟨0xC, 0x4, 1, 0x0, 0x0, 0xFFFFFC1F, 0x0, 0x0, 0x0, 0x0⟩,
   ⟨0x10, 0x4, 1, 0x0, 0x0, 0x0, 0xFFFFFC1F, 0x0, 0x0, 0x0⟩,
   ⟨0x14, 0x4, 1, 0x0, 0x0, 0x0, 0x0, 0x0, 0x0, 0x0⟩,
   ⟨0x40, 0x4, 2, 0x50530CE4, 0xF0FF1FFF, 0x0, 0x0, 0x0, 0x0, 0x0⟩,
   ⟨0x48, 0x4, 1, 0x0, 0x0, 0x0, 0x0, 0x0, 0x0, 0x0⟩,
   ⟨0x4C, 0x4, 1, 0x0, 0x0, 0x0, 0x0, 0x0, 0x0, 0x0⟩,
   ⟨0x50, 0x4, 1, 0x50000CE4, 0xF0001FFF, 0x0, 0x0, 0x0, 0x0, 0x0⟩,
   ⟨0x54, 0x4, 3, 0x50000320, 0xF0001FFF, 0x0, 0x0, 0x0, 0x0, 0x0⟩,
   ⟨0x80, 0x8, 8, 0xE5200C8, 0xFFF0FFF, 0x0, 0x0, 0x0, 0x0, 0x0⟩,
   ⟨0x84, 0x8, 8, 0x400A0200, 0xF0FF0F00, 0x0, 0x0, 0x0, 0x0, 0x0⟩,
   ⟨0xC0, 0x4, 1, 0x0, 0xFFFFFFFF, 0x0, 0x0, 0x0, 0x0, 0x0⟩,
   ⟨0xC4, 0x4, 1, 0x0, 0xFFFF, 0x0, 0x0, 0x0, 0x0, 0x0⟩,
   ⟨0xC8, 0x4, 1, 0x0, 0xFFFF0107, 0x0, 0x0, 0x0, 0x200, 0x0⟩,
   ⟨0xCC, 0x4, 1, 0x10030400, 0xFFFFFFFF, 0x0, 0x0, 0x0, 0x0, 0x0⟩,
   ⟨0xD0, 0x4, 1, 0x0, 0x0, 0x0, 0x0, 0x0, 0x0, 0x0⟩,
   ⟨0x100, 0x4, 48, 0x0, 0x0, 0x0, 0x0, 0x0, 0x0, 0x0⟩,
   ⟨0x1C0, 0x10, 2, 0x0, 0x0, 0x0, 0x0, 0x0, 0x0, 0x0⟩,
   ⟨0x1C4, 0x10, 2, 0x0, 0x0, 0x0, 0x0, 0x0, 0x0, 0x0⟩,
   ⟨0x1C8, 0x10, 2, 0x0, 0x0, 0x0, 0x0, 0x0, 0x0, 0x0⟩,
   ⟨0x1CC, 0x10, 2, 0x0, 0x0, 0x0, 0x0, 0x0, 0x0, 0x0⟩]

/-- Register rows of the SEQ page (R66, R210). -/
def rowsSEQ : List RegRow :=
  [⟨0x0, 0x4, 1, 0x0, 0x0, 0x0, 0x0, 0x0, 0x0, 0x0⟩,
   ⟨0x4, 0x4, 1, 0x0, 0x0, 0x0, 0x0, 0x0, 0x1, 0x0⟩,
   ⟨0x8, 0x4, 1, 0x0, 0x0, 0x0, 0x0, 0x0, 0x0, 0x0⟩,
   ⟨0xC, 0x4, 1, 0x0, 0x0, 0x1FF, 0x0, 0x0, 0x0, 0x0⟩,
   ⟨0x10, 0x4, 1, 0x0, 0x0, 0x0, 0x1FF, 0x0, 0x0, 0x0⟩,
   ⟨0x14, 0x4, 1, 0x0, 0x0, 0x0, 0x0, 0x0, 0x0, 0x0⟩,
   ⟨0x40, 0x4, 1, 0x0, 0x0, 0x0, 0x0, 0x0, 0x11F, 0x0⟩,
   ⟨0x44, 0x4, 1, 0x0, 0x0, 0x0, 0x0, 0x0, 0xFFFFFFFF, 0x0⟩,
   ⟨0x48, 0x4, 1, 0x0, 0x0, 0x0, 0x0, 0x0, 0x0, 0x0⟩,
   ⟨0x4C, 0x4, 1, 0x0, 0x0, 0x0, 0x0, 0x0, 0x0, 0x0⟩,
   ⟨0x50, 0x4, 1, 0x0, 0x0, 0x0, 0x0, 0x0, 0x0, 0x0⟩,
   ⟨0x54, 0x4, 1, 0x40, 0xFFFFFFFF, 0x0, 0x0, 0x0, 0x0, 0x0⟩,
   ⟨0x58, 0x4, 1, 0x40, 0xFFFFFFFF, 0x0, 0x0, 0x0, 0x0, 0x0⟩,
   ⟨0x5C, 0x4, 1, 0xA, 0xFFFF, 0x0, 0x0, 0x0, 0x0, 0x0⟩,
   ⟨0x60, 0x4, 1, 0x3E8055A, 0xFFFFFFFF, 0x0, 0x0, 0x0, 0x0, 0x0⟩,
   ⟨0x64, 0x4, 1, 0x0, 0x0, 0x0, 0x0, 0x0, 0x0, 0x0⟩,
   ⟨0x68, 0x4, 1, 0x1, 0x0, 0x1F, 0x0, 0x0, 0x0, 0x1F⟩,
   ⟨0x100, 0x10, 32, 0x8080A064, 0xFFFFFFFF, 0x0, 0x0, 0x0, 0x0, 0x0⟩,
   ⟨0x104, 0x10, 32, 0xA064021, 0xFFFFFFFF, 0x0, 0x0, 0x0, 0x0, 0x0⟩,
   ⟨0x108, 0x10, 32, 0x0, 0xFFFFFFFF, 0x0, 0x0, 0x0, 0x0, 0x0⟩,
   ⟨0x10C, 0x10, 32, 0x0, 0x0, 0x0, 0x0, 0x0, 0x0, 0x0⟩]

/-- Register rows of the PATH page (R66, R238). -/
def rowsPATH : List RegRow :=
  [⟨0x0, 0x4, 1, 0x0, 0x0, 0x0, 0x0, 0x0, 0x0, 0x0⟩,
   ⟨0x4, 0x4, 1, 0x0, 0xF, 0x0, 0x0, 0x0, 0x30, 0x0⟩,
   ⟨0x8, 0x4, 1, 0x0, 0x0, 0x0, 0x0, 0x0, 0x0, 0x0⟩,
   ⟨0xC, 0x4, 1, 0x0, 0x0, 0x7FFF, 0x0, 0x0, 0x0, 0x0⟩,
   ⟨0x10, 0x4, 1, 0x0, 0x0, 0x0, 0x7FFF, 0x0, 0x0, 0x0⟩,
   ⟨0x14, 0x4, 1, 0x0, 0x0, 0x0, 0x0, 0x0, 0x0, 0x0⟩,
   ⟨0x40, 0x4, 1, 0x1402D032, 0x3FFFFCFF, 0x0, 0x0, 0x0, 0x0, 0x0⟩,
   ⟨0x44, 0x4, 1, 0x140130, 0xFFFFFFF0, 0x0, 0x0, 0x0, 0x0, 0x0⟩,
   ⟨0x48, 0x4, 1, 0x96001388, 0xFF00FFFF, 0x0, 0x0, 0x0, 0x0, 0x0⟩,
   ⟨0x4C, 0x4, 1, 0x4E2000DC, 0xFFFF01FF, 0x0, 0x0, 0x0, 0x0, 0x0⟩,
   ⟨0x50, 0x4, 1, 0x283C14, 0xFFFFFF, 0x0, 0x0, 0x0, 0x0, 0x0⟩,
   ⟨0x54, 0x4, 1, 0x3283840, 0xFFFFFFFF, 0x0, 0x0, 0x0, 0x0, 0x0⟩,
   ⟨0x58, 0x4, 1, 0x27101F40, 0xFFFFFFFF, 0x0, 0x0, 0x0, 0x0, 0x0⟩,
   ⟨0x5C, 0x4, 1, 0x7D000C8, 0xFFFFFFFF, 0x0, 0x0, 0x0, 0x0, 0x0⟩,
   ⟨0x60, 0x4, 1, 0x1F40064, 0xFFFFFFFF, 0x0, 0x0, 0x0, 0x0, 0x0⟩,
   ⟨0x64, 0x4, 1, 0x3C3C2580, 0xFFFFFFF0, 0x0, 0x0, 0x0, 0x0, 0x0⟩,
   ⟨0x68, 0x4, 1, 0x3C0A7803, 0xFFFFFF03, 0x0, 0x0, 0x0, 0x0, 0x0⟩,
   ⟨0x6C, 0x4, 1, 0x2D0041E7, 0xFFFFFFFF, 0x0, 0x0, 0x0, 0x0, 0x0⟩,
   ⟨0x70, 0x4, 1, 0xF078280A, 0xF0FFFFFF, 0x0, 0x0, 0x0, 0x0, 0x0⟩,
   ⟨0x74, 0x4, 1, 0x0, 0x0, 0x0, 0x0, 0x0, 0x0, 0x0⟩,
   ⟨0x78, 0x4, 1, 0x0, 0x0, 0x0, 0x0, 0x0, 0x0, 0x0⟩,
   ⟨0x7C, 0x4, 1, 0x0, 0x0, 0x0, 0x0, 0x0, 0x0, 0x0⟩,
   ⟨0x80, 0x4, 1, 0x0, 0x0, 0x0, 0x0, 0x0, 0x0, 0x0⟩,
   ⟨0x84, 0x4, 1, 0x0, 0x0, 0x0, 0x0, 0x0, 0x0, 0x0⟩]

/-- Register rows of the GAUGE page (R66, R259). -/
def rowsGAUGE : List RegRow :=
  [⟨0x0, 0x4, 1, 0x0, 0x0, 0x0, 0x0, 0x0, 0x0, 0x0⟩,
   ⟨0x4, 0x4, 1, 0x0, 0x1, 0x0, 0x0, 0x0, 0xE, 0x0⟩,
   ⟨0x8, 0x4, 1, 0x0, 0x0, 0x0, 0x0, 0x0, 0x0, 0x0⟩,
   ⟨0xC, 0x4, 1, 0x0, 0x0, 0xFFF, 0x0, 0x0, 0x0, 0x0⟩,
   ⟨0x10, 0x4, 1, 0x0, 0x0, 0x0, 0xFFF, 0x0, 0x0, 0x0⟩,
   ⟨0x14, 0x4, 1, 0x0, 0x0, 0x0, 0x0, 0x0, 0x0, 0x0⟩,
   ⟨0x40, 0x4, 1, 0x64, 0xFFFF, 0x0, 0x0, 0x0, 0x0, 0x0⟩,
   ⟨0x44, 0x4, 1, 0x60400032, 0xFFF0FFFF, 0x0, 0x0, 0x0, 0x0, 0x0⟩,
   ⟨0x48, 0x4, 1, 0x3C0000, 0xFFFF0000, 0x0, 0x0, 0x0, 0x0, 0x0⟩,
   ⟨0x4C, 0x4, 1, 0x0, 0xFFFFFFFF, 0x0, 0x0, 0x0, 0x0, 0x0⟩,
   ⟨0x50, 0x4, 1, 0xAF00500, 0xFFFFFF00, 0x0, 0x0, 0x0, 0x0, 0x0⟩,
   ⟨0x54, 0x4, 1, 0x7080A64, 0xFFFFFFFF, 0x0, 0x0, 0x0, 0x0, 0x0⟩,
   ⟨0x58, 0x4, 1, 0x280A0000, 0xFFFFFFFF, 0x0, 0x0, 0x0, 0x0, 0x0⟩,
   ⟨0x5C, 0x4, 1, 0x320FA860, 0xFFFFFFF0, 0x0, 0x0, 0x0, 0x0, 0x0⟩,
   ⟨0x60, 0x4, 1, 0x8000000, 0xFF000000, 0x0, 0x0, 0x0, 0x0, 0x0⟩,
   ⟨0x64, 0x4, 1, 0x7D00000, 0xFFFF0000, 0x0, 0x0, 0x0, 0x0, 0x0⟩,
   ⟨0x68, 0x4, 1, 0x5A0F0C, 0xFFFFFF, 0x0, 0x0, 0x0, 0xC0000000, 0x0⟩,
   ⟨0x6C, 0x4, 1, 0x0, 0xFFFFFFFF, 0x0, 0x0, 0x0, 0x0, 0x0⟩,
   ⟨0x70, 0x4, 1, 0x0, 0x0, 0x0, 0x0, 0x0, 0x0, 0x0⟩,
   ⟨0x80, 0x4, 1, 0x0, 0x0, 0x0, 0x0, 0x0, 0x0, 0x0⟩,
   ⟨0x84, 0x4, 1, 0x0, 0x0, 0x0, 0x0, 0x0, 0x0, 0x0⟩,
   ⟨0x88, 0x4, 1, 0x0, 0x0, 0x0, 0x0, 0x0, 0x0, 0x0⟩,
   ⟨0x8C, 0x4, 1, 0x0, 0x0, 0x0, 0x0, 0x0, 0x0, 0x0⟩,
   ⟨0x90, 0x4, 1, 0x0, 0xFFFFFFFF, 0x0, 0x0, 0x0, 0x0, 0x0⟩] ++
  [⟨0x94, 0x4, 1, 0x0, 0xFFFFFFFF, 0x0, 0x0, 0x0, 0x0, 0x0⟩,
   ⟨0x98, 0x4, 1, 0x0, 0x0, 0x0, 0x0, 0x0, 0x0, 0x0⟩,
   ⟨0x9C, 0x4, 1, 0x0, 0x0, 0x0, 0x0, 0x0, 0x0, 0x0⟩,
   ⟨0xA0, 0x4, 1, 0x0, 0x0, 0x0, 0x0, 0x0, 0x0, 0x0⟩,
   ⟨0xA4, 0x4, 1, 0xFFFF, 0x0, 0x0, 0x0, 0x0, 0x0, 0x0⟩,
   ⟨0xA8, 0x4, 1, 0x0, 0x0, 0x0, 0x0, 0x0, 0x0, 0x0⟩,
   ⟨0x100, 0x4, 32, 0x0, 0xFFFF3FFF, 0x0, 0x0, 0x0, 0x0, 0x0⟩,
   ⟨0x180, 0x4, 1, 0x0, 0x7FFFFFFF, 0x0, 0x0, 0x0, 0x0, 0x0⟩]

/-- Register rows of the THERM page (R66, R339). -/
def rowsTHERM : List RegRow :=
  [⟨0x0, 0x4, 1, 0x0, 0x0, 0x0, 0x0, 0x0, 0x0, 0x0⟩,
   ⟨0x4, 0x4, 1, 0x31, 0xF3, 0x0, 0x0, 0x0, 0x0, 0x0⟩,
   ⟨0x8, 0x4, 1, 0xF0000000, 0x0, 0x80, 0x0, 0x0, 0x0, 0xFFFC0080⟩,
   ⟨0xC, 0x4, 1, 0x0, 0x0, 0x3F, 0x0, 0x0, 0x0, 0x0⟩,
   ⟨0x10, 0x4, 1, 0x0, 0x0, 0x0, 0x3F, 0x0, 0x0, 0x0⟩,
   ⟨0x14, 0x4, 1, 0x0, 0x0, 0x0, 0x0, 0x0, 0x0, 0x0⟩,
   ⟨0x40, 0x4, 1, 0x19100020, 0xFFFF1FFF, 0x0, 0x0, 0x0, 0x0, 0x0⟩,
   ⟨0x44, 0x4, 1, 0x0, 0x0, 0x0, 0x0, 0x0, 0x0, 0x0⟩,
   ⟨0x48, 0x4, 1, 0x244F06E, 0x7FFFFFF, 0x0, 0x0, 0x0, 0x0, 0x0⟩,
   ⟨0x4C, 0x4, 1, 0x50A5, 0x7FFF, 0x0, 0x0, 0x0, 0x0, 0x0⟩,
   ⟨0x50, 0x4, 1, 0xA, 0xFF, 0x0, 0x0, 0x0, 0x0, 0x0⟩,
   ⟨0x54, 0x4, 1, 0x0, 0x0, 0x0, 0x0, 0x0, 0xFFFF, 0x0⟩,
   ⟨0x58, 0x4, 1, 0x0, 0x0, 0x0, 0x0, 0x0, 0x0, 0xFFFF000F⟩,
   ⟨0x5C, 0x4, 1, 0x0, 0x0, 0x0, 0x0, 0x0, 0x0, 0x0⟩,
   ⟨0x80, 0x4, 9, 0x0, 0x0, 0x0, 0x0, 0x0, 0x0, 0xFFFF0000⟩,
   ⟨0xC0, 0x10, 6, 0xD6B2760, 0xFFFFFFFF, 0x0, 0x0, 0x0, 0x0, 0x0⟩,
   ⟨0xC4, 0x10, 6, 0x1F4DC64, 0x7FFFFFF, 0x0, 0x0, 0x0, 0x0, 0x0⟩,
   ⟨0xC8, 0x10, 6, 0x28A5, 0x7FFF, 0x0, 0x0, 0x0, 0x0, 0x0⟩,
   ⟨0xCC, 0x10, 6, 0x37FFF, 0x0, 0x0, 0x0, 0x0, 0x0, 0x0⟩]

/-- Register rows of the FAULT page (R66, R355). -/
def rowsFAULT : List RegRow :=
  [⟨0x0, 0x4, 1, 0x0, 0x0, 0x0, 0x0, 0x0, 0x0, 0x0⟩,
   ⟨0x4, 0x4, 1, 0x0, 0x0, 0x0, 0x0, 0x0, 0x1, 0x0⟩,
   ⟨0x8, 0x4, 1, 0x0, 0x0, 0x0, 0x0, 0x0, 0x0, 0xF⟩,
   ⟨0xC, 0x4, 1, 0x0, 0x0, 0x1F, 0x0, 0x0, 0x0, 0x0⟩,
   ⟨0x10, 0x4, 1, 0x0, 0x0, 0x0, 0x1F, 0x0, 0x0, 0x0⟩,
   ⟨0x14, 0x4, 1, 0x0, 0x0, 0x0, 0x0, 0x0, 0x0, 0x0⟩,
   ⟨0x40, 0x4, 2, 0x0, 0x0, 0x0, 0x0, 0x0, 0x0, 0xFFFFFFFF⟩,
   ⟨0x48, 0x4, 2, 0x0, 0x0, 0x0, 0x0, 0x0, 0x0, 0xFFFFFFFF⟩,
   ⟨0x50, 0x4, 2, 0x0, 0x0, 0x0, 0x0, 0x0, 0x0, 0xFFFFFFFF⟩,
   ⟨0x58, 0x4, 2, 0x0, 0x0, 0x0, 0x0, 0x0, 0x0, 0xFFFFFFFF⟩,
   ⟨0x60, 0x4, 1, 0x0, 0x0, 0x0, 0x0, 0x0, 0x0, 0xFFFFF01F⟩,
   ⟨0x64, 0x4, 1, 0x0, 0x0, 0x0, 0x0, 0x0, 0x0, 0x3F00⟩,
   ⟨0x68, 0x4, 1, 0x4000000A, 0xCF0000FF, 0x0, 0x0, 0x0, 0x0, 0x0⟩,
   ⟨0x70, 0x4, 2, 0x0, 0x0, 0x0, 0x0, 0x0, 0xFFFFFFFF, 0x0⟩,
   ⟨0x100, 4, 3, 0x71, 0x7F, 0x0, 0x0, 0x0, 0x0, 0x0⟩,
   ⟨0x10C, 4, 1, 0x51, 0x7F, 0x0, 0x0, 0x0, 0x0, 0x0⟩,
   ⟨0x110, 4, 1, 0x41, 0x7F, 0x0, 0x0, 0x0, 0x0, 0x0⟩,
   ⟨0x114, 4, 1, 0x31, 0x7F, 0x0, 0x0, 0x0, 0x0, 0x0⟩,
   ⟨0x118, 4, 1, 0x41, 0x7F, 0x0, 0x0, 0x0, 0x0, 0x0⟩,
   ⟨0x11C, 4, 1, 0x71, 0x7F, 0x0, 0x0, 0x0, 0x0, 0x0⟩,
   ⟨0x120, 4, 1, 0x31, 0x7F, 0x0, 0x0, 0x0, 0x0, 0x0⟩,
   ⟨0x124, 4, 4, 0x71, 0x7F, 0x0, 0x0, 0x0, 0x0, 0x0⟩,
   ⟨0x134, 4, 1, 0x41, 0x7F, 0x0, 0x0, 0x0, 0x0, 0x0⟩,
   ⟨0x138, 4, 1, 0x71, 0x7F, 0x0, 0x0, 0x0, 0x0, 0x0⟩] ++
  [⟨0x13C, 4, 1, 0x41, 0x7F, 0x0, 0x0, 0x0, 0x0, 0x0⟩,
   ⟨0x140, 4, 4, 0x71, 0x7F, 0x0, 0x0, 0x0, 0x0, 0x0⟩,
   ⟨0x150, 4, 1, 0x31, 0x7F, 0x0, 0x0, 0x0, 0x0, 0x0⟩,
   ⟨0x154, 4, 1, 0x51, 0x7F, 0x0, 0x0, 0x0, 0x0, 0x0⟩,
   ⟨0x158, 4, 1, 0x41, 0x7F, 0x0, 0x0, 0x0, 0x0, 0x0⟩,
   ⟨0x15C, 4, 1, 0x51, 0x7F, 0x0, 0x0, 0x0, 0x0, 0x0⟩,
   ⟨0x160, 4, 1, 0x11, 0x7F, 0x0, 0x0, 0x0, 0x0, 0x0⟩,
   ⟨0x164, 4, 2, 0x51, 0x7F, 0x0, 0x0, 0x0, 0x0, 0x0⟩,
   ⟨0x16C, 4, 1, 0x41, 0x7F, 0x0, 0x0, 0x0, 0x0, 0x0⟩,
   ⟨0x170, 4, 2, 0x51, 0x7F, 0x0, 0x0, 0x0, 0x0, 0x0⟩,
   ⟨0x178, 4, 3, 0x41, 0x7F, 0x0, 0x0, 0x0, 0x0, 0x0⟩,
   ⟨0x184, 4, 3, 0x31, 0x7F, 0x0, 0x0, 0x0, 0x0, 0x0⟩,
   ⟨0x190, 4, 2, 0x51, 0x7F, 0x0, 0x0, 0x0, 0x0, 0x0⟩,
   ⟨0x198, 4, 1, 0x11, 0x7F, 0x0, 0x0, 0x0, 0x0, 0x0⟩,
   ⟨0x19C, 4, 1, 0x31, 0x7F, 0x0, 0x0, 0x0, 0x0, 0x0⟩,
   ⟨0x1A0, 4, 1, 0x71, 0x7F, 0x0, 0x0, 0x0, 0x0, 0x0⟩,
   ⟨0x1A4, 4, 2, 0x32, 0x7F, 0x0, 0x0, 0x0, 0x0, 0x0⟩,
   ⟨0x1AC, 4, 1, 0x41, 0x7F, 0x0, 0x0, 0x0, 0x0, 0x0⟩,
   ⟨0x1B0, 4, 1, 0x71, 0x7F, 0x0, 0x0, 0x0, 0x0, 0x0⟩,
   ⟨0x1B4, 4, 1, 0x31, 0x7F, 0x0, 0x0, 0x0, 0x0, 0x0⟩,
   ⟨0x1B8, 4, 1, 0x51, 0x7F, 0x0, 0x0, 0x0, 0x0, 0x0⟩,
   ⟨0x1BC, 4, 1, 0x11, 0x7F, 0x0, 0x0, 0x0, 0x0, 0x0⟩,
   ⟨0x1C0, 0x4, 12, 0x0, 0x0, 0x0, 0x0, 0xFFFFFFFF, 0x0, 0xFFFFFFFF⟩,
   ⟨0x200, 0x4, 12, 0x0, 0x0, 0x0, 0x0, 0x0, 0x0, 0xFFFFFFFF⟩] ++
  [⟨0x240, 0x4, 48, 0x64E103, 0xFFFFFFFF, 0x0, 0x0, 0x0, 0x0, 0x0⟩,
   ⟨0x300, 0x10, 16, 0x0, 0x0, 0x0, 0x0, 0x0, 0x0, 0xFFFFFFFF⟩,
   ⟨0x304, 0x10, 16, 0x0, 0x0, 0x0, 0x0, 0x0, 0x0, 0xFFFFFFFF⟩,
   ⟨0x308, 0x10, 16, 0x0, 0x0, 0x0, 0x0, 0x0, 0x0, 0xFFFFC1FF⟩,
   ⟨0x30C, 0x10, 16, 0x0, 0x0, 0x0, 0x0, 0x0, 0x0, 0xFFFFFFFF⟩]

/-- Register rows of the INTC page (R66, R366). -/
def rowsINTC : List RegRow :=
  [⟨0x0, 0x4, 1, 0x0, 0x0, 0x0, 0x0, 0x0, 0x0, 0x0⟩,
   ⟨0x4, 0x4, 1, 0x0, 0x3, 0x0, 0x0, 0x0, 0x0, 0x0⟩,
   ⟨0x8, 0x4, 1, 0x0, 0x0, 0x0, 0x0, 0x0, 0x0, 0x0⟩,
   ⟨0xC, 0x4, 1, 0x0, 0x0, 0x1F, 0x0, 0x0, 0x0, 0x0⟩,
   ⟨0x10, 0x4, 1, 0x0, 0x0, 0x0, 0x1F, 0x0, 0x0, 0x0⟩,
   ⟨0x14, 0x4, 1, 0x0, 0x0, 0x0, 0x0, 0x0, 0x0, 0x0⟩,
   ⟨0x40, 0x4, 1, 0x0, 0x0, 0x0, 0xFFFFFFFF, 0x0, 0x0, 0x0⟩,
   ⟨0x44, 0x4, 1, 0x0, 0x0, 0x0, 0xFFFFFFFF, 0x0, 0x0, 0x0⟩,
   ⟨0x48, 0x4, 1, 0x0, 0x0, 0x0, 0xFFFFFFFF, 0x0, 0x0, 0x0⟩,
   ⟨0x4C, 0x4, 1, 0x0, 0x0, 0x0, 0xFFFFFFFF, 0x0, 0x0, 0x0⟩,
   ⟨0x50, 0x4, 1, 0x0, 0x0, 0x0, 0xFFFFFFFF, 0x0, 0x0, 0x0⟩,
   ⟨0x54, 0x4, 1, 0x0, 0x0, 0x0, 0xFFFF, 0x0, 0x0, 0x0⟩,
   ⟨0x58, 0x4, 1, 0x0, 0x0, 0x0, 0x0, 0x0, 0x0, 0x0⟩,
   ⟨0x5C, 0x4, 1, 0x0, 0x0, 0x0, 0x0, 0x0, 0x0, 0x0⟩,
   ⟨0x60, 0x4, 1, 0x0, 0x0, 0x0, 0x0, 0x0, 0x0, 0x0⟩,
   ⟨0x80, 0x4, 8, 0x0, 0xFFFF, 0x0, 0x0, 0x0, 0x0, 0x0⟩,
   ⟨0x1A8, 0x4, 1, 0x12, 0xF17, 0x0, 0x0, 0x0, 0x0, 0x0⟩,
   ⟨0x1F0, 0x4, 3, 0x0, 0xF17, 0x0, 0x0, 0x0, 0x0, 0x0⟩,
   ⟨0x100, 0x4, 64, 0x2, 0xF17, 0x0, 0x0, 0x0, 0x0, 0x0⟩,
   ⟨0x204, 0x4, 1, 0x0, 0xF07, 0x0, 0x0, 0x0, 0x0, 0x0⟩,
   ⟨0x200, 0x4, 16, 0x2, 0xF07, 0x0, 0x0, 0x0, 0x0, 0x0⟩,
   ⟨0x304, 0x4, 1, 0x0, 0xF07, 0x0, 0x0, 0x0, 0x0, 0x0⟩,
   ⟨0x300, 0x4, 16, 0x2, 0xF07, 0x0, 0x0, 0x0, 0x0, 0x0⟩,
   ⟨0x240, 0x4, 1, 0x0, 0x0, 0x0, 0xFFFF, 0x0, 0x0, 0x0⟩] ++
  [⟨0x340, 0x4, 1, 0x0, 0x0, 0x0, 0xFFFF, 0x0, 0x0, 0x0⟩,
   ⟨0x244, 0x4, 1, 0x0, 0x0, 0x0, 0xFFFF, 0x0, 0x0, 0x0⟩,
   ⟨0x344, 0x4, 1, 0x0, 0x0, 0x0, 0xFFFF, 0x0, 0x0, 0x0⟩,
   ⟨0x248, 0x4, 1, 0x0, 0x0, 0x0, 0x0, 0x0, 0x0, 0x0⟩,
   ⟨0x348, 0x4, 1, 0x0, 0x0, 0x0, 0x0, 0x0, 0x0, 0x0⟩,
   ⟨0x24C, 0x4, 1, 0x0, 0x0, 0x0, 0x0, 0x0, 0x0, 0x0⟩,
   ⟨0x34C, 0x4, 1, 0x0, 0x0, 0x0, 0x0, 0x0, 0x0, 0x0⟩]

/-- Register rows of the RECORD page (R66, R390). -/
def rowsRECORD : List RegRow :=
  [⟨0x0, 0x4, 1, 0x0, 0x0, 0x0, 0x0, 0x0, 0x0, 0x0⟩,
   ⟨0x4, 0x4, 1, 0xE, 0xE, 0x0, 0x0, 0x0, 0x0, 0x0⟩,
   ⟨0x8, 0x4, 1, 0x0, 0x0, 0x0, 0x0, 0x0, 0x0, 0x0⟩,
   ⟨0xC, 0x4, 1, 0x0, 0x0, 0xF, 0x0, 0x0, 0x0, 0x0⟩,
   ⟨0x10, 0x4, 1, 0x0, 0x0, 0x0, 0xF, 0x0, 0x0, 0x0⟩,
   ⟨0x14, 0x4, 1, 0x0, 0x0, 0x0, 0x0, 0x0, 0x0, 0x0⟩,
   ⟨0x40, 0x4, 1, 0x0, 0x0, 0x0, 0x0, 0x0, 0xF00000FF, 0x0⟩,
   ⟨0x44, 0x4, 1, 0x0, 0x0, 0x0, 0x0, 0x0, 0x0, 0x0⟩,
   ⟨0x48, 0x4, 1, 0x640080, 0xFFFF07FF, 0x0, 0x0, 0x0, 0x0, 0x0⟩,
   ⟨0x4C, 0x4, 1, 0x0, 0x0, 0x0, 0x0, 0x0, 0x0, 0xFFFFFFFF⟩,
   ⟨0x50, 0x4, 1, 0x0, 0x0, 0x0, 0x0, 0x0, 0x0, 0xFFFFFFFF⟩,
   ⟨0x54, 0x4, 1, 0x0, 0x0, 0x0, 0x0, 0x0, 0x0, 0xFFFFFFFF⟩,
   ⟨0x58, 0x4, 1, 0x0, 0x0, 0x0, 0x0, 0x0, 0x0, 0xFFFFFFFF⟩,
   ⟨0x5C, 0x4, 1, 0x0, 0x0, 0x0, 0x0, 0x0, 0x0, 0xFFFFFFFF⟩,
   ⟨0x60, 0x4, 1, 0x0, 0x0, 0x0, 0x0, 0x0, 0x0, 0xFFFFFFFF⟩,
   ⟨0x64, 0x4, 1, 0x0, 0x0, 0x0, 0x0, 0x0, 0x0, 0x0⟩,
   ⟨0x68, 0x4, 1, 0x3E8, 0xFFFF, 0x0, 0x0, 0x0, 0x0, 0x0⟩,
   ⟨0x80, 0x4, 12, 0x0, 0xFFFFFFFF, 0x0, 0x0, 0x0, 0x0, 0x0⟩,
   ⟨0x100, 0x4, 32, 0x0, 0x0, 0x0, 0x0, 0x0, 0x0, 0x0⟩]

/-- Register rows of the FLASH page (R66, R391). -/
def rowsFLASH : List RegRow :=
  [⟨0x0, 0x4, 1, 0x0, 0x0, 0x0, 0x0, 0x0, 0x0, 0x0⟩,
   ⟨0x4, 0x4, 1, 0x1, 0x3, 0x0, 0x0, 0x0, 0x4, 0x0⟩,
   ⟨0x8, 0x4, 1, 0x0, 0x0, 0x0, 0x0, 0x0, 0x0, 0x0⟩,
   ⟨0xC, 0x4, 1, 0x0, 0x0, 0x7, 0x0, 0x0, 0x0, 0x0⟩,
   ⟨0x10, 0x4, 1, 0x0, 0x0, 0x0, 0x7, 0x0, 0x0, 0x0⟩,
   ⟨0x14, 0x4, 1, 0x0, 0x0, 0x0, 0x0, 0x0, 0x0, 0x0⟩,
   ⟨0x40, 0x4, 1, 0x200, 0x7FF, 0x0, 0x0, 0x0, 0x0, 0x0⟩,
   ⟨0x44, 0x4, 1, 0x0, 0x0, 0x0, 0x0, 0x0, 0x0, 0x0⟩,
   ⟨0x48, 0x4, 1, 0x1F4000A, 0xFFFFFFFF, 0x0, 0x0, 0x0, 0x0, 0x0⟩,
   ⟨0x4C, 0x4, 1, 0x0, 0x0, 0x0, 0x0, 0x0, 0x0, 0x0⟩,
   ⟨0x50, 0x4, 1, 0x0, 0x7FFFFFF, 0x0, 0x0, 0x0, 0x0, 0x0⟩,
   ⟨0x54, 0x4, 1, 0x0, 0x0, 0x0, 0x0, 0x0, 0xF00001FF, 0x0⟩,
   ⟨0x58, 0x4, 1, 0x0, 0x0, 0x0, 0x0, 0x0, 0x0, 0x0⟩,
   ⟨0x88, 0x8, 7, 0x0, 0x0, 0x0, 0x0, 0x0, 0x0, 0x0⟩,
   ⟨0x8C, 0x8, 7, 0x0, 0x0, 0x0, 0x0, 0x0, 0x0, 0x0⟩,
   ⟨0x100, 0x4, 64, 0x0, 0xFFFFFFFF, 0x0, 0x0, 0x0, 0x0, 0x0⟩]

/-- Register rows of the OTP page (R66, R410). -/
def rowsOTP : List RegRow :=
  [⟨0x0, 0x4, 1, 0x0, 0x0, 0x0, 0x0, 0x0, 0x0, 0x0⟩,
   ⟨0x4, 0x4, 1, 0x0, 0x0, 0x0, 0x0, 0x0, 0x1, 0x0⟩,
   ⟨0x8, 0x4, 1, 0x3, 0x0, 0x0, 0x0, 0x0, 0x0, 0x0⟩,
   ⟨0xC, 0x4, 1, 0x0, 0x0, 0xF, 0x0, 0x0, 0x0, 0x0⟩,
   ⟨0x10, 0x4, 1, 0x0, 0x0, 0x0, 0xF, 0x0, 0x0, 0x0⟩,
   ⟨0x14, 0x4, 1, 0x0, 0x0, 0x0, 0x0, 0x0, 0x0, 0x0⟩,
   ⟨0x40, 0x4, 1, 0x0, 0xFFFFFFFF, 0x0, 0x0, 0x0, 0x0, 0x0⟩,
   ⟨0x44, 0x4, 1, 0x0, 0x0, 0x0, 0x0, 0x0, 0x0, 0x0⟩,
   ⟨0x48, 0x4, 1, 0x0, 0x0, 0x0, 0x0, 0x0, 0xFCFF07FF, 0x0⟩,
   ⟨0x4C, 0x4, 1, 0x0, 0x0, 0x0, 0x0, 0x0, 0x0, 0x0⟩,
   ⟨0x50, 0x4, 1, 0x0, 0x7F, 0x0, 0x0, 0x0, 0x0, 0x0⟩,
   ⟨0x54, 0x4, 1, 0x0, 0x7F, 0x0, 0x0, 0x0, 0x0, 0x0⟩,
   ⟨0x58, 0x4, 1, 0x0, 0x0, 0x0, 0x0, 0x0, 0x0, 0x0⟩,
   ⟨0x5C, 0x4, 1, 0x0, 0x0, 0x0, 0x0, 0xFFFF, 0x0, 0x0⟩,
   ⟨0x60, 0x4, 8, 0x0, 0x0, 0x0, 0x0, 0x0, 0x0, 0x0⟩,
   ⟨0x80, 0x4, 1, 0x40000000, 0x0, 0x0, 0x0, 0x0, 0x0, 0x0⟩]

/-- Register rows of the TIMER page (R66, R419). -/
def rowsTIMER : List RegRow :=
  [⟨0x0, 0x4, 1, 0x0, 0x0, 0x0, 0x0, 0x0, 0x0, 0x0⟩,
   ⟨0xC, 0x4, 1, 0x0, 0x0, 0xFFFF, 0x0, 0x0, 0x0, 0x0⟩,
   ⟨0x10, 0x4, 1, 0x0, 0x0, 0x0, 0xFFFF, 0x0, 0x0, 0x0⟩,
   ⟨0x14, 0x4, 1, 0x0, 0x0, 0x0, 0x0, 0x0, 0x0, 0x0⟩,
   ⟨0x4, 0x4, 2, 0x0, 0x0, 0x0, 0x0, 0x0, 0x0, 0x0⟩,
   ⟨0x40, 0x40, 4, 0x100, 0x13F7, 0x0, 0x0, 0x0, 0x0, 0x0⟩,
   ⟨0x44, 0x40, 4, 0x10000, 0xFFFFFFFF, 0x0, 0x0, 0x0, 0x0, 0x0⟩,
   ⟨0x48, 0x40, 4, 0x0, 0xFFFFFFFF, 0x0, 0x0, 0x0, 0x0, 0x0⟩,
   ⟨0x4C, 0x40, 4, 0x0, 0xFFFFFFFF, 0x0, 0x0, 0x0, 0x0, 0x0⟩,
   ⟨0x50, 0x40, 4, 0x0, 0xFFFFFFFF, 0x0, 0x0, 0x0, 0x0, 0x0⟩,
   ⟨0x54, 0x40, 4, 0x0, 0xFFFFFFFF, 0x0, 0x0, 0x0, 0x0, 0x0⟩,
   ⟨0x58, 0x40, 4, 0x10, 0xFF800F31, 0x0, 0x0, 0x0, 0x0, 0x0⟩,
   ⟨0x5C, 0x40, 4, 0x0, 0xFFFFFFFF, 0x0, 0x0, 0x0, 0x0, 0x0⟩,
   ⟨0x60, 0x40, 4, 0x0, 0xFFFFFFFF, 0x0, 0x0, 0x0, 0x0, 0x0⟩,
   ⟨0x64, 0x40, 4, 0x0, 0x0, 0x0, 0x0, 0x0, 0x7, 0x0⟩,
   ⟨0x68, 0x40, 4, 0x0, 0x0, 0x0, 0x0, 0x0, 0x0, 0x0⟩,
   ⟨0x6C, 0x40, 4, 0x0, 0x0, 0x0, 0x0, 0x0, 0x0, 0x0⟩,
   ⟨0x70, 0x40, 4, 0x0, 0x0, 0x0, 0x0, 0x0, 0x0, 0x0⟩,
   ⟨0x74, 0x40, 4, 0x0, 0x0, 0x0, 0x0, 0xFFFF0000, 0x0, 0x0⟩]

/-- Register rows of the CRC page (R66, R424). -/
def rowsCRC : List RegRow :=
  [⟨0x0, 0x4, 1, 0x0, 0x0, 0x0, 0x0, 0x0, 0x0, 0x0⟩,
   ⟨0x4, 0x4, 1, 0x0, 0x3, 0x0, 0x0, 0x0, 0x100, 0x0⟩,
   ⟨0x8, 0x4, 1, 0x0, 0x0, 0x6, 0x0, 0x0, 0x0, 0x0⟩,
   ⟨0xC, 0x4, 1, 0x0, 0x0, 0x3, 0x0, 0x0, 0x0, 0x0⟩,
   ⟨0x10, 0x4, 1, 0x0, 0x0, 0x0, 0x3, 0x0, 0x0, 0x0⟩,
   ⟨0x14, 0x4, 1, 0x0, 0x0, 0x0, 0x0, 0x0, 0x0, 0x0⟩,
   ⟨0x40, 0x4, 1, 0x0, 0x0, 0x0, 0x0, 0x0, 0xFF, 0x0⟩,
   ⟨0x44, 0x4, 1, 0x0, 0x0, 0x0, 0x0, 0x0, 0xFFFF, 0x0⟩,
   ⟨0x48, 0x4, 1, 0x0, 0x0, 0x0, 0x0, 0x0, 0xFFFFFFFF, 0x0⟩,
   ⟨0x4C, 0x4, 1, 0x0, 0x0, 0x0, 0x0, 0x0, 0x0, 0x0⟩,
   ⟨0x50, 0x4, 1, 0x0, 0xFF, 0x0, 0x0, 0x0, 0x0, 0x0⟩]

/-- Register rows of the GPIO page (R66, R190). -/
def rowsGPIO : List RegRow :=
  [⟨0x0, 0x4, 1, 0x0, 0x0, 0x0, 0x0, 0x0, 0x0, 0x0⟩,
   ⟨0xC, 0x4, 1, 0x0, 0x0, 0xFFF, 0x0, 0x0, 0x0, 0x0⟩,
   ⟨0x10, 0x4, 1, 0x0, 0x0, 0x0, 0xFFF, 0x0, 0x0, 0x0⟩,
   ⟨0x14, 0x4, 1, 0x0, 0x0, 0x0, 0x0, 0x0, 0x0, 0x0⟩,
   ⟨0x4, 0x4, 2, 0x0, 0x0, 0x0, 0x0, 0x0, 0x0, 0x0⟩,
   ⟨0x40, 0x4, 12, 0x0, 0x37C, 0x0, 0x0, 0x0, 0x0, 0x0⟩]

/-- Register rows of the LINK page (R66, R299). -/
def rowsLINK : List RegRow :=
  [⟨0x0, 0x4, 1, 0x0, 0x0, 0x0, 0x0, 0x0, 0x0, 0x0⟩,
   ⟨0x4, 0x4, 1, 0x4, 0xFFFF3D, 0x0, 0x0, 0x0, 0x0, 0x0⟩,
   ⟨0x8, 0x4, 1, 0x0, 0x0, 0x0, 0x0, 0x0, 0x0, 0x0⟩,
   ⟨0xC, 0x4, 1, 0x0, 0x0, 0x1FFF, 0x0, 0x0, 0x0, 0x0⟩,
   ⟨0x10, 0x4, 1, 0x0, 0x0, 0x0, 0x1FFF, 0x0, 0x0, 0x0⟩,
   ⟨0x14, 0x4, 1, 0x0, 0x0, 0x0, 0x0, 0x0, 0x0, 0x0⟩,
   ⟨0x40, 0x4, 1, 0x202, 0x707, 0x0, 0x0, 0x0, 0x0, 0x0⟩,
   ⟨0x44, 0x4, 1, 0x20CCD, 0x3FFFF, 0x0, 0x0, 0x0, 0x0, 0x0⟩,
   ⟨0x48, 0x4, 2, 0x0, 0x0, 0x0, 0xFFFFFFFF, 0x0, 0x0, 0x0⟩,
   ⟨0x50, 0x4, 1, 0x0, 0x0, 0x0, 0x0, 0x0, 0x0, 0x0⟩,
   ⟨0x54, 0x4, 2, 0x0, 0x0, 0xFFFFFFFF, 0x0, 0x0, 0x0, 0x0⟩,
   ⟨0x5C, 0x4, 2, 0x0, 0x0, 0xFFFFFFFF, 0x0, 0x0, 0x0, 0x0⟩,
   ⟨0x64, 0x4, 2, 0x0, 0x0, 0x0, 0x0, 0x0, 0x0, 0x0⟩,
   ⟨0x6C, 0x4, 2, 0x0, 0x0, 0xFFFFFFFF, 0x0, 0x0, 0x0, 0x0⟩,
   ⟨0x74, 0x4, 2, 0x0, 0x0, 0x0, 0xFFFFFFFF, 0x0, 0x0, 0x0⟩,
   ⟨0x7C, 0x4, 2, 0x0, 0x0, 0x0, 0x0, 0x0, 0x0, 0x0⟩,
   ⟨0x84, 0x4, 1, 0x0, 0x0, 0x0, 0x0, 0x0, 0x0, 0x0⟩,
   ⟨0x88, 0x4, 1, 0x0, 0x0, 0x0, 0x0, 0x0, 0x0, 0x0⟩,
   ⟨0x8C, 0x4, 1, 0x0, 0x0, 0x0, 0x0, 0x0, 0x0, 0x0⟩,
   ⟨0x90, 0x4, 1, 0x0, 0x0, 0x0, 0x0, 0x0, 0x0, 0x0⟩,
   ⟨0xA0, 0x4, 4, 0x0, 0xFFFFFFFF, 0x0, 0x0, 0x0, 0x0, 0x0⟩,
   ⟨0xB0, 0x4, 1, 0x0, 0x0, 0x0, 0x0, 0x0, 0xBF, 0x0⟩,
   ⟨0xB4, 0x4, 1, 0x0, 0x0, 0x0, 0x0, 0x0, 0x0, 0x0⟩,
   ⟨0xB8, 0x4, 1, 0x8000A, 0xFF00FF, 0x0, 0x0, 0x0, 0x0, 0x0⟩] ++
  [⟨0xC0, 0x4, 1, 0x0, 0x0, 0x0, 0x0, 0xFFFFFFFF, 0x0, 0x0⟩,
   ⟨0xC4, 0x4, 1, 0x0, 0x0, 0x0, 0x0, 0xFFFFFFFF, 0x0, 0x0⟩,
   ⟨0xC8, 0x4, 1, 0x0, 0x0, 0x0, 0x0, 0xFFFF, 0x0, 0x0⟩]

/-- Range rules of the SYS page. -/
def normsSYS : List NormRow :=
  [⟨0x60, 0x4, 1, 0, 16, .clamp 1 65535⟩]

/-- Range rules of the HOSTIF page. -/
def normsHOSTIF : List NormRow :=
  [⟨0x48, 0x4, 1, 16, 16, .clamp 1 65535⟩,
   ⟨0x50, 0x4, 1, 16, 8, .clamp 0 99⟩,
   ⟨0x50, 0x4, 1, 0, 16, .clamp 1 60000⟩]

/-- Range rules of the PLAN page. -/
def normsPLAN : List NormRow :=
  []

/-- Range rules of the LEDGER page. -/
def normsLEDGER : List NormRow :=
  [⟨0x6C, 0x4, 1, 0, 16, .clamp 100 65535⟩,
   ⟨0x74, 0x4, 1, 24, 8, .clamp 0 100⟩,
   ⟨0x74, 0x4, 1, 16, 8, .clamp 0 99⟩,
   ⟨0x74, 0x4, 1, 8, 8, .clamp 0 100⟩,
   ⟨0x74, 0x4, 1, 0, 8, .clamp 0 100⟩,
   ⟨0x78, 0x4, 1, 8, 8, .clamp 0 100⟩,
   ⟨0x90, 0x4, 1, 0, 8, .clamp 10 100⟩,
   ⟨0x98, 0x4, 1, 0, 16, .clamp 1 65535⟩,
   ⟨0x9C, 0x4, 1, 0, 2, .clamp 1 3⟩]

/-- Range rules of the CONV page. -/
def normsCONV : List NormRow :=
  [⟨0x80, 0x4, 16, 16, 7, .clamp 1 127⟩,
   ⟨0x80, 0x4, 16, 8, 7, .clamp 1 127⟩]

/-- Range rules of the LOOP page. -/
def normsLOOP : List NormRow :=
  [⟨0x44, 0x4, 1, 0, 9, .clamp 1 400⟩,
   ⟨0x4C, 0x4, 1, 0, 17, .clamp 10667 85333⟩,
   ⟨0x54, 0x4, 1, 0, 8, .clamp 1 255⟩,
   ⟨0x60, 0x4, 1, 28, 4, .clamp 1 15⟩,
   ⟨0x64, 0x4, 1, 16, 8, .clamp 1 255⟩,
   ⟨0x68, 0x4, 1, 0, 5, .clamp 2 20⟩,
   ⟨0x6C, 0x4, 1, 16, 5, .clamp 1 20⟩,
   ⟨0x70, 0x4, 1, 24, 5, .openRange 1 20 1⟩,
   ⟨0x70, 0x4, 1, 16, 8, .openRange 1 255 1⟩,
   ⟨0x70, 0x4, 1, 8, 5, .clamp 5 30⟩,
   ⟨0x70, 0x4, 1, 0, 5, .clamp 5 30⟩]

/-- Range rules of the PHASE page. -/
def normsPHASE : List NormRow :=
  []

/-- Range rules of the HEALTH page. -/
def normsHEALTH : List NormRow :=
  [⟨0x48, 0x4, 1, 24, 8, .clamp 1 255⟩,
   ⟨0x48, 0x4, 1, 16, 8, .clamp 1 255⟩,
   ⟨0x48, 0x4, 1, 0, 8, .clamp 2 20⟩,
   ⟨0x4C, 0x4, 1, 24, 8, .openRange 0 99 1⟩,
   ⟨0x4C, 0x4, 1, 16, 8, .clamp 0 100⟩,
   ⟨0x4C, 0x4, 1, 12, 4, .clamp 1 15⟩,
   ⟨0x4C, 0x4, 1, 8, 4, .clamp 1 15⟩,
   ⟨0x50, 0x4, 1, 0, 8, .clamp 20 95⟩,
   ⟨0x54, 0x4, 1, 0, 16, .clamp 1 65535⟩,
   ⟨0x308, 0x10, 16, 28, 4, .above 5 15⟩]

/-- Range rules of the RAILS page. -/
def normsRAILS : List NormRow :=
  [⟨0x40, 0x4, 2, 28, 4, .clamp 2 10⟩,
   ⟨0x40, 0x4, 2, 19, 5, .clamp 5 22⟩,
   ⟨0x40, 0x4, 2, 0, 13, .stepDown 800 5500 10⟩,
   ⟨0x50, 0x4, 4, 28, 4, .clamp 2 10⟩,
   ⟨0x50, 0x4, 4, 0, 13, .openRange 800 5000 10⟩,
   ⟨0x80, 0x8, 8, 16, 12, .clamp 200 3666⟩,
   ⟨0x80, 0x8, 8, 0, 12, .clamp 200 3666⟩,
   ⟨0xC8, 0x4, 1, 0, 3, .clamp 0 4⟩,
   ⟨0xCC, 0x4, 1, 16, 8, .clamp 1 255⟩,
   ⟨0xCC, 0x4, 1, 0, 16, .clamp 1 65535⟩]

/-- Range rules of the SEQ page. -/
def normsSEQ : List NormRow :=
  [⟨0x60, 0x4, 1, 16, 16, .clamp 1 65535⟩,
   ⟨0x60, 0x4, 1, 8, 8, .clamp 1 20⟩,
   ⟨0x60, 0x4, 1, 0, 8, .clamp 90 240⟩,
   ⟨0x100, 0x10, 32, 28, 3, .above 4 0⟩,
   ⟨0x100, 0x10, 32, 20, 8, .clamp 1 255⟩,
   ⟨0x100, 0x10, 32, 0, 12, .clamp 1 4095⟩,
   ⟨0x104, 0x10, 32, 12, 12, .clamp 1 4095⟩,
   ⟨0x104, 0x10, 32, 0, 12, .clamp 1 4095⟩]

/-- Range rules of the PATH page. -/
def normsPATH : List NormRow :=
  [⟨0x40, 0x4, 1, 20, 10, .clamp 100 400⟩,
   ⟨0x40, 0x4, 1, 10, 10, .clamp 90 390⟩,
   ⟨0x40, 0x4, 1, 0, 8, .clamp 10 255⟩,
   ⟨0x44, 0x4, 1, 16, 16, .clamp 1 65535⟩,
   ⟨0x44, 0x4, 1, 8, 8, .clamp 1 255⟩,
   ⟨0x44, 0x4, 1, 4, 4, .clamp 1 15⟩,
   ⟨0x48, 0x4, 1, 24, 8, .clampOrZero 110 250⟩,
   ⟨0x48, 0x4, 1, 0, 16, .clamp 1000 60000⟩,
   ⟨0x4C, 0x4, 1, 16, 16, .clamp 0 20000⟩,
   ⟨0x4C, 0x4, 1, 0, 9, .clamp 100 300⟩,
   ⟨0x50, 0x4, 1, 16, 8, .clamp 25 100⟩,
   ⟨0x50, 0x4, 1, 8, 8, .clamp 10 64⟩,
   ⟨0x50, 0x4, 1, 0, 8, .clamp 10 50⟩,
   ⟨0x54, 0x4, 1, 24, 8, .clamp 1 10⟩,
   ⟨0x54, 0x4, 1, 0, 16, .stepDown 10000 24000 10⟩,
   ⟨0x5C, 0x4, 1, 16, 16, .clamp 500 15000⟩,
   ⟨0x5C, 0x4, 1, 0, 16, .clamp 50 2000⟩,
   ⟨0x60, 0x4, 1, 16, 16, .clamp 100 3000⟩,
   ⟨0x60, 0x4, 1, 0, 16, .clamp 50 500⟩,
   ⟨0x64, 0x4, 1, 24, 8, .clamp 1 255⟩,
   ⟨0x64, 0x4, 1, 16, 8, .clamp 1 255⟩,
   ⟨0x64, 0x4, 1, 4, 12, .clamp 1 4095⟩,
   ⟨0x68, 0x4, 1, 24, 8, .clamp 1 255⟩,
   ⟨0x68, 0x4, 1, 8, 8, .clamp 90 130⟩,
   ⟨0x70, 0x4, 1, 28, 4, .above 5 15⟩,
   ⟨0x70, 0x4, 1, 16, 8, .clamp 10 159⟩,
   ⟨0x70, 0x4, 1, 8, 8, .clamp 10 159⟩,
   ⟨0x70, 0x4, 1, 0, 8, .clamp 1 255⟩]

/-- Range rules of the GAUGE page. -/
def normsGAUGE : List NormRow :=
  [⟨0x40, 0x4, 1, 0, 16, .clamp 50 5000⟩,
   ⟨0x44, 0x4, 1, 28, 4, .clamp 3 6⟩,
   ⟨0x44, 0x4, 1, 0, 16, .clamp 1 1000⟩,
   ⟨0x48, 0x4, 1, 16, 16, .clamp 10 3600⟩,
   ⟨0x50, 0x4, 1, 8, 8, .clamp 1 255⟩,
   ⟨0x54, 0x4, 1, 16, 16, .clamp 60 65535⟩,
   ⟨0x54, 0x4, 1, 8, 8, .clamp 1 255⟩,
   ⟨0x5C, 0x4, 1, 24, 8, .clamp 20 90⟩,
   ⟨0x5C, 0x4, 1, 16, 8, .clamp 1 50⟩,
   ⟨0x5C, 0x4, 1, 8, 8, .clamp 1 255⟩,
   ⟨0x5C, 0x4, 1, 4, 4, .clamp 1 8⟩,
   ⟨0x60, 0x4, 1, 24, 8, .clamp 1 24⟩,
   ⟨0x64, 0x4, 1, 16, 16, .clamp 200 20000⟩,
   ⟨0x68, 0x4, 1, 16, 8, .clamp 50 100⟩,
   ⟨0x68, 0x4, 1, 8, 8, .clamp 5 80⟩,
   ⟨0x68, 0x4, 1, 0, 8, .clamp 1 48⟩,
   ⟨0x100, 0x4, 32, 0, 14, .clamp 0 10000⟩]

/-- Range rules of the THERM page. -/
def normsTHERM : List NormRow :=
  [⟨0x40, 0x4, 1, 24, 8, .openRange 5 100 1⟩,
   ⟨0x40, 0x4, 1, 16, 8, .clamp 1 255⟩,
   ⟨0x40, 0x4, 1, 0, 13, .openRange 8 4096 1⟩,
   ⟨0x4C, 0x4, 1, 10, 5, .clamp 1 31⟩,
   ⟨0x4C, 0x4, 1, 5, 5, .openRange 1 31 1⟩,
   ⟨0x4C, 0x4, 1, 0, 5, .openRange 1 31 1⟩,
   ⟨0xC8, 0x10, 6, 10, 5, .clamp 1 31⟩,
   ⟨0xC8, 0x10, 6, 5, 5, .openRange 1 31 1⟩,
   ⟨0xC8, 0x10, 6, 0, 5, .openRange 1 31 1⟩,
   ⟨0x50, 0x4, 1, 0, 8, .clamp 1 255⟩]

/-- Range rules of the FAULT page. -/
def normsFAULT : List NormRow :=
  [⟨0x68, 0x4, 1, 24, 4, .above 11 11⟩,
   ⟨0x68, 0x4, 1, 0, 8, .clamp 1 255⟩,
   ⟨0x100, 0x4, 48, 2, 2, .above 2 0⟩,
   ⟨0x100, 0x4, 48, 0, 2, .above 2 0⟩,
   ⟨0x240, 0x4, 48, 16, 16, .clamp 1 65535⟩,
   ⟨0x240, 0x4, 48, 4, 12, .clamp 1 4095⟩]

/-- Range rules of the INTC page. -/
def normsINTC : List NormRow :=
  [⟨0x100, 0x4, 64, 0, 3, .above 4 2⟩,
   ⟨0x200, 0x4, 16, 0, 3, .above 4 2⟩,
   ⟨0x300, 0x4, 16, 0, 3, .above 4 2⟩]

/-- Range rules of the RECORD page. -/
def normsRECORD : List NormRow :=
  [⟨0x48, 0x4, 1, 16, 16, .clamp 1 65535⟩,
   ⟨0x48, 0x4, 1, 0, 11, .openRange 0 1536 1⟩,
   ⟨0x68, 0x4, 1, 0, 16, .clamp 1 65535⟩]

/-- Range rules of the FLASH page. -/
def normsFLASH : List NormRow :=
  [⟨0x40, 0x4, 1, 8, 2, .above 2 2⟩,
   ⟨0x40, 0x4, 1, 0, 8, .between 1 2 3⟩,
   ⟨0x48, 0x4, 1, 16, 16, .clamp 1 65535⟩,
   ⟨0x48, 0x4, 1, 0, 16, .clamp 1 65535⟩]

/-- Range rules of the OTP page. -/
def normsOTP : List NormRow :=
  []

/-- Range rules of the TIMER page. -/
def normsTIMER : List NormRow :=
  [⟨0x40, 0x40, 4, 8, 2, .clamp 1 3⟩,
   ⟨0x40, 0x40, 4, 4, 4, .above 11 11⟩,
   ⟨0x58, 0x40, 4, 28, 4, .above 11 11⟩,
   ⟨0x58, 0x40, 4, 8, 4, .above 11 11⟩]

/-- Range rules of the CRC page. -/
def normsCRC : List NormRow :=
  []

/-- Range rules of the GPIO page. -/
def normsGPIO : List NormRow :=
  []

/-- Range rules of the LINK page. -/
def normsLINK : List NormRow :=
  [⟨0x4, 0x4, 1, 4, 2, .above 2 2⟩,
   ⟨0x44, 0x4, 1, 0, 16, .clamp 49 32768⟩,
   ⟨0xB8, 0x4, 1, 16, 8, .clamp 1 255⟩]

/-- The register rows of a page index (R68). Page 0x01F is the model's own key for processor B's HOSTIF instance
(R61); no bus address reaches it. -/
def pageRows (page : Nat) : List RegRow :=
  match page with
  | 0x0 => rowsSYS
  | 0x1 => rowsHOSTIF
  | 0x2 => rowsPLAN
  | 0x3 => rowsLEDGER
  | 0x4 => rowsCONV
  | 0x5 => rowsLOOP
  | 0x6 => rowsLOOP
  | 0x7 => rowsLOOP
  | 0x8 => rowsLOOP
  | 0x9 => rowsPHASE
  | 0xA => rowsHEALTH
  | 0xB => rowsRAILS
  | 0xC => rowsSEQ
  | 0xD => rowsPATH
  | 0xE => rowsGAUGE
  | 0xF => rowsTHERM
  | 0x10 => rowsFAULT
  | 0x11 => rowsINTC
  | 0x12 => rowsRECORD
  | 0x13 => rowsFLASH
  | 0x14 => rowsOTP
  | 0x15 => rowsTIMER
  | 0x16 => rowsCRC
  | 0x17 => rowsGPIO
  | 0x20 => rowsLINK
  | 0x21 => rowsLINK
  | 0x22 => rowsLINK
  | 0x23 => rowsLINK
  | 0x24 => rowsLINK
  | 0x25 => rowsLINK
  | 0x26 => rowsLINK
  | 0x27 => rowsLINK
  | 0x1F => rowsHOSTIF
  | _ => []

/-- The range rules of a page index. -/
def pageNorms (page : Nat) : List NormRow :=
  match page with
  | 0x0 => normsSYS
  | 0x1 => normsHOSTIF
  | 0x2 => normsPLAN
  | 0x3 => normsLEDGER
  | 0x4 => normsCONV
  | 0x5 => normsLOOP
  | 0x6 => normsLOOP
  | 0x7 => normsLOOP
  | 0x8 => normsLOOP
  | 0x9 => normsPHASE
  | 0xA => normsHEALTH
  | 0xB => normsRAILS
  | 0xC => normsSEQ
  | 0xD => normsPATH
  | 0xE => normsGAUGE
  | 0xF => normsTHERM
  | 0x10 => normsFAULT
  | 0x11 => normsINTC
  | 0x12 => normsRECORD
  | 0x13 => normsFLASH
  | 0x14 => normsOTP
  | 0x15 => normsTIMER
  | 0x16 => normsCRC
  | 0x17 => normsGPIO
  | 0x20 => normsLINK
  | 0x21 => normsLINK
  | 0x22 => normsLINK
  | 0x23 => normsLINK
  | 0x24 => normsLINK
  | 0x25 => normsLINK
  | 0x26 => normsLINK
  | 0x27 => normsLINK
  | 0x1F => normsHOSTIF
  | _ => []

/-- Whether a row covers a page offset. -/
def RegRow.covers (r : RegRow) (off : Nat) : Bool :=
  decide (r.base ≤ off) && decide ((off - r.base) % r.stride = 0) && decide ((off - r.base) / r.stride < r.count)

/-- The row of a page offset, if the offset is implemented. -/
def findRow (page off : Nat) : Option RegRow := (pageRows page).find? fun r => r.covers off

/-- The content of a page's ID register (R66, R74). -/
def idWord (page : Nat) : Word :=
  if page = 0 then 0xA5125811 else if page = 0x1F then 0x00001001 else BitVec.ofNat 32 (page * 0x1000 + 1)

/-- What an address reads as after reset: the reset word of a register, 0 anywhere else. -/
def resetWord (a : Nat) : Word :=
  if a % 0x1000 = 0 ∧ pageRows (a / 0x1000) ≠ [] then idWord (a / 0x1000)
  else match findRow (a / 0x1000) (a % 0x1000) with
    | some r => r.reset
    | none => 0

/-- A field value brought into its stated range; `reg` and `bit` say which field. -/
def Norm.apply (reg bit : Nat) : Norm → Nat → Nat
  | .clamp lo hi, v => max lo (min hi v)
  | .clampOrZero lo hi, v => if v = 0 then 0 else max lo (min hi v)
  | .above hi v', v => if hi < v then v' else v
  | .between lo hi v', v => if lo ≤ v ∧ v ≤ hi then v' else v
  | .stepDown lo hi step, v => max lo (min hi v) / step * step
  | .openRange lo hi step, v => if lo ≤ v ∧ v ≤ hi ∧ v % step = 0 then v else Config.outOfRange reg bit v

/-- Every field of a written word brought into its stated range. -/
def normWord (page off : Nat) (w : Word) : Word :=
  (pageNorms page).foldl (fun acc n =>
    if n.base ≤ off ∧ (off - n.base) % n.stride = 0 ∧ (off - n.base) / n.stride < n.count then
      putBits acc n.lo n.width (n.norm.apply (page * 0x1000 + off) n.lo (getBits acc n.lo n.width))
    else acc) w

namespace Reg

/-- SYS.ID (R74). -/
abbrev SYS_ID : Nat := 0x0
/-- SYS.CTRL (R74). -/
abbrev SYS_CTRL : Nat := 0x4
/-- SYS.STAT (R74). -/
abbrev SYS_STAT : Nat := 0x8
/-- SYS.EVRAW (R74). -/
abbrev SYS_EVRAW : Nat := 0xC
/-- SYS.EVEN (R66). -/
abbrev SYS_EVEN : Nat := 0x10
/-- SYS.EVSTAT (R66). -/
abbrev SYS_EVSTAT : Nat := 0x14
/-- SYS.CONFIG (R74). -/
abbrev SYS_CONFIG : Nat := 0x40
/-- SYS.PWRCTRL (R46). -/
abbrev SYS_PWRCTRL : Nat := 0x60
/-- SYS.PWRSTAT (R46). -/
abbrev SYS_PWRSTAT : Nat := 0x64
/-- SYS.TIMECAP (R46). -/
abbrev SYS_TIMECAP : Nat := 0x68
/-- SYS.TIME_LO (R46). -/
abbrev SYS_TIME_LO : Nat := 0x6C
/-- SYS.TIME_HI (R46). -/
abbrev SYS_TIME_HI : Nat := 0x70
/-- HOSTIF.ID (R66). -/
abbrev HOSTIF_ID (p : Nat) : Nat := 0x1000 + 0x1E000 * p
/-- HOSTIF.CTRL (R75). -/
abbrev HOSTIF_CTRL (p : Nat) : Nat := 0x1004 + 0x1E000 * p
/-- HOSTIF.STAT (R75). -/
abbrev HOSTIF_STAT (p : Nat) : Nat := 0x1008 + 0x1E000 * p
/-- HOSTIF.EVRAW (R75). -/
abbrev HOSTIF_EVRAW (p : Nat) : Nat := 0x100C + 0x1E000 * p
/-- HOSTIF.EVEN (R66). -/
abbrev HOSTIF_EVEN (p : Nat) : Nat := 0x1010 + 0x1E000 * p
/-- HOSTIF.EVSTAT (R66). -/
abbrev HOSTIF_EVSTAT (p : Nat) : Nat := 0x1014 + 0x1E000 * p
/-- HOSTIF.DISCARD (R75). -/
abbrev HOSTIF_DISCARD (p : Nat) : Nat := 0x1040 + 0x1E000 * p
/-- HOSTIF.ACCEPT (R75). -/
abbrev HOSTIF_ACCEPT (p : Nat) : Nat := 0x1044 + 0x1E000 * p
/-- HOSTIF.ABUSE (R75). -/
abbrev HOSTIF_ABUSE (p : Nat) : Nat := 0x1048 + 0x1E000 * p
/-- HOSTIF.LASTADDR (R75). -/
abbrev HOSTIF_LASTADDR (p : Nat) : Nat := 0x104C + 0x1E000 * p
/-- HOSTIF.WDCTRL (R75). -/
abbrev HOSTIF_WDCTRL (p : Nat) : Nat := 0x1050 + 0x1E000 * p
/-- HOSTIF.WDKICK (R75). -/
abbrev HOSTIF_WDKICK (p : Nat) : Nat := 0x1054 + 0x1E000 * p
/-- HOSTIF.WDSTAT (R75). -/
abbrev HOSTIF_WDSTAT (p : Nat) : Nat := 0x1058 + 0x1E000 * p
/-- HOSTIF.MBOX_OUT (R75). -/
abbrev HOSTIF_MBOX_OUT (p : Nat) : Nat := 0x1060 + 0x1E000 * p
/-- HOSTIF.MBOX_IN (R75). -/
abbrev HOSTIF_MBOX_IN (p : Nat) : Nat := 0x1064 + 0x1E000 * p
/-- PLAN.ID (R66). -/
abbrev PLAN_ID : Nat := 0x2000
/-- PLAN.CTRL (R111). -/
abbrev PLAN_CTRL : Nat := 0x2004
/-- PLAN.STAT (R111). -/
abbrev PLAN_STAT : Nat := 0x2008
/-- PLAN.EVRAW (R111). -/
abbrev PLAN_EVRAW : Nat := 0x200C
/-- PLAN.EVEN (R66). -/
abbrev PLAN_EVEN : Nat := 0x2010
/-- PLAN.EVSTAT (R66). -/
abbrev PLAN_EVSTAT : Nat := 0x2014
/-- PLAN.THCMD (R111). -/
abbrev PLAN_THCMD : Nat := 0x2040
/-- PLAN.LOAD (R111). -/
abbrev PLAN_LOAD : Nat := 0x2044
/-- PLAN.LOADSTAT (R111). -/
abbrev PLAN_LOADSTAT : Nat := 0x2048
/-- PLAN.PLANID (R111). -/
abbrev PLAN_PLANID : Nat := 0x204C
/-- PLAN.PLANVER (R111). -/
abbrev PLAN_PLANVER : Nat := 0x2050
/-- PLAN.POST (R111). -/
abbrev PLAN_POST : Nat := 0x2054
/-- PLAN.SEM (R111). -/
abbrev PLAN_SEM : Nat := 0x2058
/-- PLAN.ECC (R111). -/
abbrev PLAN_ECC : Nat := 0x205C
/-- PLAN.SIGDATA (R111). -/
abbrev PLAN_SIGDATA (i : Nat) : Nat := 0x2060 + 0x4 * i
/-- PLAN.TIME_LO (R111). -/
abbrev PLAN_TIME_LO : Nat := 0x2080
/-- PLAN.TIME_HI (R111). -/
abbrev PLAN_TIME_HI : Nat := 0x2084
/-- PLAN.THSTAT (R111). -/
abbrev PLAN_THSTAT (i : Nat) : Nat := 0x20C0 + 0x4 * i
/-- PLAN.THW (R111). -/
abbrev PLAN_THW (i j : Nat) : Nat := 0x2100 + 0x20 * i + 0x4 * j
/-- PLAN.SCRATCH (R111). -/
abbrev PLAN_SCRATCH (i : Nat) : Nat := 0x2300 + 0x4 * i
/-- LEDGER.ID (R66). -/
abbrev LEDGER_ID : Nat := 0x3000
/-- LEDGER.CTRL (R324). -/
abbrev LEDGER_CTRL : Nat := 0x3004
/-- LEDGER.STAT (R324). -/
abbrev LEDGER_STAT : Nat := 0x3008
/-- LEDGER.EVRAW (R324). -/
abbrev LEDGER_EVRAW : Nat := 0x300C
/-- LEDGER.EVEN (R66). -/
abbrev LEDGER_EVEN : Nat := 0x3010
/-- LEDGER.EVSTAT (R66). -/
abbrev LEDGER_EVSTAT : Nat := 0x3014
/-- LEDGER.SOURCE_CAP (R324). -/
abbrev LEDGER_SOURCE_CAP : Nat := 0x3040
/-- LEDGER.BATT_CAP (R324). -/
abbrev LEDGER_BATT_CAP : Nat := 0x3044
/-- LEDGER.EFFCAP (R324). -/
abbrev LEDGER_EFFCAP : Nat := 0x3048
/-- LEDGER.COMMIT_TOTAL (R324). -/
abbrev LEDGER_COMMIT_TOTAL : Nat := 0x304C
/-- LEDGER.RESV_TOTAL (R324). -/
abbrev LEDGER_RESV_TOTAL : Nat := 0x3050
/-- LEDGER.HEADROOM (R324). -/
abbrev LEDGER_HEADROOM : Nat := 0x3054
/-- LEDGER.OVERBY (R324). -/
abbrev LEDGER_OVERBY : Nat := 0x3058
/-- LEDGER.RESERVE (R324). -/
abbrev LEDGER_RESERVE : Nat := 0x305C
/-- LEDGER.EMARGIN (R324). -/
abbrev LEDGER_EMARGIN : Nat := 0x3060
/-- LEDGER.MEAS_TOTAL (R324). -/
abbrev LEDGER_MEAS_TOTAL : Nat := 0x3064
/-- LEDGER.BASELOAD (R324). -/
abbrev LEDGER_BASELOAD : Nat := 0x3068
/-- LEDGER.PREARM_HOLD (R324). -/
abbrev LEDGER_PREARM_HOLD : Nat := 0x306C
/-- LEDGER.THROTTLE (R324). -/
abbrev LEDGER_THROTTLE : Nat := 0x3070
/-- LEDGER.BATT (R324). -/
abbrev LEDGER_BATT : Nat := 0x3074
/-- LEDGER.BATTT (R324). -/
abbrev LEDGER_BATTT : Nat := 0x3078
/-- LEDGER.LBBASE (R324). -/
abbrev LEDGER_LBBASE : Nat := 0x307C
/-- LEDGER.TSTOP0 (R324). -/
abbrev LEDGER_TSTOP0 : Nat := 0x3080
/-- LEDGER.TSTOP1 (R324). -/
abbrev LEDGER_TSTOP1 : Nat := 0x3084
/-- LEDGER.TSTOP2 (R324). -/
abbrev LEDGER_TSTOP2 : Nat := 0x3088
/-- LEDGER.TSTOP3 (R324). -/
abbrev LEDGER_TSTOP3 : Nat := 0x308C
/-- LEDGER.ENERGY (R324). -/
abbrev LEDGER_ENERGY : Nat := 0x3090
/-- LEDGER.EGUARD (R324). -/
abbrev LEDGER_EGUARD : Nat := 0x3094
/-- LEDGER.RESTO (R324). -/
abbrev LEDGER_RESTO : Nat := 0x3098
/-- LEDGER.DRAW (R324). -/
abbrev LEDGER_DRAW : Nat := 0x309C
/-- LEDGER.SHEDLOOP (R324). -/
abbrev LEDGER_SHEDLOOP : Nat := 0x30A0
/-- LEDGER.GROUPLOOP0 (R324). -/
abbrev LEDGER_GROUPLOOP0 : Nat := 0x30A4
/-- LEDGER.GROUPLOOP1 (R324). -/
abbrev LEDGER_GROUPLOOP1 : Nat := 0x30A8
/-- LEDGER.ODRAWCNT (R324). -/
abbrev LEDGER_ODRAWCNT : Nat := 0x30AC
/-- LEDGER.SHEDMW (R324). -/
abbrev LEDGER_SHEDMW : Nat := 0x30B0
/-- LEDGER.SHEDCNT (R324). -/
abbrev LEDGER_SHEDCNT : Nat := 0x30B4
/-- LEDGER.LOOP_CAP (R324). -/
abbrev LEDGER_LOOP_CAP (i : Nat) : Nat := 0x30C0 + 0x8 * i
/-- LEDGER.LOOP_COMMIT (R324). -/
abbrev LEDGER_LOOP_COMMIT (i : Nat) : Nat := 0x30C4 + 0x8 * i
/-- LEDGER.LOOP_FCMW (R324). -/
abbrev LEDGER_LOOP_FCMW (i : Nat) : Nat := 0x30E0 + 0x4 * i
/-- LEDGER.GCOMMIT (R324). -/
abbrev LEDGER_GCOMMIT (i : Nat) : Nat := 0x3100 + 0x4 * i
/-- LEDGER.HOSTARG (R324). -/
abbrev LEDGER_HOSTARG : Nat := 0x3140
/-- LEDGER.HOSTOP (R324). -/
abbrev LEDGER_HOSTOP : Nat := 0x3144
/-- LEDGER.HOSTRES (R324). -/
abbrev LEDGER_HOSTRES : Nat := 0x3148
/-- LEDGER.HOSTRESX (R324). -/
abbrev LEDGER_HOSTRESX : Nat := 0x314C
/-- CONV.ID (R66). -/
abbrev CONV_ID : Nat := 0x4000
/-- CONV.CTRL (R144). -/
abbrev CONV_CTRL : Nat := 0x4004
/-- CONV.STAT (R144). -/
abbrev CONV_STAT : Nat := 0x4008
/-- CONV.EVRAW (R144). -/
abbrev CONV_EVRAW : Nat := 0x400C
/-- CONV.EVEN (R66). -/
abbrev CONV_EVEN : Nat := 0x4010
/-- CONV.EVSTAT (R66). -/
abbrev CONV_EVSTAT : Nat := 0x4014
/-- CONV.SYNC (R144). -/
abbrev CONV_SYNC : Nat := 0x4040
/-- CONV.REFUSE (R144). -/
abbrev CONV_REFUSE : Nat := 0x4044
/-- CONV.BANK (R144). -/
abbrev CONV_BANK (i : Nat) : Nat := 0x4080 + 0x4 * i
/-- LOOP.ID (R66). -/
abbrev LOOP_ID (n : Nat) : Nat := 0x5000 + 0x1000 * n
/-- LOOP.CTRL (R145). -/
abbrev LOOP_CTRL (n : Nat) : Nat := 0x5004 + 0x1000 * n
/-- LOOP.STAT (R145). -/
abbrev LOOP_STAT (n : Nat) : Nat := 0x5008 + 0x1000 * n
/-- LOOP.EVRAW (R145). -/
abbrev LOOP_EVRAW (n : Nat) : Nat := 0x500C + 0x1000 * n
/-- LOOP.EVEN (R66). -/
abbrev LOOP_EVEN (n : Nat) : Nat := 0x5010 + 0x1000 * n
/-- LOOP.EVSTAT (R66). -/
abbrev LOOP_EVSTAT (n : Nat) : Nat := 0x5014 + 0x1000 * n
/-- LOOP.TARGET (R145). -/
abbrev LOOP_TARGET (n : Nat) : Nat := 0x5040 + 0x1000 * n
/-- LOOP.SLEW (R145). -/
abbrev LOOP_SLEW (n : Nat) : Nat := 0x5044 + 0x1000 * n
/-- LOOP.REFNOW (R145). -/
abbrev LOOP_REFNOW (n : Nat) : Nat := 0x5048 + 0x1000 * n
/-- LOOP.FSW (R145). -/
abbrev LOOP_FSW (n : Nat) : Nat := 0x504C + 0x1000 * n
/-- LOOP.BASE (R145). -/
abbrev LOOP_BASE (n : Nat) : Nat := 0x5050 + 0x1000 * n
/-- LOOP.ISENSE (R145). -/
abbrev LOOP_ISENSE (n : Nat) : Nat := 0x5054 + 0x1000 * n
/-- LOOP.ILIM (R145). -/
abbrev LOOP_ILIM (n : Nat) : Nat := 0x5058 + 0x1000 * n
/-- LOOP.ILIMNEG (R145). -/
abbrev LOOP_ILIMNEG (n : Nat) : Nat := 0x505C + 0x1000 * n
/-- LOOP.ADDSHED (R145). -/
abbrev LOOP_ADDSHED (n : Nat) : Nat := 0x5060 + 0x1000 * n
/-- LOOP.SHEDCFG (R145). -/
abbrev LOOP_SHEDCFG (n : Nat) : Nat := 0x5064 + 0x1000 * n
/-- LOOP.GUST (R145). -/
abbrev LOOP_GUST (n : Nat) : Nat := 0x5068 + 0x1000 * n
/-- LOOP.BURST (R145). -/
abbrev LOOP_BURST (n : Nat) : Nat := 0x506C + 0x1000 * n
/-- LOOP.PROT (R145). -/
abbrev LOOP_PROT (n : Nat) : Nat := 0x5070 + 0x1000 * n
/-- LOOP.FCAST (R145). -/
abbrev LOOP_FCAST (n : Nat) : Nat := 0x5074 + 0x1000 * n
/-- LOOP.MEAS (R145). -/
abbrev LOOP_MEAS (n : Nat) : Nat := 0x5078 + 0x1000 * n
/-- LOOP.LF0 (R145). -/
abbrev LOOP_LF0 (n : Nat) : Nat := 0x5080 + 0x1000 * n
/-- LOOP.LF1 (R145). -/
abbrev LOOP_LF1 (n : Nat) : Nat := 0x5084 + 0x1000 * n
/-- LOOP.LF2 (R145). -/
abbrev LOOP_LF2 (n : Nat) : Nat := 0x5088 + 0x1000 * n
/-- LOOP.LF3 (R145). -/
abbrev LOOP_LF3 (n : Nat) : Nat := 0x508C + 0x1000 * n
/-- LOOP.LF4 (R145). -/
abbrev LOOP_LF4 (n : Nat) : Nat := 0x5090 + 0x1000 * n
/-- PHASE.ID (R66). -/
abbrev PHASE_ID : Nat := 0x9000
/-- PHASE.STAT (R146). -/
abbrev PHASE_STAT : Nat := 0x9008
/-- PHASE.EVRAW (R146). -/
abbrev PHASE_EVRAW : Nat := 0x900C
/-- PHASE.EVEN (R66). -/
abbrev PHASE_EVEN : Nat := 0x9010
/-- PHASE.EVSTAT (R66). -/
abbrev PHASE_EVSTAT : Nat := 0x9014
/-- PHASE.ASSIGN (R146). -/
abbrev PHASE_ASSIGN (i : Nat) : Nat := 0x9040 + 0x4 * i
/-- PHASE.SLOT (R146). -/
abbrev PHASE_SLOT (i : Nat) : Nat := 0x9080 + 0x4 * i
/-- PHASE.IAVG (R146). -/
abbrev PHASE_IAVG (i : Nat) : Nat := 0x90C0 + 0x4 * i
/-- PHASE.ILIMCNT (R146). -/
abbrev PHASE_ILIMCNT (i : Nat) : Nat := 0x9100 + 0x4 * i
/-- HEALTH.ID (R66). -/
abbrev HEALTH_ID : Nat := 0xA000
/-- HEALTH.CTRL (R167). -/
abbrev HEALTH_CTRL : Nat := 0xA004
/-- HEALTH.STAT (R167). -/
abbrev HEALTH_STAT : Nat := 0xA008
/-- HEALTH.EVRAW (R167). -/
abbrev HEALTH_EVRAW : Nat := 0xA00C
/-- HEALTH.EVEN (R66). -/
abbrev HEALTH_EVEN : Nat := 0xA010
/-- HEALTH.EVSTAT (R66). -/
abbrev HEALTH_EVSTAT : Nat := 0xA014
/-- HEALTH.PROBE (R167). -/
abbrev HEALTH_PROBE : Nat := 0xA040
/-- HEALTH.PROBERES (R167). -/
abbrev HEALTH_PROBERES : Nat := 0xA044
/-- HEALTH.PROBECFG (R167). -/
abbrev HEALTH_PROBECFG : Nat := 0xA048
/-- HEALTH.SCORECFG (R167). -/
abbrev HEALTH_SCORECFG : Nat := 0xA04C
/-- HEALTH.REPLANCFG (R167). -/
abbrev HEALTH_REPLANCFG : Nat := 0xA050
/-- HEALTH.SCHED (R167). -/
abbrev HEALTH_SCHED : Nat := 0xA054
/-- HEALTH.APPLY (R167). -/
abbrev HEALTH_APPLY : Nat := 0xA058
/-- HEALTH.APPLYRES (R167). -/
abbrev HEALTH_APPLYRES : Nat := 0xA05C
/-- HEALTH.DUE (R167). -/
abbrev HEALTH_DUE : Nat := 0xA060
/-- HEALTH.SPARESTAT (R167). -/
abbrev HEALTH_SPARESTAT : Nat := 0xA064
/-- HEALTH.LRESP (R167). -/
abbrev HEALTH_LRESP (i : Nat) : Nat := 0xA100 + 0x40 * i
/-- HEALTH.LOUT (R167). -/
abbrev HEALTH_LOUT (i : Nat) : Nat := 0xA104 + 0x40 * i
/-- HEALTH.LCAP (R167). -/
abbrev HEALTH_LCAP (i : Nat) : Nat := 0xA108 + 0x40 * i
/-- HEALTH.LBASEA (R167). -/
abbrev HEALTH_LBASEA (i : Nat) : Nat := 0xA10C + 0x40 * i
/-- HEALTH.LBASEB (R167). -/
abbrev HEALTH_LBASEB (i : Nat) : Nat := 0xA110 + 0x40 * i
/-- HEALTH.LBASEC (R167). -/
abbrev HEALTH_LBASEC (i : Nat) : Nat := 0xA114 + 0x40 * i
/-- HEALTH.LFLOOR (R167). -/
abbrev HEALTH_LFLOOR (i : Nat) : Nat := 0xA118 + 0x40 * i
/-- HEALTH.LPROP0 (R167). -/
abbrev HEALTH_LPROP0 (i : Nat) : Nat := 0xA11C + 0x40 * i
/-- HEALTH.LPROP1 (R167). -/
abbrev HEALTH_LPROP1 (i : Nat) : Nat := 0xA120 + 0x40 * i
/-- HEALTH.LPROP2 (R167). -/
abbrev HEALTH_LPROP2 (i : Nat) : Nat := 0xA124 + 0x40 * i
/-- HEALTH.LPROP3 (R167). -/
abbrev HEALTH_LPROP3 (i : Nat) : Nat := 0xA128 + 0x40 * i
/-- HEALTH.LPROPBANK (R167). -/
abbrev HEALTH_LPROPBANK (i : Nat) : Nat := 0xA12C + 0x40 * i
/-- HEALTH.PIND (R167). -/
abbrev HEALTH_PIND (i : Nat) : Nat := 0xA300 + 0x10 * i
/-- HEALTH.PSHTH (R167). -/
abbrev HEALTH_PSHTH (i : Nat) : Nat := 0xA304 + 0x10 * i
/-- HEALTH.PSCORE (R167). -/
abbrev HEALTH_PSCORE (i : Nat) : Nat := 0xA308 + 0x10 * i
/-- RAILS.ID (R66). -/
abbrev RAILS_ID : Nat := 0xB000
/-- RAILS.CTRL (R189). -/
abbrev RAILS_CTRL : Nat := 0xB004
/-- RAILS.STAT (R189). -/
abbrev RAILS_STAT : Nat := 0xB008
/-- RAILS.EVRAW (R189). -/
abbrev RAILS_EVRAW : Nat := 0xB00C
/-- RAILS.EVEN (R66). -/
abbrev RAILS_EVEN : Nat := 0xB010
/-- RAILS.EVSTAT (R66). -/
abbrev RAILS_EVSTAT : Nat := 0xB014
/-- RAILS.BCFG (R189). -/
abbrev RAILS_BCFG (i : Nat) : Nat := 0xB040 + 0x4 * i
/-- RAILS.BSTAT (R189). -/
abbrev RAILS_BSTAT : Nat := 0xB048
/-- RAILS.LSTAT (R189). -/
abbrev RAILS_LSTAT : Nat := 0xB04C
/-- RAILS.LCFG (R189). -/
abbrev RAILS_LCFG (i : Nat) : Nat := 0xB050 + 0x4 * i
/-- RAILS.VMONTH (R189). -/
abbrev RAILS_VMONTH (i : Nat) : Nat := 0xB080 + 0x8 * i
/-- RAILS.VMONCFG (R189). -/
abbrev RAILS_VMONCFG (i : Nat) : Nat := 0xB084 + 0x8 * i
/-- RAILS.SCANMASK0 (R189). -/
abbrev RAILS_SCANMASK0 : Nat := 0xB0C0
/-- RAILS.SCANMASK1 (R189). -/
abbrev RAILS_SCANMASK1 : Nat := 0xB0C4
/-- RAILS.SCANCFG (R189). -/
abbrev RAILS_SCANCFG : Nat := 0xB0C8
/-- RAILS.XCHK (R189). -/
abbrev RAILS_XCHK : Nat := 0xB0CC
/-- RAILS.XCHKSTAT (R189). -/
abbrev RAILS_XCHKSTAT : Nat := 0xB0D0
/-- RAILS.ADC (R189). -/
abbrev RAILS_ADC (i : Nat) : Nat := 0xB100 + 0x4 * i
/-- RAILS.BLF0 (R189). -/
abbrev RAILS_BLF0 (i : Nat) : Nat := 0xB1C0 + 0x10 * i
/-- RAILS.BLF1 (R189). -/
abbrev RAILS_BLF1 (i : Nat) : Nat := 0xB1C4 + 0x10 * i
/-- RAILS.BLF2 (R189). -/
abbrev RAILS_BLF2 (i : Nat) : Nat := 0xB1C8 + 0x10 * i
/-- RAILS.BLF3 (R189). -/
abbrev RAILS_BLF3 (i : Nat) : Nat := 0xB1CC + 0x10 * i
/-- SEQ.ID (R66). -/
abbrev SEQ_ID : Nat := 0xC000
/-- SEQ.CTRL (R210). -/
abbrev SEQ_CTRL : Nat := 0xC004
/-- SEQ.STAT (R210). -/
abbrev SEQ_STAT : Nat := 0xC008
/-- SEQ.EVRAW (R210). -/
abbrev SEQ_EVRAW : Nat := 0xC00C
/-- SEQ.EVEN (R66). -/
abbrev SEQ_EVEN : Nat := 0xC010
/-- SEQ.EVSTAT (R66). -/
abbrev SEQ_EVSTAT : Nat := 0xC014
/-- SEQ.REQ (R210). -/
abbrev SEQ_REQ : Nat := 0xC040
/-- SEQ.DOWN (R210). -/
abbrev SEQ_DOWN : Nat := 0xC044
/-- SEQ.REFUSE (R210). -/
abbrev SEQ_REFUSE : Nat := 0xC048
/-- SEQ.GOODMASK (R210). -/
abbrev SEQ_GOODMASK : Nat := 0xC04C
/-- SEQ.ONMASK (R210). -/
abbrev SEQ_ONMASK : Nat := 0xC050
/-- SEQ.BOOTON (R210). -/
abbrev SEQ_BOOTON : Nat := 0xC054
/-- SEQ.RSTOMASK (R210). -/
abbrev SEQ_RSTOMASK : Nat := 0xC058
/-- SEQ.RSTOCFG (R210). -/
abbrev SEQ_RSTOCFG : Nat := 0xC05C
/-- SEQ.COLLAPSE (R210). -/
abbrev SEQ_COLLAPSE : Nat := 0xC060
/-- SEQ.FFSTAT (R210). -/
abbrev SEQ_FFSTAT : Nat := 0xC064
/-- SEQ.RSTCAUSE (R210). -/
abbrev SEQ_RSTCAUSE : Nat := 0xC068
/-- SEQ.SLOTCFG (R210). -/
abbrev SEQ_SLOTCFG (i : Nat) : Nat := 0xC100 + 0x10 * i
/-- SEQ.SLOTTIME (R210). -/
abbrev SEQ_SLOTTIME (i : Nat) : Nat := 0xC104 + 0x10 * i
/-- SEQ.SLOTDEP (R210). -/
abbrev SEQ_SLOTDEP (i : Nat) : Nat := 0xC108 + 0x10 * i
/-- SEQ.SLOTSTAT (R210). -/
abbrev SEQ_SLOTSTAT (i : Nat) : Nat := 0xC10C + 0x10 * i
/-- PATH.ID (R66). -/
abbrev PATH_ID : Nat := 0xD000
/-- PATH.CTRL (R238). -/
abbrev PATH_CTRL : Nat := 0xD004
/-- PATH.STAT (R238). -/
abbrev PATH_STAT : Nat := 0xD008
/-- PATH.EVRAW (R238). -/
abbrev PATH_EVRAW : Nat := 0xD00C
/-- PATH.EVEN (R66). -/
abbrev PATH_EVEN : Nat := 0xD010
/-- PATH.EVSTAT (R66). -/
abbrev PATH_EVSTAT : Nat := 0xD014
/-- PATH.VACWIN (R238). -/
abbrev PATH_VACWIN : Nat := 0xD040
/-- PATH.QUAL (R238). -/
abbrev PATH_QUAL : Nat := 0xD044
/-- PATH.INLIM (R238). -/
abbrev PATH_INLIM : Nat := 0xD048
/-- PATH.SUP (R238). -/
abbrev PATH_SUP : Nat := 0xD04C
/-- PATH.HBCFG (R238). -/
abbrev PATH_HBCFG : Nat := 0xD050
/-- PATH.VREG (R238). -/
abbrev PATH_VREG : Nat := 0xD054
/-- PATH.VTHR (R238). -/
abbrev PATH_VTHR : Nat := 0xD058
/-- PATH.ICHG (R238). -/
abbrev PATH_ICHG : Nat := 0xD05C
/-- PATH.ILOW (R238). -/
abbrev PATH_ILOW : Nat := 0xD060
/-- PATH.TIMERS (R238). -/
abbrev PATH_TIMERS : Nat := 0xD064
/-- PATH.CHGCFG (R238). -/
abbrev PATH_CHGCFG : Nat := 0xD068
/-- PATH.TLIM (R238). -/
abbrev PATH_TLIM : Nat := 0xD06C
/-- PATH.BATLIM (R238). -/
abbrev PATH_BATLIM : Nat := 0xD070
/-- PATH.TIMESTAT (R238). -/
abbrev PATH_TIMESTAT : Nat := 0xD074
/-- PATH.HOCOUNT (R238). -/
abbrev PATH_HOCOUNT : Nat := 0xD078
/-- PATH.FCAUSE (R238). -/
abbrev PATH_FCAUSE : Nat := 0xD07C
/-- PATH.MEAS (R238). -/
abbrev PATH_MEAS : Nat := 0xD080
/-- PATH.CAP (R238). -/
abbrev PATH_CAP : Nat := 0xD084
/-- GAUGE.ID (R66). -/
abbrev GAUGE_ID : Nat := 0xE000
/-- GAUGE.CTRL (R259). -/
abbrev GAUGE_CTRL : Nat := 0xE004
/-- GAUGE.STAT (R259). -/
abbrev GAUGE_STAT : Nat := 0xE008
/-- GAUGE.EVRAW (R259). -/
abbrev GAUGE_EVRAW : Nat := 0xE00C
/-- GAUGE.EVEN (R66). -/
abbrev GAUGE_EVEN : Nat := 0xE010
/-- GAUGE.EVSTAT (R66). -/
abbrev GAUGE_EVSTAT : Nat := 0xE014
/-- GAUGE.SHUNT (R259). -/
abbrev GAUGE_SHUNT : Nat := 0xE040
/-- GAUGE.CFG (R259). -/
abbrev GAUGE_CFG : Nat := 0xE044
/-- GAUGE.AZ (R259). -/
abbrev GAUGE_AZ : Nat := 0xE048
/-- GAUGE.DESIGN (R259). -/
abbrev GAUGE_DESIGN : Nat := 0xE04C
/-- GAUGE.VEMPTY (R259). -/
abbrev GAUGE_VEMPTY : Nat := 0xE050
/-- GAUGE.REST (R259). -/
abbrev GAUGE_REST : Nat := 0xE054
/-- GAUGE.TEMP (R259). -/
abbrev GAUGE_TEMP : Nat := 0xE058
/-- GAUGE.LEARN (R259). -/
abbrev GAUGE_LEARN : Nat := 0xE05C
/-- GAUGE.STORE (R259). -/
abbrev GAUGE_STORE : Nat := 0xE060
/-- GAUGE.IMP (R259). -/
abbrev GAUGE_IMP : Nat := 0xE064
/-- GAUGE.PROVE (R259). -/
abbrev GAUGE_PROVE : Nat := 0xE068
/-- GAUGE.PROVEMIN (R259). -/
abbrev GAUGE_PROVEMIN : Nat := 0xE06C
/-- GAUGE.PROVESTAT (R259). -/
abbrev GAUGE_PROVESTAT : Nat := 0xE070
/-- GAUGE.CURRENT (R259). -/
abbrev GAUGE_CURRENT : Nat := 0xE080
/-- GAUGE.VOLT (R259). -/
abbrev GAUGE_VOLT : Nat := 0xE084
/-- GAUGE.TEMPMEAS (R259). -/
abbrev GAUGE_TEMPMEAS : Nat := 0xE088
/-- GAUGE.SOC (R259). -/
abbrev GAUGE_SOC : Nat := 0xE08C
/-- GAUGE.RM (R259). -/
abbrev GAUGE_RM : Nat := 0xE090
/-- GAUGE.FCC (R259). -/
abbrev GAUGE_FCC : Nat := 0xE094
/-- GAUGE.ENERGY (R259). -/
abbrev GAUGE_ENERGY : Nat := 0xE098
/-- GAUGE.QPASS (R259). -/
abbrev GAUGE_QPASS : Nat := 0xE09C
/-- GAUGE.QBEYOND (R259). -/
abbrev GAUGE_QBEYOND : Nat := 0xE0A0
/-- GAUGE.ANCHOR (R259). -/
abbrev GAUGE_ANCHOR : Nat := 0xE0A4
/-- GAUGE.LEARNRES (R259). -/
abbrev GAUGE_LEARNRES : Nat := 0xE0A8
/-- GAUGE.OCV (R259). -/
abbrev GAUGE_OCV (i : Nat) : Nat := 0xE100 + 0x4 * i
/-- GAUGE.OCVMASK (R259). -/
abbrev GAUGE_OCVMASK : Nat := 0xE180
/-- THERM.ID (R66). -/
abbrev THERM_ID : Nat := 0xF000
/-- THERM.CTRL (R339). -/
abbrev THERM_CTRL : Nat := 0xF004
/-- THERM.STAT (R339). -/
abbrev THERM_STAT : Nat := 0xF008
/-- THERM.EVRAW (R339). -/
abbrev THERM_EVRAW : Nat := 0xF00C
/-- THERM.EVEN (R66). -/
abbrev THERM_EVEN : Nat := 0xF010
/-- THERM.EVSTAT (R66). -/
abbrev THERM_EVSTAT : Nat := 0xF014
/-- THERM.CFG (R339). -/
abbrev THERM_CFG : Nat := 0xF040
/-- THERM.DIE_TEMP (R339). -/
abbrev THERM_DIE_TEMP : Nat := 0xF044
/-- THERM.DIELIM (R339). -/
abbrev THERM_DIELIM : Nat := 0xF048
/-- THERM.DIEHYS (R339). -/
abbrev THERM_DIEHYS : Nat := 0xF04C
/-- THERM.THAWCFG (R339). -/
abbrev THERM_THAWCFG : Nat := 0xF050
/-- THERM.THAW (R339). -/
abbrev THERM_THAW : Nat := 0xF054
/-- THERM.TSDCNT (R339). -/
abbrev THERM_TSDCNT : Nat := 0xF058
/-- THERM.SENSFAIL (R339). -/
abbrev THERM_SENSFAIL : Nat := 0xF05C
/-- THERM.DS (R339). -/
abbrev THERM_DS (i : Nat) : Nat := 0xF080 + 0x4 * i
/-- THERM.TDCFG (R339). -/
abbrev THERM_TDCFG (i : Nat) : Nat := 0xF0C0 + 0x10 * i
/-- THERM.TDLIM (R339). -/
abbrev THERM_TDLIM (i : Nat) : Nat := 0xF0C4 + 0x10 * i
/-- THERM.TDHYS (R339). -/
abbrev THERM_TDHYS (i : Nat) : Nat := 0xF0C8 + 0x10 * i
/-- THERM.TDVAL (R339). -/
abbrev THERM_TDVAL (i : Nat) : Nat := 0xF0CC + 0x10 * i
/-- FAULT.ID (R66). -/
abbrev FAULT_ID : Nat := 0x10000
/-- FAULT.CTRL (R355). -/
abbrev FAULT_CTRL : Nat := 0x10004
/-- FAULT.STAT (R355). -/
abbrev FAULT_STAT : Nat := 0x10008
/-- FAULT.EVRAW (R355). -/
abbrev FAULT_EVRAW : Nat := 0x1000C
/-- FAULT.EVEN (R66). -/
abbrev FAULT_EVEN : Nat := 0x10010
/-- FAULT.EVSTAT (R66). -/
abbrev FAULT_EVSTAT : Nat := 0x10014
/-- FAULT.UNCLR (R355). -/
abbrev FAULT_UNCLR (i : Nat) : Nat := 0x10040 + 0x4 * i
/-- FAULT.ACTIVE (R355). -/
abbrev FAULT_ACTIVE (i : Nat) : Nat := 0x10048 + 0x4 * i
/-- FAULT.LULL (R355). -/
abbrev FAULT_LULL (i : Nat) : Nat := 0x10050 + 0x4 * i
/-- FAULT.SQUALL (R355). -/
abbrev FAULT_SQUALL (i : Nat) : Nat := 0x10058 + 0x4 * i
/-- FAULT.HISTSTAT (R355). -/
abbrev FAULT_HISTSTAT : Nat := 0x10060
/-- FAULT.LAST (R355). -/
abbrev FAULT_LAST : Nat := 0x10064
/-- FAULT.EXTIN (R355). -/
abbrev FAULT_EXTIN : Nat := 0x10068
/-- FAULT.CLEAR (R355). -/
abbrev FAULT_CLEAR (i : Nat) : Nat := 0x10070 + 0x4 * i
/-- FAULT.REACT (R355). -/
abbrev FAULT_REACT (i : Nat) : Nat := 0x10100 + 0x4 * i
/-- FAULT.CNT (R355). -/
abbrev FAULT_CNT (i : Nat) : Nat := 0x101C0 + 0x4 * i
/-- FAULT.RCNT (R355). -/
abbrev FAULT_RCNT (i : Nat) : Nat := 0x10200 + 0x4 * i
/-- FAULT.RECOV (R355). -/
abbrev FAULT_RECOV (i : Nat) : Nat := 0x10240 + 0x4 * i
/-- FAULT.HISTW0 (R355). -/
abbrev FAULT_HISTW0 (i : Nat) : Nat := 0x10300 + 0x10 * i
/-- FAULT.HISTW1 (R355). -/
abbrev FAULT_HISTW1 (i : Nat) : Nat := 0x10304 + 0x10 * i
/-- FAULT.HISTW2 (R355). -/
abbrev FAULT_HISTW2 (i : Nat) : Nat := 0x10308 + 0x10 * i
/-- FAULT.HISTW3 (R355). -/
abbrev FAULT_HISTW3 (i : Nat) : Nat := 0x1030C + 0x10 * i
/-- INTC.ID (R66). -/
abbrev INTC_ID : Nat := 0x11000
/-- INTC.CTRL (R366). -/
abbrev INTC_CTRL : Nat := 0x11004
/-- INTC.STAT (R366). -/
abbrev INTC_STAT : Nat := 0x11008
/-- INTC.EVRAW (R366). -/
abbrev INTC_EVRAW : Nat := 0x1100C
/-- INTC.EVEN (R66). -/
abbrev INTC_EVEN : Nat := 0x11010
/-- INTC.EVSTAT (R66). -/
abbrev INTC_EVSTAT : Nat := 0x11014
/-- INTC.EN0 (R366). -/
abbrev INTC_EN0 : Nat := 0x11040
/-- INTC.EN1 (R366). -/
abbrev INTC_EN1 : Nat := 0x11044
/-- INTC.PEND0 (R366). -/
abbrev INTC_PEND0 : Nat := 0x11048
/-- INTC.PEND1 (R366). -/
abbrev INTC_PEND1 : Nat := 0x1104C
/-- INTC.NMIPEND0 (R366). -/
abbrev INTC_NMIPEND0 : Nat := 0x11050
/-- INTC.NMIPEND1 (R366). -/
abbrev INTC_NMIPEND1 : Nat := 0x11054
/-- INTC.RAW0 (R366). -/
abbrev INTC_RAW0 : Nat := 0x11058
/-- INTC.RAW1 (R366). -/
abbrev INTC_RAW1 : Nat := 0x1105C
/-- INTC.OUT (R366). -/
abbrev INTC_OUT : Nat := 0x11060
/-- INTC.HOLDOFF (R366). -/
abbrev INTC_HOLDOFF (i : Nat) : Nat := 0x11080 + 0x4 * i
/-- INTC.CFG (R366). -/
abbrev INTC_CFG (i : Nat) : Nat := 0x11100 + 0x4 * i
/-- INTC.PCFG (R366). -/
abbrev INTC_PCFG (p i : Nat) : Nat := 0x11200 + 0x100 * p + 0x4 * i
/-- INTC.PEN (R366). -/
abbrev INTC_PEN (p : Nat) : Nat := 0x11240 + 0x100 * p
/-- INTC.PPEND (R366). -/
abbrev INTC_PPEND (p : Nat) : Nat := 0x11244 + 0x100 * p
/-- INTC.PRAW (R366). -/
abbrev INTC_PRAW (p : Nat) : Nat := 0x11248 + 0x100 * p
/-- INTC.VEC (R366). -/
abbrev INTC_VEC (p : Nat) : Nat := 0x1124C + 0x100 * p
/-- RECORD.ID (R66). -/
abbrev RECORD_ID : Nat := 0x12000
/-- RECORD.CTRL (R390). -/
abbrev RECORD_CTRL : Nat := 0x12004
/-- RECORD.STAT (R390). -/
abbrev RECORD_STAT : Nat := 0x12008
/-- RECORD.EVRAW (R390). -/
abbrev RECORD_EVRAW : Nat := 0x1200C
/-- RECORD.EVEN (R66). -/
abbrev RECORD_EVEN : Nat := 0x12010
/-- RECORD.EVSTAT (R66). -/
abbrev RECORD_EVSTAT : Nat := 0x12014
/-- RECORD.CMD (R390). -/
abbrev RECORD_CMD : Nat := 0x12040
/-- RECORD.CMDRES (R390). -/
abbrev RECORD_CMDRES : Nat := 0x12044
/-- RECORD.ACFG (R390). -/
abbrev RECORD_ACFG : Nat := 0x12048
/-- RECORD.ASTAT (R390). -/
abbrev RECORD_ASTAT : Nat := 0x1204C
/-- RECORD.ASEQ (R390). -/
abbrev RECORD_ASEQ : Nat := 0x12050
/-- RECORD.AFREEZE (R390). -/
abbrev RECORD_AFREEZE : Nat := 0x12054
/-- RECORD.LSEQ (R390). -/
abbrev RECORD_LSEQ : Nat := 0x12058
/-- RECORD.LMIRROR (R390). -/
abbrev RECORD_LMIRROR : Nat := 0x1205C
/-- RECORD.LLOST (R390). -/
abbrev RECORD_LLOST : Nat := 0x12060
/-- RECORD.BOOTNO (R390). -/
abbrev RECORD_BOOTNO : Nat := 0x12064
/-- RECORD.LCFG (R390). -/
abbrev RECORD_LCFG : Nat := 0x12068
/-- RECORD.SDDATA (R390). -/
abbrev RECORD_SDDATA (i : Nat) : Nat := 0x12080 + 0x4 * i
/-- RECORD.BUF (R390). -/
abbrev RECORD_BUF (i : Nat) : Nat := 0x12100 + 0x4 * i
/-- FLASH.ID (R66). -/
abbrev FLASH_ID : Nat := 0x13000
/-- FLASH.CTRL (R391). -/
abbrev FLASH_CTRL : Nat := 0x13004
/-- FLASH.STAT (R391). -/
abbrev FLASH_STAT : Nat := 0x13008
/-- FLASH.EVRAW (R391). -/
abbrev FLASH_EVRAW : Nat := 0x1300C
/-- FLASH.EVEN (R66). -/
abbrev FLASH_EVEN : Nat := 0x13010
/-- FLASH.EVSTAT (R66). -/
abbrev FLASH_EVSTAT : Nat := 0x13014
/-- FLASH.CFG (R391). -/
abbrev FLASH_CFG : Nat := 0x13040
/-- FLASH.DENS (R391). -/
abbrev FLASH_DENS : Nat := 0x13044
/-- FLASH.TMO (R391). -/
abbrev FLASH_TMO : Nat := 0x13048
/-- FLASH.FAILCAUSE (R391). -/
abbrev FLASH_FAILCAUSE : Nat := 0x1304C
/-- FLASH.HADDR (R391). -/
abbrev FLASH_HADDR : Nat := 0x13050
/-- FLASH.HCMD (R391). -/
abbrev FLASH_HCMD : Nat := 0x13054
/-- FLASH.HRES (R391). -/
abbrev FLASH_HRES : Nat := 0x13058
/-- FLASH.PART (R391). -/
abbrev FLASH_PART (i : Nat) : Nat := 0x13088 + 0x8 * i
/-- FLASH.PSIZE (R391). -/
abbrev FLASH_PSIZE (i : Nat) : Nat := 0x1308C + 0x8 * i
/-- FLASH.BUF (R391). -/
abbrev FLASH_BUF (i : Nat) : Nat := 0x13100 + 0x4 * i
/-- OTP.ID (R66). -/
abbrev OTP_ID : Nat := 0x14000
/-- OTP.CTRL (R410). -/
abbrev OTP_CTRL : Nat := 0x14004
/-- OTP.STAT (R410). -/
abbrev OTP_STAT : Nat := 0x14008
/-- OTP.EVRAW (R410). -/
abbrev OTP_EVRAW : Nat := 0x1400C
/-- OTP.EVEN (R66). -/
abbrev OTP_EVEN : Nat := 0x14010
/-- OTP.EVSTAT (R66). -/
abbrev OTP_EVSTAT : Nat := 0x14014
/-- OTP.DATA (R410). -/
abbrev OTP_DATA : Nat := 0x14040
/-- OTP.RDATA (R410). -/
abbrev OTP_RDATA : Nat := 0x14044
/-- OTP.CMD (R410). -/
abbrev OTP_CMD : Nat := 0x14048
/-- OTP.RES (R410). -/
abbrev OTP_RES : Nat := 0x1404C
/-- OTP.RLOCK (R410). -/
abbrev OTP_RLOCK : Nat := 0x14050
/-- OTP.WLOCK (R410). -/
abbrev OTP_WLOCK : Nat := 0x14054
/-- OTP.MARG (R410). -/
abbrev OTP_MARG : Nat := 0x14058
/-- OTP.ECC (R410). -/
abbrev OTP_ECC : Nat := 0x1405C
/-- OTP.REDIR (R410). -/
abbrev OTP_REDIR (i : Nat) : Nat := 0x14060 + 0x4 * i
/-- OTP.BOOTSTAT (R410). -/
abbrev OTP_BOOTSTAT : Nat := 0x14080
/-- TIMER.ID (R66). -/
abbrev TIMER_ID : Nat := 0x15000
/-- TIMER.EVRAW (R419). -/
abbrev TIMER_EVRAW : Nat := 0x1500C
/-- TIMER.EVEN (R66). -/
abbrev TIMER_EVEN : Nat := 0x15010
/-- TIMER.EVSTAT (R66). -/
abbrev TIMER_EVSTAT : Nat := 0x15014
/-- TIMER.TCFG (R419). -/
abbrev TIMER_TCFG (i : Nat) : Nat := 0x15040 + 0x40 * i
/-- TIMER.DIV (R419). -/
abbrev TIMER_DIV (i : Nat) : Nat := 0x15044 + 0x40 * i
/-- TIMER.CMP0_LO (R419). -/
abbrev TIMER_CMP0_LO (i : Nat) : Nat := 0x15048 + 0x40 * i
/-- TIMER.CMP0_HI (R419). -/
abbrev TIMER_CMP0_HI (i : Nat) : Nat := 0x1504C + 0x40 * i
/-- TIMER.CMP1_LO (R419). -/
abbrev TIMER_CMP1_LO (i : Nat) : Nat := 0x15050 + 0x40 * i
/-- TIMER.CMP1_HI (R419). -/
abbrev TIMER_CMP1_HI (i : Nat) : Nat := 0x15054 + 0x40 * i
/-- TIMER.TIO (R419). -/
abbrev TIMER_TIO (i : Nat) : Nat := 0x15058 + 0x40 * i
/-- TIMER.LOAD_LO (R419). -/
abbrev TIMER_LOAD_LO (i : Nat) : Nat := 0x1505C + 0x40 * i
/-- TIMER.LOAD_HI (R419). -/
abbrev TIMER_LOAD_HI (i : Nat) : Nat := 0x15060 + 0x40 * i
/-- TIMER.CMD (R419). -/
abbrev TIMER_CMD (i : Nat) : Nat := 0x15064 + 0x40 * i
/-- TIMER.SNAP_LO (R419). -/
abbrev TIMER_SNAP_LO (i : Nat) : Nat := 0x15068 + 0x40 * i
/-- TIMER.SNAP_HI (R419). -/
abbrev TIMER_SNAP_HI (i : Nat) : Nat := 0x1506C + 0x40 * i
/-- TIMER.SNAPSTAT (R419). -/
abbrev TIMER_SNAPSTAT (i : Nat) : Nat := 0x15070 + 0x40 * i
/-- TIMER.TSTAT (R419). -/
abbrev TIMER_TSTAT (i : Nat) : Nat := 0x15074 + 0x40 * i
/-- CRC.ID (R66). -/
abbrev CRC_ID : Nat := 0x16000
/-- CRC.CTRL (R424). -/
abbrev CRC_CTRL : Nat := 0x16004
/-- CRC.STAT (R424). -/
abbrev CRC_STAT : Nat := 0x16008
/-- CRC.EVRAW (R424). -/
abbrev CRC_EVRAW : Nat := 0x1600C
/-- CRC.EVEN (R66). -/
abbrev CRC_EVEN : Nat := 0x16010
/-- CRC.EVSTAT (R66). -/
abbrev CRC_EVSTAT : Nat := 0x16014
/-- CRC.DIN8 (R424). -/
abbrev CRC_DIN8 : Nat := 0x16040
/-- CRC.DIN16 (R424). -/
abbrev CRC_DIN16 : Nat := 0x16044
/-- CRC.DIN32 (R424). -/
abbrev CRC_DIN32 : Nat := 0x16048
/-- CRC.RESULT (R424). -/
abbrev CRC_RESULT : Nat := 0x1604C
/-- CRC.OWNER (R424). -/
abbrev CRC_OWNER : Nat := 0x16050
/-- GPIO.ID (R66). -/
abbrev GPIO_ID : Nat := 0x17000
/-- GPIO.EVRAW (R190). -/
abbrev GPIO_EVRAW : Nat := 0x1700C
/-- GPIO.EVEN (R66). -/
abbrev GPIO_EVEN : Nat := 0x17010
/-- GPIO.EVSTAT (R66). -/
abbrev GPIO_EVSTAT : Nat := 0x17014
/-- GPIO.PIN (R190). -/
abbrev GPIO_PIN (i : Nat) : Nat := 0x17040 + 0x4 * i
/-- LINK.ID (R66). -/
abbrev LINK_ID (n : Nat) : Nat := 0x20000 + 0x1000 * n
/-- LINK.CTRL (R299). -/
abbrev LINK_CTRL (n : Nat) : Nat := 0x20004 + 0x1000 * n
/-- LINK.STAT (R299). -/
abbrev LINK_STAT (n : Nat) : Nat := 0x20008 + 0x1000 * n
/-- LINK.EVRAW (R299). -/
abbrev LINK_EVRAW (n : Nat) : Nat := 0x2000C + 0x1000 * n
/-- LINK.EVEN (R66). -/
abbrev LINK_EVEN (n : Nat) : Nat := 0x20010 + 0x1000 * n
/-- LINK.EVSTAT (R66). -/
abbrev LINK_EVSTAT (n : Nat) : Nat := 0x20014 + 0x1000 * n
/-- LINK.TIMING (R299). -/
abbrev LINK_TIMING (n : Nat) : Nat := 0x20040 + 0x1000 * n
/-- LINK.SCAN (R299). -/
abbrev LINK_SCAN (n : Nat) : Nat := 0x20044 + 0x1000 * n
/-- LINK.SCANMASK (R299). -/
abbrev LINK_SCANMASK (n i : Nat) : Nat := 0x20048 + 0x1000 * n + 0x4 * i
/-- LINK.SCANSTAT (R299). -/
abbrev LINK_SCANSTAT (n : Nat) : Nat := 0x20050 + 0x1000 * n
/-- LINK.REQMASK (R299). -/
abbrev LINK_REQMASK (n i : Nat) : Nat := 0x20054 + 0x1000 * n + 0x4 * i
/-- LINK.FLTMASK (R299). -/
abbrev LINK_FLTMASK (n i : Nat) : Nat := 0x2005C + 0x1000 * n + 0x4 * i
/-- LINK.PRESMASK (R299). -/
abbrev LINK_PRESMASK (n i : Nat) : Nat := 0x20064 + 0x1000 * n + 0x4 * i
/-- LINK.CHGMASK (R299). -/
abbrev LINK_CHGMASK (n i : Nat) : Nat := 0x2006C + 0x1000 * n + 0x4 * i
/-- LINK.SHEDMASK (R299). -/
abbrev LINK_SHEDMASK (n i : Nat) : Nat := 0x20074 + 0x1000 * n + 0x4 * i
/-- LINK.ALERTMASK (R299). -/
abbrev LINK_ALERTMASK (n i : Nat) : Nat := 0x2007C + 0x1000 * n + 0x4 * i
/-- LINK.ALERTSTAT (R299). -/
abbrev LINK_ALERTSTAT (n : Nat) : Nat := 0x20084 + 0x1000 * n
/-- LINK.QCNT0 (R299). -/
abbrev LINK_QCNT0 (n : Nat) : Nat := 0x20088 + 0x1000 * n
/-- LINK.QCNT1 (R299). -/
abbrev LINK_QCNT1 (n : Nat) : Nat := 0x2008C + 0x1000 * n
/-- LINK.LASTDONE (R299). -/
abbrev LINK_LASTDONE (n : Nat) : Nat := 0x20090 + 0x1000 * n
/-- LINK.HOSTDESC (R299). -/
abbrev LINK_HOSTDESC (n i : Nat) : Nat := 0x200A0 + 0x1000 * n + 0x4 * i
/-- LINK.HOSTPUSH (R299). -/
abbrev LINK_HOSTPUSH (n : Nat) : Nat := 0x200B0 + 0x1000 * n
/-- LINK.HOSTRES (R299). -/
abbrev LINK_HOSTRES (n : Nat) : Nat := 0x200B4 + 0x1000 * n
/-- LINK.PTCFG (R299). -/
abbrev LINK_PTCFG (n : Nat) : Nat := 0x200B8 + 0x1000 * n
/-- LINK.ERRCNT (R299). -/
abbrev LINK_ERRCNT (n : Nat) : Nat := 0x200C0 + 0x1000 * n
/-- LINK.EPCNT (R299). -/
abbrev LINK_EPCNT (n : Nat) : Nat := 0x200C4 + 0x1000 * n
/-- LINK.FAULTSTAT (R299). -/
abbrev LINK_FAULTSTAT (n : Nat) : Nat := 0x200C8 + 0x1000 * n

end Reg

namespace Fd

abbrev SYS_ID_PART : Fld := ⟨Reg.SYS_ID, 16, 16⟩
abbrev SYS_ID_FAMILY : Fld := ⟨Reg.SYS_ID, 8, 8⟩
abbrev SYS_ID_REVL : Fld := ⟨Reg.SYS_ID, 4, 4⟩
abbrev SYS_ID_REVN : Fld := ⟨Reg.SYS_ID, 0, 4⟩
abbrev SYS_CTRL_KEY : Fld := ⟨Reg.SYS_CTRL, 16, 16⟩
abbrev SYS_CTRL_CHIPRST : Fld := ⟨Reg.SYS_CTRL, 0, 1⟩
abbrev SYS_STAT_PLANSRC : Fld := ⟨Reg.SYS_STAT, 2, 2⟩
abbrev SYS_STAT_BOOTBLANK : Fld := ⟨Reg.SYS_STAT, 1, 1⟩
abbrev SYS_STAT_READY : Fld := ⟨Reg.SYS_STAT, 0, 1⟩
abbrev SYS_EVRAW_CLOCK : Fld := ⟨Reg.SYS_EVRAW, 1, 1⟩
abbrev SYS_EVRAW_READY : Fld := ⟨Reg.SYS_EVRAW, 0, 1⟩
abbrev SYS_CONFIG_CLASS : Fld := ⟨Reg.SYS_CONFIG, 0, 1⟩
abbrev SYS_PWRCTRL_XTALRET : Fld := ⟨Reg.SYS_PWRCTRL, 17, 1⟩
abbrev SYS_PWRCTRL_STAYUP : Fld := ⟨Reg.SYS_PWRCTRL, 16, 1⟩
abbrev SYS_PWRCTRL_IDLE : Fld := ⟨Reg.SYS_PWRCTRL, 0, 16⟩
abbrev SYS_PWRSTAT_GAUGELOST : Fld := ⟨Reg.SYS_PWRSTAT, 7, 1⟩
abbrev SYS_PWRSTAT_PWMLOST : Fld := ⟨Reg.SYS_PWRSTAT, 6, 1⟩
abbrev SYS_PWRSTAT_WAKELOST : Fld := ⟨Reg.SYS_PWRSTAT, 5, 1⟩
abbrev SYS_PWRSTAT_PLLFAIL : Fld := ⟨Reg.SYS_PWRSTAT, 4, 1⟩
abbrev SYS_PWRSTAT_XTALLOST : Fld := ⟨Reg.SYS_PWRSTAT, 3, 1⟩
abbrev SYS_PWRSTAT_AOSRC : Fld := ⟨Reg.SYS_PWRSTAT, 2, 1⟩
abbrev SYS_PWRSTAT_STATE : Fld := ⟨Reg.SYS_PWRSTAT, 0, 2⟩
abbrev SYS_TIMECAP_GO : Fld := ⟨Reg.SYS_TIMECAP, 0, 1⟩
abbrev SYS_TIME_LO_TICK_L : Fld := ⟨Reg.SYS_TIME_LO, 16, 16⟩
abbrev SYS_TIME_LO_SUB : Fld := ⟨Reg.SYS_TIME_LO, 0, 16⟩
abbrev SYS_TIME_HI_TICK_H : Fld := ⟨Reg.SYS_TIME_HI, 0, 32⟩
abbrev HOSTIF_CTRL_CRCEN (p : Nat) : Fld := ⟨Reg.HOSTIF_CTRL p, 0, 1⟩
abbrev HOSTIF_STAT_MBOVR (p : Nat) : Fld := ⟨Reg.HOSTIF_STAT p, 2, 1⟩
abbrev HOSTIF_STAT_MBFULL (p : Nat) : Fld := ⟨Reg.HOSTIF_STAT p, 1, 1⟩
abbrev HOSTIF_STAT_LASTOK (p : Nat) : Fld := ⟨Reg.HOSTIF_STAT p, 0, 1⟩
abbrev HOSTIF_EVRAW_ABUSE (p : Nat) : Fld := ⟨Reg.HOSTIF_EVRAW p, 1, 1⟩
abbrev HOSTIF_EVRAW_DISCARD (p : Nat) : Fld := ⟨Reg.HOSTIF_EVRAW p, 0, 1⟩
abbrev HOSTIF_DISCARD_REASON (p : Nat) : Fld := ⟨Reg.HOSTIF_DISCARD p, 24, 4⟩
abbrev HOSTIF_DISCARD_LASTCMD (p : Nat) : Fld := ⟨Reg.HOSTIF_DISCARD p, 16, 8⟩
abbrev HOSTIF_DISCARD_COUNT (p : Nat) : Fld := ⟨Reg.HOSTIF_DISCARD p, 0, 16⟩
abbrev HOSTIF_ACCEPT_COUNT (p : Nat) : Fld := ⟨Reg.HOSTIF_ACCEPT p, 0, 32⟩
abbrev HOSTIF_ABUSE_WINDOW (p : Nat) : Fld := ⟨Reg.HOSTIF_ABUSE p, 16, 16⟩
abbrev HOSTIF_ABUSE_LIMIT (p : Nat) : Fld := ⟨Reg.HOSTIF_ABUSE p, 0, 8⟩
abbrev HOSTIF_LASTADDR_ADDR (p : Nat) : Fld := ⟨Reg.HOSTIF_LASTADDR p, 0, 24⟩
abbrev HOSTIF_WDCTRL_EN (p : Nat) : Fld := ⟨Reg.HOSTIF_WDCTRL p, 31, 1⟩
abbrev HOSTIF_WDCTRL_WARNPCT (p : Nat) : Fld := ⟨Reg.HOSTIF_WDCTRL p, 16, 8⟩
abbrev HOSTIF_WDCTRL_PERIOD (p : Nat) : Fld := ⟨Reg.HOSTIF_WDCTRL p, 0, 16⟩
abbrev HOSTIF_WDKICK_KEY (p : Nat) : Fld := ⟨Reg.HOSTIF_WDKICK p, 0, 16⟩
abbrev HOSTIF_WDSTAT_EXPCNT (p : Nat) : Fld := ⟨Reg.HOSTIF_WDSTAT p, 8, 8⟩
abbrev HOSTIF_WDSTAT_WARN (p : Nat) : Fld := ⟨Reg.HOSTIF_WDSTAT p, 1, 1⟩
abbrev HOSTIF_WDSTAT_EXPIRED (p : Nat) : Fld := ⟨Reg.HOSTIF_WDSTAT p, 0, 1⟩
abbrev HOSTIF_MBOX_OUT_DATA (p : Nat) : Fld := ⟨Reg.HOSTIF_MBOX_OUT p, 0, 32⟩
abbrev HOSTIF_MBOX_IN_DATA (p : Nat) : Fld := ⟨Reg.HOSTIF_MBOX_IN p, 0, 32⟩
abbrev PLAN_CTRL_WLOCK : Fld := ⟨Reg.PLAN_CTRL, 0, 1⟩
abbrev PLAN_STAT_PATCHED : Fld := ⟨Reg.PLAN_STAT, 3, 1⟩
abbrev PLAN_STAT_UNSEALED : Fld := ⟨Reg.PLAN_STAT, 2, 1⟩
abbrev PLAN_STAT_LOADING : Fld := ⟨Reg.PLAN_STAT, 1, 1⟩
abbrev PLAN_STAT_ANYFAULT : Fld := ⟨Reg.PLAN_STAT, 0, 1⟩
abbrev PLAN_EVRAW_THFAULT : Fld := ⟨Reg.PLAN_EVRAW, 0, 16⟩
abbrev PLAN_THCMD_PC : Fld := ⟨Reg.PLAN_THCMD, 16, 14⟩
abbrev PLAN_THCMD_ACTION : Fld := ⟨Reg.PLAN_THCMD, 4, 3⟩
abbrev PLAN_THCMD_THREAD : Fld := ⟨Reg.PLAN_THCMD, 0, 4⟩
abbrev PLAN_LOAD_SRC : Fld := ⟨Reg.PLAN_LOAD, 0, 2⟩
abbrev PLAN_LOADSTAT_ROWS : Fld := ⟨Reg.PLAN_LOADSTAT, 16, 16⟩
abbrev PLAN_LOADSTAT_BUSY : Fld := ⟨Reg.PLAN_LOADSTAT, 8, 1⟩
abbrev PLAN_LOADSTAT_SRC : Fld := ⟨Reg.PLAN_LOADSTAT, 4, 2⟩
abbrev PLAN_LOADSTAT_RESULT : Fld := ⟨Reg.PLAN_LOADSTAT, 0, 4⟩
abbrev PLAN_PLANID_ID : Fld := ⟨Reg.PLAN_PLANID, 0, 32⟩
abbrev PLAN_PLANVER_VERSION : Fld := ⟨Reg.PLAN_PLANVER, 0, 32⟩
abbrev PLAN_POST_FLAGS : Fld := ⟨Reg.PLAN_POST, 0, 16⟩
abbrev PLAN_SEM_HELD : Fld := ⟨Reg.PLAN_SEM, 0, 16⟩
abbrev PLAN_ECC_CORR : Fld := ⟨Reg.PLAN_ECC, 0, 16⟩
abbrev PLAN_SIGDATA_DATA (i : Nat) : Fld := ⟨Reg.PLAN_SIGDATA i, 0, 32⟩
abbrev PLAN_TIME_LO_TIME : Fld := ⟨Reg.PLAN_TIME_LO, 0, 32⟩
abbrev PLAN_TIME_HI_T : Fld := ⟨Reg.PLAN_TIME_HI, 0, 32⟩
abbrev PLAN_THSTAT_STATE (i : Nat) : Fld := ⟨Reg.PLAN_THSTAT i, 30, 2⟩
abbrev PLAN_THSTAT_PC (i : Nat) : Fld := ⟨Reg.PLAN_THSTAT i, 16, 14⟩
abbrev PLAN_THSTAT_FLAGS (i : Nat) : Fld := ⟨Reg.PLAN_THSTAT i, 12, 4⟩
abbrev PLAN_THSTAT_SP (i : Nat) : Fld := ⟨Reg.PLAN_THSTAT i, 8, 3⟩
abbrev PLAN_THSTAT_CAUSE (i : Nat) : Fld := ⟨Reg.PLAN_THSTAT i, 4, 4⟩
abbrev PLAN_THW_W (i j : Nat) : Fld := ⟨Reg.PLAN_THW i j, 0, 32⟩
abbrev PLAN_SCRATCH_DATA (i : Nat) : Fld := ⟨Reg.PLAN_SCRATCH i, 0, 32⟩
abbrev LEDGER_CTRL_AUTOT : Fld := ⟨Reg.LEDGER_CTRL, 3, 1⟩
abbrev LEDGER_CTRL_ECHECK : Fld := ⟨Reg.LEDGER_CTRL, 2, 1⟩
abbrev LEDGER_CTRL_BATTADD : Fld := ⟨Reg.LEDGER_CTRL, 1, 1⟩
abbrev LEDGER_CTRL_EN : Fld := ⟨Reg.LEDGER_CTRL, 0, 1⟩
abbrev LEDGER_STAT_LOVER : Fld := ⟨Reg.LEDGER_STAT, 4, 4⟩
abbrev LEDGER_STAT_LOWE : Fld := ⟨Reg.LEDGER_STAT, 3, 1⟩
abbrev LEDGER_STAT_THROT : Fld := ⟨Reg.LEDGER_STAT, 2, 1⟩
abbrev LEDGER_STAT_BUSY : Fld := ⟨Reg.LEDGER_STAT, 1, 1⟩
abbrev LEDGER_STAT_OVER : Fld := ⟨Reg.LEDGER_STAT, 0, 1⟩
abbrev LEDGER_EVRAW_FCEND : Fld := ⟨Reg.LEDGER_EVRAW, 7, 1⟩
abbrev LEDGER_EVRAW_LOWE : Fld := ⟨Reg.LEDGER_EVRAW, 6, 1⟩
abbrev LEDGER_EVRAW_ODRAW : Fld := ⟨Reg.LEDGER_EVRAW, 5, 1⟩
abbrev LEDGER_EVRAW_REMOVED : Fld := ⟨Reg.LEDGER_EVRAW, 4, 1⟩
abbrev LEDGER_EVRAW_RESEXP : Fld := ⟨Reg.LEDGER_EVRAW, 3, 1⟩
abbrev LEDGER_EVRAW_SHED : Fld := ⟨Reg.LEDGER_EVRAW, 2, 1⟩
abbrev LEDGER_EVRAW_OVERCLR : Fld := ⟨Reg.LEDGER_EVRAW, 1, 1⟩
abbrev LEDGER_EVRAW_OVER : Fld := ⟨Reg.LEDGER_EVRAW, 0, 1⟩
abbrev LEDGER_SOURCE_CAP_MW : Fld := ⟨Reg.LEDGER_SOURCE_CAP, 0, 32⟩
abbrev LEDGER_BATT_CAP_MW : Fld := ⟨Reg.LEDGER_BATT_CAP, 0, 32⟩
abbrev LEDGER_EFFCAP_MW : Fld := ⟨Reg.LEDGER_EFFCAP, 0, 32⟩
abbrev LEDGER_COMMIT_TOTAL_MW : Fld := ⟨Reg.LEDGER_COMMIT_TOTAL, 0, 32⟩
abbrev LEDGER_RESV_TOTAL_MW : Fld := ⟨Reg.LEDGER_RESV_TOTAL, 0, 32⟩
abbrev LEDGER_HEADROOM_MW : Fld := ⟨Reg.LEDGER_HEADROOM, 0, 32⟩
abbrev LEDGER_OVERBY_MW : Fld := ⟨Reg.LEDGER_OVERBY, 0, 32⟩
abbrev LEDGER_RESERVE_MJ : Fld := ⟨Reg.LEDGER_RESERVE, 0, 32⟩
abbrev LEDGER_EMARGIN_MJ : Fld := ⟨Reg.LEDGER_EMARGIN, 0, 32⟩
abbrev LEDGER_MEAS_TOTAL_MW : Fld := ⟨Reg.LEDGER_MEAS_TOTAL, 0, 32⟩
abbrev LEDGER_BASELOAD_MW : Fld := ⟨Reg.LEDGER_BASELOAD, 0, 32⟩
abbrev LEDGER_PREARM_HOLD_US : Fld := ⟨Reg.LEDGER_PREARM_HOLD, 0, 16⟩
abbrev LEDGER_THROTTLE_EFFPRIO : Fld := ⟨Reg.LEDGER_THROTTLE, 8, 3⟩
abbrev LEDGER_THROTTLE_TPRIO : Fld := ⟨Reg.LEDGER_THROTTLE, 4, 3⟩
abbrev LEDGER_THROTTLE_MINPRIO : Fld := ⟨Reg.LEDGER_THROTTLE, 0, 3⟩
abbrev LEDGER_BATT_SOCHI : Fld := ⟨Reg.LEDGER_BATT, 24, 8⟩
abbrev LEDGER_BATT_SOCLO : Fld := ⟨Reg.LEDGER_BATT, 16, 8⟩
abbrev LEDGER_BATT_FLOOR : Fld := ⟨Reg.LEDGER_BATT, 8, 8⟩
abbrev LEDGER_BATT_UNCPCT : Fld := ⟨Reg.LEDGER_BATT, 0, 8⟩
abbrev LEDGER_BATTT_THI : Fld := ⟨Reg.LEDGER_BATTT, 24, 8⟩
abbrev LEDGER_BATTT_TLO : Fld := ⟨Reg.LEDGER_BATTT, 16, 8⟩
abbrev LEDGER_BATTT_TPCT : Fld := ⟨Reg.LEDGER_BATTT, 8, 8⟩
abbrev LEDGER_BATTT_BF : Fld := ⟨Reg.LEDGER_BATTT, 0, 8⟩
abbrev LEDGER_LBBASE_MJ : Fld := ⟨Reg.LEDGER_LBBASE, 0, 32⟩
abbrev LEDGER_TSTOP0_P1 : Fld := ⟨Reg.LEDGER_TSTOP0, 16, 16⟩
abbrev LEDGER_TSTOP0_P0 : Fld := ⟨Reg.LEDGER_TSTOP0, 0, 16⟩
abbrev LEDGER_TSTOP1_P3 : Fld := ⟨Reg.LEDGER_TSTOP1, 16, 16⟩
abbrev LEDGER_TSTOP1_P2 : Fld := ⟨Reg.LEDGER_TSTOP1, 0, 16⟩
abbrev LEDGER_TSTOP2_P5 : Fld := ⟨Reg.LEDGER_TSTOP2, 16, 16⟩
abbrev LEDGER_TSTOP2_P4 : Fld := ⟨Reg.LEDGER_TSTOP2, 0, 16⟩
abbrev LEDGER_TSTOP3_P7 : Fld := ⟨Reg.LEDGER_TSTOP3, 16, 16⟩
abbrev LEDGER_TSTOP3_P6 : Fld := ⟨Reg.LEDGER_TSTOP3, 0, 16⟩
abbrev LEDGER_ENERGY_EUSE : Fld := ⟨Reg.LEDGER_ENERGY, 0, 8⟩
abbrev LEDGER_EGUARD_MJ : Fld := ⟨Reg.LEDGER_EGUARD, 0, 32⟩
abbrev LEDGER_RESTO_MS : Fld := ⟨Reg.LEDGER_RESTO, 0, 16⟩
abbrev LEDGER_DRAW_TOL : Fld := ⟨Reg.LEDGER_DRAW, 8, 8⟩
abbrev LEDGER_DRAW_N : Fld := ⟨Reg.LEDGER_DRAW, 0, 2⟩
abbrev LEDGER_SHEDLOOP_MASK : Fld := ⟨Reg.LEDGER_SHEDLOOP, 0, 5⟩
abbrev LEDGER_GROUPLOOP0_PGA : Fld := ⟨Reg.LEDGER_GROUPLOOP0, 0, 32⟩
abbrev LEDGER_GROUPLOOP1_PGB : Fld := ⟨Reg.LEDGER_GROUPLOOP1, 0, 24⟩
abbrev LEDGER_ODRAWCNT_COUNT : Fld := ⟨Reg.LEDGER_ODRAWCNT, 0, 16⟩
abbrev LEDGER_SHEDMW_MW : Fld := ⟨Reg.LEDGER_SHEDMW, 0, 32⟩
abbrev LEDGER_SHEDCNT_SCANS : Fld := ⟨Reg.LEDGER_SHEDCNT, 16, 16⟩
abbrev LEDGER_SHEDCNT_POINTS : Fld := ⟨Reg.LEDGER_SHEDCNT, 0, 10⟩
abbrev LEDGER_LOOP_CAP_MW (i : Nat) : Fld := ⟨Reg.LEDGER_LOOP_CAP i, 0, 32⟩
abbrev LEDGER_LOOP_COMMIT_MW (i : Nat) : Fld := ⟨Reg.LEDGER_LOOP_COMMIT i, 0, 32⟩
abbrev LEDGER_LOOP_FCMW_MW (i : Nat) : Fld := ⟨Reg.LEDGER_LOOP_FCMW i, 0, 32⟩
abbrev LEDGER_GCOMMIT_MW (i : Nat) : Fld := ⟨Reg.LEDGER_GCOMMIT i, 0, 32⟩
abbrev LEDGER_HOSTARG_ARG : Fld := ⟨Reg.LEDGER_HOSTARG, 0, 32⟩
abbrev LEDGER_HOSTOP_OP : Fld := ⟨Reg.LEDGER_HOSTOP, 28, 4⟩
abbrev LEDGER_HOSTOP_B : Fld := ⟨Reg.LEDGER_HOSTOP, 16, 3⟩
abbrev LEDGER_HOSTOP_POINT : Fld := ⟨Reg.LEDGER_HOSTOP, 0, 9⟩
abbrev LEDGER_HOSTRES_VALUE : Fld := ⟨Reg.LEDGER_HOSTRES, 0, 32⟩
abbrev LEDGER_HOSTRESX_DONE : Fld := ⟨Reg.LEDGER_HOSTRESX, 31, 1⟩
abbrev LEDGER_HOSTRESX_C : Fld := ⟨Reg.LEDGER_HOSTRESX, 30, 1⟩
abbrev LEDGER_HOSTRESX_COUNT : Fld := ⟨Reg.LEDGER_HOSTRESX, 0, 10⟩
abbrev CONV_CTRL_SYNCOEN : Fld := ⟨Reg.CONV_CTRL, 2, 1⟩
abbrev CONV_CTRL_SYNCIEN : Fld := ⟨Reg.CONV_CTRL, 1, 1⟩
abbrev CONV_CTRL_SFLTEN : Fld := ⟨Reg.CONV_CTRL, 0, 1⟩
abbrev CONV_STAT_NSPARE : Fld := ⟨Reg.CONV_STAT, 13, 5⟩
abbrev CONV_STAT_NACTIVE : Fld := ⟨Reg.CONV_STAT, 8, 5⟩
abbrev CONV_STAT_LOOPEN : Fld := ⟨Reg.CONV_STAT, 4, 4⟩
abbrev CONV_STAT_SFLT : Fld := ⟨Reg.CONV_STAT, 1, 1⟩
abbrev CONV_STAT_SYNCLOCK : Fld := ⟨Reg.CONV_STAT, 0, 1⟩
abbrev CONV_EVRAW_SYNCLOSS : Fld := ⟨Reg.CONV_EVRAW, 3, 1⟩
abbrev CONV_EVRAW_SYNCLOCK : Fld := ⟨Reg.CONV_EVRAW, 2, 1⟩
abbrev CONV_EVRAW_SFLT : Fld := ⟨Reg.CONV_EVRAW, 1, 1⟩
abbrev CONV_EVRAW_REFUSED : Fld := ⟨Reg.CONV_EVRAW, 0, 1⟩
abbrev CONV_SYNC_SO180 : Fld := ⟨Reg.CONV_SYNC, 26, 1⟩
abbrev CONV_SYNC_SOLOOP : Fld := ⟨Reg.CONV_SYNC, 24, 2⟩
abbrev CONV_SYNC_REFLOOP : Fld := ⟨Reg.CONV_SYNC, 20, 2⟩
abbrev CONV_SYNC_DELAY : Fld := ⟨Reg.CONV_SYNC, 0, 17⟩
abbrev CONV_REFUSE_REASON : Fld := ⟨Reg.CONV_REFUSE, 8, 4⟩
abbrev CONV_REFUSE_LOOP : Fld := ⟨Reg.CONV_REFUSE, 4, 2⟩
abbrev CONV_REFUSE_PHASE : Fld := ⟨Reg.CONV_REFUSE, 0, 4⟩
abbrev CONV_BANK_CP (i : Nat) : Fld := ⟨Reg.CONV_BANK i, 24, 7⟩
abbrev CONV_BANK_CZ (i : Nat) : Fld := ⟨Reg.CONV_BANK i, 16, 7⟩
abbrev CONV_BANK_RZ (i : Nat) : Fld := ⟨Reg.CONV_BANK i, 8, 7⟩
abbrev CONV_BANK_GM (i : Nat) : Fld := ⟨Reg.CONV_BANK i, 0, 3⟩
abbrev LOOP_CTRL_BANK (n : Nat) : Fld := ⟨Reg.LOOP_CTRL n, 8, 4⟩
abbrev LOOP_CTRL_SOFTOFF (n : Nat) : Fld := ⟨Reg.LOOP_CTRL n, 7, 1⟩
abbrev LOOP_CTRL_DIV (n : Nat) : Fld := ⟨Reg.LOOP_CTRL n, 4, 2⟩
abbrev LOOP_CTRL_GUSTEN (n : Nat) : Fld := ⟨Reg.LOOP_CTRL n, 3, 1⟩
abbrev LOOP_CTRL_ADDSHEDEN (n : Nat) : Fld := ⟨Reg.LOOP_CTRL n, 2, 1⟩
abbrev LOOP_CTRL_BURSTEN (n : Nat) : Fld := ⟨Reg.LOOP_CTRL n, 1, 1⟩
abbrev LOOP_CTRL_EN (n : Nat) : Fld := ⟨Reg.LOOP_CTRL n, 0, 1⟩
abbrev LOOP_STAT_FCAUSE (n : Nat) : Fld := ⟨Reg.LOOP_STAT n, 24, 3⟩
abbrev LOOP_STAT_NACT (n : Nat) : Fld := ⟨Reg.LOOP_STAT n, 13, 5⟩
abbrev LOOP_STAT_NON (n : Nat) : Fld := ⟨Reg.LOOP_STAT n, 8, 5⟩
abbrev LOOP_STAT_PEND (n : Nat) : Fld := ⟨Reg.LOOP_STAT n, 6, 1⟩
abbrev LOOP_STAT_INHIBIT (n : Nat) : Fld := ⟨Reg.LOOP_STAT n, 5, 1⟩
abbrev LOOP_STAT_FCAST (n : Nat) : Fld := ⟨Reg.LOOP_STAT n, 4, 1⟩
abbrev LOOP_STAT_PGOOD (n : Nat) : Fld := ⟨Reg.LOOP_STAT n, 3, 1⟩
abbrev LOOP_STAT_STATE (n : Nat) : Fld := ⟨Reg.LOOP_STAT n, 0, 3⟩
abbrev LOOP_EVRAW_FAULT (n : Nat) : Fld := ⟨Reg.LOOP_EVRAW n, 10, 1⟩
abbrev LOOP_EVRAW_PGLOST (n : Nat) : Fld := ⟨Reg.LOOP_EVRAW n, 9, 1⟩
abbrev LOOP_EVRAW_PGOOD (n : Nat) : Fld := ⟨Reg.LOOP_EVRAW n, 8, 1⟩
abbrev LOOP_EVRAW_SLEWDONE (n : Nat) : Fld := ⟨Reg.LOOP_EVRAW n, 7, 1⟩
abbrev LOOP_EVRAW_BURSTOUT (n : Nat) : Fld := ⟨Reg.LOOP_EVRAW n, 6, 1⟩
abbrev LOOP_EVRAW_BURSTIN (n : Nat) : Fld := ⟨Reg.LOOP_EVRAW n, 5, 1⟩
abbrev LOOP_EVRAW_SHEDABORT (n : Nat) : Fld := ⟨Reg.LOOP_EVRAW n, 4, 1⟩
abbrev LOOP_EVRAW_SHED (n : Nat) : Fld := ⟨Reg.LOOP_EVRAW n, 3, 1⟩
abbrev LOOP_EVRAW_ADD (n : Nat) : Fld := ⟨Reg.LOOP_EVRAW n, 2, 1⟩
abbrev LOOP_EVRAW_FCAST (n : Nat) : Fld := ⟨Reg.LOOP_EVRAW n, 1, 1⟩
abbrev LOOP_EVRAW_GUST (n : Nat) : Fld := ⟨Reg.LOOP_EVRAW n, 0, 1⟩
abbrev LOOP_TARGET_CODE (n : Nat) : Fld := ⟨Reg.LOOP_TARGET n, 16, 10⟩
abbrev LOOP_TARGET_MV (n : Nat) : Fld := ⟨Reg.LOOP_TARGET n, 0, 16⟩
abbrev LOOP_SLEW_RATE (n : Nat) : Fld := ⟨Reg.LOOP_SLEW n, 0, 9⟩
abbrev LOOP_REFNOW_MV (n : Nat) : Fld := ⟨Reg.LOOP_REFNOW n, 0, 16⟩
abbrev LOOP_FSW_PERIOD (n : Nat) : Fld := ⟨Reg.LOOP_FSW n, 0, 17⟩
abbrev LOOP_BASE_OFFSET (n : Nat) : Fld := ⟨Reg.LOOP_BASE n, 0, 17⟩
abbrev LOOP_ISENSE_SE (n : Nat) : Fld := ⟨Reg.LOOP_ISENSE n, 16, 9⟩
abbrev LOOP_ISENSE_RI (n : Nat) : Fld := ⟨Reg.LOOP_ISENSE n, 0, 8⟩
abbrev LOOP_ILIM_LO (n : Nat) : Fld := ⟨Reg.LOOP_ILIM n, 16, 10⟩
abbrev LOOP_ILIM_HI (n : Nat) : Fld := ⟨Reg.LOOP_ILIM n, 0, 10⟩
abbrev LOOP_ILIMNEG_OCCYC (n : Nat) : Fld := ⟨Reg.LOOP_ILIMNEG n, 16, 8⟩
abbrev LOOP_ILIMNEG_NEG (n : Nat) : Fld := ⟨Reg.LOOP_ILIMNEG n, 0, 10⟩
abbrev LOOP_ADDSHED_MINPH (n : Nat) : Fld := ⟨Reg.LOOP_ADDSHED n, 28, 4⟩
abbrev LOOP_ADDSHED_SHED (n : Nat) : Fld := ⟨Reg.LOOP_ADDSHED n, 16, 10⟩
abbrev LOOP_ADDSHED_ADD (n : Nat) : Fld := ⟨Reg.LOOP_ADDSHED n, 0, 10⟩
abbrev LOOP_SHEDCFG_DWELL (n : Nat) : Fld := ⟨Reg.LOOP_SHEDCFG n, 16, 8⟩
abbrev LOOP_SHEDCFG_INHIBIT (n : Nat) : Fld := ⟨Reg.LOOP_SHEDCFG n, 0, 16⟩
abbrev LOOP_GUST_FILT (n : Nat) : Fld := ⟨Reg.LOOP_GUST n, 8, 3⟩
abbrev LOOP_GUST_TH (n : Nat) : Fld := ⟨Reg.LOOP_GUST n, 0, 5⟩
abbrev LOOP_BURST_PER (n : Nat) : Fld := ⟨Reg.LOOP_BURST n, 16, 5⟩
abbrev LOOP_BURST_ENTER (n : Nat) : Fld := ⟨Reg.LOOP_BURST n, 0, 10⟩
abbrev LOOP_PROT_PGWIN (n : Nat) : Fld := ⟨Reg.LOOP_PROT n, 24, 5⟩
abbrev LOOP_PROT_UVFILT (n : Nat) : Fld := ⟨Reg.LOOP_PROT n, 16, 8⟩
abbrev LOOP_PROT_UV (n : Nat) : Fld := ⟨Reg.LOOP_PROT n, 8, 5⟩
abbrev LOOP_PROT_OV (n : Nat) : Fld := ⟨Reg.LOOP_PROT n, 0, 5⟩
abbrev LOOP_FCAST_MA (n : Nat) : Fld := ⟨Reg.LOOP_FCAST n, 0, 16⟩
abbrev LOOP_MEAS_VOUT (n : Nat) : Fld := ⟨Reg.LOOP_MEAS n, 16, 16⟩
abbrev LOOP_MEAS_ITOT (n : Nat) : Fld := ⟨Reg.LOOP_MEAS n, 0, 16⟩
abbrev LOOP_LF0_TLO (n : Nat) : Fld := ⟨Reg.LOOP_LF0 n, 0, 32⟩
abbrev LOOP_LF1_THI (n : Nat) : Fld := ⟨Reg.LOOP_LF1 n, 0, 32⟩
abbrev LOOP_LF2_VOUT (n : Nat) : Fld := ⟨Reg.LOOP_LF2 n, 16, 16⟩
abbrev LOOP_LF2_TARGET (n : Nat) : Fld := ⟨Reg.LOOP_LF2 n, 0, 16⟩
abbrev LOOP_LF3_ONMASK (n : Nat) : Fld := ⟨Reg.LOOP_LF3 n, 16, 16⟩
abbrev LOOP_LF3_ILIMMASK (n : Nat) : Fld := ⟨Reg.LOOP_LF3 n, 0, 16⟩
abbrev LOOP_LF4_ITOT (n : Nat) : Fld := ⟨Reg.LOOP_LF4 n, 16, 16⟩
abbrev LOOP_LF4_STATE (n : Nat) : Fld := ⟨Reg.LOOP_LF4 n, 4, 3⟩
abbrev LOOP_LF4_CAUSE (n : Nat) : Fld := ⟨Reg.LOOP_LF4 n, 0, 4⟩
abbrev PHASE_STAT_ON : Fld := ⟨Reg.PHASE_STAT, 0, 16⟩
abbrev PHASE_EVRAW_ILIM : Fld := ⟨Reg.PHASE_EVRAW, 0, 16⟩
abbrev PHASE_ASSIGN_STATE (i : Nat) : Fld := ⟨Reg.PHASE_ASSIGN i, 8, 3⟩
abbrev PHASE_ASSIGN_ROLE (i : Nat) : Fld := ⟨Reg.PHASE_ASSIGN i, 4, 2⟩
abbrev PHASE_ASSIGN_LOOP (i : Nat) : Fld := ⟨Reg.PHASE_ASSIGN i, 0, 2⟩
abbrev PHASE_SLOT_OFFSET (i : Nat) : Fld := ⟨Reg.PHASE_SLOT i, 0, 17⟩
abbrev PHASE_IAVG_PEAK (i : Nat) : Fld := ⟨Reg.PHASE_IAVG i, 16, 16⟩
abbrev PHASE_IAVG_AVG (i : Nat) : Fld := ⟨Reg.PHASE_IAVG i, 0, 16⟩
abbrev PHASE_ILIMCNT_COUNT (i : Nat) : Fld := ⟨Reg.PHASE_ILIMCNT i, 0, 16⟩
abbrev HEALTH_CTRL_LOOP : Fld := ⟨Reg.HEALTH_CTRL, 8, 2⟩
abbrev HEALTH_CTRL_REBASE : Fld := ⟨Reg.HEALTH_CTRL, 4, 1⟩
abbrev HEALTH_CTRL_REPLANEN : Fld := ⟨Reg.HEALTH_CTRL, 2, 1⟩
abbrev HEALTH_CTRL_SWAPEN : Fld := ⟨Reg.HEALTH_CTRL, 1, 1⟩
abbrev HEALTH_CTRL_PROBEEN : Fld := ⟨Reg.HEALTH_CTRL, 0, 1⟩
abbrev HEALTH_STAT_PROPV : Fld := ⟨Reg.HEALTH_STAT, 24, 4⟩
abbrev HEALTH_STAT_DEFER : Fld := ⟨Reg.HEALTH_STAT, 20, 4⟩
abbrev HEALTH_STAT_REVERTED : Fld := ⟨Reg.HEALTH_STAT, 16, 4⟩
abbrev HEALTH_STAT_PLOOP : Fld := ⟨Reg.HEALTH_STAT, 2, 2⟩
abbrev HEALTH_STAT_BUSY : Fld := ⟨Reg.HEALTH_STAT, 0, 1⟩
abbrev HEALTH_EVRAW_SPARE : Fld := ⟨Reg.HEALTH_EVRAW, 6, 1⟩
abbrev HEALTH_EVRAW_DERATE : Fld := ⟨Reg.HEALTH_EVRAW, 5, 1⟩
abbrev HEALTH_EVRAW_DUE : Fld := ⟨Reg.HEALTH_EVRAW, 4, 1⟩
abbrev HEALTH_EVRAW_APPLIED : Fld := ⟨Reg.HEALTH_EVRAW, 3, 1⟩
abbrev HEALTH_EVRAW_PROPOSAL : Fld := ⟨Reg.HEALTH_EVRAW, 2, 1⟩
abbrev HEALTH_EVRAW_ABORT : Fld := ⟨Reg.HEALTH_EVRAW, 1, 1⟩
abbrev HEALTH_EVRAW_DONE : Fld := ⟨Reg.HEALTH_EVRAW, 0, 1⟩
abbrev HEALTH_PROBE_ABORT : Fld := ⟨Reg.HEALTH_PROBE, 31, 1⟩
abbrev HEALTH_PROBE_GO : Fld := ⟨Reg.HEALTH_PROBE, 30, 1⟩
abbrev HEALTH_PROBE_LOOP : Fld := ⟨Reg.HEALTH_PROBE, 8, 2⟩
abbrev HEALTH_PROBE_MEAS : Fld := ⟨Reg.HEALTH_PROBE, 0, 5⟩
abbrev HEALTH_PROBERES_RESULT : Fld := ⟨Reg.HEALTH_PROBERES, 28, 4⟩
abbrev HEALTH_PROBERES_CAUSE : Fld := ⟨Reg.HEALTH_PROBERES, 24, 4⟩
abbrev HEALTH_PROBERES_LOOP : Fld := ⟨Reg.HEALTH_PROBERES, 20, 2⟩
abbrev HEALTH_PROBERES_SKIP : Fld := ⟨Reg.HEALTH_PROBERES, 8, 5⟩
abbrev HEALTH_PROBERES_DONE : Fld := ⟨Reg.HEALTH_PROBERES, 0, 5⟩
abbrev HEALTH_PROBECFG_THERMDWELL : Fld := ⟨Reg.HEALTH_PROBECFG, 24, 8⟩
abbrev HEALTH_PROBECFG_CRATE : Fld := ⟨Reg.HEALTH_PROBECFG, 16, 8⟩
abbrev HEALTH_PROBECFG_INJ : Fld := ⟨Reg.HEALTH_PROBECFG, 0, 8⟩
abbrev HEALTH_SCORECFG_RETIRE : Fld := ⟨Reg.HEALTH_SCORECFG, 24, 8⟩
abbrev HEALTH_SCORECFG_WARN : Fld := ⟨Reg.HEALTH_SCORECFG, 16, 8⟩
abbrev HEALTH_SCORECFG_CONFIRM : Fld := ⟨Reg.HEALTH_SCORECFG, 12, 4⟩
abbrev HEALTH_SCORECFG_TOL_SH : Fld := ⟨Reg.HEALTH_SCORECFG, 8, 4⟩
abbrev HEALTH_SCORECFG_TOL_L : Fld := ⟨Reg.HEALTH_SCORECFG, 4, 4⟩
abbrev HEALTH_SCORECFG_TOL_T : Fld := ⟨Reg.HEALTH_SCORECFG, 0, 4⟩
abbrev HEALTH_REPLANCFG_HOLDOFF : Fld := ⟨Reg.HEALTH_REPLANCFG, 24, 8⟩
abbrev HEALTH_REPLANCFG_PMHYS : Fld := ⟨Reg.HEALTH_REPLANCFG, 16, 8⟩
abbrev HEALTH_REPLANCFG_PMMIN : Fld := ⟨Reg.HEALTH_REPLANCFG, 8, 8⟩
abbrev HEALTH_REPLANCFG_DFLOOR : Fld := ⟨Reg.HEALTH_REPLANCFG, 0, 8⟩
abbrev HEALTH_SCHED_PERIOD : Fld := ⟨Reg.HEALTH_SCHED, 16, 16⟩
abbrev HEALTH_SCHED_CONFIRM : Fld := ⟨Reg.HEALTH_SCHED, 0, 16⟩
abbrev HEALTH_APPLY_SEQ : Fld := ⟨Reg.HEALTH_APPLY, 16, 8⟩
abbrev HEALTH_APPLY_LOOP : Fld := ⟨Reg.HEALTH_APPLY, 0, 2⟩
abbrev HEALTH_APPLYRES_RESULT : Fld := ⟨Reg.HEALTH_APPLYRES, 24, 4⟩
abbrev HEALTH_APPLYRES_REASON : Fld := ⟨Reg.HEALTH_APPLYRES, 16, 4⟩
abbrev HEALTH_APPLYRES_LOOP : Fld := ⟨Reg.HEALTH_APPLYRES, 12, 2⟩
abbrev HEALTH_APPLYRES_SEQ : Fld := ⟨Reg.HEALTH_APPLYRES, 0, 8⟩
abbrev HEALTH_DUE_LOOPS : Fld := ⟨Reg.HEALTH_DUE, 0, 4⟩
abbrev HEALTH_SPARESTAT_CAUSE : Fld := ⟨Reg.HEALTH_SPARESTAT, 28, 4⟩
abbrev HEALTH_SPARESTAT_RECRES : Fld := ⟨Reg.HEALTH_SPARESTAT, 16, 7⟩
abbrev HEALTH_SPARESTAT_OTPROWS : Fld := ⟨Reg.HEALTH_SPARESTAT, 12, 4⟩
abbrev HEALTH_SPARESTAT_ADCSOLE : Fld := ⟨Reg.HEALTH_SPARESTAT, 11, 1⟩
abbrev HEALTH_SPARESTAT_DIESPARE : Fld := ⟨Reg.HEALTH_SPARESTAT, 10, 1⟩
abbrev HEALTH_LRESP_FC (i : Nat) : Fld := ⟨Reg.HEALTH_LRESP i, 16, 16⟩
abbrev HEALTH_LRESP_PM (i : Nat) : Fld := ⟨Reg.HEALTH_LRESP i, 8, 8⟩
abbrev HEALTH_LRESP_NPH (i : Nat) : Fld := ⟨Reg.HEALTH_LRESP i, 0, 5⟩
abbrev HEALTH_LOUT_COUT (i : Nat) : Fld := ⟨Reg.HEALTH_LOUT i, 16, 16⟩
abbrev HEALTH_LOUT_ESR (i : Nat) : Fld := ⟨Reg.HEALTH_LOUT i, 0, 16⟩
abbrev HEALTH_LCAP_D (i : Nat) : Fld := ⟨Reg.HEALTH_LCAP i, 24, 8⟩
abbrev HEALTH_LCAP_NCAP (i : Nat) : Fld := ⟨Reg.HEALTH_LCAP i, 20, 4⟩
abbrev HEALTH_LCAP_PHLIM (i : Nat) : Fld := ⟨Reg.HEALTH_LCAP i, 10, 10⟩
abbrev HEALTH_LCAP_RATED (i : Nat) : Fld := ⟨Reg.HEALTH_LCAP i, 0, 10⟩
abbrev HEALTH_LBASEA_MINPH (i : Nat) : Fld := ⟨Reg.HEALTH_LBASEA i, 28, 4⟩
abbrev HEALTH_LBASEA_BANK (i : Nat) : Fld := ⟨Reg.HEALTH_LBASEA i, 24, 4⟩
abbrev HEALTH_LBASEA_SE (i : Nat) : Fld := ⟨Reg.HEALTH_LBASEA i, 15, 9⟩
abbrev HEALTH_LBASEA_HI (i : Nat) : Fld := ⟨Reg.HEALTH_LBASEA i, 0, 10⟩
abbrev HEALTH_LBASEB_LO (i : Nat) : Fld := ⟨Reg.HEALTH_LBASEB i, 22, 10⟩
abbrev HEALTH_LBASEB_PERIOD (i : Nat) : Fld := ⟨Reg.HEALTH_LBASEB i, 0, 17⟩
abbrev HEALTH_LBASEC_FCN (i : Nat) : Fld := ⟨Reg.HEALTH_LBASEC i, 16, 16⟩
abbrev HEALTH_LBASEC_PM (i : Nat) : Fld := ⟨Reg.HEALTH_LBASEC i, 8, 8⟩
abbrev HEALTH_LBASEC_ALTBANK (i : Nat) : Fld := ⟨Reg.HEALTH_LBASEC i, 0, 4⟩
abbrev HEALTH_LFLOOR_PERIODMAX (i : Nat) : Fld := ⟨Reg.HEALTH_LFLOOR i, 0, 17⟩
abbrev HEALTH_LPROP0_VALID (i : Nat) : Fld := ⟨Reg.HEALTH_LPROP0 i, 31, 1⟩
abbrev HEALTH_LPROP0_ITEMS (i : Nat) : Fld := ⟨Reg.HEALTH_LPROP0 i, 24, 7⟩
abbrev HEALTH_LPROP0_SEQ (i : Nat) : Fld := ⟨Reg.HEALTH_LPROP0 i, 16, 8⟩
abbrev HEALTH_LPROP0_POUT (i : Nat) : Fld := ⟨Reg.HEALTH_LPROP0 i, 12, 4⟩
abbrev HEALTH_LPROP0_PIN (i : Nat) : Fld := ⟨Reg.HEALTH_LPROP0 i, 8, 4⟩
abbrev HEALTH_LPROP0_BANK (i : Nat) : Fld := ⟨Reg.HEALTH_LPROP0 i, 4, 4⟩
abbrev HEALTH_LPROP0_MINPH (i : Nat) : Fld := ⟨Reg.HEALTH_LPROP0 i, 0, 4⟩
abbrev HEALTH_LPROP1_LO (i : Nat) : Fld := ⟨Reg.HEALTH_LPROP1 i, 16, 10⟩
abbrev HEALTH_LPROP1_HI (i : Nat) : Fld := ⟨Reg.HEALTH_LPROP1 i, 0, 10⟩
abbrev HEALTH_LPROP2_SE (i : Nat) : Fld := ⟨Reg.HEALTH_LPROP2 i, 16, 9⟩
abbrev HEALTH_LPROP3_PERIOD (i : Nat) : Fld := ⟨Reg.HEALTH_LPROP3 i, 0, 17⟩
abbrev HEALTH_LPROPBANK_BANK (i : Nat) : Fld := ⟨Reg.HEALTH_LPROPBANK i, 0, 32⟩
abbrev HEALTH_PIND_L0 (i : Nat) : Fld := ⟨Reg.HEALTH_PIND i, 16, 16⟩
abbrev HEALTH_PIND_L (i : Nat) : Fld := ⟨Reg.HEALTH_PIND i, 0, 16⟩
abbrev HEALTH_PSHTH_RISE0 (i : Nat) : Fld := ⟨Reg.HEALTH_PSHTH i, 24, 8⟩
abbrev HEALTH_PSHTH_RISE (i : Nat) : Fld := ⟨Reg.HEALTH_PSHTH i, 16, 8⟩
abbrev HEALTH_PSHTH_SHARE (i : Nat) : Fld := ⟨Reg.HEALTH_PSHTH i, 0, 8⟩
abbrev HEALTH_PSCORE_TD (i : Nat) : Fld := ⟨Reg.HEALTH_PSCORE i, 28, 4⟩
abbrev HEALTH_PSCORE_LOWCNT (i : Nat) : Fld := ⟨Reg.HEALTH_PSCORE i, 12, 4⟩
abbrev HEALTH_PSCORE_UNTESTED (i : Nat) : Fld := ⟨Reg.HEALTH_PSCORE i, 8, 1⟩
abbrev HEALTH_PSCORE_SCORE (i : Nat) : Fld := ⟨Reg.HEALTH_PSCORE i, 0, 8⟩
abbrev RAILS_CTRL_XCHKEN : Fld := ⟨Reg.RAILS_CTRL, 0, 1⟩
abbrev RAILS_STAT_VMONIN : Fld := ⟨Reg.RAILS_STAT, 16, 8⟩
abbrev RAILS_STAT_RAILIN : Fld := ⟨Reg.RAILS_STAT, 8, 6⟩
abbrev RAILS_STAT_ADCSEL : Fld := ⟨Reg.RAILS_STAT, 1, 2⟩
abbrev RAILS_STAT_SCANBUSY : Fld := ⟨Reg.RAILS_STAT, 0, 1⟩
abbrev RAILS_EVRAW_VMONENTER : Fld := ⟨Reg.RAILS_EVRAW, 24, 8⟩
abbrev RAILS_EVRAW_VMONEXIT : Fld := ⟨Reg.RAILS_EVRAW, 16, 8⟩
abbrev RAILS_EVRAW_RAILEXIT : Fld := ⟨Reg.RAILS_EVRAW, 10, 6⟩
abbrev RAILS_EVRAW_LFAULT : Fld := ⟨Reg.RAILS_EVRAW, 4, 1⟩
abbrev RAILS_EVRAW_BFAULT : Fld := ⟨Reg.RAILS_EVRAW, 3, 1⟩
abbrev RAILS_EVRAW_ADCSUB : Fld := ⟨Reg.RAILS_EVRAW, 2, 1⟩
abbrev RAILS_EVRAW_XCHK : Fld := ⟨Reg.RAILS_EVRAW, 1, 1⟩
abbrev RAILS_EVRAW_SCANDONE : Fld := ⟨Reg.RAILS_EVRAW, 0, 1⟩
abbrev RAILS_BCFG_PGWIN (i : Nat) : Fld := ⟨Reg.RAILS_BCFG i, 28, 4⟩
abbrev RAILS_BCFG_FSW (i : Nat) : Fld := ⟨Reg.RAILS_BCFG i, 19, 5⟩
abbrev RAILS_BCFG_MODE (i : Nat) : Fld := ⟨Reg.RAILS_BCFG i, 18, 1⟩
abbrev RAILS_BCFG_ILIM (i : Nat) : Fld := ⟨Reg.RAILS_BCFG i, 16, 2⟩
abbrev RAILS_BCFG_MV (i : Nat) : Fld := ⟨Reg.RAILS_BCFG i, 0, 13⟩
abbrev RAILS_BSTAT_B1 : Fld := ⟨Reg.RAILS_BSTAT, 8, 8⟩
abbrev RAILS_BSTAT_GOOD : Fld := ⟨Reg.RAILS_BSTAT, 7, 1⟩
abbrev RAILS_BSTAT_PEND : Fld := ⟨Reg.RAILS_BSTAT, 6, 1⟩
abbrev RAILS_BSTAT_STATE : Fld := ⟨Reg.RAILS_BSTAT, 4, 2⟩
abbrev RAILS_BSTAT_CAUSE : Fld := ⟨Reg.RAILS_BSTAT, 0, 4⟩
abbrev RAILS_LSTAT_L0_L3 : Fld := ⟨Reg.RAILS_LSTAT, 0, 32⟩
abbrev RAILS_LCFG_PGWIN (i : Nat) : Fld := ⟨Reg.RAILS_LCFG i, 28, 4⟩
abbrev RAILS_LCFG_MV (i : Nat) : Fld := ⟨Reg.RAILS_LCFG i, 0, 13⟩
abbrev RAILS_VMONTH_OV (i : Nat) : Fld := ⟨Reg.RAILS_VMONTH i, 16, 12⟩
abbrev RAILS_VMONTH_UV (i : Nat) : Fld := ⟨Reg.RAILS_VMONTH i, 0, 12⟩
abbrev RAILS_VMONCFG_EN (i : Nat) : Fld := ⟨Reg.RAILS_VMONCFG i, 31, 1⟩
abbrev RAILS_VMONCFG_ENPOL (i : Nat) : Fld := ⟨Reg.RAILS_VMONCFG i, 30, 1⟩
abbrev RAILS_VMONCFG_ENOD (i : Nat) : Fld := ⟨Reg.RAILS_VMONCFG i, 29, 1⟩
abbrev RAILS_VMONCFG_GPIOEN (i : Nat) : Fld := ⟨Reg.RAILS_VMONCFG i, 28, 1⟩
abbrev RAILS_VMONCFG_DEGL (i : Nat) : Fld := ⟨Reg.RAILS_VMONCFG i, 16, 8⟩
abbrev RAILS_VMONCFG_HYST (i : Nat) : Fld := ⟨Reg.RAILS_VMONCFG i, 8, 4⟩
abbrev RAILS_SCANMASK0_CH : Fld := ⟨Reg.RAILS_SCANMASK0, 0, 32⟩
abbrev RAILS_SCANMASK1_CH : Fld := ⟨Reg.RAILS_SCANMASK1, 0, 16⟩
abbrev RAILS_SCANCFG_PERIOD : Fld := ⟨Reg.RAILS_SCANCFG, 16, 16⟩
abbrev RAILS_SCANCFG_GO : Fld := ⟨Reg.RAILS_SCANCFG, 9, 1⟩
abbrev RAILS_SCANCFG_SCANEN : Fld := ⟨Reg.RAILS_SCANCFG, 8, 1⟩
abbrev RAILS_SCANCFG_AVG : Fld := ⟨Reg.RAILS_SCANCFG, 0, 3⟩
abbrev RAILS_XCHK_TOL : Fld := ⟨Reg.RAILS_XCHK, 24, 8⟩
abbrev RAILS_XCHK_COUNT : Fld := ⟨Reg.RAILS_XCHK, 16, 8⟩
abbrev RAILS_XCHK_SELFTEST : Fld := ⟨Reg.RAILS_XCHK, 0, 16⟩
abbrev RAILS_XCHKSTAT_CH : Fld := ⟨Reg.RAILS_XCHKSTAT, 24, 6⟩
abbrev RAILS_XCHKSTAT_ACODE : Fld := ⟨Reg.RAILS_XCHKSTAT, 12, 12⟩
abbrev RAILS_XCHKSTAT_BCODE : Fld := ⟨Reg.RAILS_XCHKSTAT, 0, 12⟩
abbrev RAILS_ADC_VALUE (i : Nat) : Fld := ⟨Reg.RAILS_ADC i, 16, 16⟩
abbrev RAILS_ADC_VALID (i : Nat) : Fld := ⟨Reg.RAILS_ADC i, 15, 1⟩
abbrev RAILS_ADC_SRC (i : Nat) : Fld := ⟨Reg.RAILS_ADC i, 14, 1⟩
abbrev RAILS_ADC_RAW (i : Nat) : Fld := ⟨Reg.RAILS_ADC i, 0, 12⟩
abbrev RAILS_BLF0_TLO (i : Nat) : Fld := ⟨Reg.RAILS_BLF0 i, 0, 32⟩
abbrev RAILS_BLF1_THI (i : Nat) : Fld := ⟨Reg.RAILS_BLF1 i, 0, 32⟩
abbrev RAILS_BLF2_VOUT (i : Nat) : Fld := ⟨Reg.RAILS_BLF2 i, 16, 16⟩
abbrev RAILS_BLF2_MV (i : Nat) : Fld := ⟨Reg.RAILS_BLF2 i, 0, 16⟩
abbrev RAILS_BLF3_VIN (i : Nat) : Fld := ⟨Reg.RAILS_BLF3 i, 16, 16⟩
abbrev RAILS_BLF3_STATE (i : Nat) : Fld := ⟨Reg.RAILS_BLF3 i, 4, 3⟩
abbrev RAILS_BLF3_CAUSE (i : Nat) : Fld := ⟨Reg.RAILS_BLF3 i, 0, 4⟩
abbrev SEQ_CTRL_FFARM : Fld := ⟨Reg.SEQ_CTRL, 0, 1⟩
abbrev SEQ_STAT_VCWLOW : Fld := ⟨Reg.SEQ_STAT, 3, 1⟩
abbrev SEQ_STAT_FFARMED : Fld := ⟨Reg.SEQ_STAT, 2, 1⟩
abbrev SEQ_STAT_RUN : Fld := ⟨Reg.SEQ_STAT, 1, 1⟩
abbrev SEQ_STAT_BOOTFAIL : Fld := ⟨Reg.SEQ_STAT, 0, 1⟩
abbrev SEQ_EVRAW_VCW : Fld := ⟨Reg.SEQ_EVRAW, 8, 1⟩
abbrev SEQ_EVRAW_FFREC : Fld := ⟨Reg.SEQ_EVRAW, 7, 1⟩
abbrev SEQ_EVRAW_RUNFAULT : Fld := ⟨Reg.SEQ_EVRAW, 6, 1⟩
abbrev SEQ_EVRAW_RUNDONE : Fld := ⟨Reg.SEQ_EVRAW, 5, 1⟩
abbrev SEQ_EVRAW_DTIMEOUT : Fld := ⟨Reg.SEQ_EVRAW, 4, 1⟩
abbrev SEQ_EVRAW_REFUSED : Fld := ⟨Reg.SEQ_EVRAW, 3, 1⟩
abbrev SEQ_EVRAW_GOODLOST : Fld := ⟨Reg.SEQ_EVRAW, 2, 1⟩
abbrev SEQ_EVRAW_FAILED : Fld := ⟨Reg.SEQ_EVRAW, 1, 1⟩
abbrev SEQ_EVRAW_GOOD : Fld := ⟨Reg.SEQ_EVRAW, 0, 1⟩
abbrev SEQ_REQ_ON : Fld := ⟨Reg.SEQ_REQ, 8, 1⟩
abbrev SEQ_REQ_SLOT : Fld := ⟨Reg.SEQ_REQ, 0, 5⟩
abbrev SEQ_DOWN_MASK : Fld := ⟨Reg.SEQ_DOWN, 0, 32⟩
abbrev SEQ_REFUSE_REASON : Fld := ⟨Reg.SEQ_REFUSE, 8, 4⟩
abbrev SEQ_REFUSE_SLOT : Fld := ⟨Reg.SEQ_REFUSE, 0, 5⟩
abbrev SEQ_GOODMASK_GOOD : Fld := ⟨Reg.SEQ_GOODMASK, 0, 32⟩
abbrev SEQ_ONMASK_ON : Fld := ⟨Reg.SEQ_ONMASK, 0, 32⟩
abbrev SEQ_BOOTON_MASK : Fld := ⟨Reg.SEQ_BOOTON, 0, 32⟩
abbrev SEQ_RSTOMASK_MASK : Fld := ⟨Reg.SEQ_RSTOMASK, 0, 32⟩
abbrev SEQ_RSTOCFG_DELAY : Fld := ⟨Reg.SEQ_RSTOCFG, 0, 16⟩
abbrev SEQ_COLLAPSE_REARM : Fld := ⟨Reg.SEQ_COLLAPSE, 16, 16⟩
abbrev SEQ_COLLAPSE_HYST : Fld := ⟨Reg.SEQ_COLLAPSE, 8, 8⟩
abbrev SEQ_COLLAPSE_VCW : Fld := ⟨Reg.SEQ_COLLAPSE, 0, 8⟩
abbrev SEQ_FFSTAT_RECNO : Fld := ⟨Reg.SEQ_FFSTAT, 16, 16⟩
abbrev SEQ_FFSTAT_TRIGGER : Fld := ⟨Reg.SEQ_FFSTAT, 0, 8⟩
abbrev SEQ_RSTCAUSE_CAUSE : Fld := ⟨Reg.SEQ_RSTCAUSE, 0, 5⟩
abbrev SEQ_SLOTCFG_USE (i : Nat) : Fld := ⟨Reg.SEQ_SLOTCFG i, 31, 1⟩
abbrev SEQ_SLOTCFG_DPIN (i : Nat) : Fld := ⟨Reg.SEQ_SLOTCFG i, 28, 3⟩
abbrev SEQ_SLOTCFG_CHATMAX (i : Nat) : Fld := ⟨Reg.SEQ_SLOTCFG i, 20, 8⟩
abbrev SEQ_SLOTCFG_DTH (i : Nat) : Fld := ⟨Reg.SEQ_SLOTCFG i, 12, 8⟩
abbrev SEQ_SLOTCFG_TDIS (i : Nat) : Fld := ⟨Reg.SEQ_SLOTCFG i, 0, 12⟩
abbrev SEQ_SLOTTIME_MINOFF (i : Nat) : Fld := ⟨Reg.SEQ_SLOTTIME i, 24, 8⟩
abbrev SEQ_SLOTTIME_TSTART (i : Nat) : Fld := ⟨Reg.SEQ_SLOTTIME i, 12, 12⟩
abbrev SEQ_SLOTTIME_QUAL (i : Nat) : Fld := ⟨Reg.SEQ_SLOTTIME i, 0, 12⟩
abbrev SEQ_SLOTDEP_MASK (i : Nat) : Fld := ⟨Reg.SEQ_SLOTDEP i, 0, 32⟩
abbrev SEQ_SLOTSTAT_CHAT (i : Nat) : Fld := ⟨Reg.SEQ_SLOTSTAT i, 24, 8⟩
abbrev SEQ_SLOTSTAT_CAUSE (i : Nat) : Fld := ⟨Reg.SEQ_SLOTSTAT i, 16, 4⟩
abbrev SEQ_SLOTSTAT_RREASON (i : Nat) : Fld := ⟨Reg.SEQ_SLOTSTAT i, 8, 4⟩
abbrev SEQ_SLOTSTAT_FORCED (i : Nat) : Fld := ⟨Reg.SEQ_SLOTSTAT i, 7, 1⟩
abbrev SEQ_SLOTSTAT_PEND (i : Nat) : Fld := ⟨Reg.SEQ_SLOTSTAT i, 6, 1⟩
abbrev SEQ_SLOTSTAT_RUNWAIT (i : Nat) : Fld := ⟨Reg.SEQ_SLOTSTAT i, 4, 1⟩
abbrev SEQ_SLOTSTAT_STATE (i : Nat) : Fld := ⟨Reg.SEQ_SLOTSTAT i, 0, 4⟩
abbrev PATH_CTRL_TRST : Fld := ⟨Reg.PATH_CTRL, 5, 1⟩
abbrev PATH_CTRL_BATGO : Fld := ⟨Reg.PATH_CTRL, 4, 1⟩
abbrev PATH_CTRL_CHGEN : Fld := ⟨Reg.PATH_CTRL, 3, 1⟩
abbrev PATH_CTRL_SUPEN : Fld := ⟨Reg.PATH_CTRL, 2, 1⟩
abbrev PATH_CTRL_HOEN : Fld := ⟨Reg.PATH_CTRL, 1, 1⟩
abbrev PATH_CTRL_INEN : Fld := ⟨Reg.PATH_CTRL, 0, 1⟩
abbrev PATH_STAT_INREG : Fld := ⟨Reg.PATH_STAT, 17, 1⟩
abbrev PATH_STAT_HEADROOM : Fld := ⟨Reg.PATH_STAT, 16, 1⟩
abbrev PATH_STAT_QUALRUN : Fld := ⟨Reg.PATH_STAT, 15, 1⟩
abbrev PATH_STAT_BYPASS : Fld := ⟨Reg.PATH_STAT, 14, 1⟩
abbrev PATH_STAT_ACON : Fld := ⟨Reg.PATH_STAT, 13, 1⟩
abbrev PATH_STAT_BATPRES : Fld := ⟨Reg.PATH_STAT, 12, 1⟩
abbrev PATH_STAT_CHGPEND : Fld := ⟨Reg.PATH_STAT, 11, 1⟩
abbrev PATH_STAT_HBMODE : Fld := ⟨Reg.PATH_STAT, 8, 3⟩
abbrev PATH_STAT_CHGSTATE : Fld := ⟨Reg.PATH_STAT, 4, 4⟩
abbrev PATH_STAT_HOSTATE : Fld := ⟨Reg.PATH_STAT, 0, 4⟩
abbrev PATH_EVRAW_REVERSE : Fld := ⟨Reg.PATH_EVRAW, 14, 1⟩
abbrev PATH_EVRAW_INSAT : Fld := ⟨Reg.PATH_EVRAW, 13, 1⟩
abbrev PATH_EVRAW_BATTIN : Fld := ⟨Reg.PATH_EVRAW, 12, 1⟩
abbrev PATH_EVRAW_BATTOUT : Fld := ⟨Reg.PATH_EVRAW, 11, 1⟩
abbrev PATH_EVRAW_HWLIM : Fld := ⟨Reg.PATH_EVRAW, 10, 1⟩
abbrev PATH_EVRAW_TIMEOUT : Fld := ⟨Reg.PATH_EVRAW, 9, 1⟩
abbrev PATH_EVRAW_CHGDONE : Fld := ⟨Reg.PATH_EVRAW, 8, 1⟩
abbrev PATH_EVRAW_CHGPHASE : Fld := ⟨Reg.PATH_EVRAW, 7, 1⟩
abbrev PATH_EVRAW_BYPASS : Fld := ⟨Reg.PATH_EVRAW, 6, 1⟩
abbrev PATH_EVRAW_GLITCH : Fld := ⟨Reg.PATH_EVRAW, 5, 1⟩
abbrev PATH_EVRAW_BOUNCE : Fld := ⟨Reg.PATH_EVRAW, 4, 1⟩
abbrev PATH_EVRAW_SOURCE : Fld := ⟨Reg.PATH_EVRAW, 3, 1⟩
abbrev PATH_EVRAW_ONBATT : Fld := ⟨Reg.PATH_EVRAW, 2, 1⟩
abbrev PATH_EVRAW_BRIDGE : Fld := ⟨Reg.PATH_EVRAW, 1, 1⟩
abbrev PATH_EVRAW_DETECT : Fld := ⟨Reg.PATH_EVRAW, 0, 1⟩
abbrev PATH_VACWIN_HI : Fld := ⟨Reg.PATH_VACWIN, 20, 10⟩
abbrev PATH_VACWIN_LO : Fld := ⟨Reg.PATH_VACWIN, 10, 10⟩
abbrev PATH_VACWIN_HYST : Fld := ⟨Reg.PATH_VACWIN, 0, 8⟩
abbrev PATH_QUAL_VACQUAL : Fld := ⟨Reg.PATH_QUAL, 16, 16⟩
abbrev PATH_QUAL_BRIDGET : Fld := ⟨Reg.PATH_QUAL, 8, 8⟩
abbrev PATH_QUAL_BOUNCEMAX : Fld := ⟨Reg.PATH_QUAL, 4, 4⟩
abbrev PATH_INLIM_TRIP : Fld := ⟨Reg.PATH_INLIM, 24, 8⟩
abbrev PATH_INLIM_MA : Fld := ⟨Reg.PATH_INLIM, 0, 16⟩
abbrev PATH_SUP_SUPLIM : Fld := ⟨Reg.PATH_SUP, 16, 16⟩
abbrev PATH_SUP_VSYSHOLD : Fld := ⟨Reg.PATH_SUP, 0, 9⟩
abbrev PATH_HBCFG_FSW : Fld := ⟨Reg.PATH_HBCFG, 16, 8⟩
abbrev PATH_HBCFG_IPK : Fld := ⟨Reg.PATH_HBCFG, 8, 8⟩
abbrev PATH_HBCFG_RCS : Fld := ⟨Reg.PATH_HBCFG, 0, 8⟩
abbrev PATH_VREG_OVPCT : Fld := ⟨Reg.PATH_VREG, 24, 8⟩
abbrev PATH_VREG_RECHG : Fld := ⟨Reg.PATH_VREG, 16, 8⟩
abbrev PATH_VREG_MV : Fld := ⟨Reg.PATH_VREG, 0, 16⟩
abbrev PATH_VTHR_VPRE : Fld := ⟨Reg.PATH_VTHR, 16, 16⟩
abbrev PATH_VTHR_VDRZ : Fld := ⟨Reg.PATH_VTHR, 0, 16⟩
abbrev PATH_ICHG_CC : Fld := ⟨Reg.PATH_ICHG, 16, 16⟩
abbrev PATH_ICHG_TERM : Fld := ⟨Reg.PATH_ICHG, 0, 16⟩
abbrev PATH_ILOW_PRE : Fld := ⟨Reg.PATH_ILOW, 16, 16⟩
abbrev PATH_ILOW_DRZ : Fld := ⟨Reg.PATH_ILOW, 0, 16⟩
abbrev PATH_TIMERS_TDRZ : Fld := ⟨Reg.PATH_TIMERS, 24, 8⟩
abbrev PATH_TIMERS_TPRE : Fld := ⟨Reg.PATH_TIMERS, 16, 8⟩
abbrev PATH_TIMERS_TFAST : Fld := ⟨Reg.PATH_TIMERS, 4, 12⟩
abbrev PATH_CHGCFG_TERMDLY : Fld := ⟨Reg.PATH_CHGCFG, 24, 8⟩
abbrev PATH_CHGCFG_MINOFF : Fld := ⟨Reg.PATH_CHGCFG, 16, 8⟩
abbrev PATH_CHGCFG_TREG : Fld := ⟨Reg.PATH_CHGCFG, 8, 8⟩
abbrev PATH_CHGCFG_RECHGEN : Fld := ⟨Reg.PATH_CHGCFG, 1, 1⟩
abbrev PATH_CHGCFG_TERMEN : Fld := ⟨Reg.PATH_CHGCFG, 0, 1⟩
abbrev PATH_TLIM_TCHI : Fld := ⟨Reg.PATH_TLIM, 24, 8⟩
abbrev PATH_TLIM_TCLO : Fld := ⟨Reg.PATH_TLIM, 16, 8⟩
abbrev PATH_TLIM_TDHI : Fld := ⟨Reg.PATH_TLIM, 8, 8⟩
abbrev PATH_TLIM_TDLO : Fld := ⟨Reg.PATH_TLIM, 0, 8⟩
abbrev PATH_BATLIM_TDCH : Fld := ⟨Reg.PATH_BATLIM, 28, 4⟩
abbrev PATH_BATLIM_OCD : Fld := ⟨Reg.PATH_BATLIM, 16, 8⟩
abbrev PATH_BATLIM_OCC : Fld := ⟨Reg.PATH_BATLIM, 8, 8⟩
abbrev PATH_BATLIM_OCDLY : Fld := ⟨Reg.PATH_BATLIM, 0, 8⟩
abbrev PATH_TIMESTAT_TLEFT : Fld := ⟨Reg.PATH_TIMESTAT, 20, 12⟩
abbrev PATH_TIMESTAT_TPHASE : Fld := ⟨Reg.PATH_TIMESTAT, 16, 4⟩
abbrev PATH_TIMESTAT_HALF : Fld := ⟨Reg.PATH_TIMESTAT, 15, 1⟩
abbrev PATH_HOCOUNT_LOSSES : Fld := ⟨Reg.PATH_HOCOUNT, 16, 16⟩
abbrev PATH_HOCOUNT_GLITCH : Fld := ⟨Reg.PATH_HOCOUNT, 8, 8⟩
abbrev PATH_HOCOUNT_BOUNCE : Fld := ⟨Reg.PATH_HOCOUNT, 0, 4⟩
abbrev PATH_FCAUSE_INCAUSE : Fld := ⟨Reg.PATH_FCAUSE, 12, 4⟩
abbrev PATH_FCAUSE_CHGCAUSE : Fld := ⟨Reg.PATH_FCAUSE, 8, 4⟩
abbrev PATH_FCAUSE_LIMACT : Fld := ⟨Reg.PATH_FCAUSE, 0, 5⟩
abbrev PATH_MEAS_IIN : Fld := ⟨Reg.PATH_MEAS, 16, 16⟩
abbrev PATH_MEAS_IHB : Fld := ⟨Reg.PATH_MEAS, 0, 16⟩
abbrev PATH_CAP_INCAP : Fld := ⟨Reg.PATH_CAP, 16, 16⟩
abbrev PATH_CAP_SUPCAP : Fld := ⟨Reg.PATH_CAP, 0, 16⟩
abbrev GAUGE_CTRL_RELEARN : Fld := ⟨Reg.GAUGE_CTRL, 3, 1⟩
abbrev GAUGE_CTRL_STOREGO : Fld := ⟨Reg.GAUGE_CTRL, 2, 1⟩
abbrev GAUGE_CTRL_AZGO : Fld := ⟨Reg.GAUGE_CTRL, 1, 1⟩
abbrev GAUGE_CTRL_EN : Fld := ⟨Reg.GAUGE_CTRL, 0, 1⟩
abbrev GAUGE_STAT_CCAUSE : Fld := ⟨Reg.GAUGE_STAT, 15, 1⟩
abbrev GAUGE_STAT_SLOT : Fld := ⟨Reg.GAUGE_STAT, 14, 1⟩
abbrev GAUGE_STAT_NOSTORE : Fld := ⟨Reg.GAUGE_STAT, 13, 1⟩
abbrev GAUGE_STAT_STOREPEND : Fld := ⟨Reg.GAUGE_STAT, 12, 1⟩
abbrev GAUGE_STAT_PROVING : Fld := ⟨Reg.GAUGE_STAT, 11, 1⟩
abbrev GAUGE_STAT_OCVBAD : Fld := ⟨Reg.GAUGE_STAT, 10, 1⟩
abbrev GAUGE_STAT_TINV : Fld := ⟨Reg.GAUGE_STAT, 9, 1⟩
abbrev GAUGE_STAT_CNTINV : Fld := ⟨Reg.GAUGE_STAT, 8, 1⟩
abbrev GAUGE_STAT_RELEARN : Fld := ⟨Reg.GAUGE_STAT, 7, 1⟩
abbrev GAUGE_STAT_HOLD1 : Fld := ⟨Reg.GAUGE_STAT, 6, 1⟩
abbrev GAUGE_STAT_FULL : Fld := ⟨Reg.GAUGE_STAT, 5, 1⟩
abbrev GAUGE_STAT_EMPTY : Fld := ⟨Reg.GAUGE_STAT, 4, 1⟩
abbrev GAUGE_STAT_REST : Fld := ⟨Reg.GAUGE_STAT, 3, 1⟩
abbrev GAUGE_STAT_MODE : Fld := ⟨Reg.GAUGE_STAT, 0, 2⟩
abbrev GAUGE_EVRAW_IMP : Fld := ⟨Reg.GAUGE_EVRAW, 11, 1⟩
abbrev GAUGE_EVRAW_CNTINV : Fld := ⟨Reg.GAUGE_EVRAW, 10, 1⟩
abbrev GAUGE_EVRAW_PROVEEND : Fld := ⟨Reg.GAUGE_EVRAW, 9, 1⟩
abbrev GAUGE_EVRAW_STOREFAIL : Fld := ⟨Reg.GAUGE_EVRAW, 8, 1⟩
abbrev GAUGE_EVRAW_STORED : Fld := ⟨Reg.GAUGE_EVRAW, 7, 1⟩
abbrev GAUGE_EVRAW_CONFLICT : Fld := ⟨Reg.GAUGE_EVRAW, 6, 1⟩
abbrev GAUGE_EVRAW_FULL : Fld := ⟨Reg.GAUGE_EVRAW, 5, 1⟩
abbrev GAUGE_EVRAW_EMPTY : Fld := ⟨Reg.GAUGE_EVRAW, 4, 1⟩
abbrev GAUGE_EVRAW_LREJECT : Fld := ⟨Reg.GAUGE_EVRAW, 3, 1⟩
abbrev GAUGE_EVRAW_LEARN : Fld := ⟨Reg.GAUGE_EVRAW, 2, 1⟩
abbrev GAUGE_EVRAW_REST : Fld := ⟨Reg.GAUGE_EVRAW, 1, 1⟩
abbrev GAUGE_EVRAW_UPDATE : Fld := ⟨Reg.GAUGE_EVRAW, 0, 1⟩
abbrev GAUGE_SHUNT_RSNS : Fld := ⟨Reg.GAUGE_SHUNT, 0, 16⟩
abbrev GAUGE_CFG_CELLS : Fld := ⟨Reg.GAUGE_CFG, 28, 4⟩
abbrev GAUGE_CFG_DBAND : Fld := ⟨Reg.GAUGE_CFG, 20, 8⟩
abbrev GAUGE_CFG_ISLEEP : Fld := ⟨Reg.GAUGE_CFG, 0, 16⟩
abbrev GAUGE_AZ_AZPER : Fld := ⟨Reg.GAUGE_AZ, 16, 16⟩
abbrev GAUGE_AZ_OFFSET : Fld := ⟨Reg.GAUGE_AZ, 0, 16⟩
abbrev GAUGE_DESIGN_MAH : Fld := ⟨Reg.GAUGE_DESIGN, 0, 32⟩
abbrev GAUGE_VEMPTY_MV : Fld := ⟨Reg.GAUGE_VEMPTY, 16, 16⟩
abbrev GAUGE_VEMPTY_EDLY : Fld := ⟨Reg.GAUGE_VEMPTY, 8, 8⟩
abbrev GAUGE_REST_TIME : Fld := ⟨Reg.GAUGE_REST, 16, 16⟩
abbrev GAUGE_REST_IREST : Fld := ⟨Reg.GAUGE_REST, 8, 8⟩
abbrev GAUGE_REST_DVDT : Fld := ⟨Reg.GAUGE_REST, 0, 8⟩
abbrev GAUGE_TEMP_TMAX : Fld := ⟨Reg.GAUGE_TEMP, 24, 8⟩
abbrev GAUGE_TEMP_TMIN : Fld := ⟨Reg.GAUGE_TEMP, 16, 8⟩
abbrev GAUGE_TEMP_OCVTC : Fld := ⟨Reg.GAUGE_TEMP, 0, 16⟩
abbrev GAUGE_LEARN_DSOC : Fld := ⟨Reg.GAUGE_LEARN, 24, 8⟩
abbrev GAUGE_LEARN_MAXDEV : Fld := ⟨Reg.GAUGE_LEARN, 16, 8⟩
abbrev GAUGE_LEARN_TMAX : Fld := ⟨Reg.GAUGE_LEARN, 8, 8⟩
abbrev GAUGE_LEARN_W : Fld := ⟨Reg.GAUGE_LEARN, 4, 4⟩
abbrev GAUGE_STORE_PERIOD : Fld := ⟨Reg.GAUGE_STORE, 24, 8⟩
abbrev GAUGE_STORE_SEQ : Fld := ⟨Reg.GAUGE_STORE, 0, 16⟩
abbrev GAUGE_IMP_DI : Fld := ⟨Reg.GAUGE_IMP, 16, 16⟩
abbrev GAUGE_IMP_R : Fld := ⟨Reg.GAUGE_IMP, 0, 16⟩
abbrev GAUGE_PROVE_GO : Fld := ⟨Reg.GAUGE_PROVE, 31, 1⟩
abbrev GAUGE_PROVE_ABORT : Fld := ⟨Reg.GAUGE_PROVE, 30, 1⟩
abbrev GAUGE_PROVE_START : Fld := ⟨Reg.GAUGE_PROVE, 16, 8⟩
abbrev GAUGE_PROVE_FLOOR : Fld := ⟨Reg.GAUGE_PROVE, 8, 8⟩
abbrev GAUGE_PROVE_TMAX : Fld := ⟨Reg.GAUGE_PROVE, 0, 8⟩
abbrev GAUGE_PROVEMIN_EMIN : Fld := ⟨Reg.GAUGE_PROVEMIN, 0, 32⟩
abbrev GAUGE_PROVESTAT_CAUSE : Fld := ⟨Reg.GAUGE_PROVESTAT, 28, 4⟩
abbrev GAUGE_PROVESTAT_MIN : Fld := ⟨Reg.GAUGE_PROVESTAT, 0, 16⟩
abbrev GAUGE_CURRENT_MA : Fld := ⟨Reg.GAUGE_CURRENT, 0, 32⟩
abbrev GAUGE_VOLT_VBAT : Fld := ⟨Reg.GAUGE_VOLT, 16, 16⟩
abbrev GAUGE_VOLT_VCELL : Fld := ⟨Reg.GAUGE_VOLT, 0, 16⟩
abbrev GAUGE_TEMPMEAS_TCELL : Fld := ⟨Reg.GAUGE_TEMPMEAS, 0, 16⟩
abbrev GAUGE_SOC_SOCOCV : Fld := ⟨Reg.GAUGE_SOC, 16, 16⟩
abbrev GAUGE_SOC_SOC : Fld := ⟨Reg.GAUGE_SOC, 0, 16⟩
abbrev GAUGE_RM_MAH : Fld := ⟨Reg.GAUGE_RM, 0, 32⟩
abbrev GAUGE_FCC_MAH : Fld := ⟨Reg.GAUGE_FCC, 0, 32⟩
abbrev GAUGE_ENERGY_J : Fld := ⟨Reg.GAUGE_ENERGY, 0, 32⟩
abbrev GAUGE_QPASS_Q : Fld := ⟨Reg.GAUGE_QPASS, 0, 32⟩
abbrev GAUGE_QBEYOND_Q : Fld := ⟨Reg.GAUGE_QBEYOND, 0, 32⟩
abbrev GAUGE_ANCHOR_SOC : Fld := ⟨Reg.GAUGE_ANCHOR, 16, 16⟩
abbrev GAUGE_ANCHOR_AGE : Fld := ⟨Reg.GAUGE_ANCHOR, 0, 16⟩
abbrev GAUGE_LEARNRES_RESULT : Fld := ⟨Reg.GAUGE_LEARNRES, 28, 4⟩
abbrev GAUGE_LEARNRES_FCCNEW : Fld := ⟨Reg.GAUGE_LEARNRES, 0, 28⟩
abbrev GAUGE_OCV_OCV (i : Nat) : Fld := ⟨Reg.GAUGE_OCV i, 16, 16⟩
abbrev GAUGE_OCV_SOC (i : Nat) : Fld := ⟨Reg.GAUGE_OCV i, 0, 14⟩
abbrev GAUGE_OCVMASK_SEG : Fld := ⟨Reg.GAUGE_OCVMASK, 0, 31⟩
abbrev THERM_CTRL_THAWMAX : Fld := ⟨Reg.THERM_CTRL, 4, 4⟩
abbrev THERM_CTRL_THAWMODE : Fld := ⟨Reg.THERM_CTRL, 1, 1⟩
abbrev THERM_CTRL_XCHKEN : Fld := ⟨Reg.THERM_CTRL, 0, 1⟩
abbrev THERM_STAT_SUBPOS : Fld := ⟨Reg.THERM_STAT, 28, 4⟩
abbrev THERM_STAT_OFFPART : Fld := ⟨Reg.THERM_STAT, 27, 1⟩
abbrev THERM_STAT_FAILED : Fld := ⟨Reg.THERM_STAT, 18, 9⟩
abbrev THERM_STAT_TDFLT : Fld := ⟨Reg.THERM_STAT, 12, 6⟩
abbrev THERM_STAT_TSD : Fld := ⟨Reg.THERM_STAT, 7, 1⟩
abbrev THERM_STAT_HELD : Fld := ⟨Reg.THERM_STAT, 6, 1⟩
abbrev THERM_STAT_TDLVL : Fld := ⟨Reg.THERM_STAT, 2, 2⟩
abbrev THERM_STAT_DIELVL : Fld := ⟨Reg.THERM_STAT, 0, 2⟩
abbrev THERM_EVRAW_THAWED : Fld := ⟨Reg.THERM_EVRAW, 5, 1⟩
abbrev THERM_EVRAW_SENSFAIL : Fld := ⟨Reg.THERM_EVRAW, 4, 1⟩
abbrev THERM_EVRAW_CLEAR : Fld := ⟨Reg.THERM_EVRAW, 3, 1⟩
abbrev THERM_EVRAW_SHUTREM : Fld := ⟨Reg.THERM_EVRAW, 2, 1⟩
abbrev THERM_EVRAW_THROT : Fld := ⟨Reg.THERM_EVRAW, 1, 1⟩
abbrev THERM_EVRAW_WARN : Fld := ⟨Reg.THERM_EVRAW, 0, 1⟩
abbrev THERM_CFG_XTOL : Fld := ⟨Reg.THERM_CFG, 24, 8⟩
abbrev THERM_CFG_XCNT : Fld := ⟨Reg.THERM_CFG, 16, 8⟩
abbrev THERM_CFG_PER : Fld := ⟨Reg.THERM_CFG, 0, 13⟩
abbrev THERM_DIE_TEMP_POS : Fld := ⟨Reg.THERM_DIE_TEMP, 16, 4⟩
abbrev THERM_DIE_TEMP_TEMP : Fld := ⟨Reg.THERM_DIE_TEMP, 0, 16⟩
abbrev THERM_DIELIM_SHUT : Fld := ⟨Reg.THERM_DIELIM, 18, 9⟩
abbrev THERM_DIELIM_THROT : Fld := ⟨Reg.THERM_DIELIM, 9, 9⟩
abbrev THERM_DIELIM_WARN : Fld := ⟨Reg.THERM_DIELIM, 0, 9⟩
abbrev THERM_DIEHYS_HSHUT : Fld := ⟨Reg.THERM_DIEHYS, 10, 5⟩
abbrev THERM_DIEHYS_HTHROT : Fld := ⟨Reg.THERM_DIEHYS, 5, 5⟩
abbrev THERM_DIEHYS_HWARN : Fld := ⟨Reg.THERM_DIEHYS, 0, 5⟩
abbrev THERM_THAWCFG_DLY : Fld := ⟨Reg.THERM_THAWCFG, 0, 8⟩
abbrev THERM_THAW_KEY : Fld := ⟨Reg.THERM_THAW, 0, 16⟩
abbrev THERM_TSDCNT_TOTAL : Fld := ⟨Reg.THERM_TSDCNT, 16, 16⟩
abbrev THERM_TSDCNT_RECENT : Fld := ⟨Reg.THERM_TSDCNT, 0, 4⟩
abbrev THERM_SENSFAIL_CAUSE : Fld := ⟨Reg.THERM_SENSFAIL, 28, 4⟩
abbrev THERM_SENSFAIL_CHAN : Fld := ⟨Reg.THERM_SENSFAIL, 0, 4⟩
abbrev THERM_DS_OFF (i : Nat) : Fld := ⟨Reg.THERM_DS i, 16, 16⟩
abbrev THERM_DS_TEMP (i : Nat) : Fld := ⟨Reg.THERM_DS i, 0, 16⟩
abbrev THERM_TDCFG_EN (i : Nat) : Fld := ⟨Reg.THERM_TDCFG i, 31, 1⟩
abbrev THERM_TDCFG_TYPE (i : Nat) : Fld := ⟨Reg.THERM_TDCFG i, 30, 1⟩
abbrev THERM_TDCFG_BETA (i : Nat) : Fld := ⟨Reg.THERM_TDCFG i, 16, 14⟩
abbrev THERM_TDCFG_IDEAL (i : Nat) : Fld := ⟨Reg.THERM_TDCFG i, 0, 16⟩
abbrev THERM_TDLIM_SHUT (i : Nat) : Fld := ⟨Reg.THERM_TDLIM i, 18, 9⟩
abbrev THERM_TDLIM_THROT (i : Nat) : Fld := ⟨Reg.THERM_TDLIM i, 9, 9⟩
abbrev THERM_TDLIM_WARN (i : Nat) : Fld := ⟨Reg.THERM_TDLIM i, 0, 9⟩
abbrev THERM_TDHYS_HSHUT (i : Nat) : Fld := ⟨Reg.THERM_TDHYS i, 10, 5⟩
abbrev THERM_TDHYS_HTHROT (i : Nat) : Fld := ⟨Reg.THERM_TDHYS i, 5, 5⟩
abbrev THERM_TDHYS_HWARN (i : Nat) : Fld := ⟨Reg.THERM_TDHYS i, 0, 5⟩
abbrev THERM_TDVAL_LVL (i : Nat) : Fld := ⟨Reg.THERM_TDVAL i, 20, 2⟩
abbrev THERM_TDVAL_FSTATE (i : Nat) : Fld := ⟨Reg.THERM_TDVAL i, 16, 2⟩
abbrev THERM_TDVAL_TEMP (i : Nat) : Fld := ⟨Reg.THERM_TDVAL i, 0, 16⟩
abbrev FAULT_CTRL_HCLR : Fld := ⟨Reg.FAULT_CTRL, 0, 1⟩
abbrev FAULT_STAT_ANYSQUALL : Fld := ⟨Reg.FAULT_STAT, 3, 1⟩
abbrev FAULT_STAT_ANYLULL : Fld := ⟨Reg.FAULT_STAT, 2, 1⟩
abbrev FAULT_STAT_ANYACTIVE : Fld := ⟨Reg.FAULT_STAT, 1, 1⟩
abbrev FAULT_STAT_PIN : Fld := ⟨Reg.FAULT_STAT, 0, 1⟩
abbrev FAULT_EVRAW_CLEARED : Fld := ⟨Reg.FAULT_EVRAW, 4, 1⟩
abbrev FAULT_EVRAW_SQUALL : Fld := ⟨Reg.FAULT_EVRAW, 3, 1⟩
abbrev FAULT_EVRAW_RECOVER : Fld := ⟨Reg.FAULT_EVRAW, 2, 1⟩
abbrev FAULT_EVRAW_REPEAT : Fld := ⟨Reg.FAULT_EVRAW, 1, 1⟩
abbrev FAULT_EVRAW_RAISE : Fld := ⟨Reg.FAULT_EVRAW, 0, 1⟩
abbrev FAULT_UNCLR_SRC (i : Nat) : Fld := ⟨Reg.FAULT_UNCLR i, 0, 32⟩
abbrev FAULT_ACTIVE_SRC (i : Nat) : Fld := ⟨Reg.FAULT_ACTIVE i, 0, 32⟩
abbrev FAULT_LULL_SRC (i : Nat) : Fld := ⟨Reg.FAULT_LULL i, 0, 32⟩
abbrev FAULT_SQUALL_SRC (i : Nat) : Fld := ⟨Reg.FAULT_SQUALL i, 0, 32⟩
abbrev FAULT_HISTSTAT_TOTAL : Fld := ⟨Reg.FAULT_HISTSTAT, 16, 16⟩
abbrev FAULT_HISTSTAT_NEXT : Fld := ⟨Reg.FAULT_HISTSTAT, 12, 4⟩
abbrev FAULT_HISTSTAT_NUM : Fld := ⟨Reg.FAULT_HISTSTAT, 0, 5⟩
abbrev FAULT_LAST_SRC : Fld := ⟨Reg.FAULT_LAST, 8, 6⟩
abbrev FAULT_EXTIN_EN : Fld := ⟨Reg.FAULT_EXTIN, 31, 1⟩
abbrev FAULT_EXTIN_POL : Fld := ⟨Reg.FAULT_EXTIN, 30, 1⟩
abbrev FAULT_EXTIN_PIN : Fld := ⟨Reg.FAULT_EXTIN, 24, 4⟩
abbrev FAULT_EXTIN_DEGL : Fld := ⟨Reg.FAULT_EXTIN, 0, 8⟩
abbrev FAULT_CLEAR_SRC (i : Nat) : Fld := ⟨Reg.FAULT_CLEAR i, 0, 32⟩
abbrev FAULT_REACT_AUTO (i : Nat) : Fld := ⟨Reg.FAULT_REACT i, 6, 1⟩
abbrev FAULT_REACT_FREEZE (i : Nat) : Fld := ⟨Reg.FAULT_REACT i, 5, 1⟩
abbrev FAULT_REACT_FLAG (i : Nat) : Fld := ⟨Reg.FAULT_REACT i, 4, 1⟩
abbrev FAULT_REACT_RST (i : Nat) : Fld := ⟨Reg.FAULT_REACT i, 2, 2⟩
abbrev FAULT_REACT_NOTIFY (i : Nat) : Fld := ⟨Reg.FAULT_REACT i, 0, 2⟩
abbrev FAULT_CNT_COUNT (i : Nat) : Fld := ⟨Reg.FAULT_CNT i, 0, 32⟩
abbrev FAULT_RCNT_RCNT (i : Nat) : Fld := ⟨Reg.FAULT_RCNT i, 0, 32⟩
abbrev FAULT_RECOV_LULL (i : Nat) : Fld := ⟨Reg.FAULT_RECOV i, 16, 16⟩
abbrev FAULT_RECOV_WINDOW (i : Nat) : Fld := ⟨Reg.FAULT_RECOV i, 4, 12⟩
abbrev FAULT_RECOV_RECMAX (i : Nat) : Fld := ⟨Reg.FAULT_RECOV i, 0, 4⟩
abbrev FAULT_HISTW0_TLO (i : Nat) : Fld := ⟨Reg.FAULT_HISTW0 i, 0, 32⟩
abbrev FAULT_HISTW1_THI (i : Nat) : Fld := ⟨Reg.FAULT_HISTW1 i, 0, 32⟩
abbrev FAULT_HISTW2_SRC (i : Nat) : Fld := ⟨Reg.FAULT_HISTW2 i, 26, 6⟩
abbrev FAULT_HISTW2_ORIGIN (i : Nat) : Fld := ⟨Reg.FAULT_HISTW2 i, 25, 1⟩
abbrev FAULT_HISTW2_THREAD (i : Nat) : Fld := ⟨Reg.FAULT_HISTW2 i, 21, 4⟩
abbrev FAULT_HISTW2_TYPE (i : Nat) : Fld := ⟨Reg.FAULT_HISTW2 i, 18, 3⟩
abbrev FAULT_HISTW2_CAUSE (i : Nat) : Fld := ⟨Reg.FAULT_HISTW2 i, 14, 4⟩
abbrev FAULT_HISTW2_DETAIL (i : Nat) : Fld := ⟨Reg.FAULT_HISTW2 i, 0, 9⟩
abbrev FAULT_HISTW3_VIN (i : Nat) : Fld := ⟨Reg.FAULT_HISTW3 i, 24, 8⟩
abbrev FAULT_HISTW3_VSYS (i : Nat) : Fld := ⟨Reg.FAULT_HISTW3 i, 16, 8⟩
abbrev FAULT_HISTW3_HOSTATE (i : Nat) : Fld := ⟨Reg.FAULT_HISTW3 i, 12, 4⟩
abbrev FAULT_HISTW3_PWR (i : Nat) : Fld := ⟨Reg.FAULT_HISTW3 i, 10, 2⟩
abbrev FAULT_HISTW3_DIETEMP (i : Nat) : Fld := ⟨Reg.FAULT_HISTW3 i, 0, 10⟩
abbrev INTC_CTRL_NMIOD : Fld := ⟨Reg.INTC_CTRL, 1, 1⟩
abbrev INTC_CTRL_IRQOD : Fld := ⟨Reg.INTC_CTRL, 0, 1⟩
abbrev INTC_STAT_SHUT : Fld := ⟨Reg.INTC_STAT, 0, 8⟩
abbrev INTC_EVRAW_HOLDEXP : Fld := ⟨Reg.INTC_EVRAW, 4, 1⟩
abbrev INTC_EVRAW_NMIB : Fld := ⟨Reg.INTC_EVRAW, 3, 1⟩
abbrev INTC_EVRAW_NMIA : Fld := ⟨Reg.INTC_EVRAW, 2, 1⟩
abbrev INTC_EVRAW_IRQB : Fld := ⟨Reg.INTC_EVRAW, 1, 1⟩
abbrev INTC_EVRAW_IRQA : Fld := ⟨Reg.INTC_EVRAW, 0, 1⟩
abbrev INTC_EN0_SRC : Fld := ⟨Reg.INTC_EN0, 0, 32⟩
abbrev INTC_EN1_SRC : Fld := ⟨Reg.INTC_EN1, 0, 32⟩
abbrev INTC_PEND0_SRC : Fld := ⟨Reg.INTC_PEND0, 0, 32⟩
abbrev INTC_PEND1_SRC : Fld := ⟨Reg.INTC_PEND1, 0, 32⟩
abbrev INTC_NMIPEND0_SRC : Fld := ⟨Reg.INTC_NMIPEND0, 0, 32⟩
abbrev INTC_NMIPEND1_SRC : Fld := ⟨Reg.INTC_NMIPEND1, 0, 16⟩
abbrev INTC_RAW0_SRC : Fld := ⟨Reg.INTC_RAW0, 0, 32⟩
abbrev INTC_RAW1_SRC : Fld := ⟨Reg.INTC_RAW1, 0, 32⟩
abbrev INTC_OUT_NMIB : Fld := ⟨Reg.INTC_OUT, 3, 1⟩
abbrev INTC_OUT_NMIA : Fld := ⟨Reg.INTC_OUT, 2, 1⟩
abbrev INTC_OUT_IRQB : Fld := ⟨Reg.INTC_OUT, 1, 1⟩
abbrev INTC_OUT_IRQA : Fld := ⟨Reg.INTC_OUT, 0, 1⟩
abbrev INTC_HOLDOFF_SHUT (i : Nat) : Fld := ⟨Reg.INTC_HOLDOFF i, 16, 1⟩
abbrev INTC_HOLDOFF_TICKS (i : Nat) : Fld := ⟨Reg.INTC_HOLDOFF i, 0, 16⟩
abbrev INTC_CFG_GEN (i : Nat) : Fld := ⟨Reg.INTC_CFG i, 11, 1⟩
abbrev INTC_CFG_GROUP (i : Nat) : Fld := ⟨Reg.INTC_CFG i, 8, 3⟩
abbrev INTC_CFG_TGT (i : Nat) : Fld := ⟨Reg.INTC_CFG i, 4, 1⟩
abbrev INTC_CFG_SENSE (i : Nat) : Fld := ⟨Reg.INTC_CFG i, 0, 3⟩
abbrev INTC_PCFG_GEN (p i : Nat) : Fld := ⟨Reg.INTC_PCFG p i, 11, 1⟩
abbrev INTC_PCFG_GROUP (p i : Nat) : Fld := ⟨Reg.INTC_PCFG p i, 8, 3⟩
abbrev INTC_PCFG_SENSE (p i : Nat) : Fld := ⟨Reg.INTC_PCFG p i, 0, 3⟩
abbrev INTC_PEN_SRC (p : Nat) : Fld := ⟨Reg.INTC_PEN p, 0, 16⟩
abbrev INTC_PPEND_SRC (p : Nat) : Fld := ⟨Reg.INTC_PPEND p, 0, 16⟩
abbrev INTC_PRAW_SRC (p : Nat) : Fld := ⟨Reg.INTC_PRAW p, 0, 16⟩
abbrev INTC_VEC_IVALID (p : Nat) : Fld := ⟨Reg.INTC_VEC p, 31, 1⟩
abbrev INTC_VEC_ISRC (p : Nat) : Fld := ⟨Reg.INTC_VEC p, 16, 7⟩
abbrev INTC_VEC_NVALID (p : Nat) : Fld := ⟨Reg.INTC_VEC p, 15, 1⟩
abbrev INTC_VEC_NSRC (p : Nat) : Fld := ⟨Reg.INTC_VEC p, 0, 6⟩
abbrev RECORD_CTRL_AUTORESUME : Fld := ⟨Reg.RECORD_CTRL, 3, 1⟩
abbrev RECORD_CTRL_AARCH : Fld := ⟨Reg.RECORD_CTRL, 2, 1⟩
abbrev RECORD_CTRL_LMIRROR : Fld := ⟨Reg.RECORD_CTRL, 1, 1⟩
abbrev RECORD_STAT_ASTATE : Fld := ⟨Reg.RECORD_STAT, 1, 2⟩
abbrev RECORD_STAT_BUSY : Fld := ⟨Reg.RECORD_STAT, 0, 1⟩
abbrev RECORD_EVRAW_REMAP : Fld := ⟨Reg.RECORD_EVRAW, 3, 1⟩
abbrev RECORD_EVRAW_STOREFAIL : Fld := ⟨Reg.RECORD_EVRAW, 2, 1⟩
abbrev RECORD_EVRAW_FROZEN : Fld := ⟨Reg.RECORD_EVRAW, 1, 1⟩
abbrev RECORD_EVRAW_CMDDONE : Fld := ⟨Reg.RECORD_EVRAW, 0, 1⟩
abbrev RECORD_CMD_OP : Fld := ⟨Reg.RECORD_CMD, 28, 4⟩
abbrev RECORD_CMD_ARG : Fld := ⟨Reg.RECORD_CMD, 0, 8⟩
abbrev RECORD_CMDRES_DONE : Fld := ⟨Reg.RECORD_CMDRES, 31, 1⟩
abbrev RECORD_CMDRES_ERR : Fld := ⟨Reg.RECORD_CMDRES, 30, 1⟩
abbrev RECORD_CMDRES_CODE : Fld := ⟨Reg.RECORD_CMDRES, 24, 4⟩
abbrev RECORD_CMDRES_RECNO : Fld := ⟨Reg.RECORD_CMDRES, 0, 16⟩
abbrev RECORD_ACFG_POSTMS : Fld := ⟨Reg.RECORD_ACFG, 16, 16⟩
abbrev RECORD_ACFG_POST : Fld := ⟨Reg.RECORD_ACFG, 0, 11⟩
abbrev RECORD_ASTAT_LOST : Fld := ⟨Reg.RECORD_ASTAT, 16, 16⟩
abbrev RECORD_ASTAT_MISSED : Fld := ⟨Reg.RECORD_ASTAT, 0, 16⟩
abbrev RECORD_ASEQ_SEQ : Fld := ⟨Reg.RECORD_ASEQ, 0, 32⟩
abbrev RECORD_AFREEZE_SEQ : Fld := ⟨Reg.RECORD_AFREEZE, 0, 32⟩
abbrev RECORD_LSEQ_LSEQ : Fld := ⟨Reg.RECORD_LSEQ, 0, 32⟩
abbrev RECORD_LMIRROR_LSEQ : Fld := ⟨Reg.RECORD_LMIRROR, 0, 32⟩
abbrev RECORD_LLOST_COUNT : Fld := ⟨Reg.RECORD_LLOST, 0, 32⟩
abbrev RECORD_BOOTNO_BOOTNO : Fld := ⟨Reg.RECORD_BOOTNO, 0, 16⟩
abbrev RECORD_LCFG_FLUSH : Fld := ⟨Reg.RECORD_LCFG, 0, 16⟩
abbrev RECORD_SDDATA_DATA (i : Nat) : Fld := ⟨Reg.RECORD_SDDATA i, 0, 32⟩
abbrev RECORD_BUF_DATA (i : Nat) : Fld := ⟨Reg.RECORD_BUF i, 0, 32⟩
abbrev FLASH_CTRL_REDISC : Fld := ⟨Reg.FLASH_CTRL, 2, 1⟩
abbrev FLASH_CTRL_PLANWEN : Fld := ⟨Reg.FLASH_CTRL, 1, 1⟩
abbrev FLASH_CTRL_EN : Fld := ⟨Reg.FLASH_CTRL, 0, 1⟩
abbrev FLASH_STAT_PTBAD : Fld := ⟨Reg.FLASH_STAT, 6, 1⟩
abbrev FLASH_STAT_DEFLAYOUT : Fld := ⟨Reg.FLASH_STAT, 5, 1⟩
abbrev FLASH_STAT_TRUNC : Fld := ⟨Reg.FLASH_STAT, 3, 2⟩
abbrev FLASH_STAT_PRESENT : Fld := ⟨Reg.FLASH_STAT, 1, 2⟩
abbrev FLASH_STAT_BUSY : Fld := ⟨Reg.FLASH_STAT, 0, 1⟩
abbrev FLASH_EVRAW_DISC : Fld := ⟨Reg.FLASH_EVRAW, 2, 1⟩
abbrev FLASH_EVRAW_FAIL : Fld := ⟨Reg.FLASH_EVRAW, 1, 1⟩
abbrev FLASH_EVRAW_HDONE : Fld := ⟨Reg.FLASH_EVRAW, 0, 1⟩
abbrev FLASH_CFG_QPP : Fld := ⟨Reg.FLASH_CFG, 10, 1⟩
abbrev FLASH_CFG_RDMODE : Fld := ⟨Reg.FLASH_CFG, 8, 2⟩
abbrev FLASH_CFG_DIV : Fld := ⟨Reg.FLASH_CFG, 0, 8⟩
abbrev FLASH_DENS_LOG1 : Fld := ⟨Reg.FLASH_DENS, 16, 8⟩
abbrev FLASH_DENS_LOG0 : Fld := ⟨Reg.FLASH_DENS, 0, 8⟩
abbrev FLASH_TMO_ERASE : Fld := ⟨Reg.FLASH_TMO, 16, 16⟩
abbrev FLASH_TMO_PROG : Fld := ⟨Reg.FLASH_TMO, 0, 16⟩
abbrev FLASH_FAILCAUSE_CAUSE : Fld := ⟨Reg.FLASH_FAILCAUSE, 0, 4⟩
abbrev FLASH_HADDR_CS : Fld := ⟨Reg.FLASH_HADDR, 26, 1⟩
abbrev FLASH_HADDR_ADDR : Fld := ⟨Reg.FLASH_HADDR, 0, 26⟩
abbrev FLASH_HCMD_OP : Fld := ⟨Reg.FLASH_HCMD, 28, 4⟩
abbrev FLASH_HCMD_LEN : Fld := ⟨Reg.FLASH_HCMD, 0, 9⟩
abbrev FLASH_HRES_DONE : Fld := ⟨Reg.FLASH_HRES, 31, 1⟩
abbrev FLASH_HRES_ERR : Fld := ⟨Reg.FLASH_HRES, 30, 1⟩
abbrev FLASH_HRES_CODE : Fld := ⟨Reg.FLASH_HRES, 24, 4⟩
abbrev FLASH_PART_VALID (i : Nat) : Fld := ⟨Reg.FLASH_PART i, 31, 1⟩
abbrev FLASH_PART_CS (i : Nat) : Fld := ⟨Reg.FLASH_PART i, 30, 1⟩
abbrev FLASH_PART_OFFSET (i : Nat) : Fld := ⟨Reg.FLASH_PART i, 0, 26⟩
abbrev FLASH_PSIZE_SIZE (i : Nat) : Fld := ⟨Reg.FLASH_PSIZE i, 0, 27⟩
abbrev FLASH_BUF_DATA (i : Nat) : Fld := ⟨Reg.FLASH_BUF i, 0, 32⟩
abbrev OTP_CTRL_OVRCLR : Fld := ⟨Reg.OTP_CTRL, 0, 1⟩
abbrev OTP_STAT_OVR : Fld := ⟨Reg.OTP_STAT, 16, 9⟩
abbrev OTP_STAT_VINOK : Fld := ⟨Reg.OTP_STAT, 8, 1⟩
abbrev OTP_STAT_BUSY : Fld := ⟨Reg.OTP_STAT, 7, 1⟩
abbrev OTP_STAT_LOCKED : Fld := ⟨Reg.OTP_STAT, 0, 7⟩
abbrev OTP_EVRAW_REPAIRED : Fld := ⟨Reg.OTP_EVRAW, 3, 1⟩
abbrev OTP_EVRAW_UNCORR : Fld := ⟨Reg.OTP_EVRAW, 2, 1⟩
abbrev OTP_EVRAW_MARGINAL : Fld := ⟨Reg.OTP_EVRAW, 1, 1⟩
abbrev OTP_EVRAW_DONE : Fld := ⟨Reg.OTP_EVRAW, 0, 1⟩
abbrev OTP_DATA_DATA : Fld := ⟨Reg.OTP_DATA, 0, 32⟩
abbrev OTP_RDATA_DATA : Fld := ⟨Reg.OTP_RDATA, 0, 32⟩
abbrev OTP_CMD_OP : Fld := ⟨Reg.OTP_CMD, 28, 4⟩
abbrev OTP_CMD_MARGIN : Fld := ⟨Reg.OTP_CMD, 26, 2⟩
abbrev OTP_CMD_KEY : Fld := ⟨Reg.OTP_CMD, 16, 8⟩
abbrev OTP_CMD_ARG : Fld := ⟨Reg.OTP_CMD, 0, 11⟩
abbrev OTP_RES_DONE : Fld := ⟨Reg.OTP_RES, 31, 1⟩
abbrev OTP_RES_ERR : Fld := ⟨Reg.OTP_RES, 30, 1⟩
abbrev OTP_RES_CODE : Fld := ⟨Reg.OTP_RES, 24, 4⟩
abbrev OTP_RES_MARG : Fld := ⟨Reg.OTP_RES, 23, 1⟩
abbrev OTP_RES_CORR : Fld := ⟨Reg.OTP_RES, 22, 1⟩
abbrev OTP_RES_PULSES : Fld := ⟨Reg.OTP_RES, 16, 2⟩
abbrev OTP_RLOCK_REGION : Fld := ⟨Reg.OTP_RLOCK, 0, 7⟩
abbrev OTP_WLOCK_REGION : Fld := ⟨Reg.OTP_WLOCK, 0, 7⟩
abbrev OTP_MARG_COUNT : Fld := ⟨Reg.OTP_MARG, 16, 16⟩
abbrev OTP_MARG_WORD : Fld := ⟨Reg.OTP_MARG, 0, 11⟩
abbrev OTP_ECC_UNCORR : Fld := ⟨Reg.OTP_ECC, 16, 16⟩
abbrev OTP_ECC_CORR : Fld := ⟨Reg.OTP_ECC, 0, 16⟩
abbrev OTP_REDIR_VALID (i : Nat) : Fld := ⟨Reg.OTP_REDIR i, 31, 1⟩
abbrev OTP_REDIR_DISAGREE (i : Nat) : Fld := ⟨Reg.OTP_REDIR i, 8, 1⟩
abbrev OTP_REDIR_ROW (i : Nat) : Fld := ⟨Reg.OTP_REDIR i, 0, 8⟩
abbrev OTP_BOOTSTAT_STATE : Fld := ⟨Reg.OTP_BOOTSTAT, 30, 2⟩
abbrev OTP_BOOTSTAT_SKIP : Fld := ⟨Reg.OTP_BOOTSTAT, 12, 8⟩
abbrev OTP_BOOTSTAT_APPLIED : Fld := ⟨Reg.OTP_BOOTSTAT, 0, 8⟩
abbrev TIMER_EVRAW_ALL : Fld := ⟨Reg.TIMER_EVRAW, 0, 16⟩
abbrev TIMER_TCFG_WRAP (i : Nat) : Fld := ⟨Reg.TIMER_TCFG i, 12, 1⟩
abbrev TIMER_TCFG_SEDGE (i : Nat) : Fld := ⟨Reg.TIMER_TCFG i, 8, 2⟩
abbrev TIMER_TCFG_SPIN (i : Nat) : Fld := ⟨Reg.TIMER_TCFG i, 4, 4⟩
abbrev TIMER_TCFG_SRC (i : Nat) : Fld := ⟨Reg.TIMER_TCFG i, 1, 2⟩
abbrev TIMER_TCFG_EN (i : Nat) : Fld := ⟨Reg.TIMER_TCFG i, 0, 1⟩
abbrev TIMER_DIV_DIV (i : Nat) : Fld := ⟨Reg.TIMER_DIV i, 0, 32⟩
abbrev TIMER_CMP0_LO_CMP (i : Nat) : Fld := ⟨Reg.TIMER_CMP0_LO i, 0, 32⟩
abbrev TIMER_CMP0_HI_CMP (i : Nat) : Fld := ⟨Reg.TIMER_CMP0_HI i, 0, 32⟩
abbrev TIMER_CMP1_LO_CMP (i : Nat) : Fld := ⟨Reg.TIMER_CMP1_LO i, 0, 32⟩
abbrev TIMER_CMP1_HI_CMP (i : Nat) : Fld := ⟨Reg.TIMER_CMP1_HI i, 0, 32⟩
abbrev TIMER_TIO_OPIN (i : Nat) : Fld := ⟨Reg.TIMER_TIO i, 28, 4⟩
abbrev TIMER_TIO_ACT1 (i : Nat) : Fld := ⟨Reg.TIMER_TIO i, 26, 2⟩
abbrev TIMER_TIO_ACT0 (i : Nat) : Fld := ⟨Reg.TIMER_TIO i, 24, 2⟩
abbrev TIMER_TIO_OUTEN (i : Nat) : Fld := ⟨Reg.TIMER_TIO i, 23, 1⟩
abbrev TIMER_TIO_CPIN (i : Nat) : Fld := ⟨Reg.TIMER_TIO i, 8, 4⟩
abbrev TIMER_TIO_CEDGE (i : Nat) : Fld := ⟨Reg.TIMER_TIO i, 4, 2⟩
abbrev TIMER_TIO_CAPEN (i : Nat) : Fld := ⟨Reg.TIMER_TIO i, 0, 1⟩
abbrev TIMER_LOAD_LO_VAL (i : Nat) : Fld := ⟨Reg.TIMER_LOAD_LO i, 0, 32⟩
abbrev TIMER_LOAD_HI_VAL (i : Nat) : Fld := ⟨Reg.TIMER_LOAD_HI i, 0, 32⟩
abbrev TIMER_CMD_OP (i : Nat) : Fld := ⟨Reg.TIMER_CMD i, 0, 3⟩
abbrev TIMER_SNAP_LO_VAL (i : Nat) : Fld := ⟨Reg.TIMER_SNAP_LO i, 0, 32⟩
abbrev TIMER_SNAP_HI_VAL (i : Nat) : Fld := ⟨Reg.TIMER_SNAP_HI i, 0, 32⟩
abbrev TIMER_SNAPSTAT_LATE (i : Nat) : Fld := ⟨Reg.TIMER_SNAPSTAT i, 3, 1⟩
abbrev TIMER_SNAPSTAT_KIND (i : Nat) : Fld := ⟨Reg.TIMER_SNAPSTAT i, 1, 2⟩
abbrev TIMER_SNAPSTAT_VALID (i : Nat) : Fld := ⟨Reg.TIMER_SNAPSTAT i, 0, 1⟩
abbrev TIMER_TSTAT_QOVF (i : Nat) : Fld := ⟨Reg.TIMER_TSTAT i, 16, 16⟩
abbrev TIMER_TSTAT_SRCSTOP (i : Nat) : Fld := ⟨Reg.TIMER_TSTAT i, 4, 1⟩
abbrev TIMER_TSTAT_QDEPTH (i : Nat) : Fld := ⟨Reg.TIMER_TSTAT i, 0, 4⟩
abbrev CRC_CTRL_INIT : Fld := ⟨Reg.CRC_CTRL, 8, 1⟩
abbrev CRC_CTRL_POLY : Fld := ⟨Reg.CRC_CTRL, 0, 2⟩
abbrev CRC_STAT_LEVEL : Fld := ⟨Reg.CRC_STAT, 4, 4⟩
abbrev CRC_STAT_FOREIGN : Fld := ⟨Reg.CRC_STAT, 2, 1⟩
abbrev CRC_STAT_OVF : Fld := ⟨Reg.CRC_STAT, 1, 1⟩
abbrev CRC_STAT_BUSY : Fld := ⟨Reg.CRC_STAT, 0, 1⟩
abbrev CRC_EVRAW_OVF : Fld := ⟨Reg.CRC_EVRAW, 1, 1⟩
abbrev CRC_EVRAW_FREE : Fld := ⟨Reg.CRC_EVRAW, 0, 1⟩
abbrev CRC_DIN8_DATA : Fld := ⟨Reg.CRC_DIN8, 0, 8⟩
abbrev CRC_DIN16_DATA : Fld := ⟨Reg.CRC_DIN16, 0, 16⟩
abbrev CRC_DIN32_DATA : Fld := ⟨Reg.CRC_DIN32, 0, 32⟩
abbrev CRC_RESULT_CRC : Fld := ⟨Reg.CRC_RESULT, 0, 32⟩
abbrev CRC_OWNER_ID : Fld := ⟨Reg.CRC_OWNER, 0, 8⟩
abbrev GPIO_EVRAW_ALL : Fld := ⟨Reg.GPIO_EVRAW, 0, 12⟩
abbrev GPIO_PIN_WAKE (i : Nat) : Fld := ⟨Reg.GPIO_PIN i, 8, 2⟩
abbrev GPIO_PIN_IN (i : Nat) : Fld := ⟨Reg.GPIO_PIN i, 7, 1⟩
abbrev GPIO_PIN_PULL (i : Nat) : Fld := ⟨Reg.GPIO_PIN i, 5, 2⟩
abbrev GPIO_PIN_OD (i : Nat) : Fld := ⟨Reg.GPIO_PIN i, 4, 1⟩
abbrev GPIO_PIN_OUT (i : Nat) : Fld := ⟨Reg.GPIO_PIN i, 3, 1⟩
abbrev GPIO_PIN_DIR (i : Nat) : Fld := ⟨Reg.GPIO_PIN i, 2, 1⟩
abbrev LINK_CTRL_AUTOFREE (n : Nat) : Fld := ⟨Reg.LINK_CTRL n, 16, 8⟩
abbrev LINK_CTRL_QEV (n : Nat) : Fld := ⟨Reg.LINK_CTRL n, 8, 8⟩
abbrev LINK_CTRL_BIAS (n : Nat) : Fld := ⟨Reg.LINK_CTRL n, 4, 2⟩
abbrev LINK_CTRL_TERM (n : Nat) : Fld := ⟨Reg.LINK_CTRL n, 3, 1⟩
abbrev LINK_CTRL_ALERTEN (n : Nat) : Fld := ⟨Reg.LINK_CTRL n, 2, 1⟩
abbrev LINK_CTRL_EN (n : Nat) : Fld := ⟨Reg.LINK_CTRL n, 0, 1⟩
abbrev LINK_STAT_NPRES (n : Nat) : Fld := ⟨Reg.LINK_STAT n, 16, 7⟩
abbrev LINK_STAT_QNE (n : Nat) : Fld := ⟨Reg.LINK_STAT n, 8, 8⟩
abbrev LINK_STAT_LINELOW (n : Nat) : Fld := ⟨Reg.LINK_STAT n, 4, 1⟩
abbrev LINK_STAT_TRAIN (n : Nat) : Fld := ⟨Reg.LINK_STAT n, 3, 1⟩
abbrev LINK_STAT_ROUND (n : Nat) : Fld := ⟨Reg.LINK_STAT n, 2, 1⟩
abbrev LINK_STAT_BUSY (n : Nat) : Fld := ⟨Reg.LINK_STAT n, 1, 1⟩
abbrev LINK_STAT_ON (n : Nat) : Fld := ⟨Reg.LINK_STAT n, 0, 1⟩
abbrev LINK_EVRAW_SHEDDONE (n : Nat) : Fld := ⟨Reg.LINK_EVRAW n, 12, 1⟩
abbrev LINK_EVRAW_HOSTQ (n : Nat) : Fld := ⟨Reg.LINK_EVRAW n, 11, 1⟩
abbrev LINK_EVRAW_REFUSED (n : Nat) : Fld := ⟨Reg.LINK_EVRAW n, 10, 1⟩
abbrev LINK_EVRAW_LFAULT (n : Nat) : Fld := ⟨Reg.LINK_EVRAW n, 9, 1⟩
abbrev LINK_EVRAW_STALE (n : Nat) : Fld := ⟨Reg.LINK_EVRAW n, 8, 1⟩
abbrev LINK_EVRAW_QDONE (n : Nat) : Fld := ⟨Reg.LINK_EVRAW n, 7, 1⟩
abbrev LINK_EVRAW_OVERRUN (n : Nat) : Fld := ⟨Reg.LINK_EVRAW n, 6, 1⟩
abbrev LINK_EVRAW_ROUND (n : Nat) : Fld := ⟨Reg.LINK_EVRAW n, 5, 1⟩
abbrev LINK_EVRAW_ALERT (n : Nat) : Fld := ⟨Reg.LINK_EVRAW n, 4, 1⟩
abbrev LINK_EVRAW_PFAULT (n : Nat) : Fld := ⟨Reg.LINK_EVRAW n, 3, 1⟩
abbrev LINK_EVRAW_REQ (n : Nat) : Fld := ⟨Reg.LINK_EVRAW n, 2, 1⟩
abbrev LINK_EVRAW_LEAVE (n : Nat) : Fld := ⟨Reg.LINK_EVRAW n, 1, 1⟩
abbrev LINK_EVRAW_ARRIVE (n : Nat) : Fld := ⟨Reg.LINK_EVRAW n, 0, 1⟩
abbrev LINK_TIMING_VERIFY (n : Nat) : Fld := ⟨Reg.LINK_TIMING n, 8, 3⟩
abbrev LINK_TIMING_RETRY (n : Nat) : Fld := ⟨Reg.LINK_TIMING n, 0, 3⟩
abbrev LINK_SCAN_DISC (n : Nat) : Fld := ⟨Reg.LINK_SCAN n, 17, 1⟩
abbrev LINK_SCAN_SCANEN (n : Nat) : Fld := ⟨Reg.LINK_SCAN n, 16, 1⟩
abbrev LINK_SCAN_PERIOD (n : Nat) : Fld := ⟨Reg.LINK_SCAN n, 0, 16⟩
abbrev LINK_SCANMASK_ADDR (n i : Nat) : Fld := ⟨Reg.LINK_SCANMASK n i, 0, 32⟩
abbrev LINK_SCANSTAT_LASTDUR (n : Nat) : Fld := ⟨Reg.LINK_SCANSTAT n, 16, 16⟩
abbrev LINK_SCANSTAT_OVERRUN (n : Nat) : Fld := ⟨Reg.LINK_SCANSTAT n, 8, 8⟩
abbrev LINK_REQMASK_ADDR (n i : Nat) : Fld := ⟨Reg.LINK_REQMASK n i, 0, 32⟩
abbrev LINK_FLTMASK_ADDR (n i : Nat) : Fld := ⟨Reg.LINK_FLTMASK n i, 0, 32⟩
abbrev LINK_PRESMASK_ADDR (n i : Nat) : Fld := ⟨Reg.LINK_PRESMASK n i, 0, 32⟩
abbrev LINK_CHGMASK_ADDR (n i : Nat) : Fld := ⟨Reg.LINK_CHGMASK n i, 0, 32⟩
abbrev LINK_SHEDMASK_ADDR (n i : Nat) : Fld := ⟨Reg.LINK_SHEDMASK n i, 0, 32⟩
abbrev LINK_ALERTMASK_ADDR (n i : Nat) : Fld := ⟨Reg.LINK_ALERTMASK n i, 0, 32⟩
abbrev LINK_ALERTSTAT_ALERTS (n : Nat) : Fld := ⟨Reg.LINK_ALERTSTAT n, 16, 16⟩
abbrev LINK_ALERTSTAT_SPURIOUS (n : Nat) : Fld := ⟨Reg.LINK_ALERTSTAT n, 0, 16⟩
abbrev LINK_QCNT0_Q0_Q3 (n : Nat) : Fld := ⟨Reg.LINK_QCNT0 n, 0, 32⟩
abbrev LINK_QCNT1_Q4_Q7 (n : Nat) : Fld := ⟨Reg.LINK_QCNT1 n, 0, 32⟩
abbrev LINK_LASTDONE_STATUS (n : Nat) : Fld := ⟨Reg.LINK_LASTDONE n, 28, 4⟩
abbrev LINK_LASTDONE_SLOT (n : Nat) : Fld := ⟨Reg.LINK_LASTDONE n, 0, 14⟩
abbrev LINK_HOSTDESC_WORD (n i : Nat) : Fld := ⟨Reg.LINK_HOSTDESC n i, 0, 32⟩
abbrev LINK_HOSTPUSH_BCAST (n : Nat) : Fld := ⟨Reg.LINK_HOSTPUSH n, 7, 1⟩
abbrev LINK_HOSTPUSH_ADDR (n : Nat) : Fld := ⟨Reg.LINK_HOSTPUSH n, 0, 6⟩
abbrev LINK_HOSTRES_ERR (n : Nat) : Fld := ⟨Reg.LINK_HOSTRES n, 31, 1⟩
abbrev LINK_HOSTRES_VALUE (n : Nat) : Fld := ⟨Reg.LINK_HOSTRES n, 0, 14⟩
abbrev LINK_PTCFG_ERRMAX (n : Nat) : Fld := ⟨Reg.LINK_PTCFG n, 16, 8⟩
abbrev LINK_PTCFG_MINOFF (n : Nat) : Fld := ⟨Reg.LINK_PTCFG n, 0, 8⟩
abbrev LINK_ERRCNT_CRCERR (n : Nat) : Fld := ⟨Reg.LINK_ERRCNT n, 16, 16⟩
abbrev LINK_ERRCNT_NOREPLY (n : Nat) : Fld := ⟨Reg.LINK_ERRCNT n, 0, 16⟩
abbrev LINK_EPCNT_STALEREPLY (n : Nat) : Fld := ⟨Reg.LINK_EPCNT n, 16, 16⟩
abbrev LINK_EPCNT_STALEDROP (n : Nat) : Fld := ⟨Reg.LINK_EPCNT n, 0, 16⟩
abbrev LINK_FAULTSTAT_LCAUSE (n : Nat) : Fld := ⟨Reg.LINK_FAULTSTAT n, 28, 4⟩
abbrev LINK_FAULTSTAT_PCAUSE (n : Nat) : Fld := ⟨Reg.LINK_FAULTSTAT n, 24, 4⟩
abbrev LINK_FAULTSTAT_PADDR (n : Nat) : Fld := ⟨Reg.LINK_FAULTSTAT n, 16, 6⟩
abbrev LINK_FAULTSTAT_COLLIDE (n : Nat) : Fld := ⟨Reg.LINK_FAULTSTAT n, 0, 16⟩

end Fd

end Sys2Proof.Machine
end

