-- ==== Sys2Proof/Machine/Table.lean ====
section
/-! DEFINITION. Sparse tables in one canonical form: a list of (key, value) pairs, keys strictly rising, and no entry
equal to what an unlisted key reads as. Registers, memory bytes and every indexed group of the state are held so. -/

namespace Sys2Proof.Machine

variable {V : Type}

/-- The value at key `a`: the first entry with that key, else the default. -/
def tget (d : Nat → V) : List (Nat × V) → Nat → V
  | [], a => d a
  | (k, v) :: t, a => if k = a then v else tget d t a

/-- The pair (a, v) put before the first entry with a greater key. -/
def tinsert (a : Nat) (v : V) : List (Nat × V) → List (Nat × V)
  | [] => [(a, v)]
  | (k, w) :: t => if a < k then (a, v) :: (k, w) :: t else (k, w) :: tinsert a v t

/-- Every entry with key `a` taken out. -/
def terase (a : Nat) : List (Nat × V) → List (Nat × V)
  | [] => []
  | (k, w) :: t => if k = a then terase a t else (k, w) :: terase a t

/-- The table with `v` at key `a`; a value equal to the default is not listed. -/
def tset [DecidableEq V] (d : Nat → V) (l : List (Nat × V)) (a : Nat) (v : V) : List (Nat × V) :=
  if v = d a then terase a l else tinsert a v (terase a l)

/-- Keys strictly rising, from above `lo`. -/
def tsorted : List (Nat × V) → Bool
  | [] => true
  | [_] => true
  | (a, _) :: (b, w) :: t => decide (a < b) && tsorted ((b, w) :: t)

/-- The canonical form. -/
def twf [DecidableEq V] (d : Nat → V) (l : List (Nat × V)) : Bool :=
  tsorted l && l.all fun p => decide (p.2 ≠ d p.1)

end Sys2Proof.Machine
end

