-- ==== Sys2Proof/Machine/State.lean ====
section
/-! DEFINITION. The machine's state as plain data, the reasons it can stop, and the state after power-on reset. -/

namespace Sys2Proof.Machine

/-! ## Clocks and power (R26–R46) -/

/-- The power states of R27. -/
inductive PowerState where
  | off
  | fallow
  | awake
  | full
  deriving DecidableEq, Repr

/-- The PLL: stopped, enabled and not yet locked, locked, or failed with a retry due (R32, R34). -/
inductive PllState where
  | off
  | locking
  | locked
  | failed
  deriving DecidableEq, Repr

/-- Clocks and the wake controller. -/
structure Power where
  /-- The AO supply is present (R28). -/
  ao        : Bool
  state     : PowerState
  /-- WAKE is stable: the register pages and the interrupt controller run (R32, step 2). -/
  wakeRuns  : Bool
  /-- WAKE failed to start and is retried once per AO tick (R38). -/
  wakeFail  : Bool
  pll       : PllState
  /-- The sub-tick counter has aligned since ENG lock (R41). -/
  subValid  : Bool
  /-- AO ticks for which the idle conditions of R29 have held without a break. -/
  idleTicks : Nat
  /-- AO tick at which the PLL lock, or the start of WAKE, is next retried (R34, R38). -/
  retryTick : Nat
  /-- The GAUGE oscillator runs (R38, R250). -/
  gaugeOk   : Bool
  deriving DecidableEq, Repr

/-! ## Host port (R47–R75) -/

/-- What each chip select keeps beside its HOSTIF registers. -/
structure HostPort where
  /-- The staged lower word of a plan row, with its row (R70). -/
  staged   : Option (Nat × Word)
  /-- AO ticks of the discards inside the abuse window, newest first (R65). -/
  discards : List Nat
  /-- AO tick at which the watchdog count last restarted (R72). -/
  wdStart  : Nat
  /-- The period in force, in AO ticks (R72). -/
  wdPeriod : Nat
  /-- The warning of the present period has been given (R73). -/
  wdWarned : Bool
  /-- Chip-time snapshot bank, 64 bits (R43). -/
  bank     : Nat
  /-- Bytes the device drove on HSDO in the last frame that carried data (R50), and how many wait bytes led them. -/
  hsdo     : List Byte
  deriving DecidableEq, Repr

/-- The words of an accepted write frame still to be applied (R53). -/
structure Burst where
  p     : Proc
  addr  : Nat
  words : List Word
  /-- Chip time of the frame's acceptance (R379). -/
  time  : Nat
  deriving DecidableEq, Repr

/-- The word of an accepted WRITE that waits for its target's clock (R53, R71). -/
structure HeldWrite where
  p    : Proc
  addr : Nat
  data : Word
  deriving DecidableEq, Repr

/-! ## Plan engine (R76–R111) -/

/-- Thread states (R80). -/
inductive ThState where
  | halted
  | run
  | wait
  | fault
  deriving DecidableEq, Repr

/-- The flags Z, N, C, V (R80). -/
structure Flags where
  z : Bool
  n : Bool
  c : Bool
  v : Bool
  deriving DecidableEq, Repr

/-- A ledger operation of a row or of `LEDGER.HOSTOP` (R310–R316). -/
inductive LedgerOp where
  | lres  (point mw : Nat)
  | lcom  (point loop : Nat)
  | lrel  (point : Nat)
  | lshed (mw : Int) (prio : Nat)
  /-- A host's operation with a B outside its range (R316). -/
  | outside
  /-- The link events of R274 and R276: a point arrives or leaves, a port is enabled again (R319). -/
  | arrive (point : Nat)
  | remove (point : Nat)
  | enable (port : Nat)
  deriving DecidableEq, Repr

/-- What keeps a thread busy (R81). -/
inductive Busy where
  /-- A multi-cycle row whose results land when it completes: registers with their words, and the flags. -/
  | result (writes : List (Nat × Word)) (flags : Flags)
  /-- An LD into register `a` from a bus address (R89). -/
  | load (a : Nat) (addr : Nat)
  /-- A SYNC (R90). -/
  | sync
  /-- A DLY (R95). -/
  | dly
  /-- A ledger row that waits for the ledger or occupies it (R88). -/
  | ledger
  deriving DecidableEq, Repr

/-- What a thread in WAIT waits for (R92, R94). -/
inductive WaitFor where
  | events (mask : Word)
  | posts (mask : Nat)
  deriving DecidableEq, Repr

/-- One thread (R80). -/
structure Thread where
  pc      : BitVec 14
  w       : Vector Word 8
  flags   : Flags
  /-- Call stack, innermost first; SP is its length (0–4). -/
  stack   : List (BitVec 14)
  st      : ThState
  cause   : Nat
  busy    : Option Busy
  waiting : Option WaitFor
  /-- AO tick at which the wait times out (R93). -/
  waitDue : Option Nat
  /-- A halt is to act at the next row boundary (R97, R100). -/
  haltReq : Bool
  /-- A THCMD STEP: one row, then HALTED (R100). -/
  step    : Bool
  deriving DecidableEq, Repr

/-- The reset values of R80. -/
def Thread.init : Thread where
  pc := 0
  w := Vector.replicate 8 0
  flags := ⟨false, false, false, false⟩
  stack := []
  st := .halted
  cause := 0
  busy := none
  waiting := none
  waitDue := none
  haltReq := false
  step := false

/-- A posted store that has not yet reached its register (R90). -/
structure PostedStore where
  t    : Fin 16
  addr : Nat
  data : Word
  deriving DecidableEq, Repr

/-- Who asked for a ledger operation. -/
inductive LedgerBy where
  | row (t : Fin 16)
  | host
  /-- A link event (R319). -/
  | link
  deriving DecidableEq, Repr

/-- Plan sources (R107). -/
inductive PlanSrc where
  | otp
  | planA
  | planB
  deriving DecidableEq, Repr

/-- How far a plan load has come (R107). -/
inductive LoadStage where
  /-- Step 1: threads halt at their row boundaries. -/
  | halting
  /-- Step 3: the header is being read. -/
  | header
  /-- Step 4. -/
  | pass1
  /-- Step 5. -/
  | pass2
  /-- OTP load: the PLAN region is being read into staging. -/
  | otpRead
  /-- OTP load: staged rows are being written. -/
  | otpWrite
  deriving DecidableEq, Repr

/-- A plan load in progress (R107). -/
structure Load where
  src     : PlanSrc
  stage   : LoadStage
  /-- The threads as they stood before the load, restored when it fails (R108). -/
  saved   : List (Nat × Thread)
  /-- Row count, PLANID and VERSION of the header read. -/
  rows    : Nat
  planid  : Word
  version : Word
  /-- BCRC found in pass 1. -/
  bcrc    : Nat
  /-- The image was accepted with no IMAGE entries (R106). -/
  unsealed : Bool
  /-- Staged words of the boot plan (R107). -/
  staging : List Word
  /-- This load follows a failure in pass 2: no plan stands behind it (R108). -/
  last    : Bool
  deriving DecidableEq, Repr

/-- The engine beside its threads. -/
structure Engine where
  /-- Threads that differ from `Thread.init`, by number. -/
  threads    : List (Nat × Thread)
  /-- The thread that issued last (R82). -/
  lastIssued : Nat
  /-- Posted stores in issue order (R90). -/
  stores     : List PostedStore
  /-- The thread that took each held semaphore (R98). -/
  semOwner   : List (Nat × Option Nat)
  /-- Whose operation occupies the ledger (R18). -/
  ledgerBusy : Option LedgerBy
  /-- The operations that wait for it, in issue order. -/
  ledgerQ    : List (LedgerBy × LedgerOp)
  load       : Option Load
  /-- The plan bank of chip time (R43). -/
  planBank   : Nat
  deriving DecidableEq, Repr

/-! ## Faults and interrupts (R340–R366) -/

/-- States of a fault source (R347). -/
inductive FState where
  | idle
  | active
  | lull
  | squall
  deriving DecidableEq, Repr

/-- One fault source. -/
structure FaultSrc where
  st       : FState
  /-- The hardware condition of a level source holds (R341). -/
  hw       : Bool
  /-- The raise has not yet ended (R347): an event source's raise cycle, or a level source's condition. -/
  live     : Bool
  /-- AO tick at which the Lull timer expires. -/
  lullDue  : Nat
  /-- Start of the recovery window, if one is open (R348). -/
  window   : Option Nat
  rcnt     : Nat
  /-- AUTO was written 1 while ended: the Lull starts at the next AO tick edge (R347). -/
  lullNext : Bool
  /-- CAUSE and DETAIL of the latest raise, which its later history entries carry (R351). -/
  cause    : Nat
  detail   : Nat
  deriving DecidableEq, Repr

/-- A source at rest. -/
def FaultSrc.init : FaultSrc := ⟨.idle, false, false, 0, none, 0, false, 0, 0⟩

/-- Blocks a fault reaction can reset (R346). -/
inductive Block where
  | seq
  | rails
  | loop (n : Nat)
  | therm
  | health
  | path
  | gauge
  | link (n : Nat)
  | ledger
  | plan
  | recordB
  | flash
  deriving DecidableEq, Repr

/-- Resets that reactions and writes have asked for and that the present command still has to carry out (R207, R336, R343,
R346). -/
structure ResetReq where
  blocks : List Block
  chip   : Bool
  /-- The key was written to `THERM.THAW` while the Thaw condition held (R336). -/
  thaw   : Bool
  deriving DecidableEq, Repr

/-- The interrupt controller beside its registers. Sources are numbered 0–63 shared, 64–79 processor A's bank, 80–95
processor B's bank. -/
structure Intc where
  /-- Level of each input when it was last taken in (R357). -/
  prev   : List (Nat × Bool)
  /-- Pulses that have not yet been taken in: a low, then high, then low signal, or the fall and rise of R344. -/
  pulse  : List Nat
  /-- Fault sources whose edge at the NMI output came while WAKE did not run: taken in once it does (R363). -/
  nmi    : List Nat
  /-- AO tick at which each shut hold-off group reopens; a group without an entry is open (R360). -/
  shutAt : List (Nat × Option Nat)
  deriving DecidableEq, Repr

/-! ## Multiphase controller (R112–R146) -/

/-- What a loop keeps beside its registers. -/
structure Loop where
  /-- Slew rate latched at the last TARGET write, 0.05 mV/µs units (R121). -/
  rate     : Nat
  /-- The reference before it is brought to DAC steps, in units of 1/256,000 mV: a slew of RATE moves it by
  RATE × PERIOD of them in a period (R121, R126). -/
  refFine  : Nat
  /-- The reference has not yet reached the target of the latest write (R121). -/
  moving   : Bool
  /-- The loop has entered START and no period of it has begun: the start ramp begins at the VOUT sensed then (R123). -/
  rampDue  : Bool
  /-- The reference has exceeded the sensed output since the loop entered START: low sides may turn on (R123). -/
  lowOk    : Bool
  /-- Reference, in mV, at which the latest downward movement began (R138). -/
  ovBase   : Nat
  /-- AO tick from which the over-voltage base is the target again; `none` while the reference moves. -/
  ovDue    : Option Nat
  /-- The compensation values in use, and a copy to be applied at the next period start (R119). -/
  bank     : Word
  bankNext : Option Word
  /-- Consecutive periods below the shed threshold (R131). -/
  below    : Nat
  /-- Consecutive periods whose current is below BURST.ENTER (R129). -/
  burstLow : Nat
  /-- Consecutive periods in which a phase reached ILIM (R137). -/
  ocRun    : Nat
  /-- Phases that reached ILIM in the present period, one bit each (R135, R143). -/
  limited  : Nat
  /-- The per-phase limit of the present period, 0.1 A (R135). -/
  ilim     : Nat
  /-- What a probe injects (R149, R151): the reference offset stays within this many 1/4,000 of the target, and the peak
  threshold of the phase under test is raised by this much, 10 mA units. -/
  inject   : Nat
  lift     : Nat
  /-- Phases held at mid-level for the rest of the period (R136). -/
  midLevel : Nat
  /-- On-time of each phase in the last period, 78.125 ps units (R117). -/
  onTime   : List (Nat × Nat)
  /-- In BURST: the lead phase fires pulses (R129); periods, and those of them with pulses, since the last burst tick
  (R130). -/
  pulsing  : Bool
  tickPer  : Nat
  tickPul  : Nat
  /-- CTRL.EN has been written 0 since the crowbar acted (R139). -/
  enZero   : Bool
  /-- RUN has been entered since the loop was started (R125). -/
  ran      : Bool
  /-- Its slot has entered START while the loop was still in SOFTOFF or CROWBAR (R124). -/
  startHeld : Bool
  /-- Chip time in half-µs at which the ledger's hold of its Forecast ends (R312). -/
  fcDue    : Nat
  deriving DecidableEq, Repr

/-- A loop after reset. -/
def Loop.init : Loop where
  rate := 0x14
  refFine := 0
  moving := false
  rampDue := false
  lowOk := false
  ovBase := 0
  ovDue := none
  bank := 0x00140803
  bankNext := none
  below := 0
  burstLow := 0
  ocRun := 0
  limited := 0
  ilim := 0
  inject := 0
  lift := 0
  midLevel := 0
  onTime := []
  pulsing := false
  tickPer := 0
  tickPul := 0
  enZero := false
  ran := false
  startHeld := false
  fcDue := 0

/-- The trim of the PWM oscillator (R127): a period of P becomes P × num ÷ den; no trim is 1 ÷ 1. -/
structure Trim where
  num : Nat
  den : Nat
  deriving DecidableEq, Repr

/-! ## Record flash (R367–R373, R457, R458) -/

/-- Kinds of record-flash work, in the order of R373; counters and the remap table stand after HEALTH (log entry 41). -/
inductive RecKind where
  | firstFail
  | shutdown
  | lastFault
  | gauge
  | health
  | counters
  | remap
  | cmdShutdown
  | cmdTails
  | freeze
  deriving DecidableEq, Repr

/-- The ring areas of R367 and R166. -/
inductive Ring where
  | shutdown
  | firstFail
  | lastFault
  | health
  deriving DecidableEq, Repr

/-- One piece of record-flash work: bytes for consecutive pages, each page erased before it is programmed when `erase`
is set. -/
structure RecJob where
  kind   : RecKind
  /-- The ring the record goes to; its place is taken when the work starts. -/
  ring   : Option Ring
  /-- First logical page, and the offset in it, of work outside a ring. -/
  page   : Nat
  off    : Nat
  erase  : Bool
  data   : List Byte
  /-- Pages completed. -/
  done   : Nat
  /-- The present page has been erased. -/
  erased : Bool
  /-- Record number (R373), 0 for work without one. -/
  recno  : Nat
  deriving DecidableEq, Repr

/-- The record-flash operation under way. -/
structure RecOp where
  /-- An erase (else a program). -/
  erase   : Bool
  /-- Logical page. -/
  page    : Nat
  off     : Nat
  /-- What the program writes; for the erase of a retry, what is programmed after it. -/
  data    : List Byte
  /-- The second attempt of R369. -/
  retry   : Bool
  /-- The work it belongs to; `none` for a background erase. -/
  job     : Option RecJob
  deriving DecidableEq, Repr

/-- The lifetime counters of R371. -/
structure LifeCounters where
  collapse   : Nat
  chipResets : Nat
  dieShut    : Nat
  freezes    : Nat
  /-- Erases of each of the first eight areas of R367. -/
  erases     : Vector Nat 8
  deriving DecidableEq, Repr

/-- Record flash. -/
structure RecFlash where
  /-- Cells that are not erased, by physical byte address. -/
  cells     : List Host.Cell
  /-- (logical page, physical page), oldest first; the latest entry of a page holds (R369). -/
  remap     : List (Nat × Nat)
  remapSeq  : Nat
  countSeq  : Nat
  /-- The slot that alone is written after a failure of the other (R369). -/
  remapOnly : Option Nat
  countOnly : Option Nat
  counters  : LifeCounters
  /-- Next place of each ring (shutdown, firstFail, lastFault, health), and the numbers of the last records. -/
  places    : Vector Nat 4
  numbers   : Vector Nat 4
  /-- Logical pages whose background erase is due (R370). -/
  eraseDue  : List Nat
  queue     : List RecJob
  busy      : Option RecOp
  deriving DecidableEq, Repr

/-! ## What the gauge presents to the ledger (R251) -/

/-- The values of the gauge's last update. -/
structure Gauged where
  /-- 0.01 %. -/
  soc    : Nat
  /-- J. -/
  energy : Nat
  /-- 0.1 °C. -/
  tcell  : Int
  empty  : Bool
  hold1  : Bool
  cntinv : Bool
  tinv   : Bool
  proving : Bool
  deriving DecidableEq, Repr

/-- A learning result as a slot stores it (R253). -/
structure LearnResult where
  time   : Nat
  fccNew : Nat
  dsoc   : Nat
  result : Nat
  deriving DecidableEq, Repr

/-- The gauge beside its registers (R239–R258). Charge is held in nC beside the mAh and 0.1 mAh of the registers (log
entry 55). -/
structure Gauge where
  /-- Mode an auto-zero returns to, and auto-zeros since the last update (R240, R241). -/
  prev  : Nat
  az    : Nat
  /-- Consecutive updates below ISLEEP (R241). -/
  small : Nat
  /-- Charge above RM's whole mAh. -/
  rmRem : Nat
  /-- QPASS and QBEYOND, nC. -/
  qPass   : Int
  qBeyond : Nat
  /-- The two latest voltage samples, µV, newest first, and the time between them, ms (R244). -/
  samples : List Nat
  gap     : Nat
  /-- Time for which the rest conditions have held, ms; the episode has given its rest point (R244). -/
  restMs : Option Nat
  taken  : Bool
  /-- Time for which VCELL has stood at or below VEMPTY, ms (R248). -/
  lowMs  : Option Nat
  /-- The anchor: its SOC and its AO tick (R245). -/
  anchor : Option (Nat × Nat)
  /-- AO tick at which the proving run started (R252). -/
  prove  : Option Nat
  /-- FS27 has been raised since it started. -/
  fs27   : Bool
  /-- A slot write is with the record flash: its slot and bytes; it was abandoned or failed; another trigger came (R253). -/
  writing : Option (Nat × List Byte)
  failed  : Bool
  again   : Bool
  /-- AO tick at which a failed store is retried. -/
  retryAt : Option Nat
  /-- A trigger of R253 that the gauge has not taken yet; AO tick at which STORE.PERIOD last expired. -/
  owe     : Bool
  perAt   : Nat
  /-- SEQ of the last write. -/
  seq     : Nat
  /-- Learning results accepted and rejected, and the latest, oldest first. -/
  accepted : Nat
  rejected : Nat
  results  : List LearnResult
  deriving DecidableEq, Repr

/-- The gauge at power-on. -/
def Gauge.init : Gauge where
  prev := 1
  az := 0
  small := 0
  rmRem := 0
  qPass := 0
  qBeyond := 0
  samples := []
  gap := 0
  restMs := none
  taken := false
  lowMs := none
  anchor := none
  prove := none
  fs27 := false
  writing := none
  failed := false
  again := false
  retryAt := none
  owe := false
  perAt := 0
  seq := 0
  accepted := 0
  rejected := 0
  results := []

/-! ## Sequencing and boot (R191–R210) -/

/-- What a rail-table slot keeps beside its STAT register. -/
structure Slot where
  /-- The window signal as qualification last took it in (R182). -/
  inWin    : Bool
  /-- AO tick at which the present qualification count began. -/
  qualFrom : Nat
  /-- The slot has been turned on and not yet off (R191, R194). -/
  on       : Bool
  /-- AO ticks at which the start and discharge timers expire; no start timer runs before START, nor once it has expired in
  a power-down run (R200). -/
  startDue : Option Nat
  disDue   : Nat
  /-- AO tick at which MINOFF has passed since the slot reached OFF; kept over chip reset (R198). -/
  minoffDue : Nat
  /-- The slot is in a power-down run (R199). -/
  inRun    : Bool
  /-- `SLOTkCFG` and `SLOTkTIME` as they stood at the slot's last change of state (R201). -/
  cfg      : Word
  time     : Word
  /-- `VMONn` above its OV threshold since the slot has been OFF has been reported (FS19 cause 2). -/
  ovSeen   : Bool
  deriving DecidableEq, Repr

/-- A slot after power-on. -/
def Slot.init : Slot := ⟨false, 0, false, none, 0, 0, false, 0x8080A064, 0x0A064021, false⟩

/-- How far the boot flow has come (R202). -/
inductive BootStage where
  /-- Held in OFF until VIN stands at 8.0 V. -/
  | waitVin
  /-- Step 1: VDRV and VCORE start. -/
  | step1
  /-- Steps 2 and 3: STATUS and ID answered, TRIM and IDENT being read. -/
  | step2
  /-- Step 4: the BOOT region being read. -/
  | step4
  /-- Step 5 has passed: pages accessible. -/
  | running
  deriving DecidableEq, Repr

/-- The sequencer beside its registers. -/
structure Seq where
  slots    : List (Nat × Slot)
  stage    : BootStage
  /-- Step 6 has ended (R203). -/
  step6    : Bool
  /-- RSTO# is released. -/
  rsto     : Bool
  /-- AO tick at which RSTO# is due for release. -/
  rstoDue  : Option Nat
  /-- RESET# is low. -/
  resetPin : Bool
  /-- The thermal hold of R335. -/
  hold     : Bool
  /-- AO tick of the latest loss of a GOOD slot, or of VSYS below VCW (R204). -/
  lastLoss : Nat
  /-- A block reset of SEQ reloads the table when the run ends (R208). -/
  reload   : Bool
  /-- No boot flow has passed step 5 since the AO power-on reset. -/
  cold     : Bool
  /-- VHOLD has reached 10.0 V since power-on: FS3 is armed (R340). -/
  vholdArmed : Bool
  deriving DecidableEq, Repr

/-- What an integrated rail keeps beside its registers (R173). -/
structure Rail where
  /-- Its output as last seen, mV. -/
  out   : Nat
  /-- Where the reference stood when its present ramp began, mV, and when that was, half-µs. -/
  base  : Nat
  since : Nat
  /-- A buck's `BnCFG` as it stood at the start: FSW and MODE act from there. -/
  cfg   : Word
  deriving DecidableEq, Repr

/-- A rail that has not been on. -/
def Rail.init : Rail := ⟨0, 0, 0, 0⟩

/-- The housekeeping ADC beside its registers (R186–R188). -/
structure AdcState where
  /-- Consecutive scans in which a channel disagreed. -/
  dis      : List (Nat × Nat)
  /-- Scans since the last self-test of a converter that is alone. -/
  since    : Nat
  /-- A self-test is due or under way. -/
  selfTest : Bool
  /-- AO tick at which the next periodic scan starts. -/
  scanDue  : Nat
  deriving DecidableEq, Repr

/-! ## Point links (R260–R299) -/

/-- What a transaction on a link serves. -/
inductive LinkSrc where
  /-- A broadcast OFF with RELEASE of an enable (R276). -/
  | release
  /-- A SHED of the shed set (R289), with the resends already made. -/
  | shed (resends : Nat)
  /-- A descriptor: queue and index (R284). -/
  | desc (q d : Nat)
  /-- An OFF with RELEASE after a foreign NAK_EPOCH (R283). -/
  | offRelease
  /-- A verification poll with the resends already made (R289). -/
  | verify (resends : Nat)
  | alertPoll
  /-- A follow-up of an alert poll (R278). -/
  | follow
  /-- A latched grant (R290). -/
  | grant
  | scan
  | probe
  deriving DecidableEq, Repr

/-- A transaction: the request's frame, as far as the device decides it. -/
structure LinkXact where
  src     : LinkSrc
  rank    : Nat
  /-- Point address, or 127 (R264). -/
  addr    : Nat
  kind    : Nat
  epoch   : Nat
  seq     : Nat
  payload : List Byte
  /-- Attempts made before this one. -/
  tries   : Nat
  deriving DecidableEq, Repr

/-- A link port beside its registers. -/
structure LinkPort where
  cur      : Option LinkXact
  /-- Its frame is still being sent, and follows the frame before it in a train directly (R267, R270). -/
  onLine   : Bool
  later    : Bool
  /-- Requests to be sent again with their SEQ, ahead of the other work of their rank (R269, R270). -/
  again    : List LinkXact
  /-- SEQs of abandoned requests that are back at the head of their queue: source, point, SEQ (R270). -/
  kept     : List (LinkSrc × Nat × Nat)
  /-- Index of the next descriptor to fill and to dispatch, per queue (R284). -/
  tail     : Vector Nat 8
  head     : Vector Nat 8
  /-- An enable is under way, and the broadcast OFF frames it has still to send (R276). -/
  opening  : Bool
  releases : Nat
  /-- SHED resends due, points shed by the train under way, and verification polls due, each with the resends already made
  (R289). -/
  resend   : List (Nat × Nat)
  shedNow  : List (Nat × Nat)
  verify   : List (Nat × Nat)
  /-- Points owed an OFF with RELEASE (R283). -/
  offs     : List Nat
  /-- An alert poll is queued, and the follow-ups of the last one (R278). -/
  alert    : Bool
  follow   : List Nat
  /-- Latched grants that are due (R290). -/
  grants   : List Nat
  /-- Addresses the scan cursor has still to poll; `none` between rounds (R292). -/
  cursor   : Option (List Nat)
  /-- A discovery probe this round offers. -/
  probe    : Option Nat
  /-- The address of the last probe offered. -/
  probed   : Nat
  /-- A round is held due. -/
  roundDue : Bool
  /-- AO tick at which the next round is due; chip time in half-µs at the present round's start. -/
  nextRound : Nat
  roundFrom : Nat
  /-- Consecutive transactions of ranks 6–8 (R291). -/
  busyRun  : Nat
  /-- Consecutive transactions without a valid reply: their number, the first address, and whether another joined (R295). -/
  errRun   : Nat
  errFirst : Nat
  errMixed : Bool
  /-- Causes of FS29 raised in the present episode (R295). -/
  episode  : List Nat
  collRun  : Nat
  /-- The port is being disabled (R276). -/
  closing  : Bool
  deriving DecidableEq, Repr

/-- A port at rest. -/
def LinkPort.init : LinkPort where
  cur := none
  onLine := false
  later := false
  again := []
  kept := []
  tail := Vector.replicate 8 0
  head := Vector.replicate 8 0
  opening := false
  releases := 0
  resend := []
  shedNow := []
  verify := []
  offs := []
  alert := false
  follow := []
  grants := []
  cursor := none
  probe := none
  probed := 63
  roundDue := false
  nextRound := 0
  roundFrom := 0
  busyRun := 0
  errRun := 0
  errFirst := 0
  errMixed := false
  episode := []
  collRun := 0
  closing := false

/-! ## External flash (R382–R391) -/

/-- Kinds of port work, in the order of R387. -/
inductive FlashKind where
  /-- A host command, with the issuer's private bank if a host gave it. -/
  | host (by' : Option Proc)
  /-- A mirror group: how many entries it holds (R381). -/
  | mirror (n : Nat)
  | health
  | gauge
  | archive
  deriving DecidableEq, Repr

/-- One flash operation. -/
inductive FlashOp where
  | read (cs addr len : Nat)
  | prog (cs addr : Nat) (data : List Byte)
  | erase (cs addr : Nat)
  deriving DecidableEq, Repr

/-- A piece of port work: its operations still to be done. An archive block is computed from the frozen ring, step by step:
`ops` are then what is left of the present step, and `step` counts those done. -/
structure FlashJob where
  kind : FlashKind
  ops  : List FlashOp
  step : Nat
  deriving DecidableEq, Repr

/-- The flash port beside its registers. -/
structure XFlash where
  /-- Bytes that are not erased, at cs × 2^26 + address. -/
  cells      : List Host.Cell
  /-- The work under way on each chip select. -/
  busy0      : Option FlashJob
  busy1      : Option FlashJob
  queue      : List FlashJob
  /-- AO ticks at which they began (R389). -/
  since0     : Nat
  since1     : Nat
  /-- Page sizes found by discovery, and the parts that can do quad reads (R383). -/
  page0      : Nat
  page1      : Nat
  quad0      : Bool
  quad1      : Bool
  /-- Discovery runs; the first discovery after READY is over. -/
  disc       : Bool
  discDone   : Bool
  /-- Discovery is to run again when the present plan load has ended (R457). -/
  discOwed   : Bool
  /-- Next page of the LOGBOOK partition, and the sectors erased ahead. -/
  mirPage    : Nat
  mirErased  : List Nat
  /-- An incomplete group is to be written padded. -/
  mirFlush   : Bool
  /-- AO tick since which a group has been incomplete. -/
  mirSince   : Option Nat
  /-- Next byte of the HEALTH and GAUGE partitions. -/
  healthPos  : Nat
  gaugePos   : Nat
  /-- Next block of the ALMANAC partition, and the number of the last block. -/
  archBlock  : Nat
  archNo     : Nat
  deriving DecidableEq, Repr

/-! ## Converter health (R147–R167) -/

/-- The running probe. -/
structure Probe where
  loop    : Nat
  /-- Quantities still to be taken, by their MEAS bit; the first is under way. -/
  left    : List Nat
  got     : List Measured
  /-- VSYS and the hand-over state at the start; ITOT at the start of the present measurement (R152). -/
  vsys    : Option Nat
  hostate : Nat
  itot    : Nat
  deriving DecidableEq, Repr

/-- Confirmation counts of the triggers of R160. -/
structure Seen where
  se      : Nat
  bank    : Nat
  minUp   : Nat
  minDown : Nat
  fswUp   : Nat
  fswDown : Nat
  deriving DecidableEq, Repr

/-- Applied items that take effect at the loop's next period start (R162): which of SE, ILIM and MINPH by their ITEMS bits,
their values, and the D that the ILIM item belongs to. -/
structure DueItems where
  mask  : Nat
  se    : Nat
  lo    : Nat
  hi    : Nat
  minph : Nat
  derate : Nat
  deriving DecidableEq, Repr

/-- What health keeps of one loop beside the registers. -/
structure HealthLoop where
  /-- The next probe that ends OK captures the baseline (R154). -/
  baseDue  : Bool
  /-- Phases brought in by SWAP whose baseline is still to be captured (R163). -/
  bringIn  : List Nat
  /-- Probes that have shown the condition for an increase of D (R157). -/
  upSeen   : Nat
  /-- D is capped at 80 % by a phase margin (R157). -/
  pmCap    : Bool
  seen     : Seen
  /-- AO tick of the last APPLY of each item, by its ITEMS bit (R161). -/
  applied  : Vector (Option Nat) 7
  /-- A revert is to be decided: PM, bank and SE from before the APPLY (R161). -/
  revert   : Option (Nat × Nat × Nat)
  /-- The derate the ledger sees, and the D that the last ILIM item was formed for (R158, R160). -/
  held     : Nat
  ilimD    : Nat
  /-- Applied items that wait for the period start, in the order of their APPLYs (R162). -/
  due      : List DueItems
  /-- AO tick of the last OK or PARTIAL probe, until its DUE, and of the start of a CONFIRM delay (R165). -/
  lastOk   : Option Nat
  confirm  : Option Nat
  /-- SEQ of the loop's last record, and the baseline slot that is written next (R166). -/
  recSeq   : Nat
  slot     : Nat
  deriving DecidableEq, Repr

/-- A loop of which nothing is known. -/
def HealthLoop.init : HealthLoop where
  baseDue := true
  bringIn := []
  upSeen := 0
  pmCap := false
  seen := ⟨0, 0, 0, 0, 0, 0⟩
  applied := Vector.replicate 7 none
  revert := none
  held := 100
  ilimD := 100
  due := []
  lastOk := none
  confirm := none
  recSeq := 0
  slot := 0

/-- Health beside its registers. -/
structure Health where
  probe  : Option Probe
  loops  : List (Nat × HealthLoop)
  /-- REVERTED and the LOWCNTs as the HEALTH area last stored them (log entry 43). -/
  keptRev : Nat
  keptLow : List (Nat × Nat)
  deriving DecidableEq, Repr

/-! ## OTP (R392–R410) -/

/-- An OTP command in progress. -/
structure OtpCmd where
  op     : Nat
  margin : Nat
  arg    : Nat
  data   : Word
  /-- The private bank that OTP_DONE pulses in; `none` for a row's command. -/
  by'    : Option Proc
  deriving DecidableEq, Repr

/-- The OTP array and its controller. -/
structure Otp where
  /-- Stored 39-bit patterns by word, check bits above the data; words 0–127 and 128–191 keep what they were delivered
  with. -/
  words : List (Nat × Nat)
  /-- Patterns of the 64 spare words. -/
  spare : List (Nat × Nat)
  /-- The three copies of each redirection entry, at 3e + c: VALID in bit 8, ROW in bits 7:0 (R394). -/
  copies : List (Nat × Nat)
  /-- Blown lock fuses, at 3 × region + i (R398). -/
  fuses : List (Nat × Bool)
  cmd   : Option OtpCmd
  /-- Shadow words overridden, by word number (R405). -/
  overridden : List Nat
  /-- The device runs on its built-in mid-range trims (R401). -/
  midTrim : Bool
  deriving DecidableEq, Repr

/-! ## Thermal sensing (R326–R339) -/

/-- The thermal block beside its registers. Channels are 0–8 for the die sensors' positions and 16–21 for TD0–TD5. -/
structure Therm where
  /-- DSk − DS8 at the latest samples at which both passed, newest first, at most 1,024 (R331). -/
  diffs : List (Nat × List Int)
  /-- Consecutive failed checks of each die sensor (R330). -/
  fails : List (Nat × Nat)
  /-- At the last sample: levels whose threshold the reading met, and levels it was below with their hysteresis, one bit
  each (R332). -/
  above : List (Nat × Nat)
  below : List (Nat × Nat)
  /-- Condition of each remote channel at the last sample: 0 valid, 1 open, 2 shorted, 3 none yet (R329). -/
  cond  : List (Nat × Nat)
  /-- AO tick since which every in-service position has stood below SHUT − HSHUT (R336). -/
  cool  : Option Nat
  /-- The present hold needs the key, whatever THAWMODE says (R336). -/
  needKey : Bool
  /-- AO ticks of the automatic Thaws inside the window, oldest first. -/
  thaws : List Nat
  /-- The shadow load that follows sets THAWED (R336). -/
  thawed : Bool
  /-- The SHUTDOWN record of a die shut-down is being written, and the hold follows it (R335). -/
  holding : Bool
  deriving DecidableEq, Repr

/-! ## Timers and the CRC unit (R411–R424) -/

/-- A timer beside its registers. -/
structure Timer where
  count : Nat
  /-- The prescaler phase, 16.16 (R412). -/
  phase : Nat
  /-- Captures, oldest first, with the LATE mark (R415). -/
  queue : List (Nat × Bool)
  /-- Snapshot banks of host A, host B and the plan: value and SNAPSTAT (R416). -/
  banks : Vector (Nat × Word) 3
  /-- Level of the compare output (R413). -/
  out   : Bool
  deriving DecidableEq, Repr

/-- A timer after reset. -/
def Timer.init : Timer := ⟨0, 0, [], Vector.replicate 3 (0, 0), false⟩

/-- An entry of the CRC unit's queue (R421). -/
inductive CrcEntry where
  | feed (bytes : List Byte)
  | init (poly : Nat)
  deriving DecidableEq, Repr

/-- The CRC unit beside its registers. -/
structure CrcUnit where
  poly  : Nat
  value : Nat
  queue : List CrcEntry
  deriving DecidableEq, Repr

/-! ## Power path and charger (R211–R238) -/

/-- The path beside its registers. -/
structure Path where
  /-- Qualification of VAC runs (R221). -/
  qual    : Bool
  /-- The state RECONNECT was entered from (R221). -/
  came    : Nat
  /-- What DETECT was entered by: 1 loss, 2 over-voltage, 3 trip. -/
  det     : Nat
  /-- The reverse-current block holds ACDRV off; it acted in the present DETECT (R215). -/
  reverse : Bool
  revDet  : Bool
  /-- SOURCE has lasted 1 s (R223, R229). -/
  settled : Bool
  /-- Supplement runs (R218). -/
  supp    : Bool
  /-- u of R218 as last computed, and its integrator, mA; both start at 0 in SOURCE (R224). -/
  u       : Int
  integ   : Int
  /-- The charge current ramps to 0 in STOPPING (R228). -/
  rampDown : Bool
  /-- `HBCFG.FSW` as it stood when the half-bridge last started from idle. -/
  fsw     : Nat
  /-- RECONNECT was entered with the bypass closed and its step 2 is still to come (R224). -/
  bypassed : Bool
  /-- HOEN was written 0 on the battery: it acts from the next exit from DETECT (R222). -/
  hoenKept : Bool
  /-- A BATGO is latched (R226). -/
  batgo   : Bool
  /-- The safety timer: its phase (TPHASE) and its count, in half AO ticks (R231). -/
  tPhase  : Nat
  tCount  : Nat
  /-- AO tick at which the charger last reached OFF (R232). -/
  offAt   : Option Nat
  /-- A presence test runs, or is owed after an over-voltage action; AO tick of the last one (R234). -/
  testOn  : Bool
  testDue : Bool
  lastTest : Nat
  /-- The test after an over-voltage action has passed (R233). -/
  ovPassed : Bool
  /-- AO tick of the last action of each limit, by cause (R233). -/
  limAt   : List (Nat × Nat)
  /-- FS25 with cause NOTEMP has been raised in the present WAIT (R229). -/
  noTemp  : Bool
  deriving DecidableEq, Repr

/-- The path after a reset. -/
def Path.init : Path where
  qual := false
  came := 0
  det := 0
  reverse := false
  revDet := false
  settled := false
  supp := false
  u := 0
  integ := 0
  rampDown := false
  fsw := 0x28
  bypassed := false
  hoenKept := false
  batgo := false
  tPhase := 0
  tCount := 0
  offAt := none
  testOn := false
  testDue := false
  lastTest := 0
  ovPassed := false
  limAt := []
  noTemp := false
/-! ## The whole state -/

/-- Latest values of the analog inputs that records and views show, in mV and mA; `none` until measured (R351). -/
structure Plant where
  vin   : Option Nat
  vac   : Option Nat
  vsys  : Option Nat
  vbat  : Option Nat
  vhold : Option Nat
  deriving DecidableEq, Repr

/-- What the Almanac is owed from a time at which it was not clocked (R38, R352), with the chip time of the occurrence. -/
inductive AlmItem where
  | entry (time type srcid code d0 d1 d2 : Nat)
  | trigger (time code : Nat)
  deriving DecidableEq, Repr

/-- The Almanac beside its registers (R376). -/
structure Almanac where
  /-- Entries still to be written before the freeze. -/
  postLeft : Nat
  /-- AO tick at which POSTMS ends. -/
  postDue  : Nat
  /-- CODE of the trigger of the present record. -/
  code     : Nat
  /-- LOST as it stood when the Almanac froze (R378). -/
  lostAt   : Nat
  /-- The archive block of a frozen Almanac is still to be begun (R378, step 3). -/
  archWait : Bool
  /-- Entries and triggers that came while the Almanac was not clocked, oldest first. -/
  owed     : List AlmItem
  deriving DecidableEq, Repr

/-- The machine. -/
structure State where
  /-- Commands that wait, first in, first out. -/
  pending  : List Instr
  /-- AO ticks since power-on; chip time shows the low 48 bits (R41). -/
  ticks    : Nat
  /-- ENG cycles since the last AO tick edge (R41). -/
  sub      : Nat
  power    : Power
  /-- Every register word that differs from its reset word, by 24-bit address (R66, R68). -/
  regs     : List (Nat × Word)
  /-- The SRAM windows, byte by byte: plan memory, Almanac, Logbook and the OTP shadow (R23, R68). -/
  mem      : List Host.Cell
  hostA    : HostPort
  hostB    : HostPort
  burst    : Option Burst
  /-- Accepted WRITEs whose target is not clocked yet, oldest first (R53, R71). -/
  held     : List HeldWrite
  /-- Read frames that a burst held up, oldest first (R54). -/
  reads    : List Frame
  eng      : Engine
  faults   : List (Nat × FaultSrc)
  resetReq : ResetReq
  intc     : Intc
  almanac  : Almanac
  plant    : Plant
  loops    : List (Nat × Loop)
  trim     : Trim
  rflash   : RecFlash
  xflash   : XFlash
  seq      : Seq
  /-- Integrated rails that are not as at power-on, by number: 0 B0, 1 B1, 2–5 L0–L3. -/
  rails    : List (Nat × Rail)
  adc      : AdcState
  health   : Health
  otp      : Otp
  path     : Path
  therm    : Therm
  /-- Timers that are not as after reset, by number. -/
  timers   : List (Nat × Timer)
  crc      : CrcUnit
  /-- Link ports that are not at rest, by number. -/
  links    : List (Nat × LinkPort)
  /-- What the gauge last presented (R251). -/
  gauged   : Gauged
  gauge    : Gauge
  /-- Due AO ticks of the reservation timers, by global point (R314). -/
  resTimers : List (Nat × Option Nat)
  /-- The model's own: which free value is drawn next (log entry 5). -/
  freeCtr  : Nat
  deriving DecidableEq, Repr

/-- Reasons a command faults. No command of this model faults: what the device reports as a fault is its FAULT page
(R340), part of the state. The type has one constructor so that it is inhabited for the host; nothing raises it. -/
inductive Fault where
  /-- Raised by no command: safe. -/
  | unreachable
  deriving DecidableEq, Repr

/-- Reasons a command is refused. -/
inductive Refusal where
  /-- A command whose arm has no meaning yet; raised by `exec` alone. Safe: nothing is claimed of it. -/
  | notModelled (mnemonic : String)
  deriving DecidableEq, Repr

/-! ## Reset -/

/-- A chip select after reset (R61). -/
def HostPort.init : HostPort where
  staged := none
  discards := []
  wdStart := 0
  wdPeriod := 0
  wdWarned := false
  bank := 0
  hsdo := []

/-- The record flash as delivered: every cell erased (log entry 40). -/
def RecFlash.init : RecFlash where
  cells := []
  remap := []
  remapSeq := 0
  countSeq := 0
  remapOnly := none
  countOnly := none
  counters := ⟨0, 0, 0, 0, Vector.replicate 8 0⟩
  places := Vector.replicate 4 0
  numbers := Vector.replicate 4 0
  eraseDue := []
  queue := []
  busy := none

/-- The external flash as delivered: every cell erased (log entry 40). -/
def XFlash.init : XFlash where
  cells := []
  busy0 := none
  busy1 := none
  queue := []
  since0 := 0
  since1 := 0
  page0 := 256
  page1 := 256
  quad0 := false
  quad1 := false
  disc := false
  discDone := false
  discOwed := false
  mirPage := 0
  mirErased := []
  mirFlush := false
  mirSince := none
  healthPos := 0
  gaugePos := 0
  archBlock := 0
  archNo := 0

/-- The thermal block at power-on (R331, R353). -/
def Therm.init : Therm where
  diffs := []
  fails := []
  above := []
  below := []
  cond := []
  cool := none
  needKey := false
  thaws := []
  thawed := false
  holding := false

/-- The machine right after the AO power-on reset, its AO supply present and VIN not yet at 8.0 V (R28, R202, R208):
every register at its reset word, every SRAM window cleared, chip time 0, held in OFF. -/
def State.reset : State where
  pending := []
  ticks := 0
  sub := 0
  power := { ao := true, state := .off, wakeRuns := false, wakeFail := false, pll := .off, subValid := false, idleTicks := 0,
             retryTick := 0, gaugeOk := true }
  regs := []
  mem := []
  hostA := HostPort.init
  hostB := HostPort.init
  burst := none
  held := []
  reads := []
  eng := { threads := [], lastIssued := 15, stores := [], semOwner := [], ledgerBusy := none, ledgerQ := [], load := none, planBank := 0 }
  faults := []
  resetReq := ⟨[], false, false⟩
  intc := ⟨[], [], [], []⟩
  almanac := ⟨0, 0, 0, 0, false, []⟩
  plant := ⟨none, none, none, none, none⟩
  loops := []
  trim := ⟨1, 1⟩
  rflash := RecFlash.init
  xflash := XFlash.init
  seq := { slots := [], stage := .waitVin, step6 := false, rsto := false, rstoDue := none, resetPin := false, hold := false,
           lastLoss := 0, reload := false, cold := true, vholdArmed := false }
  rails := []
  adc := ⟨[], 0, false, 0⟩
  health := ⟨none, [], 0, []⟩
  otp := ⟨[], [], [], [], none, [], false⟩
  path := Path.init
  therm := Therm.init
  timers := []
  crc := ⟨0, 0, []⟩
  links := []
  gauged := ⟨0, 0, 0, false, false, false, false, false⟩
  gauge := Gauge.init
  resTimers := []
  freeCtr := 0

end Sys2Proof.Machine
end

