-- ==== Sys2Proof/Machine/Ops.lean ====
section
/-! DEFINITION. Named operations every block uses: register words and fields, memory bytes, chip time, the Almanac and
the Logbook, interrupt pulses, and raising a fault with its reaction set (R343). -/

namespace Sys2Proof.Machine

/-- The answer of a command. -/
abbrev Out := Host.Outcome State Fault Refusal

/-! ## Registers -/

/-- The stored word of a register. -/
def State.rd (s : State) (a : Nat) : Word := tget resetWord s.regs a

/-- The state with a register word stored. -/
def State.wr (s : State) (a : Nat) (w : Word) : State := { s with regs := tset resetWord s.regs a w }

/-- A register field as a number. -/
def State.f (s : State) (fd : Fld) : Nat := getBits (s.rd fd.addr) fd.lo fd.width

/-- A one-bit (or any) field as a condition: not 0. -/
def State.fb (s : State) (fd : Fld) : Bool := s.f fd != 0

/-- The state with a field of a register stored; the other bits stay. -/
def State.setF (s : State) (fd : Fld) (v : Nat) : State := s.wr fd.addr (putBits (s.rd fd.addr) fd.lo fd.width v)

/-- A field set from a condition. -/
def State.setFb (s : State) (fd : Fld) (b : Bool) : State := s.setF fd (b2n b)

/-- Bits set in a register: an event reported in an EVRAW, a mask bit. -/
def State.orReg (s : State) (a : Nat) (m : Word) : State := s.wr a (s.rd a ||| m)

/-- Bits cleared in a register. -/
def State.clrReg (s : State) (a : Nat) (m : Word) : State := s.wr a (s.rd a &&& ~~~ m)

/-- An event bit (or every bit of a field) set. -/
def State.ev (s : State) (fd : Fld) : State := s.orReg fd.addr (maskBits fd.lo fd.width)

/-- One bit of a field that holds one bit per channel. -/
def State.evBit (s : State) (fd : Fld) (i : Nat) : State := s.orReg fd.addr (bitAt (fd.lo + i))

/-- A counting field incremented, saturating at its width. -/
def State.incF (s : State) (fd : Fld) : State := s.setF fd (satInc (2 ^ fd.width - 1) (s.f fd))

/-- A field written only under a condition. -/
def State.when (s : State) (c : Bool) (g : State → State) : State := if c then g s else s

/-! ## Memory windows -/

/-- What a byte of an SRAM window reads as that nothing has written: 0 (R23 "cleared"; log entry 7). -/
def memDefault (_ : Nat) : Byte := 0

/-- A byte of an SRAM window. -/
def State.byte (s : State) (a : Nat) : Byte := tget memDefault s.mem a

/-- A byte stored. -/
def State.setByte (s : State) (a : Nat) (b : Byte) : State := { s with mem := tset memDefault s.mem a b }

/-- Bytes stored from an address on. -/
def State.setBytes (s : State) : Nat → List Byte → State
  | _, [] => s
  | a, b :: bs => (s.setByte a b).setBytes (a + 1) bs

/-- `n` bytes from an address on. -/
def State.bytes (s : State) (a n : Nat) : List Byte := (List.range n).map fun i => s.byte (a + i)

/-- The window word at an address, most significant byte first (R374). -/
def State.memWord (s : State) (a : Nat) : Word := wordBE (s.bytes a 4)

/-- A window word stored. -/
def State.setMemWord (s : State) (a : Nat) (w : Word) : State := s.setBytes a (bytesBE 4 w.toNat)

/-! ## Time -/

/-- Chip time as 64 bits: the tick count, and the sub-tick while it is valid (R41). -/
def State.chipTime (s : State) : Nat :=
  (s.ticks % 2 ^ 48) * 2 ^ 16 + (if s.power.state = .full ∧ s.power.subValid then s.sub % 2 ^ 16 else 0xFFFF)

/-- The time since power-on in half-microseconds: 15,625/256 of them to an AO tick, 100 ENG cycles to one. -/
def State.halfUs (s : State) : Nat := s.ticks * 15625 / 256 + s.sub / 100

/-- AO ticks in `ms` milliseconds, rounded up. -/
def msTicks (ms : Nat) : Nat := divCeil (ms * 32768) 1000

/-- AO ticks in `t` seconds. -/
def secTicks (t : Nat) : Nat := t * 32768

/-- The 2-bit code of a power state (R27). -/
def PowerState.code : PowerState → Nat
  | .off => 0
  | .fallow => 1
  | .awake => 2
  | .full => 3

/-- The register pages and the interrupt controller run: WAKE is stable (R32). -/
def State.pagesRun (s : State) : Bool := s.power.wakeRuns

/-- The boot flow has passed step 5: pages are accessible and record work runs (R202, R458). -/
def State.portUp (s : State) : Bool := s.seq.stage == .running

/-- An AO tick edge has just passed: in FULL the aligned sub-tick stands at 0; in any other state the model knows no time
between edges (R41). -/
def State.atEdge (s : State) : Bool := s.power.state != .full || (s.power.subValid && s.sub == 0)

/-- A wake trigger (R31, R32): a device in FALLOW reports AWAKE and starts WAKE. In any other state nothing changes. -/
def State.wakeUp (s : State) : State :=
  if s.power.state = .fallow then
    { s with power := { s.power with state := .awake, wakeRuns := false, pll := .off, subValid := false, idleTicks := 0 } }
  else s

/-! ## Free values -/

/-- An unspecified number (log entry 5). -/
def State.free (s : State) : Nat := Config.freeNat s.freeCtr

/-- The counter moved on, so that the next free value is another. -/
def State.nextFree (s : State) : State := { s with freeCtr := s.freeCtr + 1 }

/-! ## Processors -/

/-- 0 for A, 1 for B. -/
def procIx : Proc → Nat
  | .A => 0
  | .B => 1

/-- The other processor. -/
def Proc.other : Proc → Proc
  | .A => .B
  | .B => .A

/-- A chip select's own state. -/
def State.port (s : State) (p : Proc) : HostPort :=
  match p with
  | .A => s.hostA
  | .B => s.hostB

/-- A chip select's own state replaced. -/
def State.setPort (s : State) (p : Proc) (h : HostPort) : State :=
  match p with
  | .A => { s with hostA := h }
  | .B => { s with hostB := h }

/-! ## Threads -/

/-- A thread. -/
def State.th (s : State) (t : Nat) : Thread := tget (fun _ => Thread.init) s.eng.threads t

/-- A thread replaced. -/
def State.setTh (s : State) (t : Nat) (x : Thread) : State :=
  { s with eng := { s.eng with threads := tset (fun _ => Thread.init) s.eng.threads t x } }

/-! ## Bus addresses (R66–R69) -/

/-- A bus address brought to its word: 24 bits, bits [1:0] ignored (R52). -/
def busWordAddr (a : Nat) : Nat := a % 2 ^ 24 / 4 * 4

/-- The regions of the register space (R68). -/
inductive Region where
  | page (p : Nat)
  | planMem
  | pointTable
  | almanac
  | logbook
  | shadow
  | queues
  | absent
  deriving DecidableEq, Repr

/-- Where a word address lies (R68). -/
def regionOf (a : Nat) : Region :=
  if a < 0x018000 then .page (a / 0x1000)
  else if 0x020000 ≤ a ∧ a < 0x028000 then .page (a / 0x1000)
  else if 0x100000 ≤ a ∧ a < 0x120000 then .planMem
  else if 0x120000 ≤ a ∧ a < 0x128000 then .pointTable
  else if 0x130000 ≤ a ∧ a < 0x140000 then .almanac
  else if 0x140000 ≤ a ∧ a < 0x150000 then .logbook
  else if 0x150300 ≤ a ∧ a < 0x150800 then .shadow
  else if 0x160000 ≤ a ∧ a < 0x164000 then .queues
  else .absent

/-! ## Almanac (R374–R377) -/

/-- The bytes of an Almanac entry (R374). -/
def almanacEntry (seq time type srcid code d0 d1 d2 : Nat) : List Byte :=
  let body := packBE [(seq, 4), (time, 8), (type, 1), (srcid, 1), (code, 2), (d0, 4), (d1, 4), (d2, 4), (0, 2)]
  body ++ bytesBE 2 (crc16 body)

/-- Whether an entry that falls due now is written (R376, R377): in RUN, and in POST until the freeze point. -/
def State.almanacOpen (s : State) : Bool :=
  s.f Fd.RECORD_STAT_ASTATE == 0 || (s.f Fd.RECORD_STAT_ASTATE == 1 && s.almanac.postLeft != 0)

/-- The Almanac takes an entry of a time, or counts it lost while frozen (R374, R377). -/
def State.almanacPut (s : State) (time type srcid code d0 d1 d2 : Nat) : State :=
  if s.almanacOpen then
    let seq := s.f Fd.RECORD_ASEQ_SEQ
    let s := s.setBytes (0x130000 + 32 * (seq % 2048)) (almanacEntry seq time type srcid code d0 d1 d2)
    let s := s.setF Fd.RECORD_ASEQ_SEQ (seq + 1)
    if s.f Fd.RECORD_STAT_ASTATE == 1 then { s with almanac := { s.almanac with postLeft := s.almanac.postLeft - 1 } } else s
  else s.incF Fd.RECORD_ASTAT_LOST

/-- What the Almanac is owed is noted, for the time at which it is clocked (R38; log entry 81). -/
def State.almanacOwe (s : State) (i : AlmItem) : State :=
  { s with almanac := { s.almanac with owed := s.almanac.owed ++ [i] } }

/-- An entry of the present chip time: written while the Almanac is clocked, else owed (R38, R374). -/
def State.almanacAdd (s : State) (type srcid code d0 d1 d2 : Nat) : State :=
  if s.pagesRun then s.almanacPut s.chipTime type srcid code d0 d1 d2
  else s.almanacOwe (.entry s.chipTime type srcid code d0 d1 d2)

/-- A BLOCK entry: a page's event, with its item and value (R375). -/
def State.almanacBlock (s : State) (page evbit item value : Nat) : State :=
  s.almanacAdd 3 page evbit item value 0

/-- An Almanac trigger of a time (R376, R377): from RUN it writes the TRIGGER entry and enters POST; in POST it writes its
entry and is counted missed; otherwise it is counted missed. -/
def State.almanacFire (s : State) (time code : Nat) : State :=
  match s.f Fd.RECORD_STAT_ASTATE with
  | 0 =>
    let seq := s.f Fd.RECORD_ASEQ_SEQ
    let s := s.almanacPut time 4 0xFF code (s.f Fd.RECORD_ACFG_POST) 0 0
    let s := (s.setF Fd.RECORD_AFREEZE_SEQ seq).setF Fd.RECORD_STAT_ASTATE 1
    { s with almanac := { s.almanac with postLeft := s.f Fd.RECORD_ACFG_POST, postDue := s.ticks + msTicks (s.f Fd.RECORD_ACFG_POSTMS), code := code } }
  | 1 =>
    let s := s.almanacPut time 4 0xFF code (s.f Fd.RECORD_ACFG_POST) 0 0
    s.incF Fd.RECORD_ASTAT_MISSED
  | _ => s.incF Fd.RECORD_ASTAT_MISSED

/-- An Almanac trigger: it acts while the Almanac is clocked, else it is owed. -/
def State.almanacTrigger (s : State) (code : Nat) : State :=
  if s.pagesRun then s.almanacFire s.chipTime code else s.almanacOwe (.trigger s.chipTime code)

/-- What the Almanac is owed, in its order. -/
def State.almanacCatchUp (s : State) : State :=
  s.almanac.owed.foldl (fun s i =>
    match i with
    | .entry time type srcid code d0 d1 d2 => s.almanacPut time type srcid code d0 d1 d2
    | .trigger time code => s.almanacFire time code) { s with almanac := { s.almanac with owed := [] } }

/-! ## Interrupt pulses and outputs (R356–R359) -/

/-- A pulse on an interrupt input, kept until the controller takes it in (R356, R363). -/
def State.pulse (s : State) (src : Nat) : State :=
  if s.intc.pulse.contains src then s else { s with intc := { s.intc with pulse := src :: s.intc.pulse } }

/-- The NMIPEND word that holds fault source `k`. -/
def nmiReg (k : Nat) : Nat := if k < 32 then Reg.INTC_NMIPEND0 else Reg.INTC_NMIPEND1

/-- The fault sources whose NMIPEND bit is set, ascending. -/
def State.nmiSources (s : State) : List Nat :=
  bitList 32 (s.rd Reg.INTC_NMIPEND0).toNat ++ (bitList 16 (s.rd Reg.INTC_NMIPEND1).toNat).map (· + 32)

/-- NMIA# or NMIB# low: an NMIPEND bit set for a source targeted at the processor (R359). The outputs are high in reset
and in the thermal hold (R365). -/
def State.nmiOut (s : State) (p : Proc) : Bool :=
  s.portUp && s.nmiSources.any fun k => s.f (Fd.INTC_CFG_TGT k) == procIx p

/-- A hold-off group is shut (R360). -/
def State.groupShut (s : State) (g : Nat) : Bool := (tget (fun _ => none) s.intc.shutAt g).isSome

/-- The shared sources whose pending and enable bits are both 1, ascending. -/
def State.isReady (s : State) : List Nat :=
  bitList 32 (s.rd Reg.INTC_PEND0 &&& s.rd Reg.INTC_EN0).toNat ++
    (bitList 32 (s.rd Reg.INTC_PEND1 &&& s.rd Reg.INTC_EN1).toNat).map (· + 32)

/-- The private sources of a processor whose pending and enable bits are both 1, ascending. -/
def State.privReady (s : State) (p : Proc) : List Nat :=
  bitList 16 (s.rd (Reg.INTC_PPEND (procIx p)) &&& s.rd (Reg.INTC_PEN (procIx p))).toNat

/-- Shared source `k` is presented to processor `p` (R358). -/
def State.isPresented (s : State) (p : Proc) (k : Nat) : Bool :=
  s.f (Fd.INTC_CFG_TGT k) == procIx p && !(s.fb (Fd.INTC_CFG_GEN k) && s.groupShut (s.f (Fd.INTC_CFG_GROUP k)))

/-- Private source `j` is presented to its processor (R358). -/
def State.privPresented (s : State) (p : Proc) (j : Nat) : Bool :=
  !(s.fb (Fd.INTC_PCFG_GEN (procIx p) j) && s.groupShut (s.f (Fd.INTC_PCFG_GROUP (procIx p) j)))

/-- IRQA# or IRQB# low (R358). -/
def State.irqOut (s : State) (p : Proc) : Bool :=
  s.portUp && (s.isReady.any (s.isPresented p) || (s.privReady p).any (s.privPresented p))

/-- `INTC.EVRAW` bits for the outputs that went low between two states (R366). -/
def State.noteOutputs (before after : State) : State :=
  let m (b : Bool) (i : Nat) : Word := if b then bitAt i else 0
  let w := m (after.irqOut .A && !before.irqOut .A) 0 ||| m (after.irqOut .B && !before.irqOut .B) 1 |||
    m (after.nmiOut .A && !before.nmiOut .A) 2 ||| m (after.nmiOut .B && !before.nmiOut .B) 3
  if w = 0 then after else after.orReg Reg.INTC_EVRAW w

/-! ## Fault sources (R340–R353) -/

/-- A fault source. -/
def State.src (s : State) (k : Nat) : FaultSrc := tget (fun _ => FaultSrc.init) s.faults k

/-- A fault source replaced. -/
def State.setSrc (s : State) (k : Nat) (x : FaultSrc) : State :=
  { s with faults := tset (fun _ => FaultSrc.init) s.faults k x }

/-- The level sources of R340. -/
def isLevelSource (k : Nat) : Bool := [0, 1, 3, 4, 6, 7, 14, 44].contains k

/-- The block that RST = BLOCK resets, with the port or loop that the raise names (R340). -/
def blockOf (k detail : Nat) : Option Block :=
  if k ≤ 2 then some .seq
  else if k = 3 then some .recordB
  else if k = 4 then some .therm
  else if k = 5 then none
  else if k ≤ 8 then some .therm
  else if k ≤ 12 then some (.loop (k - 9))
  else if k = 13 then some .health
  else if k = 14 then none
  else if k = 15 then some .health
  else if k ≤ 19 then some .rails
  else if k ≤ 21 then some .seq
  else if k ≤ 26 then some .path
  else if k ≤ 28 then some .gauge
  else if k = 29 then some (.link (detail % 8))
  else if k = 30 then some (.link (detail / 64 % 8))
  else if k ≤ 32 then some .ledger
  else if k ≤ 34 then some .plan
  else if k = 35 then none
  else if k = 36 then some .recordB
  else if k = 37 then some .flash
  else if k ≤ 43 then none
  else if k = 44 then some .seq
  else if k = 45 then some .plan
  else if k = 46 then some .rails
  else if k = 47 then some .health
  else none

/-- History entry types (R355). -/
def histRaise : Nat := 0
def histRepeat : Nat := 1
def histRecover : Nat := 2
def histSquall : Nat := 3
def histClear : Nat := 4

/-- A reading in 200 mV units, 0 without a valid measurement (R351). -/
def hist200 (v : Option Nat) : Nat :=
  match v with
  | some mv => min 255 (mv / 200)
  | none => 0

/-- One history entry at NEXT, with its Almanac FAULT entry (R351, R352). `origin` names the raising thread of a RAISE. -/
def State.history (s : State) (k type cause detail : Nat) (origin : Option Nat) : State :=
  let time := s.chipTime
  let j := s.f Fd.FAULT_HISTSTAT_NEXT
  let s := s.wr (Reg.FAULT_HISTW0 j) (BitVec.ofNat 32 time)
  let s := s.wr (Reg.FAULT_HISTW1 j) (BitVec.ofNat 32 (time >>> 32))
  let s := s.wr (Reg.FAULT_HISTW2 j) 0
  let s := s.setF (Fd.FAULT_HISTW2_SRC j) k
  let s := s.setFb (Fd.FAULT_HISTW2_ORIGIN j) origin.isSome
  let s := s.setF (Fd.FAULT_HISTW2_THREAD j) (origin.getD 0)
  let s := s.setF (Fd.FAULT_HISTW2_TYPE j) type
  let s := s.setF (Fd.FAULT_HISTW2_CAUSE j) cause
  let s := s.setF (Fd.FAULT_HISTW2_DETAIL j) detail
  let s := s.setF (Fd.FAULT_HISTW3_VIN j) (hist200 s.plant.vin)
  let s := s.setF (Fd.FAULT_HISTW3_VSYS j) (hist200 s.plant.vsys)
  let s := s.setF (Fd.FAULT_HISTW3_HOSTATE j) (s.f Fd.PATH_STAT_HOSTATE)
  let s := s.setF (Fd.FAULT_HISTW3_PWR j) s.power.state.code
  let s := s.setF (Fd.FAULT_HISTW3_DIETEMP j) (toSigned 10 (signed 16 (s.f Fd.THERM_DIE_TEMP_TEMP) / 5))
  let s := s.setF Fd.FAULT_HISTSTAT_NEXT (j + 1)
  let s := s.setF Fd.FAULT_HISTSTAT_NUM (min 16 (s.f Fd.FAULT_HISTSTAT_NUM + 1))
  let s := s.incF Fd.FAULT_HISTSTAT_TOTAL
  s.almanacAdd 1 0xFF k (s.rd (Reg.FAULT_HISTW2 j)).toNat (s.rd (Reg.FAULT_HISTW3 j)).toNat 0

/-- A source that is not IDLE (R344). -/
def FaultSrc.uncleared (x : FaultSrc) : Bool := x.st != .idle

/-- The count byte of source `k`. -/
def cntFld (k : Nat) : Fld := ⟨Reg.FAULT_CNT (k / 4), 8 * (k % 4), 8⟩

/-- The presentation of a raise or repeat to the interrupt controller, by NOTIFY (R344): a first raise lifts ISk's level,
a repeat drops it for one cycle; an NMI source sets its NMIPEND bit at either (R359), once WAKE runs (R363). -/
def State.presentFault (s : State) (k : Nat) (first : Bool) : State :=
  match s.f (Fd.FAULT_REACT_NOTIFY k) with
  | 1 => if first then s else s.pulse k
  | 2 =>
    if s.pagesRun then s.noteOutputs (s.orReg (nmiReg k) (bitAt (k % 32)))
    else if s.intc.nmi.contains k then s
    else { s with intc := { s.intc with nmi := s.intc.nmi ++ [k] } }
  | _ => s

/-- A raise of source `k` (R343, R347): the full reaction set from IDLE, a repeat otherwise. `hw` says that a level
source's hardware condition holds; `origin` names the thread of a RAISE row. -/
def State.raiseFrom (s : State) (k cause detail : Nat) (hw : Bool) (origin : Option Nat) : State :=
  let x := s.src k
  let first := x.st == .idle
  let st := if x.st == .squall then .squall else .active
  let s := s.setSrc k { x with st := st, hw := x.hw || hw, live := true, lullNext := false, cause := cause, detail := detail }
  let s : State := if k = 27 then { s with gauge := { s.gauge with fs27 := true } } else s
  let s := s.incF (cntFld k)
  let s := s.history k (if first then histRaise else histRepeat) cause detail origin
  let s := if first then (s.setF Fd.FAULT_LAST_SRC k).ev Fd.FAULT_EVRAW_RAISE else s.ev Fd.FAULT_EVRAW_REPEAT
  let s := s.presentFault k first
  let s := s.wakeUp
  if first then
    let s := if s.fb (Fd.FAULT_REACT_FREEZE k) then s.almanacTrigger k else s
    match s.f (Fd.FAULT_REACT_RST k) with
    | 1 =>
      match blockOf k detail with
      | some b =>
        if s.resetReq.blocks.contains b then s
        else { s with resetReq := { s.resetReq with blocks := s.resetReq.blocks ++ [b] } }
      | none => s
    | 2 => ({ s with resetReq := { s.resetReq with chip := true } } : State).orReg Reg.SEQ_RSTCAUSE 8
    | _ => s
  else s

/-- A hardware raise of an event source. -/
def State.raise (s : State) (k cause detail : Nat) : State := s.raiseFrom k cause detail false none

/-- A hardware raise of a level source whose condition begins. -/
def State.raiseLevel (s : State) (k cause detail : Nat) : State := s.raiseFrom k cause detail true none

/-- A level source's hardware condition ends (R341); the state change follows in FAULT_ENDED (R347). -/
def State.endLevel (s : State) (k : Nat) : State := s.setSrc k { s.src k with hw := false }

/-- A trigger of a gauge store, which the gauge takes at the end of its update or when the command settles (R253). -/
def State.gaugeOwe (s : State) : State := { s with gauge := { s.gauge with owe := true } }

/-- FAULT# low (R345): a source with FLAG = 1 uncleared, or a source in SQUALL. -/
def State.faultPin (s : State) : Bool :=
  s.faults.any fun p => p.2.st == .squall || (p.2.uncleared && s.fb (Fd.FAULT_REACT_FLAG p.1))

/-! ## Levels of the thermal channels (R332) -/

/-- A number kept per channel. -/
def chanGet (d : Nat) (l : List (Nat × Nat)) (c : Nat) : Nat := tget (fun _ => d) l c

/-- A number kept per channel, set. -/
def chanSet (d : Nat) (l : List (Nat × Nat)) (c v : Nat) : List (Nat × Nat) := tset (fun _ => d) l c v

/-- The level a channel holds (channels as in `Therm`); die positions keep theirs beside the registers. -/
def State.levelOf (s : State) (c : Nat) : Nat :=
  if c < 16 then chanGet 0 s.therm.above (32 + c) else s.f (Fd.THERM_TDVAL_LVL (c - 16))

/-- A die position or remote channel stands at its throttle level or above (R152, R321, R333). -/
def State.hot (s : State) : Bool := [0, 1, 2, 3, 4, 5, 6, 7, 16, 17, 18, 19, 20, 21].any fun c => decide (2 ≤ s.levelOf c)

/-! ## Logbook (R379–R381) -/

/-- The bytes of a Logbook entry (R379). -/
def logbookEntry (lseq time kind proc addr data accept bootno : Nat) : List Byte :=
  let body := packBE [(lseq, 4), (time, 8), (kind * 16 + proc, 1), (0, 3), (addr, 4), (data, 4), (accept, 4), (bootno, 2)]
  body ++ bytesBE 2 (crc16 body)

/-- One Logbook entry with the chip time of its acceptance, and LOGBOOK_HALF at each multiple of 1,024 (R379, R380).
KIND: 1 WRITE, 2 burst word, 3 ROC read. -/
def State.logbookAt (s : State) (kind : Nat) (p : Proc) (addr : Nat) (data : Word) (time : Nat) : State :=
  let lseq := s.f Fd.RECORD_LSEQ_LSEQ
  let e := logbookEntry lseq time kind (procIx p) addr data.toNat (s.f (Fd.HOSTIF_ACCEPT_COUNT (procIx p)))
    (s.f Fd.RECORD_BOOTNO_BOOTNO)
  let s := s.setBytes (0x140000 + 32 * (lseq % 2048)) e
  let s := s.setF Fd.RECORD_LSEQ_LSEQ (lseq + 1)
  if s.f Fd.RECORD_LSEQ_LSEQ % 1024 = 0 then (s.pulse 67).pulse 83 else s

/-- One Logbook entry of an item accepted now. -/
def State.logbook (s : State) (kind : Nat) (p : Proc) (addr : Nat) (data : Word) : State :=
  s.logbookAt kind p addr data s.chipTime

end Sys2Proof.Machine
end

