-- ==== Sys2Proof/Machine/Records.lean ====
section
/-! DEFINITION. Record flash (R367–R373) and the Almanac's freeze (R376–R378): the queue of record work, its programs and
erases, verification, retry and remapping, and the records other blocks write. -/

namespace Sys2Proof.Machine

/-- The record flash replaced. -/
def State.setRec (s : State) (r : RecFlash) : State := { s with rflash := r }

/-- An erased cell (log entry 40). -/
def erasedCell (_ : Nat) : Byte := 0xFF

/-- The physical page that holds a logical page (R369). -/
def RecFlash.phys (r : RecFlash) (page : Nat) : Nat :=
  match r.remap.reverse.find? (fun p => p.1 == page) with
  | some p => p.2
  | none => page

/-- `n` bytes of a logical page. -/
def RecFlash.pageBytes (r : RecFlash) (page off n : Nat) : List Byte :=
  (List.range n).map fun i => tget erasedCell r.cells (128 * r.phys page + off + i)

/-- Bytes stored in cells from a physical address on. -/
def putCells : List Host.Cell → Nat → List Byte → List Host.Cell
  | c, _, [] => c
  | c, a, b :: bs => putCells (tset erasedCell c a b) (a + 1) bs

/-- Bytes left in a range whose program or erase failed or was cut short: unspecified (R368, R389; log entry 5). -/
def tornBytes (f : Nat) (n : Nat) : List Byte := (List.range n).map fun i => BitVec.ofNat 8 (Config.freeNat (f + i))

/-- A physical page erased. -/
def eraseCells (c : List Host.Cell) (page : Nat) : List Host.Cell :=
  c.filter fun p => !(p.1 / 128 == page)

/-- First page, places per page and places of a ring area (R166, R367). -/
def Ring.geometry : Ring → Nat × Nat × Nat
  | .shutdown => (0, 2, 16)
  | .firstFail => (8, 2, 16)
  | .lastFault => (16, 4, 64)
  | .health => (44, 1, 24)

/-- A ring's index in the tables of places and numbers. -/
def Ring.ix : Ring → Fin 4
  | .shutdown => 0
  | .firstFail => 1
  | .lastFault => 2
  | .health => 3

/-- Page and offset of a ring's place. -/
def Ring.at (g : Ring) (place : Nat) : Nat × Nat :=
  let (first, per, _) := g.geometry
  (first + place / per, 128 / per * (place % per))

/-- The page after a place's page, in the ring. -/
def Ring.pageAfter (g : Ring) (place : Nat) : Nat :=
  let (first, per, n) := g.geometry
  first + (place / per + 1) % (n / per)

/-- The area of R367 that a logical page lies in, 0–7; `none` for the wear reserve. -/
def areaOf (page : Nat) : Option (Fin 8) :=
  if page < 8 then some 0
  else if page < 16 then some 1
  else if page < 32 then some 2
  else if page < 36 then some 3
  else if page < 68 then some 4
  else if page < 132 then some 5
  else if page < 148 then some 6
  else if page < 156 then some 7
  else none

/-- The order in which record work runs (R373; log entry 41). -/
def RecKind.rank : RecKind → Nat
  | .firstFail => 0
  | .shutdown => 1
  | .lastFault => 2
  | .gauge => 3
  | .health => 4
  | .counters => 5
  | .remap => 6
  | .cmdShutdown => 7
  | .cmdTails => 8
  | .freeze => 9

/-- A job put behind those of its rank. -/
def recInsert (j : RecJob) : List RecJob → List RecJob
  | [] => [j]
  | k :: ks => if j.kind.rank < k.kind.rank then j :: k :: ks else k :: recInsert j ks

/-- Record work queued. -/
def State.recAdd (s : State) (j : RecJob) : State := s.setRec { s.rflash with queue := recInsert j s.rflash.queue }

/-- A ring record with the next number of its ring, whose bytes are made from that number. -/
def State.recRing (s : State) (kind : RecKind) (g : Ring) (data : Nat → List Byte) : State :=
  let n := (s.rflash.numbers[g.ix] + 1) % 2 ^ 16
  let s := s.setRec { s.rflash with numbers := s.rflash.numbers.set g.ix n }
  s.recAdd ⟨kind, some g, 0, 0, false, data n, 0, false, n⟩

/-- Bytes for whole pages, each erased first. -/
def State.recPages (s : State) (kind : RecKind) (page : Nat) (data : List Byte) : State :=
  s.recAdd ⟨kind, none, page, 0, true, data, 0, false, 0⟩

/-- VHOLD is at or above a threshold in mV; before any measurement only the background erases are held (R368, R370; log
entry 42). -/
def State.vholdAt (s : State) (mv : Nat) : Bool := decide (mv ≤ s.plant.vhold.getD 8000)

/-! ## Records -/

/-- A LASTFAULT record (R373). -/
def State.recLastFault (s : State) (source : Nat) (words : List Word) : State :=
  s.recRing .lastFault .lastFault fun n =>
    let body := packBE ([(0x4C, 1), (source, 1), (n, 2)] ++ words.map (fun w => (w.toNat, 4)))
    withCrc32c (body ++ List.replicate (28 - body.length) 0)

/-- The remap slot (R371). -/
def RecFlash.remapBytes (r : RecFlash) : List Byte :=
  let body := packBE ([(0x52, 1), (0, 1), (r.remap.length, 2), (r.remapSeq, 4)] ++ r.remap.flatMap fun p => [(p.1, 1), (p.2, 1)])
  withCrc32c (body ++ List.replicate (0xFC - body.length) 0)

/-- The counters slot (R371). -/
def RecFlash.counterBytes (r : RecFlash) (bootno : Nat) : List Byte :=
  let c := r.counters
  let body := packBE ([(0x43, 1), (0, 1), (bootno, 2), (r.countSeq, 4), (c.collapse, 4), (c.chipResets, 4), (c.dieShut, 4),
    (c.freezes, 4)] ++ c.erases.toList.map (fun n => (n, 4)))
  withCrc32c (body ++ List.replicate (0xFC - body.length) 0)

/-- The counters slot queued with the next SEQ, in the slot the SEQ alternates to (R371). -/
def State.recCounters (s : State) : State :=
  let s := s.setRec { s.rflash with countSeq := s.rflash.countSeq + 1 }
  let slot := s.rflash.countOnly.getD (s.rflash.countSeq % 2)
  s.recPages .counters (152 + 2 * slot) (s.rflash.counterBytes (s.f Fd.RECORD_BOOTNO_BOOTNO))

/-- The remap table queued (R369, R371). -/
def State.recRemapTable (s : State) : State :=
  let s := s.setRec { s.rflash with remapSeq := s.rflash.remapSeq + 1 }
  let slot := s.rflash.remapOnly.getD (s.rflash.remapSeq % 2)
  s.recPages .remap (148 + 2 * slot) s.rflash.remapBytes

/-! ## Commands (R373, R390) -/

/-- A RECORD.CMD completes (R390). -/
def State.recCmdDone (s : State) (code recno : Nat) : State :=
  let s := s.wr Reg.RECORD_CMDRES 0
  let s := ((s.setF Fd.RECORD_CMDRES_DONE 1).setFb Fd.RECORD_CMDRES_ERR (code != 0)).setF Fd.RECORD_CMDRES_CODE code
  let s := s.setF Fd.RECORD_CMDRES_RECNO recno
  (s.ev Fd.RECORD_EVRAW_CMDDONE).pulse 63

/-- A RECORD.CMD that takes time has begun. -/
def State.recCmdBegin (s : State) : State := (s.wr Reg.RECORD_CMDRES 0).setF Fd.RECORD_STAT_BUSY 1

/-- A RECORD.CMD that was in progress ends. -/
def State.recCmdEnd (s : State) (code recno : Nat) : State := (s.setF Fd.RECORD_STAT_BUSY 0).recCmdDone code recno

/-! ## Carrying the work out (R368–R370) -/

/-- SPARE (R164): a spare is used, or FS47 is raised. -/
def State.spareUsed (s : State) : State := s.ev Fd.HEALTH_EVRAW_SPARE

/-- FS47 SPARE_EXHAUSTED with its cause (R164). -/
def State.spareGone (s : State) (cause : Nat) : State :=
  ((s.setF Fd.HEALTH_SPARESTAT_CAUSE cause).spareUsed).raise 47 cause 0

/-- FS36 RECORD_STORE_FAIL (R368). -/
def State.storeFail (s : State) : State := (s.ev Fd.RECORD_EVRAW_STOREFAIL).raise 36 0 0

/-- Work that cannot be completed, with the code its command reports. The gauge and the SHUTDOWN record learn of it from
the work being gone (R253, R335). -/
def State.recLost (s : State) (j : RecJob) (code : Nat) : State :=
  match j.kind with
  | .cmdShutdown => s.recCmdEnd code 0
  | .cmdTails => if s.fb Fd.RECORD_STAT_BUSY then s.recCmdEnd code 0 else s
  | .gauge => { s with gauge := { s.gauge with failed := true } }
  | _ => s

/-- Work completed. -/
def State.recKept (s : State) (j : RecJob) : State :=
  match j.kind with
  | .cmdShutdown => s.recCmdEnd 0 j.recno
  | .cmdTails => if s.rflash.queue.any (fun k => k.kind == .cmdTails) then s else s.recCmdEnd 0 0
  | _ => s

/-- The next operation of a job: the erase or the program of its present page. -/
def RecJob.op (r : RecFlash) (j : RecJob) : RecOp :=
  match j.ring with
  | some g =>
    let (page, off) := g.at r.places[g.ix]
    ⟨false, page, off, j.data, false, some j⟩
  | none =>
    let chunk := (j.data.drop (128 * j.done)).take 128
    if j.erase && !j.erased then ⟨true, j.page + j.done, 0, [], false, some j⟩
    else ⟨false, j.page + j.done, j.off, chunk, false, some j⟩

/-- A job may start: its page does not wait for a background erase (R370). -/
def RecJob.free (r : RecFlash) (j : RecJob) : Bool := !r.eraseDue.contains (j.op r).page

/-- The first startable job, and the others. -/
def recPick (r : RecFlash) : List RecJob → Option (RecJob × List RecJob)
  | [] => none
  | j :: js =>
    if j.free r then some (j, js)
    else match recPick r js with
      | some (k, ks) => some (k, j :: ks)
      | none => none

/-- Start the next operation while the flash is free and the controller is clocked (R26), abandoning work that VHOLD does not allow (R368, R373). `n` bounds
the jobs abandoned on the way. -/
def recStartN : Nat → State → State
  | 0, s => s
  | n + 1, s =>
    if s.rflash.busy.isSome || !s.portUp || !s.pagesRun then s
    else match recPick s.rflash s.rflash.queue with
      | some (j, js) =>
        if s.vholdAt 6000 then s.setRec { s.rflash with queue := js, busy := some (j.op s.rflash) }
        else
          let s := s.setRec { s.rflash with queue := js }
          recStartN n ((s.recLost j 2).storeFail)
      | none =>
        match s.rflash.eraseDue with
        | p :: _ => if s.vholdAt 10000 then s.setRec { s.rflash with busy := some ⟨true, p, 0, [], false, none⟩ } else s
        | [] => s

/-- Start the next record work. -/
def State.recStart (s : State) : State := recStartN (s.rflash.queue.length + 1) s

/-- The job goes on with its next page, or is complete. -/
def State.recAdvance (s : State) (j : RecJob) : State :=
  match j.ring with
  | some g =>
    let place := s.rflash.places[g.ix]
    let (_, per, n) := g.geometry
    let due := if place % per = 0 then s.rflash.eraseDue ++ [g.pageAfter place] else s.rflash.eraseDue
    let s := s.setRec { s.rflash with places := s.rflash.places.set g.ix ((place + 1) % n), eraseDue := due }
    s.recKept j
  | none =>
    let j := { j with done := j.done + 1, erased := false }
    if 128 * j.done < j.data.length then s.setRec { s.rflash with queue := j :: s.rflash.queue } else s.recKept j

/-- Programmed bytes in place (R367). -/
def State.recCommit (s : State) (o : RecOp) : State :=
  s.setRec { s.rflash with cells := putCells s.rflash.cells (128 * s.rflash.phys o.page + o.off) o.data }

/-- The whole intended content of the page of a program (R369). -/
def RecFlash.intended (r : RecFlash) (o : RecOp) : List Byte :=
  r.pageBytes o.page 0 o.off ++ o.data ++ r.pageBytes o.page (o.off + o.data.length) (128 - o.off - o.data.length)

/-- A further erase or program of work under way starts while VHOLD allows it; else the work is abandoned (R368). -/
def State.recGoOn (s : State) (o : RecOp) : State :=
  if s.vholdAt 6000 then s.setRec { s.rflash with busy := some o }
  else
    let s := s.setRec { s.rflash with busy := none }
    (match o.job with
      | some j => s.recLost j 2
      | none => s).storeFail

/-- The second mismatch of a page (R369): the wear reserve takes its place, or none is left; a COUNTERS page is never
remapped. -/
def State.recWorn (s : State) (o : RecOp) : State :=
  let s := s.setRec { s.rflash with busy := none }
  let lost (s : State) : State := match o.job with
    | some j => s.recLost j 3
    | none => s
  if 148 ≤ o.page then
    let slot := (o.page - 148) / 2
    let r := if slot < 2 then { s.rflash with remapOnly := some (1 - slot) } else { s.rflash with countOnly := some (3 - slot) }
    (lost (s.setRec r)).storeFail
  else if s.f Fd.HEALTH_SPARESTAT_RECRES = 0 then ((lost s).storeFail).spareGone 5
  else
    let r := s.rflash
    let content := r.intended o
    let r := { r with remap := r.remap ++ [(o.page, 156 + r.remap.length)] }
    let s := ((s.setRec r).recGoOn ⟨false, o.page, 0, content, false, o.job⟩).recRemapTable
    let s := s.setF Fd.HEALTH_SPARESTAT_RECRES (s.f Fd.HEALTH_SPARESTAT_RECRES - 1)
    (s.ev Fd.RECORD_EVRAW_REMAP).spareUsed

/-- The cells of a program or erase that did not go as intended. -/
def State.recTorn (s : State) (o : RecOp) : State :=
  let (off, n) := if o.erase then (0, 128) else (o.off, o.data.length)
  { s with rflash := { s.rflash with cells := putCells s.rflash.cells (128 * s.rflash.phys o.page + off) (tornBytes s.freeCtr n) },
           freeCtr := s.freeCtr + n }

/-- A program completes and its units are read back (R369): `ok` says that they match. -/
def State.recProgramDone (s : State) (ok : Bool) : State :=
  match s.rflash.busy with
  | some o =>
    if o.erase then s
    else if ok then
      let s := (s.recCommit o).setRec { (s.recCommit o).rflash with busy := none }
      (match o.job with
        | some j => s.recAdvance j
        | none => s).recStart
    else if o.retry then ((s.recTorn o).recWorn o).recStart
    else ((s.recTorn o).recGoOn ⟨true, o.page, 0, s.rflash.intended o, true, o.job⟩).recStart
  | none => s

/-- One more erase in a page's area (R371). -/
def LifeCounters.countErase (c : LifeCounters) (page : Nat) : LifeCounters :=
  match areaOf page with
  | some a => { c with erases := c.erases.set a (satInc (2 ^ 32 - 1) c.erases[a]) }
  | none => c

/-- A page erase completes (R370). -/
def State.recEraseDone (s : State) : State :=
  match s.rflash.busy with
  | some o =>
    if o.erase then
      let r : RecFlash :=
        { s.rflash with
          cells := eraseCells s.rflash.cells (s.rflash.phys o.page)
          counters := s.rflash.counters.countErase o.page
          eraseDue := s.rflash.eraseDue.filter (· != o.page)
          busy := none }
      if o.retry then ((s.setRec r).recGoOn ⟨false, o.page, 0, o.data, true, o.job⟩).recStart
      else
        let r := match o.job with
          | some j => { r with queue := { j with erased := true } :: r.queue }
          | none => r
        (s.setRec r).recStart
    else s
  | none => s

/-! ## Reading the areas back at power-on (R370, R371) -/

/-- A ring's place is erased. -/
def RecFlash.placeErased (r : RecFlash) (g : Ring) (place : Nat) : Bool :=
  let (page, off) := g.at place
  (r.pageBytes page off (128 / g.geometry.2.1)).all (· == 0xFF)

/-- The place after the newest record of a ring: the first erased place that follows a programmed one, else 0. -/
def RecFlash.findNext (r : RecFlash) (g : Ring) : Nat :=
  let n := g.geometry.2.2
  ((List.range n).find? fun i => r.placeErased g i && !r.placeErased g ((i + n - 1) % n)).getD 0

/-- Record number of the record before a place, 0 if that place is erased. -/
def RecFlash.numberBefore (r : RecFlash) (g : Ring) (place : Nat) : Nat :=
  let n := g.geometry.2.2
  let p := (place + n - 1) % n
  if r.placeErased g p then 0
  else
    let (page, off) := g.at p
    natBE (r.pageBytes page (off + 2) 2)

/-- The background erase that a power-on finds outstanding (R370): the page after the one that holds the newest record. -/
def RecFlash.eraseOwed (r : RecFlash) (g : Ring) : List Nat :=
  let n := g.geometry.2.2
  if (List.range n).all (r.placeErased g) then []
  else
    let page := g.pageAfter ((r.findNext g + n - 1) % n)
    if (r.pageBytes page 0 128).all (· == 0xFF) then [] else [page]

/-- A slot of the COUNTERS area: its 256 bytes. -/
def RecFlash.slotBytes (r : RecFlash) (page : Nat) : List Byte := r.pageBytes page 0 128 ++ r.pageBytes (page + 1) 0 128

/-- The slot's type and CRC-32C check. -/
def slotGood (type : Nat) (b : List Byte) : Bool :=
  natBE (b.take 1) == type && crc32c (b.take 0xFC) == natBE ((b.drop 0xFC).take 4)

/-- A big-endian field of a record. -/
def recField (b : List Byte) (off n : Nat) : Nat := natBE ((b.drop off).take n)

/-- The later good slot of a pair (R371). -/
def laterSlot (type : Nat) (a b : List Byte) : Option (List Byte) :=
  match slotGood type a, slotGood type b with
  | true, true => if recField a 4 4 < recField b 4 4 then some b else some a
  | true, false => some a
  | false, true => some b
  | false, false => none

/-- What power-on reads (R370, R371): the remap table, the counters, and every ring's newest record. Answers the stored
BOOTNO as well, 0 with no good slot. -/
def RecFlash.recover (r : RecFlash) : RecFlash × Nat :=
  let r := { r with remap := [], remapSeq := 0, queue := [], busy := none, eraseDue := [] }
  let r := match laterSlot 0x52 (r.slotBytes 148) (r.slotBytes 150) with
    | some b => { r with remap := ((List.range (min 100 (recField b 2 2))).map fun i => (recField b (8 + 2 * i) 1, recField b (9 + 2 * i) 1)),
                         remapSeq := recField b 4 4 }
    | none => r
  let (r, bootno) := match laterSlot 0x43 (r.slotBytes 152) (r.slotBytes 154) with
    | some b => ({ r with countSeq := recField b 4 4, counters :=
        ⟨recField b 8 4, recField b 12 4, recField b 16 4, recField b 20 4, Vector.ofFn (fun i => recField b (0x18 + 4 * i.val) 4)⟩ }, recField b 2 2)
    | none => ({ r with countSeq := 0, counters := ⟨0, 0, 0, 0, Vector.replicate 8 0⟩ }, 0)
  let sd := r.findNext .shutdown
  let ff := r.findNext .firstFail
  let lf := r.findNext .lastFault
  let hl := r.findNext .health
  ({ r with places := #v[sd, ff, lf, hl],
            eraseDue := [Ring.shutdown, .firstFail, .lastFault, .health].flatMap r.eraseOwed,
            numbers := #v[r.numberBefore .shutdown sd, r.numberBefore .firstFail ff, r.numberBefore .lastFault lf, 0] }, bootno)

/-! ## Almanac states (R376–R378) -/

/-- A MARK entry (R375). -/
def State.almanacMark (s : State) (code d0 d1 : Nat) : State := s.almanacAdd 5 0xFF code d0 d1 0

/-- The newest `n` entries of an SRAM ring of 2,048 entries at `base` whose next entry has number `next`, oldest first. -/
def State.ringTail (s : State) (base next n : Nat) : List Byte :=
  (List.range n).flatMap fun i => s.bytes (base + 32 * ((next + 2048 - n + i) % 2048)) 32

/-- Copies of the newest entries of both rings queued (R378, steps 1 and 2). -/
def State.queueTails (s : State) (kind : RecKind) : State :=
  let a := s.ringTail 0x130000 (s.f Fd.RECORD_ASEQ_SEQ) 256
  let l := s.ringTail 0x140000 (s.f Fd.RECORD_LSEQ_LSEQ) 64
  (s.recPages kind 68 a).recPages kind 132 l

/-- Work of a kind is queued or under way. -/
def State.recPending (s : State) (kind : RecKind) : Bool :=
  s.rflash.queue.any (fun j => j.kind == kind) ||
    (match s.rflash.busy with
      | some o => match o.job with
        | some j => j.kind == kind
        | none => false
      | none => false)

/-- The Almanac returns to RUN with its MARK RESUME (R376). -/
def State.almanacRun (s : State) : State :=
  let lost := s.f Fd.RECORD_ASTAT_LOST - s.almanac.lostAt
  (s.setF Fd.RECORD_STAT_ASTATE 0).almanacMark 2 (s.f Fd.RECORD_BOOTNO_BOOTNO) lost

end Sys2Proof.Machine
end

