-- ==== Sys2Proof/Machine/Probe.lean ====
section
/-! DEFINITION. The running health probe as other blocks see it: whether a loop is being probed, and its abort (R152). -/

namespace Sys2Proof.Machine

/-- Health replaced. -/
def State.setHealth (s : State) (h : Health) : State := { s with health := h }

/-- What health keeps of a loop. -/
def State.hl (s : State) (n : Nat) : HealthLoop := tget (fun _ => HealthLoop.init) s.health.loops n

/-- What health keeps of a loop, replaced. -/
def State.setHl (s : State) (n : Nat) (x : HealthLoop) : State :=
  s.setHealth { s.health with loops := tset (fun _ => HealthLoop.init) s.health.loops n x }

/-- A probe of loop `n` runs. -/
def State.probing (s : State) (n : Nat) : Bool :=
  match s.health.probe with
  | some p => p.loop == n
  | none => false

/-- The probe of loop `n`, if one runs, is aborted (R152); its DUE comes again CONFIRM minutes later (R165). -/
def State.probeAbort (s : State) (n cause : Nat) : State :=
  if s.probing n then
    let s := s.setHealth { s.health with probe := none }
    let s := ((s.setF Fd.HEALTH_PROBERES_RESULT 3).setF Fd.HEALTH_PROBERES_CAUSE cause).setF Fd.HEALTH_STAT_BUSY 0
    (s.setHl n { s.hl n with confirm := some s.ticks }).ev Fd.HEALTH_EVRAW_ABORT
  else s

end Sys2Proof.Machine
end

