-- ==== Sys2Proof/Machine/Conv.lean ====
section
/-! DEFINITION. The multiphase controller (R112–R146): phases and their roles, the reference, start and stop, add and
shed, burst, Gust, Forecast, limits, over- and under-voltage and the loops' fault records. -/

namespace Sys2Proof.Machine

/-! ## Loops and phases -/

/-- Loop states (R145). -/
def lpOff : Nat := 0
def lpStart : Nat := 1
def lpRun : Nat := 2
def lpBurst : Nat := 3
def lpSoftoff : Nat := 4
def lpCrowbar : Nat := 5

/-- Roles (R112). -/
def roleActive : Nat := 1
def roleSpare : Nat := 2

/-- Phase states (R146). -/
def phOff : Nat := 0
def phOn : Nat := 1
def phShedPend : Nat := 2
def phShed : Nat := 3
def phAddPend : Nat := 4
def phLow : Nat := 5

/-- What a loop keeps. -/
def State.loop (s : State) (n : Nat) : Loop := tget (fun _ => Loop.init) s.loops n

/-- What a loop keeps, replaced. -/
def State.setLoop (s : State) (n : Nat) (x : Loop) : State := { s with loops := tset (fun _ => Loop.init) s.loops n x }

/-- A loop's state. -/
def State.lstate (s : State) (n : Nat) : Nat := s.f (Fd.LOOP_STAT_STATE n)

/-- The phases of a loop that satisfy a condition, ascending. -/
def State.phasesOf (s : State) (n : Nat) (c : Nat → Bool) : List Nat :=
  (List.range 16).filter fun k => s.f (Fd.PHASE_ASSIGN_LOOP k) == n && c k

/-- The ACTIVE phases of a loop. -/
def State.activeOf (s : State) (n : Nat) : List Nat := s.phasesOf n fun k => s.f (Fd.PHASE_ASSIGN_ROLE k) == roleActive

/-- A phase's state. -/
def State.phState (s : State) (k : Nat) : Nat := s.f (Fd.PHASE_ASSIGN_STATE k)

/-- A phase's state set; it switches, and its bit of `PHASE.STAT.ON` is 1, in ON. -/
def State.setPh (s : State) (k st : Nat) : State :=
  let s := s.setF (Fd.PHASE_ASSIGN_STATE k) st
  if st = phOn then s.orReg Reg.PHASE_STAT (bitAt k) else s.clrReg Reg.PHASE_STAT (bitAt k)

/-- Phases whose switching counts in N_on: a phase leaves it at SHED and joins it at ADD_PEND (R131). -/
def countsOn (st : Nat) : Bool := st == phOn || st == phShedPend || st == phAddPend

/-- The phases on of a loop. -/
def State.onOf (s : State) (n : Nat) : List Nat := s.phasesOf n fun k => countsOn (s.phState k)

/-- NON and NACT brought up to date (R145); the phases on take their new offsets at the next period start (R126). -/
def State.respread (s : State) (n : Nat) : State :=
  (s.setF (Fd.LOOP_STAT_NON n) (s.onOf n).length).setF (Fd.LOOP_STAT_NACT n) (s.activeOf n).length

/-- Each phase on takes its offset of the interleave (R126). -/
def State.placeSlots (s : State) (n : Nat) : State :=
  let on := s.onOf n
  let period := s.f (Fd.LOOP_FSW_PERIOD n)
  on.zipIdx.foldl (fun s p =>
    s.setF (Fd.PHASE_SLOT_OFFSET p.1) ((s.f (Fd.LOOP_BASE_OFFSET n) + divRound (p.2 * period) on.length) % max 1 period)) s

/-- Every phase of a loop with a state given to it. -/
def State.setPhases (s : State) (ks : List Nat) (st : Nat) : State := ks.foldl (fun s k => s.setPh k st) s

/-- A loop is enabled: EN reads 1, or it has not reached OFF (log entry 20). -/
def State.loopEnabled (s : State) (n : Nat) : Bool := s.fb (Fd.LOOP_CTRL_EN n) || s.lstate n != lpOff

/-- Phases with a role, over the device. -/
def State.roleCount (s : State) (r : Nat) : Nat :=
  ((List.range 16).filter fun k => s.f (Fd.PHASE_ASSIGN_ROLE k) == r).length

/-- The device is in COMPACT configuration (R1). -/
def State.compact (s : State) : Bool := !s.fb Fd.SYS_CONFIG_CLASS

/-- A refusal under R113. -/
def State.convRefuse (s : State) (reason loop phase : Nat) : State :=
  let s := ((s.setF Fd.CONV_REFUSE_REASON reason).setF Fd.CONV_REFUSE_LOOP loop).setF Fd.CONV_REFUSE_PHASE phase
  s.ev Fd.CONV_EVRAW_REFUSED

/-- The reason R113 gives to refuse role and loop for a phase, 0 for none. -/
def State.assignReason (s : State) (k role loop : Nat) : Nat :=
  let oldRole := s.f (Fd.PHASE_ASSIGN_ROLE k)
  let oldLoop := s.f (Fd.PHASE_ASSIGN_LOOP k)
  let assigned := 16 - s.roleCount 0 - b2n (oldRole != 0) + b2n (role != 0)
  let spares := s.roleCount roleSpare - b2n (oldRole == roleSpare) + b2n (role == roleSpare)
  let anyOn := (List.range 4).any s.loopEnabled
  if s.compact && decide (12 < assigned) then 1
  else if s.compact && decide (spares = 0) && anyOn then 2
  else if !s.compact && role == roleSpare then 3
  else if (oldLoop != loop || ((oldRole == 0) != (role == 0))) && (s.loopEnabled oldLoop || s.loopEnabled loop) then 4
  else 0

/-- A phase takes a role: one that becomes ACTIVE is UNTESTED with score 100 (R155), one that becomes RETIRED raises FS13
(R163). -/
def State.setRole (s : State) (k role : Nat) : State :=
  let old := s.f (Fd.PHASE_ASSIGN_ROLE k)
  let s := s.setF (Fd.PHASE_ASSIGN_ROLE k) role
  if old = role then s
  else if role = roleActive then (s.setF (Fd.HEALTH_PSCORE_UNTESTED k) 1).setF (Fd.HEALTH_PSCORE_SCORE k) 100
  else if role = 3 then s.raise 13 0 k
  else s

/-- A write of `PHASE.ASSIGNk` (R112, R113). -/
def State.assignWrite (s : State) (k : Nat) (d : Word) : State :=
  let role := getBits d 4 2
  let loop := getBits d 0 2
  match s.assignReason k role loop with
  | 0 =>
    let s := s.setRole k role
    let s := s.setF (Fd.PHASE_ASSIGN_LOOP k) loop
    s.setF (Fd.LOOP_STAT_NACT loop) (s.activeOf loop).length
  | r => s.convRefuse r loop k

/-- The reason R113 gives to refuse the enable of a loop, 0 for none. -/
def State.enableReason (s : State) (n : Nat) : Nat :=
  if s.compact && s.roleCount roleSpare == 0 then 2
  else if (s.activeOf n).isEmpty then 5
  else 0

/-! ## Reference (R120, R121) -/

/-- The denominator of a divider setting (R120). -/
def divDen (d : Nat) : Nat :=
  match d with
  | 0 => 1
  | 1 => 4
  | _ => 8

/-- `LOOPn.TARGET.CODE` for a target (R120): round((MV·H − 400) / 1.5625), clamped to 0–1023. -/
def dacCode (den mv : Nat) : Nat := min 1023 (divRound ((mv - 400 * den) * 16) (25 * den))

/-- The output at which the reference stands with a code, in mV, rounded down. -/
def dacMv (den code : Nat) : Nat := (6400 + 25 * code) * den / 16

/-- The divider of a loop. -/
def State.loopDen (s : State) (n : Nat) : Nat := divDen (s.f (Fd.LOOP_CTRL_DIV n))

/-- The loop is OFF or the reference stands: nothing moves it. -/
def State.refMoves (s : State) (n : Nat) : Bool :=
  s.lstate n == lpStart || s.lstate n == lpRun || s.lstate n == lpBurst

/-- The start of the latest downward movement, while it still lifts the over-voltage base (R138): it is forgotten 100 µs
after the reference has reached the target. -/
def State.ovHeld (s : State) (n : Nat) : Nat :=
  match (s.loop n).ovDue with
  | some due => if due ≤ s.ticks then 0 else (s.loop n).ovBase
  | none => (s.loop n).ovBase

/-- The reference begins to move from `ref` mV towards `mv` (R121, R138). -/
def State.moveBase (s : State) (n ref mv : Nat) : Nat := if mv < ref then ref else s.ovHeld n

/-- A write of `LOOPn.TARGET` (R121): the rate is latched and the movement starts from the instantaneous reference. -/
def State.targetWrite (s : State) (n : Nat) (d : Word) : State :=
  let mv := getBits d 0 16
  let old := s.loop n
  let base := if s.refMoves n then s.moveBase n (s.f (Fd.LOOP_REFNOW_MV n)) mv else s.ovHeld n
  let s := (s.setF (Fd.LOOP_TARGET_MV n) mv).setF (Fd.LOOP_TARGET_CODE n) (dacCode (s.loopDen n) mv)
  s.setLoop n { old with rate := s.f (Fd.LOOP_SLEW_RATE n), moving := true, ovBase := base, ovDue := none }

/-- A reference in units of 1/256,000 mV: at a DAC code (R120). -/
def dacFine (den code : Nat) : Nat := (102400000 + 400000 * code) * den

/-- What `REFNOW` shows of a reference: below code 0 the ramp that carries it (R122, R123), above it the DAC step last
reached; `down` for a movement downward. -/
def refShown (den fine : Nat) (down : Bool) : Nat :=
  if fine < dacFine den 0 then fine / 256000
  else
    let up := fine - dacFine den 0
    dacMv den (if down then divCeil up (400000 * den) else up / (400000 * den))

/-- A reference moved towards a goal by at most `step`. -/
def refStep (fine goal step : Nat) : Nat := if fine ≤ goal then min goal (fine + step) else max goal (fine - step)

/-- Where the reference of a loop goes: 0 V in SOFTOFF, else its target (R121, R122). -/
def State.refGoal (s : State) (n : Nat) : Nat :=
  if s.lstate n = lpSoftoff then 0 else dacFine (s.loopDen n) (s.f (Fd.LOOP_TARGET_CODE n))

/-- The reference of a loop at a value, in units of 1/256,000 mV, with `REFNOW`. -/
def State.setRef (s : State) (n fine : Nat) (down : Bool) : State :=
  (s.setF (Fd.LOOP_REFNOW_MV n) (min 0xFFFF (refShown (s.loopDen n) fine down))).setLoop n { s.loop n with refFine := fine }

/-- The movement of one period at the latched rate (R121, R122): RATE × 0.05 mV/µs over PERIOD × 78.125 ps. -/
def State.refMove (s : State) (n : Nat) : State :=
  let x := s.loop n
  if (s.refMoves n && x.moving) || s.lstate n == lpSoftoff then
    let goal := s.refGoal n
    s.setRef n (refStep x.refFine goal (x.rate * s.f (Fd.LOOP_FSW_PERIOD n))) (decide (goal < x.refFine))
  else s

/-- The reference stands at its target. -/
def State.refLand (s : State) (n : Nat) : State := s.setRef n (dacFine (s.loopDen n) (s.f (Fd.LOOP_TARGET_CODE n))) false

/-- The reference reaches the target of the latest write (R121). -/
def State.slewDone (s : State) (n : Nat) : State :=
  if s.refMoves n && (s.loop n).moving then
    let s := s.refLand n
    let s := s.setLoop n { s.loop n with moving := false, ovDue := some (s.ticks + 4) }
    s.ev (Fd.LOOP_EVRAW_SLEWDONE n)
  else s

/-- The base of the over-voltage threshold (R138). -/
def State.ovBase (s : State) (n : Nat) : Nat := max (s.f (Fd.LOOP_TARGET_MV n)) (s.ovHeld n)

/-! ## Bank (R119) -/

/-- The loop copies its bank; the copy acts from the next period start. -/
def State.copyBank (s : State) (n : Nat) : State :=
  s.setLoop n { s.loop n with bankNext := some (s.rd (Reg.CONV_BANK (s.f (Fd.LOOP_CTRL_BANK n)))) }

/-! ## Fault records (R142, R143) -/

/-- The last-fault record of a loop captured and queued for the LASTFAULT area (R143). -/
def State.loopCapture (s : State) (n cause vout : Nat) : State :=
  let s := s.probeAbort n 5
  let time := s.chipTime
  let on := (s.onOf n).foldl (fun acc k => acc + 2 ^ k) 0
  let s := (s.wr (Reg.LOOP_LF0 n) (BitVec.ofNat 32 time)).wr (Reg.LOOP_LF1 n) (BitVec.ofNat 32 (time >>> 32))
  let s := (s.setF (Fd.LOOP_LF2_VOUT n) vout).setF (Fd.LOOP_LF2_TARGET n) (s.f (Fd.LOOP_TARGET_MV n))
  let s := (s.setF (Fd.LOOP_LF3_ONMASK n) on).setF (Fd.LOOP_LF3_ILIMMASK n) (s.loop n).limited
  let s := ((s.setF (Fd.LOOP_LF4_ITOT n) (s.f (Fd.LOOP_MEAS_ITOT n))).setF (Fd.LOOP_LF4_STATE n) (s.lstate n)).setF
    (Fd.LOOP_LF4_CAUSE n) cause
  let s := (s.setF (Fd.LOOP_STAT_FCAUSE n) cause).ev (Fd.LOOP_EVRAW_FAULT n)
  s.recLastFault n ([Reg.LOOP_LF0 n, Reg.LOOP_LF1 n, Reg.LOOP_LF2 n, Reg.LOOP_LF3 n, Reg.LOOP_LF4 n].map s.rd)

/-- A loop fault (R142): the record, then FS9–FS12 with the cause. -/
def State.loopFault (s : State) (n cause vout : Nat) : State := (s.loopCapture n cause vout).raise (9 + n) cause 0

/-! ## Start and stop (R122–R125) -/

/-- PGOOD falls. -/
def State.pgoodDrop (s : State) (n : Nat) : State :=
  if s.fb (Fd.LOOP_STAT_PGOOD n) then (s.setF (Fd.LOOP_STAT_PGOOD n) 0).ev (Fd.LOOP_EVRAW_PGLOST n) else s

/-- The per-phase limit in 0.1 A at a VOUT (R135), quantised down. -/
def State.ilim (s : State) (n vout : Nat) : Nat :=
  let hi := s.f (Fd.LOOP_ILIM_HI n)
  let lo := s.f (Fd.LOOP_ILIM_LO n)
  let ref := s.f (Fd.LOOP_REFNOW_MV n)
  if 8 * ref ≤ 10 * vout then hi
  else if 10 * vout ≤ 2 * ref then lo
  else lo + (hi - lo) * (10 * vout - 2 * ref) / (6 * ref)

/-- The reference stands at a sensed output, from which the start ramp begins (R123). -/
def State.rampFrom (s : State) (n vout : Nat) : State :=
  (s.setF (Fd.LOOP_REFNOW_MV n) vout).setLoop n { s.loop n with refFine := 256000 * vout }

/-- The loop enters START (R122): bank copied, ACTIVE phases placed, soft-start begun from the sensed output (R123), which its
first period start measures again. -/
def State.loopStart (s : State) (n : Nat) : State :=
  let s := s.copyBank n
  let s := (s.setF (Fd.LOOP_CTRL_EN n) 1).setF (Fd.LOOP_STAT_STATE n) lpStart
  let s := s.setF (Fd.LOOP_STAT_FCAUSE n) 0
  let s := s.rampFrom n (s.f (Fd.LOOP_MEAS_VOUT n))
  let s := s.setLoop n { s.loop n with moving := true, rampDue := true, lowOk := false, ran := false, startHeld := false, below := 0,
                                       burstLow := 0, ocRun := 0, limited := 0, ilim := s.ilim n (s.f (Fd.LOOP_MEAS_VOUT n)),
                                       midLevel := 0, inject := 0, lift := 0, onTime := [], pulsing := false, enZero := false, ovBase := 0, ovDue := none }
  ((s.setPhases (s.activeOf n) phOn).respread n).placeSlots n

/-- The loop reaches OFF: every phase at mid-level. -/
def State.loopOff (s : State) (n : Nat) : State :=
  let s := s.pgoodDrop n
  let s := s.setF (Fd.LOOP_STAT_STATE n) lpOff
  let s := (s.setF (Fd.LOOP_STAT_INHIBIT n) 0).rampFrom n 0
  let s := (s.setPhases (s.phasesOf n fun _ => true) phOff).respread n
  if (s.loop n).startHeld then s.loopStart n else s

/-- The loop's slot turns it on (R191): START at once from OFF, else when it has reached OFF (R124). -/
def State.loopTurnOn (s : State) (n : Nat) : State :=
  if s.lstate n = lpOff then s.loopStart n
  else (s.setF (Fd.LOOP_CTRL_EN n) 1).setLoop n { s.loop n with startHeld := true }

/-- SOFTOFF (R122): the reference begins to go down to 0 V at the latched rate, every ACTIVE phase switching (R131, last
row). -/
def State.softoff (s : State) (n : Nat) : State :=
  let s := (s.pgoodDrop n).setF (Fd.LOOP_STAT_STATE n) lpSoftoff
  let s := s.setLoop n { s.loop n with ovBase := s.f (Fd.LOOP_REFNOW_MV n), ovDue := none }
  (s.setPhases (s.activeOf n) phOn).respread n

/-- The loop's slot turns it off (R191): EN is 0, and the loop stops with its own SOFTOFF choice. -/
def State.loopTurnOff (s : State) (n : Nat) : State :=
  let s := s.setF (Fd.LOOP_CTRL_EN n) 0
  let s := s.setLoop n { s.loop n with startHeld := false, enZero := true }
  let st := s.lstate n
  if st = lpStart ∨ st = lpRun ∨ st = lpBurst then
    if s.fb (Fd.LOOP_CTRL_SOFTOFF n) then s.softoff n else s.loopOff n
  else s

/-- A loop driven off without order (R193, R206, R207). -/
def State.loopKill (s : State) (n : Nat) : State :=
  let s := s.setLoop n { s.loop n with startHeld := false }
  (s.setF (Fd.LOOP_CTRL_EN n) 0).loopOff n

/-- VOUT lies within ±PGWIN % of a reference in mV (R125). -/
def State.pgWindow (s : State) (n vout ref : Nat) : Bool :=
  decide (100 * vout ≤ (100 + s.f (Fd.LOOP_PROT_PGWIN n)) * ref ∧ (100 - s.f (Fd.LOOP_PROT_PGWIN n)) * ref ≤ 100 * vout)

/-- The start ramp reaches the target with VOUT in the PGOOD window (R122, R123). -/
def State.loopStarted (s : State) (n vout : Nat) : State :=
  if s.lstate n = lpStart ∧ s.pgWindow n vout (dacMv (s.loopDen n) (s.f (Fd.LOOP_TARGET_CODE n))) then
    let s := s.setF (Fd.LOOP_MEAS_VOUT n) vout
    let s := (s.refLand n).setF (Fd.LOOP_STAT_STATE n) lpRun
    let s := if (s.loop n).moving then s.ev (Fd.LOOP_EVRAW_SLEWDONE n) else s
    let s := s.setLoop n { s.loop n with moving := false, rampDue := false, lowOk := true, ran := true, ovDue := some (s.ticks + 4) }
    (s.setF (Fd.LOOP_STAT_PGOOD n) 1).ev (Fd.LOOP_EVRAW_PGOOD n)
  else s

/-- The reference reaches 0 V in SOFTOFF (R122). -/
def State.softoffDone (s : State) (n : Nat) : State := if s.lstate n = lpSoftoff then s.loopOff n else s

/-- PGOOD lost: VOUT leaves ±PGWIN % of the reference (R125). -/
def State.pgoodLost (s : State) (n vout : Nat) : State :=
  if s.fb (Fd.LOOP_STAT_PGOOD n) && !s.pgWindow n vout (s.f (Fd.LOOP_REFNOW_MV n)) then
    (s.setF (Fd.LOOP_MEAS_VOUT n) vout).pgoodDrop n
  else s

/-- PGOOD regained (R125): in RUN or BURST. -/
def State.pgoodRegained (s : State) (n vout : Nat) : State :=
  if (s.lstate n = lpRun ∨ s.lstate n = lpBurst) ∧ s.f (Fd.LOOP_STAT_PGOOD n) = 0 ∧
      s.pgWindow n vout (s.f (Fd.LOOP_REFNOW_MV n)) then
    ((s.setF (Fd.LOOP_MEAS_VOUT n) vout).setF (Fd.LOOP_STAT_PGOOD n) 1).ev (Fd.LOOP_EVRAW_PGOOD n)
  else s

/-! ## Add and shed (R131, R132) -/

/-- Every phase of the loop in SHED_PEND is switched again (R131); `inhibit` for a Gust or UV. -/
def State.abortShed (s : State) (n : Nat) (inhibit : Bool) : State :=
  let ks := s.phasesOf n fun k => s.phState k == phShedPend
  if ks.isEmpty then s
  else
    let s := (s.setPhases ks phOn).respread n
    let s := s.ev (Fd.LOOP_EVRAW_SHEDABORT n)
    if inhibit then s.setF (Fd.LOOP_STAT_INHIBIT n) 1 else s

/-- Shed phases of the loop selected to be added, lowest-numbered first, until `want` phases are on. -/
def State.addPhases (s : State) (n want : Nat) : State :=
  let need := want - (s.onOf n).length
  let ks := (s.phasesOf n fun k => s.phState k == phShed && s.f (Fd.PHASE_ASSIGN_ROLE k) == roleActive).take need
  if ks.isEmpty then s else (s.setPhases ks phAddPend).respread n

/-- Current for the add rule, 10 mA units: measured plus forecast. -/
def State.addCurrent (s : State) (n : Nat) : Nat := s.f (Fd.LOOP_MEAS_ITOT n) + s.f (Fd.LOOP_FCAST_MA n)

/-- Phases the add rule needs (R131): ceil((I_tot + I_fc) ÷ ADD), at least MINPH and at most the ACTIVE count; an ADD of 0
needs them all. -/
def State.addWant (s : State) (n : Nat) : Nat :=
  let add := 10 * s.f (Fd.LOOP_ADDSHED_ADD n)
  let act := (s.activeOf n).length
  let w := if add = 0 then act else divCeil (s.addCurrent n) add
  min act (max w (s.f (Fd.LOOP_ADDSHED_MINPH n)))

/-- Of the loop's ACTIVE phases the lowest-numbered, the lead, is on and the others are shed (R129). -/
def State.leadOnly (s : State) (n : Nat) : State :=
  (s.setPhases ((s.activeOf n).drop 1) phShed).setPhases ((s.activeOf n).take 1) phOn

/-- The phases of a loop that the crowbar drives low (R138). -/
def State.crowbarPhases (s : State) (n : Nat) : List Nat :=
  s.phasesOf n fun k => s.f (Fd.PHASE_ASSIGN_ROLE k) == roleActive || s.f (Fd.PHASE_ASSIGN_ROLE k) == roleSpare

/-- Role changes taken in at the period start of a loop in CROWBAR: ACTIVE and SPARE phases are low, the others at
mid-level. -/
def State.adoptLow (s : State) (n : Nat) : State :=
  ((s.setPhases (s.phasesOf n fun _ => true) phOff).setPhases (s.crowbarPhases n) phLow).respread n

/-- Role changes taken in at the period start (R112): phases that became ACTIVE join, those that no longer are leave; in
BURST the lead phase alone switches (R129). -/
def State.adoptRoles (s : State) (n : Nat) : State :=
  let out := s.phasesOf n fun k => s.f (Fd.PHASE_ASSIGN_ROLE k) != roleActive && s.phState k != phOff
  let new := s.phasesOf n fun k => s.f (Fd.PHASE_ASSIGN_ROLE k) == roleActive && s.phState k == phOff
  if out.isEmpty && new.isEmpty then s
  else
    let s := (s.setPhases out phOff).setPhases new phOn
    (if s.lstate n = lpBurst then s.leadOnly n else s).respread n

/-- The add and shed machine at a period start in RUN (R131). -/
def State.addShed (s : State) (n : Nat) : State :=
  let non := (s.onOf n).length
  let add := 10 * s.f (Fd.LOOP_ADDSHED_ADD n)
  let itot := s.f (Fd.LOOP_MEAS_ITOT n)
  if non * add < s.addCurrent n then
    let s := s.setLoop n { s.loop n with below := 0 }
    (s.abortShed n false).addPhases n (s.addWant n)
  else
    let low := decide (itot < (non - 1) * (10 * s.f (Fd.LOOP_ADDSHED_SHED n)))
    let below := if low then (s.loop n).below + 1 else 0
    let s := s.setLoop n { s.loop n with below := below }
    let pend := !(s.phasesOf n fun k => s.phState k == phShedPend).isEmpty
    if s.f (Fd.LOOP_SHEDCFG_DWELL n) * 8 ≤ below ∧ s.f (Fd.LOOP_ADDSHED_MINPH n) < non ∧ !pend ∧
        s.f (Fd.LOOP_STAT_FCAST n) = 0 ∧ s.f (Fd.LOOP_STAT_INHIBIT n) = 0 then
      match (s.phasesOf n fun k => s.phState k == phOn).reverse with
      | k :: _ => (s.setPh k phShedPend).setLoop n { s.loop n with below := 0 }
      | [] => s
    else s

/-- The commit window of a phase in SHED_PEND has ended and its slot start is reached (R131); a wake source (R31). -/
def State.shedCommit (s : State) (k : Nat) : State :=
  let n := s.f (Fd.PHASE_ASSIGN_LOOP k)
  if s.phState k = phShedPend then (((s.wakeUp).setPh k phShed).respread n).ev (Fd.LOOP_EVRAW_SHED n) else s

/-- The slot start of a phase in ADD_PEND is reached (R131); a wake source (R31). -/
def State.phaseAdded (s : State) (k : Nat) : State :=
  let n := s.f (Fd.PHASE_ASSIGN_LOOP k)
  if s.phState k = phAddPend then (((s.wakeUp).setPh k phOn).respread n).ev (Fd.LOOP_EVRAW_ADD n) else s

/-- SHED_INHIBIT ends. -/
def State.shedInhibitEnd (s : State) (n : Nat) : State :=
  if s.fb (Fd.LOOP_STAT_INHIBIT n) then (s.setF (Fd.LOOP_STAT_INHIBIT n) 0).setLoop n { s.loop n with below := 0 } else s

/-! ## Burst (R129, R130) -/

/-- The conditions of burst entry, but for the count of low periods. -/
def State.burstReady (s : State) (n : Nat) : Bool :=
  s.fb (Fd.LOOP_CTRL_BURSTEN n) && s.lstate n == lpRun && !s.fb (Fd.LOOP_STAT_FCAST n) &&
    decide ((s.onOf n).length ≤ s.f (Fd.LOOP_ADDSHED_MINPH n))

/-- Burst entry (R129); a wake source (R31). -/
def State.burstEntry (s : State) (n : Nat) : State :=
  if s.burstReady n ∧ 64 ≤ (s.loop n).burstLow then
    let s := ((s.wakeUp).leadOnly n).respread n
    let s := s.setLoop n { s.loop n with burstLow := 0, pulsing := false, tickPer := 0, tickPul := 0 }
    (s.setF (Fd.LOOP_STAT_STATE n) lpBurst).ev (Fd.LOOP_EVRAW_BURSTIN n)
  else s

/-- Burst exit (R130) with `want` phases to be on; a wake source (R31). -/
def State.burstExit (s : State) (n want : Nat) : State :=
  if s.lstate n = lpBurst then
    let s := ((s.wakeUp).setF (Fd.LOOP_STAT_STATE n) lpRun).ev (Fd.LOOP_EVRAW_BURSTOUT n)
    let s := s.setLoop n { s.loop n with burstLow := 0, below := 0, pulsing := false }
    s.addPhases n want
  else s

/-! ## Gust (R133) -/

/-- The Gust comparator trips (R133), a wake source (R31): shed phases return and INHIBIT is set; with none shed, the event
alone. -/
def State.gust (s : State) (n : Nat) : State :=
  if s.fb (Fd.LOOP_CTRL_GUSTEN n) && (s.lstate n == lpRun || s.lstate n == lpBurst) then
    let s := ((s.wakeUp).ev (Fd.LOOP_EVRAW_GUST n)).probeAbort n 1
    if s.lstate n = lpBurst then (s.burstExit n (s.addWant n)).setF (Fd.LOOP_STAT_INHIBIT n) 1
    else
      let shed := s.phasesOf n fun k => s.phState k == phShed
      let s := s.abortShed n true
      if shed.isEmpty then s else (s.addPhases n 16).setF (Fd.LOOP_STAT_INHIBIT n) 1
  else s

/-- The Gust threshold in quarter-mV per percent: VOUT below REFNOW − TH × 0.25 % of the target. -/
def State.gustBelow (s : State) (n vout : Nat) : Bool :=
  decide (400 * vout + s.f (Fd.LOOP_GUST_TH n) * s.f (Fd.LOOP_TARGET_MV n) < 400 * s.f (Fd.LOOP_REFNOW_MV n))

/-- GUST_TRIP: VOUT below the threshold for FILT cycles; in BURST the comparator is sampled at ticks alone (R129). -/
def State.gustTrip (s : State) (n vout : Nat) : State :=
  if s.gustBelow n vout ∧ s.lstate n = lpRun then (s.setF (Fd.LOOP_MEAS_VOUT n) vout).gust n else s

/-- The lead phase needed pulses in more than half of the periods since the previous burst tick (R130). -/
def Loop.heavy (x : Loop) : Bool := decide (x.tickPer < 2 * x.tickPul)

/-- A burst tick that leaves the loop in BURST: the lead phase fires while VOUT stands below the reference (R129). -/
def State.burstPulse (s : State) (n vout : Nat) : State :=
  s.setLoop n { s.loop n with pulsing := decide (vout < s.f (Fd.LOOP_REFNOW_MV n)), tickPer := 0, tickPul := 0 }

/-- A burst tick (R129, R130). -/
def State.burstTick (s : State) (n vout : Nat) : State :=
  if s.lstate n = lpBurst then
    let s := s.setF (Fd.LOOP_MEAS_VOUT n) vout
    if s.fb (Fd.LOOP_CTRL_GUSTEN n) && s.gustBelow n vout then s.gust n
    else if (s.loop n).heavy then s.burstExit n (s.f (Fd.LOOP_ADDSHED_MINPH n))
    else s.burstPulse n vout
  else s

/-! ## Forecast (R134) -/

/-- A Forecast of `mw` reaches a loop: its current is added, it leaves BURST and aborts a shed. -/
def State.forecastIn (s : State) (n mw : Nat) : State :=
  let mv := s.f (Fd.LOOP_TARGET_MV n)
  let s := if mv = 0 then s
    else s.setF (Fd.LOOP_FCAST_MA n) (min 0xFFFF (s.f (Fd.LOOP_FCAST_MA n) + divCeil (mw * 100) mv))
  let s := (s.setF (Fd.LOOP_STAT_FCAST n) 1).ev (Fd.LOOP_EVRAW_FCAST n)
  if s.lstate n = lpBurst then s.burstExit n (s.addWant n) else s.abortShed n false

/-- The ledger's hold ends. -/
def State.forecastOut (s : State) (n : Nat) : State := (s.setF (Fd.LOOP_STAT_FCAST n) 0).setF (Fd.LOOP_FCAST_MA n) 0

/-! ## Sensing and the on-time (R116–R118) -/

/-- The current that a differential voltage ISENk − ISREF in µV stands for, 10 mA units (R116): the measurable range is −150
to +600 mV, and RI is in 0.1 mV/A. -/
def State.senseCur (s : State) (n : Nat) (uv : Int) : Int :=
  clampInt (-150000) 600000 uv / (max 1 (s.f (Fd.LOOP_ISENSE_RI n)) : Nat)

/-- The compensation ramp in µV at a time after the slot start, 78.125 ps units (R118): SE × 0.5 mV/µs from 0. -/
def State.rampUv (s : State) (n t : Nat) : Nat := s.f (Fd.LOOP_ISENSE_SE n) * t * 5 / 128

/-- The blanking of 60 ns, 78.125 ps units (R117). -/
def blankTime : Nat := 768

/-- 95 % of a loop's period (R117). -/
def State.maxOn (s : State) (n : Nat) : Nat := s.f (Fd.LOOP_FSW_PERIOD n) * 95 / 100

/-- The on-time of a phase ends at a time after its slot start (R117): the comparator is no longer blanked, and the sensed
voltage with the ramp reaches the demand, or the current its limit, or 95 % of the period has elapsed. -/
def State.onEnds (s : State) (n t : Nat) (isen demand : Int) : Bool :=
  decide (blankTime ≤ t) && (decide (demand ≤ isen + s.rampUv n t) || decide ((10 * (s.loop n).ilim : Nat) ≤ s.senseCur n isen) ||
    decide (s.maxOn n ≤ t))

/-- The on-time of a phase whose comparator crosses at `t` with `isen` against `demand` (R117): at least the blanking, and 95 %
of the period where nothing ends it there. -/
def State.onTimeOf (s : State) (n t : Nat) (isen demand : Int) : Nat :=
  let t := max blankTime t
  if t ≤ s.maxOn n ∧ s.onEnds n t isen demand then t else s.maxOn n

/-- The on-time of a phase in the loop's last period. -/
def State.onTime (s : State) (n k : Nat) : Nat := tget (fun _ => 0) (s.loop n).onTime k

/-- An on-time stored. -/
def State.setOnTime (s : State) (n k t : Nat) : State :=
  s.setLoop n { s.loop n with onTime := tset (fun _ => 0) (s.loop n).onTime k t }

/-! ## PWM outputs (R115) -/

/-- The levels of a PWM output. -/
inductive PwmLevel where
  | high
  | low
  | mid
  deriving DecidableEq, Repr

/-- The level of PWMk at a time `t` after its slot start, when its on-time lasts `on` and its current crosses zero at `cross`
(R115, R117, R123, R129, R136, R138): mid-level whenever the phase does not switch. -/
def State.pwmLevel (s : State) (k t on cross : Nat) : PwmLevel :=
  let n := s.f (Fd.PHASE_ASSIGN_LOOP k)
  let x := s.loop n
  if s.phState k = phLow then .low
  else if s.phState k ≠ phOn then .mid
  else if s.lstate n = lpBurst ∧ !x.pulsing then .mid
  else if t < on then .high
  else if x.midLevel.testBit k then .mid
  else if s.lstate n = lpStart ∧ !x.lowOk then .mid
  else if s.lstate n = lpBurst ∧ cross ≤ t then .mid
  else .low

/-! ## What a probe injects (R149, R152) -/

/-- The amplitude of the reference perturbation, in 1/4,000 of the target: INJ × 0.1 %, at most half of the Gust threshold,
which counts while GUSTEN is 1, and half of PGWIN (R149). -/
def State.probeAmp (s : State) (n : Nat) : Nat :=
  let a := min (4 * s.f Fd.HEALTH_PROBECFG_INJ) (20 * s.f (Fd.LOOP_PROT_PGWIN n))
  if s.fb (Fd.LOOP_CTRL_GUSTEN n) then min a (5 * s.f (Fd.LOOP_GUST_TH n)) else a

/-- The quantity under measurement on a loop, by its MEAS bit. -/
def State.probeNow (s : State) (n : Nat) : Option Nat :=
  match s.health.probe with
  | some p => if p.loop = n then p.left.head? else none
  | none => none

/-- The injection of a period (R151, R152): the reference offset of RESP and COUT, the threshold offset of THERM; none from
the first period start after the measurement. -/
def State.injectPeriod (s : State) (n : Nat) : State :=
  let q := s.probeNow n
  let mean := s.f (Fd.LOOP_MEAS_ITOT n) / max 1 (s.onOf n).length
  s.setLoop n { s.loop n with inject := if q = some 2 ∨ q = some 3 then s.probeAmp n else 0,
                              lift := if q = some 4 then mean / 5 else 0 }

/-! ## Period start (R131, R135, R137) -/

/-- What a phase showed in the last period: ISENk − ISREF on average and at its peak, µV, and the comparator's crossing: its
time after the slot start, the sensed voltage and the demand there. -/
def State.takePhase (s : State) (n : Nat) (p : PhaseMeas) : State :=
  if p.k < 16 ∧ s.f (Fd.PHASE_ASSIGN_LOOP p.k) = n then
    let s := (s.setF (Fd.PHASE_IAVG_AVG p.k) (toSigned 16 (s.senseCur n p.avg))).setF (Fd.PHASE_IAVG_PEAK p.k)
      (toSigned 16 (s.senseCur n p.peak))
    if (s.loop n).limited.testBit p.k then s else s.setOnTime n p.k (s.onTimeOf n p.on p.isen p.demand)
  else s

/-- The total current of a loop, 10 mA units: the averages of the phases that are on. -/
def State.totalCurrent (s : State) (n : Nat) : Nat :=
  min 0xFFFF ((s.onOf n).foldl (fun (acc : Int) k => acc + signed 16 (s.f (Fd.PHASE_IAVG_AVG k))) 0).toNat

/-- The measurements of the last period taken in: VOUT, the phases, the total current. -/
def State.takePeriod (s : State) (n vout : Nat) (ms : List PhaseMeas) : State :=
  let s := ms.foldl (fun s p => s.takePhase n p) (s.setF (Fd.LOOP_MEAS_VOUT n) vout)
  s.setF (Fd.LOOP_MEAS_ITOT n) (s.totalCurrent n)

/-- The reference at a period start: the start ramp begins at the sensed output, every later period moves it (R121–R123). -/
def State.refPeriod (s : State) (n vout : Nat) : State :=
  if s.lstate n = lpStart ∧ (s.loop n).rampDue then
    let s := s.rampFrom n vout
    let goal := s.f (Fd.LOOP_TARGET_MV n)
    s.setLoop n { s.loop n with rampDue := false, ovBase := if goal < vout then vout else 0 }
  else
    let s := s.refMove n
    s.setLoop n { s.loop n with lowOk := (s.loop n).lowOk || decide (vout < s.f (Fd.LOOP_REFNOW_MV n)) }

/-- What a loop keeps of a period, for the next: the bank's copy acts (R119), the limit is evaluated (R135), the counts of
limited and of low periods go on (R129, R137). -/
def State.nextPeriod (s : State) (n vout : Nat) : State :=
  let x := s.loop n
  let low := decide (s.f (Fd.LOOP_MEAS_ITOT n) < 10 * s.f (Fd.LOOP_BURST_ENTER n))
  s.setLoop n { x with bank := x.bankNext.getD x.bank, bankNext := none, ilim := s.ilim n vout, limited := 0, midLevel := 0,
                       ocRun := if x.limited = 0 then 0 else x.ocRun, burstLow := if low then x.burstLow + 1 else 0 }

/-- A period of a loop in BURST (R129, R130): the lead phase stops once VOUT exceeds the reference by 0.5 %; the period and its
pulse are counted. -/
def State.burstPeriod (s : State) (n vout : Nat) : State :=
  let x := s.loop n
  let on := x.pulsing && decide (1000 * vout ≤ 1005 * s.f (Fd.LOOP_REFNOW_MV n))
  s.setLoop n { x with pulsing := on, tickPer := x.tickPer + 1, tickPul := x.tickPul + b2n on }

/-- A loop's period start, with the measurements of the last period: VOUT in mV and what its phases showed. Role changes and
offsets take effect (R112, R126), and in RUN the add and shed machine decides (R131). -/
def State.periodStart (s : State) (n vout : Nat) (ms : List PhaseMeas) : State :=
  let st := s.lstate n
  if st = lpOff then s
  else
    let s := (((s.takePeriod n vout ms).refPeriod n vout).nextPeriod n vout).injectPeriod n
    let s := if st = lpCrowbar then s.adoptLow n else s.adoptRoles n
    let s := if st = lpRun ∧ s.fb (Fd.LOOP_CTRL_ADDSHEDEN n) then s.addShed n else s
    let s := if st = lpBurst then s.burstPeriod n vout else s
    s.placeSlots n

/-! ## Limits and protection (R135–R141) -/

/-- A phase's sensed voltage reaches the limit of the period (R135), at a time after its slot start that is no longer blanked
(R117): its on-time ends; the first one of a period counts in the loop's run of limited periods (R137). -/
def State.phaseLimit (s : State) (k t : Nat) (uv : Int) : State :=
  let n := s.f (Fd.PHASE_ASSIGN_LOOP k)
  if s.phState k = phOn ∧ blankTime ≤ t ∧ t ≤ s.maxOn n ∧ ((10 * (s.loop n).ilim : Nat) : Int) ≤ s.senseCur n uv then
    let s := ((s.orReg Reg.PHASE_EVRAW (bitAt k)).incF (Fd.PHASE_ILIMCNT_COUNT k)).probeAbort n 6
    let s := s.setOnTime n k t
    let x := s.loop n
    let run := if x.limited = 0 then x.ocRun + 1 else x.ocRun
    s.setLoop n { x with limited := x.limited ||| 2 ^ k, ocRun := run }
  else s

/-- OCCYC consecutive limited periods (R137): the loop's fault with cause OC. -/
def State.loopOc (s : State) (n vout : Nat) : State :=
  let cyc := s.f (Fd.LOOP_ILIMNEG_OCCYC n)
  if cyc ≠ 0 ∧ cyc ≤ (s.loop n).ocRun ∧ s.lstate n ≠ lpOff then
    (s.setLoop n { s.loop n with ocRun := 0 }).loopFault n 3 vout
  else s

/-- A phase's current falls below −NEG with its low side on (R136): mid-level for the rest of the period. -/
def State.negLimit (s : State) (k : Nat) (uv : Int) : State :=
  let n := s.f (Fd.PHASE_ASSIGN_LOOP k)
  if s.phState k = phOn ∧ s.lstate n ≠ lpCrowbar ∧ s.senseCur n uv < -((10 * s.f (Fd.LOOP_ILIMNEG_NEG n) : Nat) : Int) then
    s.setLoop n { s.loop n with midLevel := (s.loop n).midLevel ||| 2 ^ k }
  else s

/-- The crowbar reflex, in every state but OFF (R138): ACTIVE and SPARE phases low, CROWBAR, the fault with cause OV. -/
def State.crowbar (s : State) (n vout : Nat) : State :=
  if s.lstate n ≠ lpOff ∧ (100 + s.f (Fd.LOOP_PROT_OV n)) * s.ovBase n < 100 * vout then
    let s := (s.setF (Fd.LOOP_MEAS_VOUT n) vout).loopFault n 1 vout
    let s := (s.pgoodDrop n).setF (Fd.LOOP_STAT_STATE n) lpCrowbar
    let s := s.setLoop n { s.loop n with enZero := false }
    (s.setPhases (s.crowbarPhases n) phLow).respread n
  else s

/-- The crowbar's release (R139). -/
def State.crowbarRelease (s : State) (n vout : Nat) : State :=
  if s.lstate n = lpCrowbar ∧ (s.loop n).enZero ∧ 10 * vout < s.f (Fd.LOOP_TARGET_MV n) then
    (s.setF (Fd.LOOP_MEAS_VOUT n) vout).loopOff n
  else s

/-- Under-voltage for UVFILT µs in RUN or BURST (R140). -/
def State.loopUv (s : State) (n vout : Nat) : State :=
  let st := s.lstate n
  if (st = lpRun ∨ st = lpBurst) ∧ 100 * vout < (100 - s.f (Fd.LOOP_PROT_UV n)) * s.f (Fd.LOOP_REFNOW_MV n) then
    let s := (s.setF (Fd.LOOP_MEAS_VOUT n) vout).loopFault n 2 vout
    let shed := !(s.phasesOf n fun k => s.phState k == phShed).isEmpty
    let s := s.burstExit n 16
    let s := (s.abortShed n true).addPhases n 16
    if shed then s.setF (Fd.LOOP_STAT_INHIBIT n) 1 else s
  else s

/-- SFLT# low for 100 ns (R141); its assertion is a wake source (R31), and `CONV.STAT.SFLT` shows the pin. -/
def State.stageFault (s : State) : State :=
  if s.fb Fd.CONV_CTRL_SFLTEN then
    let s := (s.setF Fd.CONV_STAT_SFLT 1).ev Fd.CONV_EVRAW_SFLT
    let s := (List.range 4).foldl (fun s n => if s.loopEnabled n then s.loopCapture n 5 (s.f (Fd.LOOP_MEAS_VOUT n)) else s) s
    s.raiseLevel 14 0 0
  else (s.wakeUp).setF Fd.CONV_STAT_SFLT 1

/-- The PWM oscillator is lost (R38, R142): every loop that is not OFF takes cause 4, and its outputs go to mid-level. -/
def State.loopsPwmLost (s : State) : State :=
  (List.range 4).foldl (fun s n =>
    if s.lstate n ≠ lpOff then
      let s := s.loopFault n 4 (s.f (Fd.LOOP_MEAS_VOUT n))
      (s.setPhases (s.phasesOf n fun _ => true) phOff).respread n
    else s) s

/-! ## Synchronisation (R127, R128) -/

/-- A SYNCI period lies inside the pull range of the loop locked to it: ±8 %. -/
def State.syncInRange (s : State) (per : Nat) : Bool :=
  let p := s.f (Fd.LOOP_FSW_PERIOD (s.f Fd.CONV_SYNC_REFLOOP))
  decide (100 * per ≤ 108 * p) && decide (92 * p ≤ 100 * per)

/-- Lock to a SYNCI period, 78.125 ps units, inside the pull range: the oscillator is trimmed until the period of REFLOOP
equals it. A lock that stands follows the period without an event. -/
def State.syncLock (s : State) (per : Nat) : State :=
  if s.fb Fd.CONV_CTRL_SYNCIEN ∧ s.syncInRange per then
    let t : State := { s with trim := ⟨per, s.f (Fd.LOOP_FSW_PERIOD (s.f Fd.CONV_SYNC_REFLOOP))⟩ }
    if s.fb Fd.CONV_STAT_SYNCLOCK then t else (t.setF Fd.CONV_STAT_SYNCLOCK 1).ev Fd.CONV_EVRAW_SYNCLOCK
  else s

/-- SYNCI missing for two periods or out of range: the last trim is held. -/
def State.syncLoss (s : State) : State :=
  if s.fb Fd.CONV_CTRL_SYNCIEN then (s.setF Fd.CONV_STAT_SYNCLOCK 0).ev Fd.CONV_EVRAW_SYNCLOSS else s

/-- A write of `CONV.CTRL`: with SYNCIEN 0 nothing trims the oscillator. -/
def State.convCtrlWrite (s : State) (new : Word) : State :=
  let s := s.wr Reg.CONV_CTRL new
  if s.fb Fd.CONV_CTRL_SYNCIEN then s else { (s.setF Fd.CONV_STAT_SYNCLOCK 0) with trim := ⟨1, 1⟩ }

/-- A loop's period with the trim, 78.125 ps units (R127). -/
def State.periodOf (s : State) (n : Nat) : Nat := s.f (Fd.LOOP_FSW_PERIOD n) * s.trim.num / max 1 s.trim.den

/-- The time from a SYNCI rising edge to the period start of a loop that is locked to it (R127). -/
def State.syncDelay (s : State) (n : Nat) : Option Nat :=
  if s.fb Fd.CONV_STAT_SYNCLOCK ∧ s.f Fd.CONV_SYNC_REFLOOP = n then some (s.f Fd.CONV_SYNC_DELAY) else none

/-- The level of SYNCO at a time `t` after a period start of SOLOOP (R128): a 50 % square wave that rises there, or half a
period later with SO180; low while SYNCOEN is 0 or the loop is not enabled. -/
def State.synco (s : State) (t : Nat) : Bool :=
  let n := s.f Fd.CONV_SYNC_SOLOOP
  let p := s.periodOf n
  s.fb Fd.CONV_CTRL_SYNCOEN && s.loopEnabled n && decide ((2 * t + (if s.fb Fd.CONV_SYNC_SO180 then p else 0)) % max 1 (2 * p) < p)

/-! ## Register views and writes -/

/-- `CONV.STAT` with its computed fields (R144). -/
def State.convStat (s : State) : Word :=
  let en := (List.range 4).foldl (fun acc n => if s.loopEnabled n then acc + 2 ^ n else acc) 0
  putBits (putBits (putBits (s.rd Reg.CONV_STAT) 13 5 (s.roleCount roleSpare)) 8 5 (s.roleCount roleActive)) 4 4 en

/-- A write of `LOOPn.CTRL` but for EN (R119, R120): DIV is ignored while the loop is enabled, 3 stored as 2; the bank is
copied. -/
def State.loopCtrlWrite (s : State) (n : Nat) (d : Word) : State :=
  let div := if s.loopEnabled n then s.f (Fd.LOOP_CTRL_DIV n) else if getBits d 4 2 = 3 then 2 else getBits d 4 2
  let en := s.f (Fd.LOOP_CTRL_EN n)
  let s := s.wr (Reg.LOOP_CTRL n) (putBits (putBits (d &&& 0x00000FBE) 4 2 div) 0 1 en)
  let s := s.setF (Fd.LOOP_TARGET_CODE n) (dacCode (s.loopDen n) (s.f (Fd.LOOP_TARGET_MV n)))
  s.copyBank n

end Sys2Proof.Machine
end

