-- ==== Sys2Proof/Machine/Flash.lean ====
section
/-! DEFINITION. The external flash port (R382–R389), the Logbook mirror (R381), the Almanac's freeze, copies and archive
(R376–R378) and the commands of RECORD.CMD (R373, R390). -/

namespace Sys2Proof.Machine

/-- The flash port's own state replaced. -/
def State.setX (s : State) (x : XFlash) : State := { s with xflash := x }

/-- The key of a flash byte. -/
def xKey (cs addr : Nat) : Nat := cs * 2 ^ 26 + addr

/-- Bytes of a flash part. -/
def State.xBytes (s : State) (cs addr n : Nat) : List Byte :=
  (List.range n).map fun i => tget erasedCell s.xflash.cells (xKey cs (addr + i))

/-- A chip select has been discovered (R383). -/
def State.csPresent (s : State) (cs : Nat) : Bool := bit (s.rd Reg.FLASH_STAT) (1 + cs)

/-- Bytes used on a chip select (R383). -/
def State.csSize (s : State) (cs : Nat) : Nat :=
  let l := if cs = 0 then s.f Fd.FLASH_DENS_LOG0 else s.f Fd.FLASH_DENS_LOG1
  if l = 0 then 0 else 2 ^ l

/-- A partition, by ID 1–7: chip select, offset and size; `none` if it does not exist (R391). -/
def State.part (s : State) (id : Nat) : Option (Nat × Nat × Nat) :=
  if s.fb (Fd.FLASH_PART_VALID (id - 1)) then
    some (s.f (Fd.FLASH_PART_CS (id - 1)), s.f (Fd.FLASH_PART_OFFSET (id - 1)), s.f (Fd.FLASH_PSIZE_SIZE (id - 1)))
  else none

/-- FS37 FLASH_FAIL with its cause (R391). -/
def State.flashFail (s : State) (cause : Nat) : State :=
  ((s.setF Fd.FLASH_FAILCAUSE_CAUSE cause).ev Fd.FLASH_EVRAW_FAIL).raise 37 0 0

/-- A plan load reads the flash: it is served before all other work (R387). -/
def State.loadReads (s : State) : Bool :=
  match s.eng.load with
  | some l => (l.src == .planA || l.src == .planB) && (l.stage == .header || l.stage == .pass1 || l.stage == .pass2)
  | none => false

/-! ## Discovery and the partition table (R383–R385) -/

/-- Discovery begins. -/
def State.discBegin (s : State) : State :=
  if s.fb Fd.FLASH_CTRL_EN then s.setX { s.xflash with disc := true, discDone := true } else s

/-- The first discovery (R383): after READY, in FULL, with EN = 1. -/
def State.discStart (s : State) : State :=
  if s.fb Fd.SYS_STAT_READY ∧ s.power.state = .full ∧ !s.xflash.discDone then s.discBegin else s

/-- What is used of a part that was found: log2 of the bytes, and whether it is truncated; `none` for an absent one. -/
def usedDensity (x : Option Sfdp) : Option (Nat × Bool) :=
  match x with
  | some f =>
    if f.log2 < 24 then none
    else if 24 < f.log2 ∧ f.addr3 then some (24, true)
    else if 26 < f.log2 then some (26, true)
    else some (f.log2, false)
  | none => none

/-- A partition set. -/
def State.setPart (s : State) (id cs off size : Nat) : State :=
  let s := ((s.setF (Fd.FLASH_PART_VALID (id - 1)) 1).setF (Fd.FLASH_PART_CS (id - 1)) cs).setF (Fd.FLASH_PART_OFFSET (id - 1)) off
  s.setF (Fd.FLASH_PSIZE_SIZE (id - 1)) size

/-- The entries of a partition table (R384): ID, chip select, offset, size. -/
def ptEntries (t : List Byte) : List (Nat × Nat × Nat × Nat) :=
  (List.range (min 16 (recField t 6 2))).map fun k =>
    (recField t (0x10 + 16 * k) 1, recField t (0x11 + 16 * k) 1, recField t (0x14 + 16 * k) 4, recField t (0x18 + 16 * k) 4)

/-- Two byte ranges of one chip select overlap. -/
def rangesMeet (cs1 a1 n1 cs2 a2 n2 : Nat) : Bool := cs1 == cs2 && decide (a1 < a2 + n2) && decide (a2 < a1 + n1)

/-- Every pair of a list satisfies a condition. -/
def allPairs {α : Type} (c : α → α → Bool) : List α → Bool
  | [] => true
  | x :: xs => xs.all (c x) && allPairs c xs

/-- Two entries do not overlap, and no ID 1–7 appears twice. -/
def ptDisjoint (e f : Nat × Nat × Nat × Nat) : Bool :=
  (e.1 != f.1 || e.1 == 0 || decide (7 < e.1)) && !rangesMeet e.2.1 e.2.2.1 e.2.2.2 f.2.1 f.2.2.1 f.2.2.2

/-- The partition table is valid (R384); IDs 0x80–0xFE, which the device ignores, take no part. -/
def State.tableValid (s : State) (t : List Byte) : Bool :=
  let n := recField t 6 2
  let es := (ptEntries t).filter fun e => decide (e.1 < 0x80) || e.1 == 0xFF
  recField t 0 4 == 0x5054424C && recField t 4 2 == 1 && decide (1 ≤ n) && decide (n ≤ 16) && crc32c (t.take 0xFFC) == recField t 0xFFC 4 &&
    es.all (fun e => e.2.2.1 != 0 && e.2.2.2 != 0 && e.2.2.1 % 4096 == 0 && e.2.2.2 % 4096 == 0 && decide (e.2.1 ≤ 1) &&
      decide (e.2.2.1 + e.2.2.2 ≤ s.csSize e.2.1) && !rangesMeet e.2.1 e.2.2.1 e.2.2.2 0 0 4096) &&
    allPairs ptDisjoint es

/-- The default layout for a used density of 2^l bytes (R385). -/
def State.defaultLayout (s : State) (l : Nat) : State :=
  let mb := 2 ^ 20
  let k := 2 ^ (l - 24)
  let s := (s.setPart 1 0 mb mb).setPart 2 0 (2 * mb) mb
  let a := 4 * mb
  let s := s.setPart 3 0 a (3 * mb * k)
  let a := a + 3 * mb * k
  let s := s.setPart 4 0 a (4 * mb * k)
  let a := a + 4 * mb * k
  let s := s.setPart 5 0 a (mb * k)
  let a := a + mb * k
  let s := s.setPart 6 0 a (mb * k)
  let a := a + mb * k
  s.setPart 7 0 a (2 ^ l - a)

/-- Discovery completes, with the port enabled and its clock running (R383, R384): densities, then the table on FCS0#. -/
def State.discFinish (s : State) (c0 c1 : Option Sfdp) : State :=
  if s.xflash.disc && s.fb Fd.FLASH_CTRL_EN && s.power.state == .full then
    let d0 := usedDensity c0
    let d1 := usedDensity c1
    let s := s.setX { s.xflash with
      disc := false, page0 := (c0.map (·.page)).getD 256, page1 := (c1.map (·.page)).getD 256,
      quad0 := (c0.map (·.quad)).getD false, quad1 := (c1.map (·.quad)).getD false }
    let s := s.setF Fd.FLASH_STAT_PRESENT (b2n d0.isSome + 2 * b2n d1.isSome)
    let t (d : Option (Nat × Bool)) : Nat := b2n ((d.map (·.2)).getD false)
    let s := s.setF Fd.FLASH_STAT_TRUNC (t d0 + 2 * t d1)
    let s := (s.setF Fd.FLASH_DENS_LOG0 ((d0.map (·.1)).getD 0)).setF Fd.FLASH_DENS_LOG1 ((d1.map (·.1)).getD 0)
    let s := (List.range 7).foldl (fun s i => (s.wr (Reg.FLASH_PART i) 0).wr (Reg.FLASH_PSIZE i) 0) s
    let s := (s.setF Fd.FLASH_STAT_DEFLAYOUT 0).setF Fd.FLASH_STAT_PTBAD 0
    let s := match d0 with
      | none => s.flashFail 2
      | some (l, _) =>
        let tab := s.xBytes 0 0 4096
        if recField tab 0 4 = 0xFFFFFFFF then (s.defaultLayout l).setF Fd.FLASH_STAT_DEFLAYOUT 1
        else if s.tableValid tab then
          (ptEntries tab).foldl (fun (s : State) (e : Nat × Nat × Nat × Nat) => if 1 ≤ e.1 ∧ e.1 ≤ 7 then s.setPart e.1 e.2.1 e.2.2.1 e.2.2.2 else s) s
        else (s.setF Fd.FLASH_STAT_PTBAD 1).flashFail 5
    s.ev Fd.FLASH_EVRAW_DISC
  else s

/-! ## Host commands (R388) -/

/-- The longest program that reaches no page boundary (R383): the part of `data` up to the next one, and the rest. `n` bounds
the parts. -/
def pieces (page cs : Nat) : Nat → Nat → List Byte → List FlashOp
  | 0, _, _ => []
  | n + 1, a, data =>
    if data.isEmpty then []
    else
      let k := page - a % page
      .prog cs a (data.take k) :: pieces page cs n (a + k) (data.drop k)

/-- The page size of a part (R383). -/
def XFlash.page (x : XFlash) (cs : Nat) : Nat := if cs = 0 then x.page0 else x.page1

/-- An operation as the port carries it out: programs never cross a boundary of the part's page size (R383). -/
def XFlash.split (x : XFlash) : FlashOp → List FlashOp
  | .prog cs a data => pieces (max 1 (x.page cs)) cs data.length a data
  | o => [o]

/-! ## What the port sends (R382) -/

/-- The read command of a part: `CFG.RDMODE`, where a part without quad read takes 2 as 1 (R382, R383). -/
def State.readCommand (s : State) (cs : Nat) : Byte :=
  match s.f Fd.FLASH_CFG_RDMODE with
  | 0 => 0x03
  | 1 => 0x0B
  | _ => if (if cs = 0 then s.xflash.quad0 else s.xflash.quad1) then 0xEB else 0x0B

/-- An address on the lines: four bytes for a part that is used beyond 16 MB, else three (R383). -/
def State.flashAddr (s : State) (cs a : Nat) : List Byte := bytesBE (if 2 ^ 24 < s.csSize cs then 4 else 3) a

/-- The commands of an operation before its data (R382): command byte, address, and the dummy or mode byte. -/
def State.flashCommands (s : State) : FlashOp → List (List Byte)
  | .read cs a _ => [s.readCommand cs :: s.flashAddr cs a ++ (if s.readCommand cs = 0x03 then [] else [0x00])]
  | .prog cs a _ => [[0x06], (if s.fb Fd.FLASH_CFG_QPP then 0x32 else 0x02) :: s.flashAddr cs a, [0x05]]
  | .erase cs a => [[0x06], 0x20 :: s.flashAddr cs a, [0x05]]

/-- The read of the SFDP header that discovery sends, at 20 MHz (R382, R383). -/
def sfdpCommand : List Byte := [0x5A, 0, 0, 0, 0]

/-- FSCK in kHz for an operation (R382): the 03h read at no more than 25 MHz. -/
def State.fsckKhz (s : State) (o : FlashOp) : Nat :=
  let d := s.f Fd.FLASH_CFG_DIV
  let k := if d = 0 then 80000 else 200000 / d
  match o with
  | .read cs _ _ => if s.readCommand cs = 0x03 then min k 25000 else k
  | _ => k

/-- A host command completes with a code (R388, R389). -/
def State.hostFlashEnd (s : State) (by' : Option Proc) (code : Nat) : State :=
  let s := (s.wr Reg.FLASH_HRES 0).setF Fd.FLASH_HRES_DONE 1
  let s := (s.setFb Fd.FLASH_HRES_ERR (code != 0)).setF Fd.FLASH_HRES_CODE code
  let s := s.ev Fd.FLASH_EVRAW_HDONE
  match by' with
  | some .A => s.pulse 70
  | some .B => s.pulse 86
  | none => s

/-- A range touches a partition. -/
def State.touches (s : State) (id cs a n : Nat) : Bool :=
  match s.part id with
  | some (c, off, size) => rangesMeet cs a n c off size
  | none => false

/-- The code that refuses a host command, 0 if it is accepted: operation, chip select, first byte, length. -/
def State.hostFlashCode (s : State) (op cs a n : Nat) : Nat :=
  let page := if cs = 0 then s.xflash.page0 else s.xflash.page1
  if s.fb Fd.FLASH_STAT_BUSY then 6
  else if !s.csPresent cs ∨ s.f Fd.FLASH_CTRL_EN = 0 then 1
  else if s.csSize cs < a + n ∨ (op = 2 ∧ a / page ≠ (a + n - 1) / page) then 2
  else if op != 1 && ([3, 4, 5, 6].any (fun id => s.touches id cs a n) ||
      (s.f Fd.FLASH_CTRL_PLANWEN == 0 && (rangesMeet cs a n 0 0 4096 || s.touches 1 cs a n || s.touches 2 cs a n)) ||
      (s.loadReads && (match s.eng.load with
        | some l => s.touches (if l.src = .planA then 1 else 2) cs a n
        | none => false))) then 3
  else 0

/-- The bytes of the flash buffer. -/
def State.flashBuf (s : State) (n : Nat) : List Byte :=
  ((List.range 64).flatMap fun i => bytesBE 4 (s.rd (Reg.FLASH_BUF i)).toNat).take n

/-- A write of `FLASH.HCMD` (R388). -/
def State.hostFlash (s : State) (by' : Option Proc) (d : Word) : State :=
  let op := getBits d 28 4
  if op = 0 ∨ 3 < op then s
  else
    let n := clampNat 1 256 (getBits d 0 9)
    let cs := s.f Fd.FLASH_HADDR_CS
    let a := s.f Fd.FLASH_HADDR_ADDR
    let (a, n) := if op = 3 then (a / 4096 * 4096, 4096) else (a, n)
    match s.hostFlashCode op cs a n with
    | 0 =>
      let o : FlashOp := if op = 1 then .read cs a n else if op = 2 then .prog cs a (s.flashBuf n) else .erase cs a
      let s := (s.wr Reg.FLASH_HRES 0).setF Fd.FLASH_STAT_BUSY 1
      s.setX { s.xflash with queue := ⟨.host by', [o], 0⟩ :: s.xflash.queue }
    | c => s.hostFlashEnd by' c

/-! ## Mirror, appends and archive (R378, R381, R386) -/

/-- The Logbook is mirrored: LMIRROR = 1 and the partition exists. -/
def State.mirroring (s : State) : Bool := s.fb Fd.RECORD_CTRL_LMIRROR && (s.part 4).isSome

/-- Entries not yet mirrored. -/
def State.unmirrored (s : State) : Nat :=
  (s.f Fd.RECORD_LSEQ_LSEQ + 2 ^ 32 - s.f Fd.RECORD_LMIRROR_LSEQ) % 2 ^ 32

/-- Entries lost to the mirror are counted, and LMIRROR passes them (R381). -/
def State.mirrorSkip (s : State) (n : Nat) : State :=
  let s := s.setF Fd.RECORD_LLOST_COUNT (min (2 ^ 32 - 1) (s.f Fd.RECORD_LLOST_COUNT + n))
  s.setF Fd.RECORD_LMIRROR_LSEQ (s.f Fd.RECORD_LMIRROR_LSEQ + n)

/-- A mirror group is under way: the port holds its entries. -/
def State.mirrorOut (s : State) : Bool :=
  (s.xflash.queue ++ s.xflash.busy0.toList ++ s.xflash.busy1.toList).any fun j => match j.kind with
    | .mirror _ => true
    | _ => false

/-- Upkeep of the mirror after a command: overwritten entries, judged while no group is under way, and the age of an
incomplete group. -/
def State.mirrorUpkeep (s : State) : State :=
  if s.mirroring then
    let n := s.unmirrored
    let s := if 2048 < n ∧ !s.mirrorOut then s.mirrorSkip (n - 2048) else s
    match s.xflash.mirSince with
    | none => if n = 0 then s else s.setX { s.xflash with mirSince := some s.ticks }
    | some _ => if n = 0 then s.setX { s.xflash with mirSince := none } else s
  else s

/-- A group stays incomplete for FLUSH ms (R381). -/
def State.logbookFlush (s : State) : State :=
  match s.xflash.mirSince with
  | some t =>
    if s.mirroring ∧ s.unmirrored < 8 ∧ t + msTicks (s.f Fd.RECORD_LCFG_FLUSH) ≤ s.ticks then
      s.setX { s.xflash with mirFlush := true }
    else s
  | none => s

/-- The next mirror group as port work, if one is due. -/
def State.mirrorJob (s : State) : Option FlashJob :=
  match s.part 4 with
  | some (cs, off, size) =>
    let n := min 8 s.unmirrored
    if s.fb Fd.RECORD_CTRL_LMIRROR ∧ (n = 8 ∨ (0 < n ∧ s.xflash.mirFlush)) ∧ 0 < size then
      let l := s.f Fd.RECORD_LMIRROR_LSEQ
      let data := ((List.range n).flatMap fun i => s.bytes (0x140000 + 32 * ((l + i) % 2048)) 32) ++ List.replicate (32 * (8 - n)) 0xFF
      let pages := size / 256
      let pg := s.xflash.mirPage % pages
      let sector := pg / 16
      let next := (sector + 1) % (pages / 16)
      let first := if pg % 16 = 0 ∧ !s.xflash.mirErased.contains sector then [FlashOp.erase cs (off + 4096 * sector)] else []
      let ahead := if pg % 16 = 8 then [FlashOp.erase cs (off + 4096 * next)] else []
      some ⟨.mirror n, first ++ s.xflash.split (.prog cs (off + 256 * pg) data) ++ ahead, 0⟩
    else none
  | none => none

/-- A record appended to a partition (R386): its sector is erased before the first write into it. -/
def State.appendJob (s : State) (kind : FlashKind) (id pos : Nat) (data : List Byte) : Option FlashJob :=
  match s.part id with
  | some (cs, off, size) =>
    if size = 0 then none
    else
      let p := pos % size
      let first := if p % 4096 = 0 then [FlashOp.erase cs (off + p)] else []
      some ⟨kind, first ++ s.xflash.split (.prog cs (off + p) data), 0⟩
  | none => none

/-- A HEALTH or GAUGE record queued for its partition, if that exists. -/
def State.flashAppend (s : State) (kind : FlashKind) (data : List Byte) : State :=
  let (id, pos) := if kind = .health then (5, s.xflash.healthPos) else (6, s.xflash.gaugePos)
  match s.appendJob kind id pos data with
  | some j =>
    let x := { s.xflash with queue := s.xflash.queue ++ [j] }
    s.setX (if kind = .health then { x with healthPos := pos + 256 } else { x with gaugePos := pos + 256 })
  | none => s

/-- The SEQ of the oldest of the 2,048 entries in the ring. -/
def State.oldestSeq (s : State) : Nat := (s.f Fd.RECORD_ASEQ_SEQ + 2 ^ 32 - 2048) % 2 ^ 32

/-- Entries of the ring as the archive holds them: page `i` of 256 bytes, oldest first. -/
def State.archPage (s : State) (i : Nat) : List Byte :=
  (List.range 8).flatMap fun j => s.bytes (0x130000 + 32 * ((s.oldestSeq + 8 * i + j) % 2048)) 32

/-- The header of an archive block (R378). -/
def State.archHeader (s : State) : List Byte :=
  let all := (List.range 256).flatMap s.archPage
  withCrc32c (packBE [(0x414C4D41, 4), (s.xflash.archNo, 4), (s.f Fd.RECORD_BOOTNO_BOOTNO, 2), (s.almanac.code, 2),
    (s.f Fd.RECORD_AFREEZE_SEQ, 4), (s.oldestSeq, 4), (crc32c all, 4), (s.almanac.lostAt, 4)])

/-- Operation `i` of the archive block (R378): 17 erases, 256 pages of entries, the header last. -/
def State.archOp (s : State) (i : Nat) : Option FlashOp :=
  match s.part 3 with
  | some (cs, off, size) =>
    let blocks := size / 69632
    if blocks = 0 then none
    else
      let base := off + 69632 * (s.xflash.archBlock % blocks)
      if i < 17 then some (.erase cs (base + 4096 * i))
      else if i < 273 then some (.prog cs (base + 4096 + 256 * (i - 17)) (s.archPage (i - 17)))
      else if i = 273 then some (.prog cs base s.archHeader)
      else none
  | none => none

/-- The operations of a job as they stand: the present step's of an archive block, else those left. -/
def State.jobOps (s : State) (j : FlashJob) : List FlashOp :=
  if j.kind = .archive ∧ j.ops = [] then (s.archOp j.step).toList.flatMap s.xflash.split else j.ops

/-- The operation a job has next. -/
def State.jobOp (s : State) (j : FlashJob) : Option FlashOp := (s.jobOps j).head?

/-- A job after its present operation. -/
def State.jobNext (s : State) (j : FlashJob) : FlashJob :=
  let rest := (s.jobOps j).drop 1
  { j with ops := rest, step := if rest = [] then j.step + 1 else j.step }

/-- The chip select of an operation. -/
def FlashOp.cs : FlashOp → Nat
  | .read c _ _ => c
  | .prog c _ _ => c
  | .erase c _ => c

/-- The rank of a job (R387). -/
def FlashKind.rank : FlashKind → Nat
  | .host _ => 1
  | .mirror _ => 2
  | .health => 3
  | .gauge => 3
  | .archive => 4

/-- The work under way on a chip select. -/
def XFlash.busy (x : XFlash) (cs : Nat) : Option FlashJob := if cs = 0 then x.busy0 else x.busy1

/-- The work under way on a chip select, replaced. -/
def XFlash.setBusy (x : XFlash) (cs : Nat) (j : Option FlashJob) : XFlash :=
  if cs = 0 then { x with busy0 := j } else { x with busy1 := j }

/-- AO tick at which the work under way on a chip select began. -/
def XFlash.since (x : XFlash) (cs : Nat) : Nat := if cs = 0 then x.since0 else x.since1

/-- An operation begins on a chip select at a tick. -/
def XFlash.begin (x : XFlash) (cs t : Nat) : XFlash := if cs = 0 then { x with since0 := t } else { x with since1 := t }

/-- External flash cells of the operation under way on a chip select, after it has failed or lost its power. -/
def State.xflashTorn (s : State) (cs : Nat) : State :=
  let torn (key n : Nat) : State :=
    { s with xflash := { s.xflash with cells := putCells s.xflash.cells key (tornBytes s.freeCtr n) }, freeCtr := s.freeCtr + n }
  match (s.xflash.busy cs).bind s.jobOp with
  | some (.prog c a data) => torn (xKey c a) data.length
  | some (.erase c a) => torn (xKey c a / 4096 * 4096) 4096
  | _ => s

/-- The port takes up its next work (R387): the lowest rank whose chip select is free. -/
def State.flashStart (s : State) : State :=
  if s.f Fd.FLASH_CTRL_EN = 0 ∨ s.power.state ≠ .full ∨ s.xflash.disc ∨ s.loadReads then s
  else
    let inUse (k : FlashKind) : Bool := [s.xflash.busy0, s.xflash.busy1].any fun b => (b.map fun j => j.kind.rank == k.rank).getD false
    let mirror := match s.mirrorJob with
      | some j => if inUse j.kind then [] else [j]
      | none => []
    let all := s.xflash.queue ++ mirror
    let ok (r : Nat) : Option FlashJob := all.find? fun j => j.kind.rank == r &&
      (match s.jobOp j with
        | some o => (s.xflash.busy o.cs).isNone
        | none => true)
    match [1, 2, 3, 4].findSome? ok with
    | some j =>
      let x := { s.xflash with queue := s.xflash.queue.erase j }
      match s.jobOp j with
      | some o => s.setX ((x.setBusy o.cs (some j)).begin o.cs s.ticks)
      | none => s.setX x
    | none => s

/-- The effect of a completed operation on the part. -/
def State.flashCommit (s : State) (o : FlashOp) : State :=
  match o with
  | .read cs a n =>
    let b := s.xBytes cs a n ++ List.replicate ((4 - n % 4) % 4) 0
    (List.range (divCeil n 4)).foldl (fun s i => s.wr (Reg.FLASH_BUF i) (wordBE ((b.drop (4 * i)).take 4))) s
  | .prog cs a data => s.setX { s.xflash with cells := putCells s.xflash.cells (xKey cs a) data }
  | .erase cs a => s.setX { s.xflash with cells := s.xflash.cells.filter fun c => !(c.1 / 4096 == xKey cs a / 4096) }

/-- A mirror group is done with: its entries pass, the next group takes the next page. -/
def State.mirrorPass (s : State) (n : Nat) : State :=
  let x := s.xflash
  let pages := ((s.part 4).map fun p => p.2.2 / 256).getD 1
  let pg := x.mirPage % max 1 pages
  let erased := if pg % 16 = 8 then ((pg / 16 + 1) % max 1 (pages / 16)) :: x.mirErased else x.mirErased
  let erased := if pg % 16 = 0 then erased.filter (· != pg / 16) else erased
  (s.setX { x with mirPage := x.mirPage + 1, mirErased := erased, mirFlush := false, mirSince := none }).setF
    Fd.RECORD_LMIRROR_LSEQ (s.f Fd.RECORD_LMIRROR_LSEQ + n)

/-- A job's last operation has completed. -/
def State.jobDone (s : State) (j : FlashJob) : State :=
  match j.kind with
  | .host by' => (s.setF Fd.FLASH_STAT_BUSY 0).hostFlashEnd by' 0
  | .mirror n => s.mirrorPass n
  | .archive => s.setX { s.xflash with archBlock := s.xflash.archBlock + 1, archNo := s.xflash.archNo + 1 }
  | _ => s

/-- A job is abandoned (R389). -/
def State.jobLost (s : State) (j : FlashJob) (code : Nat) : State :=
  match j.kind with
  | .host by' => (s.setF Fd.FLASH_STAT_BUSY 0).hostFlashEnd by' code
  | .mirror n =>
    let s := s.mirrorPass n
    s.setF Fd.RECORD_LLOST_COUNT (min (2 ^ 32 - 1) (s.f Fd.RECORD_LLOST_COUNT + n))
  | .archive => s.setX { s.xflash with archBlock := s.xflash.archBlock + 1, archNo := s.xflash.archNo + 1 }
  | _ => s

/-- A program or erase under way on a chip select fails (R389): its cells are unspecified, its data is abandoned. -/
def State.flashBad (s : State) (cs : Nat) (j : FlashJob) (code cause : Nat) : State :=
  let s := s.xflashTorn cs
  ((s.setX (s.xflash.setBusy cs none)).jobLost j code).flashFail cause

/-- An operation on a chip select completes; `ok` says that a program verified (R389). -/
def State.flashOpDone (s : State) (cs : Nat) (ok : Bool) : State :=
  match s.xflash.busy cs with
  | some j =>
    match s.jobOp j with
    | some o =>
      let bad := !ok && (match o with
        | .prog _ _ _ => true
        | _ => false)
      if bad then s.flashBad cs j 5 4
      else
        let s := (s.setX (s.xflash.setBusy cs none)).flashCommit o
        let j := s.jobNext j
        match s.jobOp j with
        | some _ => s.setX { s.xflash with queue := j :: s.xflash.queue }
        | none => s.jobDone j
    | none => (s.setX (s.xflash.setBusy cs none)).jobDone j
  | none => s

/-- AO ticks that an operation may take: `TMO.PROG` or `TMO.ERASE` ms (R389); none for a read. -/
def State.flashLimit (s : State) : FlashOp → Option Nat
  | .read _ _ _ => none
  | .prog _ _ _ => some (msTicks (s.f Fd.FLASH_TMO_PROG))
  | .erase _ _ => some (msTicks (s.f Fd.FLASH_TMO_ERASE))

/-- A program or erase exceeds its timeout (R389). -/
def State.flashTimeout (s : State) (cs : Nat) : State :=
  match s.xflash.busy cs with
  | some j =>
    match (s.jobOp j).bind s.flashLimit with
    | some t => if s.xflash.since cs + t ≤ s.ticks then s.flashBad cs j 4 3 else s
    | none => s
  | none => s

/-- A host command that waits for the port completes as ABSENT when EN is written 0 (R383). -/
def State.hostAbsent (s : State) : State :=
  let host (j : FlashJob) : Bool := j.kind.rank == 1
  match s.xflash.queue.find? host with
  | some j => (s.setX { s.xflash with queue := s.xflash.queue.filter (!host ·) }).jobLost j 1
  | none => s

/-- A write of `FLASH.CTRL` (R383): REDISC rediscovers while EN is 1; EN written 1 after the first entry into FULL starts
the discovery that was owed. -/
def State.flashCtrlWrite (s : State) (d : Word) : State :=
  let s := s.wr Reg.FLASH_CTRL (d &&& 0x3)
  if getBits d 0 1 = 0 then s.hostAbsent
  else if getBits d 2 1 = 1 then s.discBegin
  else s.discStart

/-! ## Freeze and RECORD.CMD (R373, R376–R378) -/

/-- POST ends (R376): the Almanac freezes and its copies are queued. -/
def State.almanacFreeze (s : State) : State :=
  if s.f Fd.RECORD_STAT_ASTATE = 1 ∧ (s.almanac.postLeft = 0 ∨ s.almanac.postDue ≤ s.ticks) then
    let s := s.setF Fd.RECORD_STAT_ASTATE 2
    let s := { s with almanac := { s.almanac with lostAt := s.f Fd.RECORD_ASTAT_LOST, archWait := true } }
    (s.queueTails .freeze).recStart
  else s

/-- POST entries have been written, or POST is 0: the freeze follows at once (R376). -/
def State.almanacSpent (s : State) : State :=
  if s.f Fd.RECORD_STAT_ASTATE = 1 ∧ s.almanac.postLeft = 0 then s.almanacFreeze else s

/-- Step 3 of the copies follows steps 1 and 2 (R378): the archive block, with AARCH = 1 and its partition present. -/
def State.archUpkeep (s : State) : State :=
  if s.f Fd.RECORD_STAT_ASTATE = 2 ∧ s.almanac.archWait ∧ !s.recPending .freeze then
    let s := { s with almanac := { s.almanac with archWait := false } }
    if s.fb Fd.RECORD_CTRL_AARCH ∧ (s.part 3).isSome then
      s.setX { s.xflash with queue := s.xflash.queue ++ [⟨.archive, [], 0⟩] }
    else s
  else s

/-- An archive block is queued or under way. -/
def State.archiving (s : State) : Bool :=
  (s.xflash.queue ++ s.xflash.busy0.toList ++ s.xflash.busy1.toList).any fun j => j.kind == .archive

/-- The freeze copies are complete or abandoned (R371, R376, R378): the Almanac runs on, or is held. -/
def State.freezeCopyDone (s : State) : State :=
  if s.f Fd.RECORD_STAT_ASTATE = 2 ∧ !s.recPending .freeze ∧ !s.almanac.archWait ∧ !s.archiving then
    let s := (s.ev Fd.RECORD_EVRAW_FROZEN).pulse 63
    let c := s.rflash.counters
    let s := s.setRec { s.rflash with counters := { c with freezes := satInc (2 ^ 32 - 1) c.freezes } }
    let s := s.recCounters.recStart
    if s.fb Fd.RECORD_CTRL_AUTORESUME then s.almanacRun else s.setF Fd.RECORD_STAT_ASTATE 3
  else s

/-- RECORD.CMD READPAGE (R373). -/
def State.recReadPage (s : State) (page : Nat) : State :=
  let b := s.rflash.pageBytes page 0 128
  let s := (List.range 32).foldl (fun s i => s.wr (Reg.RECORD_BUF i) (wordBE ((b.drop (4 * i)).take 4))) s
  s.recCmdDone 0 0

/-- RECORD.CMD TAILS (R378). -/
def State.recTails (s : State) : State := (s.recCmdBegin.queueTails .cmdTails).recStart

/-- RECORD.CMD SDWRITE (R373). -/
def State.recSdwrite (s : State) (reason : Nat) : State :=
  let words := (List.range 12).map fun i => ((s.rd (Reg.RECORD_SDDATA i)).toNat, 4)
  let time := s.chipTime
  ((s.recCmdBegin).recRing .cmdShutdown .shutdown fun n =>
    withCrc32c (packBE ([(0x4F, 1), (reason, 1), (n, 2), (time, 8)] ++ words))).recStart

/-- RECORD.CMD TRIG (R376). -/
def State.recTrig (s : State) : State := (s.almanacTrigger 0x100).recCmdDone 0 0

/-- RECORD.CMD RESUME (R376): NOTHELD unless the Almanac is HELD. -/
def State.recResume (s : State) : State :=
  if s.f Fd.RECORD_STAT_ASTATE = 3 then s.almanacRun.recCmdDone 0 0 else s.recCmdDone 5 0

/-- A write of `RECORD.CMD` (R373, R390): while BUSY is 1 it completes at once with CODE BUSY. -/
def State.recordCmd (s : State) (d : Word) : State :=
  let op := getBits d 28 4
  let arg := getBits d 0 8
  if op = 0 ∨ 5 < op then s
  else if s.fb Fd.RECORD_STAT_BUSY then s.recCmdDone 1 0
  else
    match op with
    | 1 => s.recReadPage arg
    | 2 => s.recTails
    | 3 => s.recSdwrite arg
    | 4 => s.recTrig
    | _ => s.recResume

end Sys2Proof.Machine
end

