-- ==== Sys2Proof/Machine/Points.lean ====
section
/-! DEFINITION. The point table (R298, R325), the ledger's capabilities, totals, reserve and margins as functions of it
(R302–R309, R321), and the release of a record (R313, R319). -/

namespace Sys2Proof.Machine

/-- Word at offset `off` of a point's entry (R298). -/
def ptAddr (gp off : Nat) : Nat := 0x120000 + 64 * gp + off

/-- A field of a point's entry: offset, low bit, width. -/
abbrev PtFld := Nat × Nat × Nat

namespace Pt
abbrev PRES : PtFld := (0x00, 30, 2)
abbrev EPOCH : PtFld := (0x00, 26, 4)
abbrev ROLE : PtFld := (0x00, 18, 8)
abbrev GROUP : PtFld := (0x00, 14, 4)
abbrev PRIO : PtFld := (0x00, 11, 3)
abbrev PEND : PtFld := (0x00, 10, 1)
abbrev OUTPUT : PtFld := (0x00, 7, 3)
abbrev MISS : PtFld := (0x00, 4, 2)
abbrev SEQ : PtFld := (0x00, 0, 4)
abbrev VENDOR : PtFld := (0x04, 16, 16)
abbrev MODEL : PtFld := (0x04, 0, 16)
abbrev SERIAL : PtFld := (0x08, 0, 32)
abbrev STATUS0 : PtFld := (0x0C, 0, 32)
abbrev PMEAS : PtFld := (0x0C, 0, 16)
abbrev FLT : PtFld := (0x0C, 27, 1)
abbrev STATUS1 : PtFld := (0x10, 0, 32)
abbrev TSTATUS : PtFld := (0x14, 0, 32)
abbrev TOFF : PtFld := (0x18, 0, 32)
abbrev CRCERR : PtFld := (0x1C, 24, 8)
abbrev NOREPLY : PtFld := (0x1C, 16, 8)
abbrev NAK : PtFld := (0x1C, 8, 8)
abbrev STALE : PtFld := (0x1C, 0, 8)
abbrev LSTATE : PtFld := (0x20, 29, 3)
abbrev BLOOP : PtFld := (0x20, 26, 3)
abbrev BPRIO : PtFld := (0x20, 23, 3)
abbrev BGROUP : PtFld := (0x20, 19, 4)
abbrev ODRAW : PtFld := (0x20, 18, 1)
abbrev ODCNT : PtFld := (0x20, 16, 2)
abbrev RESMW : PtFld := (0x20, 0, 16)
abbrev PEAKMW : PtFld := (0x24, 16, 16)
abbrev LASTMW : PtFld := (0x24, 0, 16)
abbrev TSTAMP : PtFld := (0x28, 0, 32)
abbrev EXTRAMJ : PtFld := (0x2C, 0, 16)
abbrev PGRANT0 : PtFld := (0x30, 0, 32)
abbrev PGRANT1 : PtFld := (0x34, 16, 16)
abbrev PEPOCH : PtFld := (0x34, 0, 4)
end Pt

/-- The register field of a point's field. -/
def ptFld (gp : Nat) (f : PtFld) : Fld := ⟨ptAddr gp f.1, f.2.1, f.2.2⟩

/-- A field of a point's entry. -/
def State.pt (s : State) (gp : Nat) (f : PtFld) : Nat := s.f (ptFld gp f)

/-- A field of a point's entry stored. -/
def State.setPt (s : State) (gp : Nat) (f : PtFld) (v : Nat) : State := s.setF (ptFld gp f) v

/-- A saturating counter of a point's entry. -/
def State.incPt (s : State) (gp : Nat) (f : PtFld) : State := s.incF (ptFld gp f)

/-- Chip time [47:16], the 32-bit stamp of the point table. -/
def State.stamp (s : State) : Nat := s.ticks % 2 ^ 32

/-- A point is NEW or PRESENT (R274). -/
def State.ptHere (s : State) (gp : Nat) : Bool := s.pt gp Pt.PRES == 1 || s.pt gp Pt.PRES == 2

/-- Points with a ledger record that is not NONE, ascending, each with its record word (R305). -/
def State.records (s : State) : List (Nat × Word) :=
  s.regs.filterMap fun p =>
    if 0x120000 ≤ p.1 ∧ p.1 < 0x128000 ∧ p.1 % 64 = 0x20 then some ((p.1 - 0x120000) / 64, p.2) else none

/-- LSTATE of a record word. -/
def recState (w : Word) : Nat := getBits w 29 3

/-- RESMW of a record word. -/
def recMw (w : Word) : Nat := getBits w 0 16

/-- Saturating unsigned 32-bit sum (R300). -/
def satAdd (a b : Nat) : Nat := min (2 ^ 32 - 1) (a + b)

/-- The sum of RESMW over the records that satisfy a condition (R307). -/
def State.sumRes (s : State) (c : Word → Bool) : Nat :=
  s.records.foldl (fun acc p => if c p.2 then satAdd acc (recMw p.2) else acc) 0

/-- A record that holds power: RESERVED or COMMITTED. -/
def recHolds (w : Word) : Bool := recState w == 1 || recState w == 2

/-- `COMMIT_TOTAL` (R307). -/
def State.commitTotal (s : State) : Nat := satAdd (s.f Fd.LEDGER_BASELOAD_MW) (s.sumRes fun w => recState w == 2)

/-- `RESV_TOTAL` (R307). -/
def State.resvTotal (s : State) : Nat := s.sumRes fun w => recState w == 1

/-- `LOOPn_COMMIT` (R307). -/
def State.loopCommit (s : State) (n : Nat) : Nat := s.sumRes fun w => recHolds w && getBits w 26 3 == n

/-- `GCOMMITg` (R307). -/
def State.groupCommit (s : State) (g : Nat) : Nat := s.sumRes fun w => recHolds w && getBits w 19 4 == g

/-- `MEAS_TOTAL` (R307). -/
def State.measTotal (s : State) : Nat :=
  s.records.foldl (fun acc p => if recState p.2 == 2 then satAdd acc (s.pt p.1 Pt.PMEAS) else acc) 0

/-- `SOURCE_CAP` (R302). -/
def State.sourceCap (s : State) : Nat := min (2 ^ 32 - 1) (s.f Fd.PATH_CAP_INCAP * s.plant.vac.getD 0 / 1000)

/-- FSOC (R303). -/
def State.fsoc (s : State) : Nat :=
  let soc := s.gauged.soc
  let hi := s.f Fd.LEDGER_BATT_SOCHI * 100
  let lo := s.f Fd.LEDGER_BATT_SOCLO * 100
  let floor := s.f Fd.LEDGER_BATT_FLOOR
  if s.gauged.empty then 0
  else if hi ≤ soc then 100
  else if soc ≤ lo then floor
  else floor + (100 - floor) * (soc - lo) / (hi - lo)

/-- FTEMP (R303): TCELL in 0.1 °C against limits in °C. -/
def State.ftemp (s : State) : Nat :=
  if s.gauged.tinv || s.gauged.tcell < 10 * signed 8 (s.f Fd.LEDGER_BATTT_TLO) || 10 * signed 8 (s.f Fd.LEDGER_BATTT_THI) < s.gauged.tcell
  then s.f Fd.LEDGER_BATTT_TPCT else 100

/-- The battery factor BF (R303). -/
def State.battFactor (s : State) : Nat :=
  let fstate := if s.gauged.cntinv || s.gauged.hold1 then s.f Fd.LEDGER_BATT_UNCPCT else 100
  min s.fsoc (min s.ftemp fstate)

/-- `BATT_CAP` (R303). -/
def State.battCap (s : State) : Nat :=
  min (2 ^ 32 - 1) (s.f Fd.PATH_CAP_SUPCAP * s.f Fd.PATH_SUP_VSYSHOLD / 10 * s.battFactor / 100)

/-- `LOOPn_CAP` (R304): an NCAP of 0 encodes 16. -/
def State.loopCap (s : State) (n : Nat) : Nat :=
  if s.f (Fd.LOOP_STAT_STATE n) = 2 ∨ s.f (Fd.LOOP_STAT_STATE n) = 3 then
    let ncap := if s.f (Fd.HEALTH_LCAP_NCAP n) = 0 then 16 else s.f (Fd.HEALTH_LCAP_NCAP n)
    min (2 ^ 32 - 1) (ncap * s.f (Fd.HEALTH_LCAP_PHLIM n) * s.f (Fd.LOOP_TARGET_MV n) / 10)
  else 0

/-- `EFFCAP` (R305). -/
def State.effCap (s : State) : Nat :=
  if s.sourceCap = 0 then s.battCap
  else if s.fb Fd.LEDGER_CTRL_BATTADD then satAdd s.sourceCap s.battCap else s.sourceCap

/-- `HEADROOM`, signed and saturating (R300, R307). -/
def State.headroom (s : State) : Int :=
  clampInt (-(2 ^ 31)) (2 ^ 31 - 1) ((s.effCap : Int) - (s.commitTotal : Int) - (s.resvTotal : Int))

/-- `OVERBY` (R307). -/
def State.overBy (s : State) : Nat := (-s.headroom).toNat

/-- TSTOP of a priority, in ms (R308). -/
def State.tstop (s : State) (p : Nat) : Nat := getBits (s.rd (Reg.LEDGER_TSTOP0 + 4 * (p / 2))) (16 * (p % 2)) 16

/-- `RESERVE` (R308). -/
def State.reserve (s : State) : Nat :=
  s.records.foldl (fun acc p =>
    if recHolds p.2 then satAdd (satAdd acc (recMw p.2 * s.tstop (getBits p.2 23 3) / 1000)) (s.pt p.1 Pt.EXTRAMJ) else acc)
    (s.f Fd.LEDGER_LBBASE_MJ)

/-- `EMARGIN` (R309). -/
def State.emargin (s : State) : Int :=
  clampInt (-(2 ^ 31)) (2 ^ 31 - 1)
    ((min (2 ^ 32 - 1) (s.gauged.energy * 1000 * s.f Fd.LEDGER_ENERGY_EUSE / 100) : Int) - (s.reserve : Int))

/-- `THROTTLE.EFFPRIO` (R321). -/
def State.effPrio (s : State) : Nat :=
  if s.fb Fd.LEDGER_CTRL_AUTOT && s.hot then max (s.f Fd.LEDGER_THROTTLE_MINPRIO) (s.f Fd.LEDGER_THROTTLE_TPRIO)
  else s.f Fd.LEDGER_THROTTLE_MINPRIO

/-- The loop that a group is booked on, 0–3 or 4 for none (R306). -/
def State.groupLoop (s : State) (g : Nat) : Nat :=
  if g < 8 then getBits (s.rd Reg.LEDGER_GROUPLOOP0) (4 * g) 4
  else if g < 14 then getBits (s.rd Reg.LEDGER_GROUPLOOP1) (4 * (g - 8)) 4
  else 4

/-- Due tick of a point's reservation timer (R314), if it runs. -/
def State.resDue (s : State) (gp : Nat) : Option Nat := tget (fun _ => none) s.resTimers gp

/-- A reservation timer set or stopped. -/
def State.setResDue (s : State) (gp : Nat) (d : Option Nat) : State :=
  { s with resTimers := tset (fun _ => none) s.resTimers gp d }

/-- A record released as LREL does (R313); answers the mW released. -/
def State.releaseRecord (s : State) (gp : Nat) : State × Nat :=
  let mw := if recHolds (s.rd (ptAddr gp 0x20)) then s.pt gp Pt.RESMW else 0
  (((s.setPt gp Pt.LSTATE 0).setPt gp Pt.RESMW 0).setResDue gp none, mw)

/-- A point's removal (R319): its record becomes NONE, with REMOVED and an Almanac entry if it was not NONE already. -/
def State.ledgerRemove (s : State) (gp : Nat) : State :=
  if s.pt gp Pt.LSTATE = 0 then s
  else
    let (s, mw) := s.releaseRecord gp
    (s.ev Fd.LEDGER_EVRAW_REMOVED).almanacBlock 3 4 gp mw

/-- A point's arrival (R319): the record with all fields 0. -/
def State.ledgerArrive (s : State) (gp : Nat) : State :=
  [0x20, 0x24, 0x28, 0x2C].foldl (fun s off => s.wr (ptAddr gp off) 0) (s.setResDue gp none)

/-- The ledger is free: an operation is taken up at once (R18). -/
def State.ledgerFree (s : State) : Bool := s.eng.ledgerBusy.isNone && s.eng.ledgerQ.isEmpty

/-- A link event as a ledger operation (R319): carried out by `now` if the ledger is free, else in issue order. -/
def State.ledgerLink (s : State) (op : LedgerOp) (now : State → State) : State :=
  if s.ledgerFree then now s else { s with eng := { s.eng with ledgerQ := s.eng.ledgerQ ++ [(.link, op)] } }

/-- The measured draw of a COMMITTED point with OUTPUT ON (R320). -/
def State.ledgerDraw (s : State) (gp : Nat) : State :=
  if s.pt gp Pt.LSTATE = 2 ∧ s.pt gp Pt.OUTPUT = 2 then
    let p := s.pt gp Pt.PMEAS
    let s := if s.pt gp Pt.PEAKMW < p then s.setPt gp Pt.PEAKMW p else s
    if s.pt gp Pt.RESMW * (100 + s.f Fd.LEDGER_DRAW_TOL) / 100 < p then
      let old := s.pt gp Pt.ODCNT
      let s := s.setPt gp Pt.ODCNT (min 3 (old + 1))
      if old < s.f Fd.LEDGER_DRAW_N ∧ s.f Fd.LEDGER_DRAW_N ≤ old + 1 then
        ((s.setPt gp Pt.ODRAW 1).ev Fd.LEDGER_EVRAW_ODRAW).incF Fd.LEDGER_ODRAWCNT_COUNT
      else s
    else s.setPt gp Pt.ODCNT 0
  else s

/-! ## Over-commitment and low energy (R309, R317) -/

/-- The loops whose commitment exceeds their capability, one bit each. -/
def State.loverNow (s : State) : Nat :=
  (List.range 4).foldl (fun acc n => if s.loopCap n < s.loopCommit n then acc + 2 ^ n else acc) 0

/-- Over-commitment judged on the recomputed values (R317). -/
def State.judgeOver (s : State) : State :=
  let lover := s.loverNow
  let neg := decide (s.headroom < 0)
  let isOver := neg || lover != 0
  match s.fb Fd.LEDGER_STAT_OVER, isOver with
  | false, true =>
    let s := (s.setF Fd.LEDGER_STAT_OVER 1).setF Fd.LEDGER_STAT_LOVER lover
    (s.ev Fd.LEDGER_EVRAW_OVER).raise 32 (if neg then 1 else 2) lover
  | true, true => s.setF Fd.LEDGER_STAT_LOVER lover
  | true, false => ((s.setF Fd.LEDGER_STAT_OVER 0).setF Fd.LEDGER_STAT_LOVER 0).ev Fd.LEDGER_EVRAW_OVERCLR
  | false, false => s

/-- The energy margin judged (R309). -/
def State.judgeEnergy (s : State) : State :=
  let low := decide (s.emargin ≤ (s.f Fd.LEDGER_EGUARD_MJ : Int))
  let onBattery := s.f Fd.PATH_STAT_HOSTATE == 5 || s.f Fd.PATH_STAT_HOSTATE == 6
  match s.fb Fd.LEDGER_STAT_LOWE with
  | false => if low && onBattery then (s.setF Fd.LEDGER_STAT_LOWE 1).ev Fd.LEDGER_EVRAW_LOWE else s
  | true => if !low || s.f Fd.PATH_STAT_HOSTATE == 3 then s.setF Fd.LEDGER_STAT_LOWE 0 else s

/-- The recomputation of R301: over-commitment and the energy margin are judged. -/
def State.ledgerJudge (s : State) : State := s.judgeOver.judgeEnergy

end Sys2Proof.Machine
end

