-- ==== Sys2Proof/Machine/Health.lean ====
section
/-! DEFINITION. Converter health (R147–R167): probes, scores, derating, proposals and their application, the schedule, and
the HEALTH records. -/

namespace Sys2Proof.Machine

/-! ## Probes (R149–R153) -/

/-- A phase of the loop is in SHED_PEND or ADD_PEND. -/
def State.phasePend (s : State) (n : Nat) : Bool :=
  !(s.phasesOf n fun k => s.phState k == phShedPend || s.phState k == phAddPend).isEmpty

/-- The RESULT of a refused start, 0 if the probe may start (R149). -/
def State.probeReason (s : State) (n : Nat) : Nat :=
  if s.f Fd.HEALTH_CTRL_PROBEEN = 0 then 6
  else if s.health.probe.isSome then 4
  else if s.lstate n ≠ lpRun ∨ s.phasePend n ∨ s.fb (Fd.LOOP_STAT_FCAST n) then 5
  else 0

/-- Which measurement a command carries, by its MEAS bit. -/
def measKind : Measured → Option Nat
  | .share _ => some 0
  | .ind _ => some 1
  | .resp _ _ => some 2
  | .cout _ _ => some 3
  | .therm _ => some 4
  | .skipped => none

/-- Every value lies in the range of R151. -/
def measInRange : Measured → Bool
  | .share v => v.all fun p => decide (-128 ≤ p.2) && decide (p.2 ≤ 127)
  | .ind v => v.all fun p => decide (10 ≤ p.2) && decide (p.2 ≤ 4700)
  | .resp fc pm => decide (100 ≤ fc) && decide (fc ≤ 15000) && decide (pm ≤ 180)
  | .cout c e => decide (1 ≤ c) && decide (c ≤ 5000) && decide (10 ≤ e) && decide (e ≤ 5000)
  | .therm v => v.all fun p => decide (p.2 ≤ 200)
  | .skipped => true

/-- The condition that R151 sets on a quantity holds: for IND an on-time of 300 ns in every switching phase, for THERM a
per-phase mean of 30 % of `CAP.RATED`. -/
def State.measCond (s : State) (n q : Nat) : Bool :=
  match q with
  | 1 => (s.onOf n).all fun k => decide (3840 ≤ s.onTime n k)
  | 4 => decide (3 * s.f (Fd.HEALTH_LCAP_RATED n) * (s.onOf n).length ≤ s.f (Fd.LOOP_MEAS_ITOT n))
  | _ => true

/-- The phases for which a measurement delivered a value. -/
def measPhases : Measured → List Nat
  | .share v => v.map fun p => p.1
  | .ind v => v.map fun p => p.1
  | .therm v => v.map fun p => p.1
  | .resp _ _ => []
  | .cout _ _ => []
  | .skipped => []

/-- A phase of the loop. -/
def State.inLoop (s : State) (n k : Nat) : Bool := decide (k < 16) && s.f (Fd.PHASE_ASSIGN_LOOP k) == n

/-- A measurement put into the registers (R153); RESP with the phases switching now. -/
def State.storeMeas (s : State) (n : Nat) : Measured → State
  | .share v => v.foldl (fun s p => if s.inLoop n p.1 then s.setF (Fd.HEALTH_PSHTH_SHARE p.1) (toSigned 8 p.2) else s) s
  | .ind v => v.foldl (fun s p => if s.inLoop n p.1 then s.setF (Fd.HEALTH_PIND_L p.1) p.2 else s) s
  | .resp fc pm =>
    ((s.setF (Fd.HEALTH_LRESP_FC n) fc).setF (Fd.HEALTH_LRESP_PM n) pm).setF (Fd.HEALTH_LRESP_NPH n) (s.onOf n).length
  | .cout c e => (s.setF (Fd.HEALTH_LOUT_COUT n) c).setF (Fd.HEALTH_LOUT_ESR n) e
  | .therm v => v.foldl (fun s p =>
      if s.inLoop n p.1 && decide (s.f (Fd.HEALTH_PSCORE_TD p.1) ≤ 5) then s.setF (Fd.HEALTH_PSHTH_RISE p.1) p.2 else s) s
  | .skipped => s

/-! ## Baselines (R154) -/

/-- Baselines of phases captured from the measured values (log entry 44). -/
def State.capturePhases (s : State) (ks : List Nat) : State :=
  ks.foldl (fun s k => (s.setF (Fd.HEALTH_PIND_L0 k) (s.f (Fd.HEALTH_PIND_L k))).setF (Fd.HEALTH_PSHTH_RISE0 k)
    (s.f (Fd.HEALTH_PSHTH_RISE k))) s

/-- A loop's whole baseline captured. -/
def State.captureLoop (s : State) (n : Nat) : State :=
  let s := s.capturePhases (s.activeOf n)
  let s := s.setF (Fd.HEALTH_LBASEC_FCN n) (s.f (Fd.HEALTH_LRESP_FC n) / max 1 (s.f (Fd.HEALTH_LRESP_NPH n)))
  let s := s.setF (Fd.HEALTH_LBASEC_PM n) (s.f (Fd.HEALTH_LRESP_PM n))
  let s := (s.setF (Fd.HEALTH_LBASEA_BANK n) (s.f (Fd.LOOP_CTRL_BANK n))).setF (Fd.HEALTH_LBASEA_SE n) (s.f (Fd.LOOP_ISENSE_SE n))
  let s := (s.setF (Fd.HEALTH_LBASEA_HI n) (s.f (Fd.LOOP_ILIM_HI n))).setF (Fd.HEALTH_LBASEB_LO n) (s.f (Fd.LOOP_ILIM_LO n))
  (s.setF (Fd.HEALTH_LBASEA_MINPH n) (s.f (Fd.LOOP_ADDSHED_MINPH n))).setF (Fd.HEALTH_LBASEB_PERIOD n) (s.f (Fd.LOOP_FSW_PERIOD n))

/-- The loop has no valid proposal any longer. -/
def State.dropProposal (s : State) (n : Nat) : State :=
  let s := (s.setF (Fd.HEALTH_LPROP0_VALID n) 0).setF (Fd.HEALTH_LPROP0_ITEMS n) 0
  (s.clrReg Reg.HEALTH_STAT (bitAt (24 + n))).clrReg Reg.HEALTH_STAT (bitAt (20 + n))

/-- A write of `CTRL.REBASE` = 1 (R154). -/
def State.rebase (s : State) (n : Nat) : State :=
  let s := (s.dropProposal n).clrReg Reg.HEALTH_STAT (bitAt (16 + n))
  let s := (s.phasesOf n fun _ => true).foldl (fun s k => s.setF (Fd.HEALTH_PSCORE_LOWCNT k) 0) s
  s.setHl n { s.hl n with baseDue := true }

/-! ## Scores (R155) -/

/-- The rise over the baseline, in 0.5 °C, of a mapped phase. -/
def State.riseOver (s : State) (k : Nat) : Nat :=
  if s.f (Fd.HEALTH_PSCORE_TD k) ≤ 5 then s.f (Fd.HEALTH_PSHTH_RISE k) - s.f (Fd.HEALTH_PSHTH_RISE0 k) else 0

/-- The score of a phase, with `open'` the value of P_L where there is no baseline inductance (log entry 44). With
X = P_L + P_S + P_T scaled by 2 × L0. -/
def State.scoreOf (s : State) (k open' : Nat) : Nat :=
  let l := s.f (Fd.HEALTH_PIND_L k)
  let l0 := s.f (Fd.HEALTH_PIND_L0 k)
  let sh := (signed 8 (s.f (Fd.HEALTH_PSHTH_SHARE k))).natAbs
  let ps2 := 3 * (sh - 2 * s.f Fd.HEALTH_SCORECFG_TOL_SH)
  let pt2 := 2 * (s.riseOver k - 4 * s.f Fd.HEALTH_SCORECFG_TOL_T)
  if l0 = 0 then 100 - divCeil (2 * open' + ps2 + pt2) 2
  else
    let pl := 4 * (100 * ((l : Int) - (l0 : Int)).natAbs - 2 * s.f Fd.HEALTH_SCORECFG_TOL_L * l0)
    (200 * l0 - (pl + ps2 * l0 + pt2 * l0)) / (2 * l0)

/-- One switching phase scored; a phase that no probe has measured since it became ACTIVE keeps UNTESTED and 100. -/
def State.scorePhase (s : State) (k : Nat) (measured : Bool) : State :=
  let s := if measured then s.setF (Fd.HEALTH_PSCORE_UNTESTED k) 0 else s
  let tested := !s.fb (Fd.HEALTH_PSCORE_UNTESTED k)
  let sc := if tested then s.scoreOf k s.free else 100
  let s := s.when (tested && s.f (Fd.HEALTH_PIND_L0 k) == 0) State.nextFree
  let s := s.setF (Fd.HEALTH_PSCORE_SCORE k) sc
  if sc ≤ s.f Fd.HEALTH_SCORECFG_RETIRE then s.incF (Fd.HEALTH_PSCORE_LOWCNT k) else s.setF (Fd.HEALTH_PSCORE_LOWCNT k) 0

/-! ## Derating (R157, R158) -/

/-- The derate that a lowest score gives (R157). -/
def State.derateOf (s : State) (smin : Nat) (cap : Bool) : Nat :=
  let warn := s.f Fd.HEALTH_SCORECFG_WARN
  let retire := s.f Fd.HEALTH_SCORECFG_RETIRE
  let floor := s.f Fd.HEALTH_REPLANCFG_DFLOOR
  let d := if warn ≤ smin then 100
    else if smin ≤ retire then floor
    else (floor + (100 - floor) * (smin - retire) / (warn - retire)) / 5 * 5
  if cap then min 80 d else d

/-- The lowest score among a loop's ACTIVE phases. -/
def State.scoreMin (s : State) (n : Nat) : Nat :=
  (s.activeOf n).foldl (fun m k => min m (if s.fb (Fd.HEALTH_PSCORE_UNTESTED k) then 100 else s.f (Fd.HEALTH_PSCORE_SCORE k))) 100

/-- NCAP and PHLIM as the ledger reads them, and NACT, brought up to date (R157, R158). -/
def State.capUpkeep (s : State) : State :=
  (List.range 4).foldl (fun s n =>
    let act := (s.activeOf n).length
    let lim := s.f (Fd.HEALTH_LCAP_RATED n) * min (s.hl n).held (s.f (Fd.HEALTH_LCAP_D n)) / 100
    ((s.setF (Fd.HEALTH_LCAP_NCAP n) act).setF (Fd.HEALTH_LCAP_PHLIM n) lim).setF (Fd.LOOP_STAT_NACT n) act) s

/-- D after a scoring (R157): decreases at once, increases only confirmed, by probes that measured a quantity of the score
(R156). -/
def State.rederate (s : State) (n : Nat) (measured : Bool) : State :=
  let x := s.hl n
  let d := s.f (Fd.HEALTH_LCAP_D n)
  let smin := s.scoreMin n
  let new := s.derateOf smin x.pmCap
  if new < d then
    let s := (s.setF (Fd.HEALTH_LCAP_D n) new).setHl n { x with upSeen := 0, held := min x.held new }
    ((s.ev Fd.HEALTH_EVRAW_DERATE)).raise 15 0 n
  else if !measured then s
  else if d < new ∧ d < s.derateOf (smin - 5) x.pmCap then
    if s.f Fd.HEALTH_SCORECFG_CONFIRM ≤ x.upSeen + 1 then
      let held := if s.compact then new else x.held
      (s.setF (Fd.HEALTH_LCAP_D n) new).setHl n { x with upSeen := 0, held := held }
    else s.setHl n { x with upSeen := x.upSeen + 1 }
  else s.setHl n { x with upSeen := 0 }

/-! ## Proposals (R159–R161) -/

/-- What a probe proposes: ITEMS and their values. -/
structure Items where
  mask   : Nat
  pout   : Nat
  pin    : Nat
  bank   : Nat
  minph  : Nat
  lo     : Nat
  hi     : Nat
  se     : Nat
  period : Nat
  cells  : Word
  deriving DecidableEq, Repr

/-- The items of the loop's valid proposal, else none; values are the registers'. -/
def State.itemsNow (s : State) (n : Nat) : Items where
  mask := if s.fb (Fd.HEALTH_LPROP0_VALID n) then s.f (Fd.HEALTH_LPROP0_ITEMS n) else 0
  pout := s.f (Fd.HEALTH_LPROP0_POUT n)
  pin := s.f (Fd.HEALTH_LPROP0_PIN n)
  bank := s.f (Fd.HEALTH_LPROP0_BANK n)
  minph := s.f (Fd.HEALTH_LPROP0_MINPH n)
  lo := s.f (Fd.HEALTH_LPROP1_LO n)
  hi := s.f (Fd.HEALTH_LPROP1_HI n)
  se := s.f (Fd.HEALTH_LPROP2_SE n)
  period := s.f (Fd.HEALTH_LPROP3_PERIOD n)
  cells := s.rd (Reg.HEALTH_LPROPBANK n)

/-- A proposal put in force with the next SEQ. -/
def State.propose (s : State) (n : Nat) (i : Items) : State :=
  let seq := s.f (Fd.HEALTH_LPROP0_SEQ n) + 1
  let s := ((s.setF (Fd.HEALTH_LPROP0_VALID n) 1).setF (Fd.HEALTH_LPROP0_ITEMS n) i.mask).setF (Fd.HEALTH_LPROP0_SEQ n) seq
  let s := ((s.setF (Fd.HEALTH_LPROP0_POUT n) i.pout).setF (Fd.HEALTH_LPROP0_PIN n) i.pin).setF (Fd.HEALTH_LPROP0_BANK n) i.bank
  let s := (s.setF (Fd.HEALTH_LPROP0_MINPH n) i.minph).setF (Fd.HEALTH_LPROP1_LO n) i.lo
  let s := ((s.setF (Fd.HEALTH_LPROP1_HI n) i.hi).setF (Fd.HEALTH_LPROP2_SE n) i.se).setF (Fd.HEALTH_LPROP3_PERIOD n) i.period
  let s := (s.wr (Reg.HEALTH_LPROPBANK n) i.cells).orReg Reg.HEALTH_STAT (bitAt (24 + n))
  (s.clrReg Reg.HEALTH_STAT (bitAt (20 + n))).ev Fd.HEALTH_EVRAW_PROPOSAL

/-- An item is free of the hold-off (R161). -/
def State.holdPast (s : State) (n : Nat) (item : Fin 7) : Bool :=
  match (s.hl n).applied[item] with
  | some t => decide (t + secTicks (3600 * s.f Fd.HEALTH_REPLANCFG_HOLDOFF) ≤ s.ticks)
  | none => true

/-- The worn phase of R159: LOWCNT has reached CONFIRM; the lowest score first, then the lowest number. -/
def State.wornPhase (s : State) (n : Nat) : Option Nat :=
  ((s.activeOf n).filter fun k => decide (s.f Fd.HEALTH_SCORECFG_CONFIRM ≤ s.f (Fd.HEALTH_PSCORE_LOWCNT k))).foldl
    (fun acc k => match acc with
      | some j => if s.f (Fd.HEALTH_PSCORE_SCORE k) < s.f (Fd.HEALTH_PSCORE_SCORE j) then some k else some j
      | none => some k) none

/-- The lowest-numbered SPARE phase assigned to a loop. -/
def State.spareOf (s : State) (n : Nat) : Option Nat := (s.phasesOf n fun k => s.f (Fd.PHASE_ASSIGN_ROLE k) == roleSpare).head?

/-- A RETIRE item, where the loop keeps MINPH phases (R159, item 2). -/
def State.retireItem (s : State) (n w : Nat) (i : Items) : Items :=
  if s.f (Fd.LOOP_ADDSHED_MINPH n) + 1 ≤ (s.activeOf n).length ∧ s.holdPast n 1 then
    { i with mask := putMask i.mask 1 0, pout := w } else i
where
  /-- Item `on` set and item `off` cleared. -/
  putMask (m on off : Nat) : Nat := (m ||| 2 ^ on) ^^^ (if (m ||| 2 ^ on).testBit off then 2 ^ off else 0)

/-- SWAP and RETIRE items (R159): where item 1 is possible and the hold-off of R161 bars it, none; FS47 where a spare is lacking. Answers the state and the items. -/
def State.phaseItems (s : State) (n : Nat) (i : Items) : State × Items :=
  match s.wornPhase n with
  | none => (s, i)
  | some w =>
    if s.compact then
      let lacking := decide (s.roleCount roleSpare < 2) || (s.spareOf n).isNone
      let s := if lacking then s.spareGone 1 else s
      match s.spareOf n with
      | some k =>
        if !lacking && s.fb Fd.HEALTH_CTRL_SWAPEN then
          (s, if s.holdPast n 0 then { i with mask := State.retireItem.putMask i.mask 0 1, pout := w, pin := k } else i)
        else (s, s.retireItem n w i)
      | none => (s, s.retireItem n w i)
    else if s.fb Fd.HEALTH_CTRL_REPLANEN then (s, s.retireItem n w i)
    else (s, i)

/-- The smallest measured inductance among the loop's ACTIVE phases; 0 with none. -/
def State.lMin (s : State) (n : Nat) : Nat :=
  (s.activeOf n).foldl (fun m k =>
    let l := s.f (Fd.HEALTH_PIND_L k)
    if l = 0 then m else if m = 0 then l else min m l) 0

/-- The loop's ramp ratio k (R118) lies outside 0.8–1.25, with TARGET as VOUT: k = 50 × SE × L ÷ (V × RI). -/
def State.rampOff (s : State) (n : Nat) : Bool :=
  let a := 50 * s.f (Fd.LOOP_ISENSE_SE n) * s.lMin n
  let b := s.f (Fd.LOOP_TARGET_MV n) * s.f (Fd.LOOP_ISENSE_RI n)
  s.lMin n != 0 && (decide (10 * a < 8 * b) || decide (5 * b < 4 * a))

/-- SE for k = 1. -/
def State.seFor (s : State) (n : Nat) : Nat :=
  min 511 (divRound (s.f (Fd.LOOP_TARGET_MV n) * s.f (Fd.LOOP_ISENSE_RI n)) (max 1 (50 * s.lMin n)))

/-- The crossover per phase of the last RESP. -/
def State.fcn (s : State) (n : Nat) : Nat := s.f (Fd.HEALTH_LRESP_FC n) / max 1 (s.f (Fd.HEALTH_LRESP_NPH n))

/-- The re-planned bank (R160; log entry 45): RZ restores the base crossover per phase, CZ puts the zero at a fifth of the
crossover with all ACTIVE phases, CP puts the pole at the lower of the ESR zero and half the switching frequency. -/
def State.bankFor (s : State) (n : Nat) : Word :=
  let w := (s.loop n).bank
  let base := s.f (Fd.HEALTH_LBASEC_FCN n)
  let rz := clampNat 1 127 (divRound (getBits w 8 7 * base) (max 1 (s.fcn n)))
  let fc := base * (s.activeOf n).length
  let cz := clampNat 1 127 (divRound (5000000000 * 113) (max 1 (2 * 355 * 1250 * rz * fc)))
  let esr := divRound (s.f (Fd.HEALTH_LOUT_COUT n) * s.f (Fd.HEALTH_LOUT_ESR n)) (125 * rz)
  let half := divRound (s.f (Fd.LOOP_FSW_PERIOD n) * 78125 * 113) (355 * rz * 12500000)
  putBits (putBits (putBits w 8 7 rz) 16 7 cz) 24 7 (min 127 (max esr half))

/-- A confirmation count after a probe that measured its quantity. -/
def seenNext (measured shown : Bool) (n : Nat) : Nat := if measured then (if shown then satInc 255 n else 0) else n

/-- The confirmation counts of R160's triggers after a probe (R156); `has q` says that quantity `q` was measured. A trigger
that needs the base is not judged while none has been captured. -/
def State.judgeSeen (s : State) (n : Nat) (has : Nat → Bool) : Seen :=
  let x := s.hl n
  let based := !x.baseDue
  let pm := s.f (Fd.HEALTH_LRESP_PM n)
  let pmMin := s.f Fd.HEALTH_REPLANCFG_PMMIN
  let minph := s.f (Fd.LOOP_ADDSHED_MINPH n)
  let atMin := s.f (Fd.HEALTH_LRESP_NPH n) == minph
  let base := s.f (Fd.HEALTH_LBASEC_FCN n)
  let mapped := (s.activeOf n).filter fun k => decide (s.f (Fd.HEALTH_PSCORE_TD k) ≤ 5)
  let tol := 4 * s.f Fd.HEALTH_SCORECFG_TOL_T
  { se := seenNext (has 1) (s.rampOff n) x.seen.se
    bank := seenNext (has 2 && based) (decide (5 * s.fcn n < 4 * base) || decide (5 * base < 4 * s.fcn n)) x.seen.bank
    minUp := seenNext (has 2) (decide (pm < pmMin) && atMin) x.seen.minUp
    minDown := seenNext (has 2 && based) (decide (pmMin + s.f Fd.HEALTH_REPLANCFG_PMHYS ≤ pm) && atMin &&
      decide (s.f (Fd.HEALTH_LBASEA_MINPH n) < minph)) x.seen.minDown
    fswUp := seenNext (has 4 && based) (mapped.any fun k => decide (2 * tol < s.riseOver k)) x.seen.fswUp
    fswDown := seenNext (has 4 && based) ((mapped.all fun k => decide (s.riseOver k < tol)) &&
      decide (s.f (Fd.HEALTH_LBASEB_PERIOD n) < s.f (Fd.LOOP_FSW_PERIOD n))) x.seen.fswDown }

/-- The SE and BANK items (R160): confirmed, not reverted, past the hold-off. -/
def State.rampItems (s : State) (n : Nat) (i : Items) : Items :=
  let c := s.f Fd.HEALTH_SCORECFG_CONFIRM
  let x := (s.hl n).seen
  if bit (s.rd Reg.HEALTH_STAT) (16 + n) then i
  else
    let i := if c ≤ x.se ∧ s.holdPast n 3 then { i with mask := i.mask ||| 8, se := s.seFor n } else i
    let b := s.f (Fd.HEALTH_LBASEA_BANK n)
    if c ≤ x.bank ∧ s.holdPast n 2 ∧ !(s.hl n).baseDue then
      { i with mask := i.mask ||| 4, cells := s.bankFor n,
               bank := if s.f (Fd.LOOP_CTRL_BANK n) = b then s.f (Fd.HEALTH_LBASEC_ALTBANK n) else b }
    else i

/-- The ILIM item (R160, R161): owed from a change of D until it is proposed; a decrease is exempt from the hold-off. -/
def State.ilimItem (s : State) (n : Nat) (i : Items) : State × Items :=
  let d := s.f (Fd.HEALTH_LCAP_D n)
  let hi := s.f (Fd.HEALTH_LBASEA_HI n) * d / 100
  let lo := s.f (Fd.HEALTH_LBASEB_LO n) * d / 100
  if d ≠ (s.hl n).ilimD ∧ !(s.hl n).baseDue ∧ (hi ≤ s.f (Fd.LOOP_ILIM_HI n) ∨ s.holdPast n 4) then
    (s.setHl n { s.hl n with ilimD := d }, { i with mask := i.mask ||| 16, hi := hi, lo := lo })
  else (s, i)

/-- The MINPH and FSW items (R160, R161): moves that lower stress are exempt from the hold-off. -/
def State.stressItems (s : State) (n : Nat) (i : Items) : Items :=
  let c := s.f Fd.HEALTH_SCORECFG_CONFIRM
  let x := (s.hl n).seen
  let minph := s.f (Fd.LOOP_ADDSHED_MINPH n)
  let per := s.f (Fd.LOOP_FSW_PERIOD n)
  let based := !(s.hl n).baseDue
  let i := if c ≤ x.minUp ∧ minph < (s.activeOf n).length then { i with mask := i.mask ||| 32, minph := minph + 1 }
    else if c ≤ x.minDown ∧ based ∧ s.holdPast n 5 then { i with mask := i.mask ||| 32, minph := minph - 1 } else i
  let up := min (per * 10 / 9) (s.f (Fd.HEALTH_LFLOOR_PERIODMAX n))
  if c ≤ x.fswUp ∧ based ∧ per < up then { i with mask := i.mask ||| 64, period := up }
  else if c ≤ x.fswDown ∧ based ∧ s.holdPast n 6 then
    { i with mask := i.mask ||| 64, period := max (per * 9 / 10) (s.f (Fd.HEALTH_LBASEB_PERIOD n)) }
  else i

/-- The re-plan items of R160, in FULL: the counts go on at every probe, the items are proposed with REPLANEN = 1. -/
def State.replanItems (s : State) (n : Nat) (has : Nat → Bool) (i : Items) : State × Items :=
  if s.compact then (s, i)
  else
    let s := s.setHl n { s.hl n with seen := s.judgeSeen n has }
    if s.fb Fd.HEALTH_CTRL_REPLANEN then s.ilimItem n (s.stressItems n (s.rampItems n i)) else (s, i)

/-- The revert of R161, decided by the first RESP after an APPLY with a BANK or SE item. -/
def State.revertItems (s : State) (n : Nat) (resp : Bool) (i : Items) : State × Items :=
  match (s.hl n).revert with
  | some (pm0, bank, se) =>
    if resp then
      let pm := s.f (Fd.HEALTH_LRESP_PM n)
      let s := s.setHl n { s.hl n with revert := none }
      if pm < s.f Fd.HEALTH_REPLANCFG_PMMIN ∧ pm < pm0 then
        (s.orReg Reg.HEALTH_STAT (bitAt (16 + n)),
          { i with mask := i.mask ||| 12, bank := bank, se := se, cells := s.rd (Reg.CONV_BANK bank) })
      else (s, i)
    else (s, i)
  | none => (s, i)

/-- A probe has advanced a count that is not yet CONFIRM (R165). -/
def State.counted (s : State) (before after : Nat) : Bool :=
  decide (before < after) && decide (after < s.f Fd.HEALTH_SCORECFG_CONFIRM)

/-- A trigger of R159 or R160 was seen at the probe that led from `a` to `b` and is not yet confirmed (R165). -/
def State.unconfirmed (a b : State) (n : Nat) : Bool :=
  let x := (a.hl n).seen
  let y := (b.hl n).seen
  (b.activeOf n).any (fun k => b.counted (a.f (Fd.HEALTH_PSCORE_LOWCNT k)) (b.f (Fd.HEALTH_PSCORE_LOWCNT k))) ||
    b.counted x.se y.se || b.counted x.bank y.bank || b.counted x.minUp y.minUp || b.counted x.minDown y.minDown ||
    b.counted x.fswUp y.fswUp || b.counted x.fswDown y.fswDown

/-! ## Records (R166) -/

/-- A HEALTH record: TYPE 0x48 of the last probe, or 0x42 of the baseline; the phases of other loops are zero (log entry
43). -/
def State.healthRecord (s : State) (n type seq : Nat) : List Byte :=
  let base := type == 0x42
  let nph := s.f (Fd.HEALTH_LRESP_NPH n)
  let fc := if base then s.f (Fd.HEALTH_LBASEC_FCN n) * max 1 nph else s.f (Fd.HEALTH_LRESP_FC n)
  let pm := if base then s.f (Fd.HEALTH_LBASEC_PM n) else s.f (Fd.HEALTH_LRESP_PM n)
  let ph := (List.range 16).flatMap fun k => if !s.inLoop n k then [(0, 5)] else
    [(if base then s.f (Fd.HEALTH_PIND_L0 k) else s.f (Fd.HEALTH_PIND_L k), 2), (s.f (Fd.HEALTH_PSHTH_SHARE k), 1),
     (if base then s.f (Fd.HEALTH_PSHTH_RISE0 k) else s.f (Fd.HEALTH_PSHTH_RISE k), 1), (s.f (Fd.HEALTH_PSCORE_SCORE k), 1)]
  let cfg := if base then
      [(s.f (Fd.HEALTH_LBASEA_BANK n), 1), (s.f (Fd.HEALTH_LBASEA_SE n), 2), (s.f (Fd.HEALTH_LBASEA_HI n), 2),
       (s.f (Fd.HEALTH_LBASEB_LO n), 2), (s.f (Fd.HEALTH_LBASEA_MINPH n), 1), (s.f (Fd.HEALTH_LBASEB_PERIOD n), 4)]
    else
      [(s.f (Fd.LOOP_CTRL_BANK n), 1), (s.f (Fd.LOOP_ISENSE_SE n), 2), (s.f (Fd.LOOP_ILIM_HI n), 2),
       (s.f (Fd.LOOP_ILIM_LO n), 2), (s.f (Fd.LOOP_ADDSHED_MINPH n), 1), (s.f (Fd.LOOP_FSW_PERIOD n), 4)]
  withCrc32c (packBE ([(type, 1), (n, 1), (seq, 2), (s.chipTime, 8), (fc, 2), (pm, 1), (s.f Fd.HEALTH_PROBERES_RESULT, 1),
    (s.f (Fd.HEALTH_LOUT_COUT n), 2), (s.f (Fd.HEALTH_LOUT_ESR n), 2), (s.f (Fd.HEALTH_LCAP_D n), 1), (nph, 1),
    (s.f Fd.HEALTH_PROBERES_SKIP * 256 + s.f Fd.HEALTH_PROBERES_DONE, 2)] ++ ph ++ cfg ++ [(0, 8)]))

/-- The loop's next record number. -/
def State.nextRecSeq (s : State) (n : Nat) : State := s.setHl n { s.hl n with recSeq := ((s.hl n).recSeq + 1) % 2 ^ 16 }

/-- The probe record queued for record flash and the HEALTH partition, and what the area keeps beside it, while VHOLD
stands (log entry 43). -/
def State.probeRecord (s : State) (n : Nat) : State :=
  if s.vholdAt 6000 then
    let s := s.nextRecSeq n
    let rec' := s.healthRecord n 0x48 (s.hl n).recSeq
    let low := (List.range 16).foldl (fun l k => tset (fun _ => 0) l k (s.f (Fd.HEALTH_PSCORE_LOWCNT k))) []
    let s := s.setHealth { s.health with keptRev := s.f Fd.HEALTH_STAT_REVERTED, keptLow := low }
    (s.recRing .health .health fun _ => rec').flashAppend .health rec'
  else s

/-- The baseline record queued for the loop's two slots in turn. -/
def State.baseRecord (s : State) (n : Nat) : State :=
  if s.vholdAt 6000 then
    let s := s.nextRecSeq n
    let x := s.hl n
    (s.setHl n { x with slot := 1 - x.slot }).recPages .health (36 + 2 * n + x.slot) (s.healthRecord n 0x42 x.recSeq)
  else s

/-! ## The end of a probe (R153) -/

/-- The measurements of an ended probe are stored, and the baselines that wait for it captured (R153, R154). -/
def State.probeStore (s : State) (p : Probe) (whole : Bool) : State :=
  let n := p.loop
  let s := p.got.foldl (fun s m => s.storeMeas n m) s
  if !whole then s
  else if (s.hl n).baseDue then (s.captureLoop n).setHl n { s.hl n with baseDue := false, bringIn := [] }
  else (s.capturePhases (s.hl n).bringIn).setHl n { s.hl n with bringIn := [] }

/-- The cap of 80 % on D from a phase margin (R157). -/
def State.judgePm (s : State) (n : Nat) : State :=
  let pm := s.f (Fd.HEALTH_LRESP_PM n)
  let lim := s.f Fd.HEALTH_REPLANCFG_PMMIN
  if pm < lim then s.setHl n { s.hl n with pmCap := true }
  else if lim + s.f Fd.HEALTH_REPLANCFG_PMHYS ≤ pm then s.setHl n { s.hl n with pmCap := false } else s

/-- The items of a probe proposed, with the unapplied ones of the proposal they replace (R159–R161). -/
def State.probeItems (s : State) (n : Nat) (has : Nat → Bool) : State :=
  let old := s.itemsNow n
  let (s, a) := s.phaseItems n { old with mask := 0 }
  let (s, a) := s.replanItems n has a
  let (s, a) := s.revertItems n (has 2) a
  let keep := if a.mask.testBit 0 || a.mask.testBit 1 then old.mask &&& 0x7C else old.mask
  if a.mask = 0 then s else s.propose n { a with mask := a.mask ||| keep }

/-- A probe ends OK or PARTIAL: what it measured is stored, every switching phase scored, D judged, items proposed, the
schedule set and the records written (R153–R166). -/
def State.probeEnd (s : State) (p : Probe) : State :=
  let n := p.loop
  let has (q : Nat) : Bool := p.got.any fun m => measKind m == some q
  let whole := s.f Fd.HEALTH_PROBERES_SKIP == 0
  let s := s.setHealth { s.health with probe := none }
  let s := ((s.setF Fd.HEALTH_STAT_BUSY 0).setF Fd.HEALTH_PROBERES_RESULT (if whole then 1 else 2)).ev Fd.HEALTH_EVRAW_DONE
  let based := whole && ((s.hl n).baseDue || !(s.hl n).bringIn.isEmpty)
  let before := s
  let s := s.probeStore p whole
  let s := (s.onOf n).foldl (fun s k => s.scorePhase k (p.got.any fun m => (measPhases m).contains k)) s
  let s := if has 2 then s.judgePm n else s
  let s := (s.rederate n (has 0 || has 1 || has 4)).probeItems n has
  let s := s.setHl n { s.hl n with lastOk := some s.ticks, confirm := if before.unconfirmed s n then some s.ticks else none }
  let s := s.probeRecord n
  if based then s.baseRecord n else s

/-- A write of PROBE.GO = 1 (R149). -/
def State.probeGo (s : State) (n meas : Nat) : State :=
  match s.probeReason n with
  | 0 =>
    let p : Probe := ⟨n, bitList 5 meas, [], s.plant.vsys, s.f Fd.PATH_STAT_HOSTATE, s.f (Fd.LOOP_MEAS_ITOT n)⟩
    let s := (s.wr Reg.HEALTH_PROBERES 0).setF Fd.HEALTH_PROBERES_LOOP n
    let s := (s.setF Fd.HEALTH_STAT_PLOOP n).clrReg Reg.HEALTH_DUE (bitAt n)
    if p.left.isEmpty then s.probeEnd p
    else (s.setF Fd.HEALTH_STAT_BUSY 1).setHealth { s.health with probe := some p }
  | r => s.setF Fd.HEALTH_PROBERES_RESULT r

/-- A write of `HEALTH.PROBE`: ABORT of a running probe, then GO. -/
def State.probeWrite (s : State) (d : Word) : State :=
  let s := if bit d 31 then (match s.health.probe with
      | some p => s.probeAbort p.loop 11
      | none => s) else s
  if bit d 30 then s.probeGo (getBits d 8 2) (getBits d 0 5) else s

/-- The quantity under way is over, `got` or skipped; the next begins, or the probe ends (R149, R153). -/
def State.probeNext (s : State) (p : Probe) (q : Nat) (rest : List Nat) (got : Option Measured) : State :=
  let s := if got.isNone then s.setF Fd.HEALTH_PROBERES_SKIP (s.f Fd.HEALTH_PROBERES_SKIP ||| 2 ^ q)
    else s.setF Fd.HEALTH_PROBERES_DONE (s.f Fd.HEALTH_PROBERES_DONE ||| 2 ^ q)
  let p := { p with left := rest, got := p.got ++ got.toList, itot := s.f (Fd.LOOP_MEAS_ITOT p.loop) }
  let s := s.setHealth { s.health with probe := some p }
  if rest.isEmpty then s.probeEnd p else s

/-- PROBE_MEAS_DONE: the quantity under way completes; where its condition (R151) does not hold it is skipped, and a value
outside its range aborts (R152). DEDUCED (log entry 44): the condition is judged as the measurement completes. -/
def State.probeMeas (s : State) (m : Measured) : State :=
  match s.health.probe with
  | none => s
  | some p =>
    match p.left with
    | [] => s
    | q :: rest =>
      if !s.measCond p.loop q then s.probeNext p q rest none
      else if measKind m ≠ some q then s
      else if !measInRange m then s.probeAbort p.loop 12
      else s.probeNext p q rest (some m)

/-- `a` differs from `b` by more than `pc` % of `b`. -/
def movedBy (pc a b : Nat) : Bool := decide (pc * b < 100 * ((a : Int) - (b : Int)).natAbs)

/-- The abort causes of R152 that show in the state, judged after every command; `hot` is the condition of cause 10. -/
def State.probeWatch (s : State) (hot : Bool) : State :=
  match s.health.probe with
  | none => s
  | some p =>
    let n := p.loop
    let supply := s.f Fd.PATH_STAT_HOSTATE != p.hostate ||
      (match p.vsys, s.plant.vsys with
        | some a, some b => movedBy 5 b a
        | _, _ => false)
    if s.fb (Fd.LOOP_STAT_FCAST n) then s.probeAbort n 2
    else if s.phasePend n then s.probeAbort n 3
    else if s.lstate n ≠ lpRun then s.probeAbort n 4
    else if supply then s.probeAbort n 7
    else if movedBy 10 (s.f (Fd.LOOP_MEAS_ITOT n)) p.itot then s.probeAbort n 8
    else if hot then s.probeAbort n 10
    else s

/-! ## Schedule (R165) -/

/-- HEALTH_DUE: the schedule or a CONFIRM delay of loop `n` has expired. -/
def State.healthDue (s : State) (n : Nat) : State :=
  let x := s.hl n
  let per := s.f Fd.HEALTH_SCHED_PERIOD
  let a : Bool := match x.lastOk with
    | some t => decide (t + secTicks (3600 * per) ≤ s.ticks)
    | none => false
  let b : Bool := match x.confirm with
    | some t => decide (t + secTicks (60 * s.f Fd.HEALTH_SCHED_CONFIRM) ≤ s.ticks)
    | none => false
  if per ≠ 0 ∧ (a ∨ b) then
    let s := s.setHl n { x with lastOk := if a then none else x.lastOk, confirm := if b then none else x.confirm }
    (s.orReg Reg.HEALTH_DUE (bitAt n)).ev Fd.HEALTH_EVRAW_DUE
  else s

/-! ## Block reset and boot (R166, R346) -/

/-- A block reset of HEALTH but for its settings: the probe is aborted, proposals and DUE bits are cleared. -/
def State.healthBlockReset (s : State) : State :=
  let s := match s.health.probe with
    | some p => s.probeAbort p.loop 11
    | none => s
  (((List.range 4).foldl (fun s n => s.dropProposal n) s)).wr Reg.HEALTH_DUE 0

/-- A HEALTH record checks. -/
def healthGood (type n : Nat) (b : List Byte) : Bool :=
  recField b 0 1 == type && recField b 1 1 == n && crc32c (b.take 0x7C) == recField b 0x7C 4

/-- The five bytes of a phase in a record. -/
def recPhase (x : List Byte) (k : Nat) : Nat := recField x (0x18 + 5 * k) 5

/-- The better baseline record of a loop, with its slot. -/
def State.bestBase (s : State) (n : Nat) : Option (List Byte × Nat) :=
  let at' (i : Nat) : Option (List Byte × Nat) :=
    let x := s.rflash.pageBytes (36 + 2 * n + i) 0 128
    if healthGood 0x42 n x then some (x, i) else none
  match at' 0, at' 1 with
  | some x, some y => some (if recField x.1 2 2 < recField y.1 2 2 then y else x)
  | some x, none => some x
  | none, y => y

/-- The loop's own baseline restored from the better of its slots; the other slot is written next. -/
def State.restoreBase (s : State) (n : Nat) : State :=
  match s.bestBase n with
  | none => s
  | some (x, i) =>
    let s := s.setHl n { s.hl n with baseDue := false, recSeq := max (s.hl n).recSeq (recField x 2 2), slot := 1 - i }
    let s := (s.setF (Fd.HEALTH_LBASEC_FCN n) (recField x 0x0C 2 / max 1 (recField x 0x15 1))).setF (Fd.HEALTH_LBASEC_PM n) (recField x 0x0E 1)
    let s := (s.setF (Fd.HEALTH_LBASEA_BANK n) (recField x 0x68 1)).setF (Fd.HEALTH_LBASEA_SE n) (recField x 0x69 2)
    let s := (s.setF (Fd.HEALTH_LBASEA_HI n) (recField x 0x6B 2)).setF (Fd.HEALTH_LBASEB_LO n) (recField x 0x6D 2)
    (s.setF (Fd.HEALTH_LBASEA_MINPH n) (recField x 0x6F 1)).setF (Fd.HEALTH_LBASEB_PERIOD n) (recField x 0x70 4)

/-- The newest probe record of a loop in the ring. -/
def State.newestProbe (s : State) (n : Nat) : Option (List Byte) :=
  let at' (i : Nat) : List Byte :=
    let (page, off) := Ring.health.at ((s.rflash.places[3] + 23 - i) % 24)
    s.rflash.pageBytes page off 128
  ((List.range 24).find? fun i => healthGood 0x48 n (at' i)).map at'

/-- The records that hold a phase, one per loop: that of the loop it is assigned to comes last, and so holds. -/
def State.phaseRecs (s : State) (k : Nat) (rec' : Nat → Option (List Byte)) : List (List Byte) :=
  let l := s.f (Fd.PHASE_ASSIGN_LOOP k)
  (((List.range 4).filter fun n => n != l) ++ [l]).filterMap fun n =>
    (rec' n).bind fun x => if recPhase x k = 0 then none else some x

/-- The baseline and the score of a phase restored. -/
def State.restorePhase (s : State) (k : Nat) : State :=
  let s := match (s.phaseRecs k fun n => (s.bestBase n).map fun p => p.1).getLast? with
    | some x => (s.setF (Fd.HEALTH_PIND_L0 k) (recField x (0x18 + 5 * k) 2)).setF (Fd.HEALTH_PSHTH_RISE0 k) (recField x (0x1B + 5 * k) 1)
    | none => s
  match (s.phaseRecs k s.newestProbe).getLast? with
  | some x =>
    let s := s.setF (Fd.HEALTH_PSCORE_SCORE k) (recField x (0x1C + 5 * k) 1)
    if recField x (0x18 + 5 * k) 4 = 0 then s else s.setF (Fd.HEALTH_PSCORE_UNTESTED k) 0
  | none => s

/-- D of a loop restored from its newest probe record. -/
def State.restoreDerate (s : State) (n : Nat) : State :=
  match s.newestProbe n with
  | some x =>
    let d := recField x 0x14 1
    (s.setF (Fd.HEALTH_LCAP_D n) d).setHl n { s.hl n with held := d, ilimD := d, recSeq := max (s.hl n).recSeq (recField x 2 2) }
  | none => s

/-- Baselines, scores, LOWCNT, D and REVERTED as boot restores them (R166; log entry 43). -/
def State.healthRestore (s : State) : State :=
  let s := (List.range 4).foldl (fun s n => (s.restoreBase n).restoreDerate n) s
  let s := (List.range 16).foldl (fun s k =>
    (s.restorePhase k).setF (Fd.HEALTH_PSCORE_LOWCNT k) (tget (fun _ => 0) s.health.keptLow k)) s
  s.setF Fd.HEALTH_STAT_REVERTED s.health.keptRev

end Sys2Proof.Machine
end

