-- ==== Sys2Proof/Machine/Rails.lean ====
section
/-! DEFINITION. Integrated rails, supervisors, the housekeeping ADC and GPIO (R168–R190). -/

namespace Sys2Proof.Machine

/-! ## Integrated rails: 0 B0, 1 B1, 2–5 L0–L3 (R173–R179) -/

/-- The status byte of a rail. -/
def railFld (k lo width : Nat) : Fld :=
  if k < 2 then ⟨Reg.RAILS_BSTAT, 8 * k + lo, width⟩ else ⟨Reg.RAILS_LSTAT, 8 * (k - 2) + lo, width⟩

/-- STATE: 0 OFF, 1 START, 2 ON, 3 DISCHARGE. -/
def railState (k : Nat) : Fld := railFld k 4 2
def railGood (k : Nat) : Fld := railFld k 7 1
def railPend (k : Nat) : Fld := railFld k 6 1
def railCause (k : Nat) : Fld := railFld k 0 4

/-- A rail leaves its window (R177, R181): the event is set and the device wakes. -/
def State.railExit (s : State) (k : Nat) : State :=
  if s.fb (railGood k) then
    let s := (s.setF (railGood k) 0).clrReg Reg.RAILS_STAT (bitAt (8 + k))
    (s.evBit Fd.RAILS_EVRAW_RAILEXIT k).wakeUp
  else s

/-- What a rail keeps. -/
def State.rail (s : State) (k : Nat) : Rail := tget (fun _ => Rail.init) s.rails k

/-- What a rail keeps, replaced. -/
def State.setRail (s : State) (k : Nat) (x : Rail) : State := { s with rails := tset (fun _ => Rail.init) s.rails k x }

/-- A rail's output as seen, mV. -/
def State.railSeen (s : State) (k mv : Nat) : State := s.setRail k { s.rail k with out := mv }

/-- MV of a rail. -/
def State.railMv (s : State) (k : Nat) : Nat := if k < 2 then s.f (Fd.RAILS_BCFG_MV k) else s.f (Fd.RAILS_LCFG_MV (k - 2))

/-- PGWIN of a rail, %. -/
def State.railPgwin (s : State) (k : Nat) : Nat := if k < 2 then s.f (Fd.RAILS_BCFG_PGWIN k) else s.f (Fd.RAILS_LCFG_PGWIN (k - 2))

/-- The rail is starting or on. -/
def State.railRuns (s : State) (k : Nat) : Bool := s.f (railState k) == 1 || s.f (railState k) == 2

/-- The instantaneous reference of a rail, mV: on its way to MV at 1 mV/µs (R173), 0 while the rail is off. -/
def State.railRef (s : State) (k : Nat) : Nat :=
  let x := s.rail k
  if s.railRuns k then refStep x.base (s.railMv k) ((s.halfUs - x.since) / 2) else 0

/-- The ramp of a rail begins at a voltage. -/
def State.railRamp (s : State) (k base : Nat) : State := s.setRail k { s.rail k with base := base, since := s.halfUs }

/-- The rail's slot turns it on (R173): the ramp starts from the output as last seen (log entry 101); a buck's FSW and MODE
act from here. -/
def State.railOn (s : State) (k : Nat) : State :=
  let s := ((s.setF (railState k) 1).setF (railCause k) 0).railRamp k (s.rail k).out
  if k < 2 then s.setRail k { s.rail k with cfg := s.rd (Reg.RAILS_BCFG k) } else s

/-- A rail in START whose ramp has reached MV is ON (log entry 101). -/
def State.railUp (s : State) (k : Nat) : State :=
  if s.f (railState k) = 1 ∧ s.railRef k = s.railMv k then s.setF (railState k) 2 else s

/-- The start ramps judged at an AO tick edge. -/
def State.railTick (s : State) : State := (List.range 6).foldl State.railUp s

/-- A write of MV while a rail is on: the output moves on from the instantaneous reference (R173). -/
def State.railCfgWrite (s : State) (k a : Nat) (new : Word) : State :=
  let ref := s.railRef k
  let s := s.wr a new
  if s.railRuns k then s.railRamp k ref else s

/-- The rail's slot turns it off (R174): switching stops, the pull-down engages. -/
def State.railDischarge (s : State) (k : Nat) : State := (s.setF (railState k) 3).railExit k

/-- The rail's slot is OFF. -/
def State.railOff (s : State) (k : Nat) : State := (s.railExit k).setF (railState k) 0

/-- The pull-down of a rail is engaged (R174): whenever the rail neither starts nor is on. -/
def State.railPulled (s : State) (k : Nat) : Bool := !s.railRuns k

/-- An output inside ±PGWIN % of the instantaneous reference (R177). -/
def State.railInside (s : State) (k mv : Nat) : Bool :=
  decide ((100 - s.railPgwin k) * s.railRef k ≤ 100 * mv) && decide (100 * mv ≤ (100 + s.railPgwin k) * s.railRef k)

/-- A rail's output has stood on one side of its window for 10 µs (R177): a rail that is ON enters or leaves its window; one
that is off, or still in its start ramp, is out of window. -/
def State.railWindow (s : State) (k mv : Nat) : State :=
  let s := (s.railSeen k mv).railUp k
  if s.f (railState k) = 2 then
    if s.railInside k mv then (s.setF (railGood k) 1).orReg Reg.RAILS_STAT (bitAt (8 + k)) else s.railExit k
  else s

/-! ### The bucks' cycles (R171–R173) -/

/-- A buck's FSW in force, 100 kHz units. -/
def State.buckFsw (s : State) (b : Nat) : Nat := getBits (s.rail b).cfg 19 5

/-- A buck holds fixed frequency at every load: mode PWM (R171). -/
def State.buckPwm (s : State) (b : Nat) : Bool := bit (s.rail b).cfg 18

/-- B1's cycle starts half a period after B0's: both run at the same FSW (R171). -/
def State.bucksInterleave (s : State) : Bool := s.railRuns 0 && s.railRuns 1 && s.buckFsw 0 == s.buckFsw 1

/-- A buck skips cycles (R171, R172): its on-time would fall below 80 ns, or in AUTO its current below zero. -/
def State.buckSkips (s : State) (b vin : Nat) (negative : Bool) : Bool :=
  decide (10000 * s.railRef b < 80 * vin * s.buckFsw b) || (!s.buckPwm b && negative)

/-- A buck's peak current limit, mA. -/
def State.buckIlim (s : State) (b : Nat) : Nat := 1250 + 500 * s.f (Fd.RAILS_BCFG_ILIM b)

/-- The last-fault record of a buck (R179). -/
def State.buckCapture (s : State) (b cause vout vin : Nat) : State :=
  let time := s.chipTime
  let s := (s.wr (Reg.RAILS_BLF0 b) (BitVec.ofNat 32 time)).wr (Reg.RAILS_BLF1 b) (BitVec.ofNat 32 (time >>> 32))
  let s := (s.setF (Fd.RAILS_BLF2_VOUT b) vout).setF (Fd.RAILS_BLF2_MV b) (s.f (Fd.RAILS_BCFG_MV b))
  let s := ((s.setF (Fd.RAILS_BLF3_VIN b) vin).setF (Fd.RAILS_BLF3_STATE b) (s.f (railState b))).setF (Fd.RAILS_BLF3_CAUSE b) cause
  s.recLastFault (4 + b) ([Reg.RAILS_BLF0 b, Reg.RAILS_BLF1 b, Reg.RAILS_BLF2 b, Reg.RAILS_BLF3 b, 0].map fun a =>
    if a = 0 then 0 else s.rd a)

/-- A rail reports a fault cause (R178). -/
def State.railReport (s : State) (k cause vout vin : Nat) : State :=
  let s := s.setF (railCause k) cause
  if k < 2 then ((s.ev Fd.RAILS_EVRAW_BFAULT).buckCapture k cause vout vin).raise (16 + k) cause 0
  else (s.ev Fd.RAILS_EVRAW_LFAULT).raise 18 cause (k - 2)

/-- LIN stands below 2.5 V: every LDO that is on reports it (R175). -/
def State.linLow (s : State) (vout vin : Nat) : State :=
  [2, 3, 4, 5].foldl (fun (t : State) k => if t.railRuns k then t.railReport k 4 vout vin else t) s

/-- A buck or LDO shows a fault cause (R178): OC while it runs; UV and OV while ON, with the output on that side of the
window; LIN below 2.5 V. `vin` is the rail's input, VIN or LIN. -/
def State.railFault (s : State) (k cause vout vin : Nat) : State :=
  let s := (s.railSeen k vout).railUp k
  let on := s.f (railState k) == 2
  match cause with
  | 1 => if s.railRuns k then s.railReport k 1 vout vin else s
  | 2 => if on && decide (100 * vout < (100 - s.railPgwin k) * s.railRef k) then s.railReport k 2 vout vin else s
  | 3 => if on && decide ((100 + s.railPgwin k) * s.railRef k < 100 * vout) then s.railReport k 3 vout vin else s
  | 4 => if 2 ≤ k ∧ vin < 2500 then s.linLow vout vin else s
  | _ => s

/-! ## Supervisors (R180–R183) -/

/-- VMONn in window, as the supervisor holds it. -/
def State.vmonIn (s : State) (n : Nat) : Bool := bit (s.rd Reg.RAILS_STAT) (16 + n) && s.fb (Fd.RAILS_VMONCFG_EN n)

/-- A slot's state and membership of a run, as the supervisors see them. -/
def State.slotSt (s : State) (k : Nat) : Nat := s.f (Fd.SEQ_SLOTSTAT_STATE k)

/-- What a slot keeps. -/
def State.slot (s : State) (k : Nat) : Slot := tget (fun _ => Slot.init) s.seq.slots k

/-- What a slot keeps, replaced. -/
def State.setSlot (s : State) (k : Nat) (x : Slot) : State :=
  { s with seq := { s.seq with slots := tset (fun _ => Slot.init) s.seq.slots k x } }

/-- VMONn at `mv` has held for DEGL µs (R180): entry, exit, the exit's FS19 while the slot is GOOD outside a run, and the
over-voltage FS19 while the slot is OFF (R340). -/
def State.vmonChange (s : State) (n mv : Nat) : State :=
  if s.f (Fd.RAILS_VMONCFG_EN n) = 0 then s
  else
    let v := 2 * mv
    let uv := 3 * s.f (Fd.RAILS_VMONTH_UV n)
    let ov := 3 * s.f (Fd.RAILS_VMONTH_OV n)
    let h := 12 * s.f (Fd.RAILS_VMONCFG_HYST n)
    let k := 10 + n
    let s :=
      if s.vmonIn n then
        if v + h < uv ∨ ov + h < v then
          let s := (s.clrReg Reg.RAILS_STAT (bitAt (16 + n))).evBit Fd.RAILS_EVRAW_VMONEXIT n
          let s := s.wakeUp
          if s.slotSt k = 2 ∧ !(s.slot k).inRun then s.raise 19 1 n else s
        else s
      else if uv < v ∧ v < ov then ((s.orReg Reg.RAILS_STAT (bitAt (16 + n))).evBit Fd.RAILS_EVRAW_VMONENTER n).wakeUp
      else s
    if ov < v then
      if s.slotSt k = 0 ∧ !(s.slot k).ovSeen then (s.setSlot k { s.slot k with ovSeen := true }).raise 19 2 n else s
    else if (s.slot k).ovSeen then s.setSlot k { s.slot k with ovSeen := false } else s

/-- EXT enable n is active: slot 10 + n is starting or on, or has failed from there (R183, R194). -/
def State.extActive (s : State) (n : Nat) : Bool := (s.slot (10 + n)).on

/-- The GPIO that a slot's forced pull-down drives (R192), from `SLOTkCFG` as in force (R201). -/
def State.slotDpin (s : State) (k : Nat) : Nat := getBits (s.slot k).cfg 28 3

/-- The level the device drives on a GPIO: an EXT enable (R183), a forced pull-down (R192), a timer's compare
output (R413), or the pin's own output (R190);
`none` where it drives nothing. -/
def State.gpioDrive (s : State) (k : Nat) : Option Bool :=
  let forced := 8 ≤ k && (List.range 18).any fun j => s.fb (Fd.SEQ_SLOTSTAT_FORCED j) && s.slotDpin j == k - 7
  if forced then some true
  else if k < 8 ∧ s.fb (Fd.RAILS_VMONCFG_GPIOEN k) then
    let level := s.extActive k == s.fb (Fd.RAILS_VMONCFG_ENPOL k)
    if s.fb (Fd.RAILS_VMONCFG_ENOD k) && level then none else some level
  else if s.fb Fd.FAULT_EXTIN_EN ∧ s.f Fd.FAULT_EXTIN_PIN = k then none
  else if (List.range 4).any (fun t => s.fb (Fd.TIMER_TIO_OUTEN t) && s.f (Fd.TIMER_TIO_OPIN t) == k) then
    let level := (List.range 4).any fun t => s.fb (Fd.TIMER_TIO_OUTEN t) && s.f (Fd.TIMER_TIO_OPIN t) == k &&
      (tget (fun _ => Timer.init) s.timers t).out
    if s.fb (Fd.GPIO_PIN_OD k) && level then none else some level
  else if s.fb (Fd.GPIO_PIN_DIR k) then
    let level := s.fb (Fd.GPIO_PIN_OUT k)
    if s.fb (Fd.GPIO_PIN_OD k) && level then none else some level
  else none

/-- The level at a GPIO ball: what the device drives, else what was last seen there. -/
def State.gpioLevel (s : State) (k : Nat) : Bool := (s.gpioDrive k).getD (s.fb (Fd.GPIO_PIN_IN k))

/-- A GPIO ball changes level from outside (R190): an edge that matches WAKE sets its event and wakes the device. -/
def State.gpioEdge (s : State) (k : Nat) (level : Bool) : State :=
  if s.fb (Fd.GPIO_PIN_IN k) = level then s
  else
    let s := s.setFb (Fd.GPIO_PIN_IN k) level
    let w := s.f (Fd.GPIO_PIN_WAKE k)
    if (level && (w == 1 || w == 3)) || (!level && (w == 2 || w == 3)) then (s.orReg Reg.GPIO_EVRAW (bitAt k)).wakeUp else s

/-! ## Housekeeping ADC (R185–R188) -/

/-- A channel is in the scan list. -/
def State.scanned (s : State) (ch : Nat) : Bool :=
  if ch < 32 then bit (s.rd Reg.RAILS_SCANMASK0) ch else bit (s.rd Reg.RAILS_SCANMASK1) (ch - 32)

/-- A scan starts (R186). -/
def State.scanBegin (s : State) : State :=
  if s.fb Fd.RAILS_SCANCFG_SCANEN ∧ s.f Fd.RAILS_STAT_SCANBUSY = 0 ∧ s.f Fd.RAILS_STAT_ADCSEL ≠ 3 then
    s.setF Fd.RAILS_STAT_SCANBUSY 1
  else s

/-- The scan period expires (R186); it is an AO wake source. -/
def State.scanStart (s : State) : State :=
  let p := s.f Fd.RAILS_SCANCFG_PERIOD
  if s.fb Fd.RAILS_SCANCFG_SCANEN ∧ p ≠ 0 ∧ s.adc.scanDue ≤ s.ticks then
    ({ s with adc := { s.adc with scanDue := s.ticks + p } } : State).wakeUp.scanBegin
  else s

/-- The measured analog inputs that other blocks show (R185, R351); the input and half-bridge currents come from their
sense resistors (R211; log entry 51). -/
def State.noteSample (s : State) (ch mv : Nat) : State :=
  match ch with
  | 0 => { s with plant := { s.plant with vin := some mv } }
  | 1 => { s with plant := { s.plant with vac := some mv } }
  | 2 => { s with plant := { s.plant with vsys := some mv } }
  | 3 => { s with plant := { s.plant with vbat := some mv } }
  | 4 => { s with plant := { s.plant with vhold := some mv } }
  | 10 => s.railSeen 0 mv
  | 11 => s.railSeen 1 mv
  | 12 => s.railSeen 2 mv
  | 13 => s.railSeen 3 mv
  | 14 => s.railSeen 4 mv
  | 15 => s.railSeen 5 mv
  | 34 => s.setF Fd.PATH_MEAS_IIN (signed 16 mv).toNat
  | 35 => s.setF Fd.PATH_MEAS_IHB (toSigned 16 (10 * signed 16 mv / max 1 (s.f Fd.PATH_HBCFG_RCS : Int)))
  | _ => s

/-- The mean of a channel's samples, rounded down (log entry 102). -/
def meanCode (xs : List Nat) : Nat := xs.foldl (· + ·) 0 / max 1 xs.length

/-- `VALUE` of a channel (R185): from the code where its unit and resolution give the conversion, else as converted; the
current-sense channels stay within ±64 mV. -/
def adcValueOf (ch raw v : Nat) : Nat :=
  if ch < 5 then 12 * raw
  else if ch < 24 then 3 * raw / 2
  else if ch < 28 then 4 * raw
  else if ch = 34 ∨ ch = 35 then toSigned 16 (clampInt (-6400) 6400 (signed 16 v))
  else if ch = 46 ∨ ch = 47 then raw
  else v

/-- ADC-A converts the scan, and so does ADC-B: alone, or for the cross-check (R187). -/
def State.adcUses (s : State) : Bool × Bool :=
  match s.f Fd.RAILS_STAT_ADCSEL with
  | 0 => (true, s.fb Fd.RAILS_CTRL_XCHKEN)
  | 1 => (true, false)
  | 2 => (false, true)
  | _ => (false, false)

/-- A channel has its 2^AVG samples of each converter that converts it (R186). -/
def State.sampled (s : State) (x : AdcSample) : Bool :=
  let n := 2 ^ s.f Fd.RAILS_SCANCFG_AVG
  (!s.adcUses.1 || x.a.length == n) && (!s.adcUses.2 || x.b.length == n)

/-- A channel's cross-check (R187). -/
def State.crossCheck (s : State) (x : AdcSample) : State :=
  let a := meanCode x.a
  let b := meanCode x.b
  let diff := if a < b then b - a else a - b
  let n := if s.f Fd.RAILS_XCHK_TOL < diff then tget (fun _ => 0) s.adc.dis x.ch + 1 else 0
  if n ≠ 0 ∧ s.f Fd.RAILS_XCHK_COUNT ≤ n then
    let s := ((s.setF Fd.RAILS_XCHKSTAT_CH x.ch).setF Fd.RAILS_XCHKSTAT_ACODE a).setF Fd.RAILS_XCHKSTAT_BCODE b
    let s := { s with adc := { s.adc with dis := tset (fun _ => 0) s.adc.dis x.ch 0, selfTest := true } }
    (s.ev Fd.RAILS_EVRAW_XCHK).raise 46 0 x.ch
  else { s with adc := { s.adc with dis := tset (fun _ => 0) s.adc.dis x.ch n } }

/-- One scanned channel stored (R185, R186). -/
def State.storeSample (s : State) (x : AdcSample) : State :=
  let b := s.f Fd.RAILS_STAT_ADCSEL == 2
  let raw := meanCode (if b then x.b else x.a)
  let v := adcValueOf x.ch raw x.value
  let s := ((s.setF (Fd.RAILS_ADC_VALUE x.ch) v).setF (Fd.RAILS_ADC_VALID x.ch) 1).setFb (Fd.RAILS_ADC_SRC x.ch) b
  (s.setF (Fd.RAILS_ADC_RAW x.ch) raw).noteSample x.ch v

/-- What follows the conversions of a scan (R187, R188): the comparison of both converters, whose counts only consecutive
scans of a channel advance, or the count towards the self-test of the one that is alone. -/
def State.scanJudge (s : State) (xs : List AdcSample) : State :=
  if s.f Fd.RAILS_STAT_ADCSEL = 0 then
    let ys := if s.fb Fd.RAILS_CTRL_XCHKEN then xs else []
    let s := { s with adc := { s.adc with dis := s.adc.dis.filter fun p => ys.any fun x => x.ch == p.1 } }
    ys.foldl State.crossCheck s
  else
    let n := s.adc.since + 1
    if s.f Fd.RAILS_XCHK_SELFTEST ≤ n then { s with adc := { s.adc with since := 0, selfTest := true } }
    else { s with adc := { s.adc with since := n } }

/-- The channels of the scan list in ascending order, each with its samples; `none` while one of them is not converted. -/
def State.scanOf (s : State) (xs : List AdcSample) : Option (List AdcSample) :=
  ((List.range 48).filter s.scanned).mapM fun ch => xs.find? fun x => x.ch == ch && s.sampled x

/-- A scan completes (R186): every scanned channel is stored and compared. -/
def State.scanDone (s : State) (xs : List AdcSample) : State :=
  match s.scanOf xs with
  | some ys =>
    if s.fb Fd.RAILS_STAT_SCANBUSY then
      (((ys.foldl State.storeSample s).scanJudge ys).setF Fd.RAILS_STAT_SCANBUSY 0).ev Fd.RAILS_EVRAW_SCANDONE
    else s
  | none => s

/-- No converter is left (R187, R188): scanning stops, every VALID is cleared, FS47 with cause ADC. -/
def State.adcGone (s : State) : State :=
  let s := (s.setF Fd.RAILS_STAT_ADCSEL 3).setF Fd.RAILS_STAT_SCANBUSY 0
  ((List.range 48).foldl (fun s ch => s.setF (Fd.RAILS_ADC_VALID ch) 0) s).spareGone 3

/-- The code of a converter on a self-test channel by the trims in use (R187, R401). -/
def State.adcTrimOf (s : State) (conv ch : Nat) : Nat := if s.otp.midTrim then Config.adcMidTrim conv ch else Config.adcTrim conv ch

/-- A converter passes its self-test (R187): its codes on channels 46 and 47 lie within 8 of the trimmed ones. -/
def State.adcPasses (s : State) (conv : Nat) (codes : Nat × Nat) : Bool :=
  let near (code ch : Nat) : Bool := decide (code ≤ s.adcTrimOf conv ch + 8 ∧ s.adcTrimOf conv ch ≤ code + 8)
  near codes.1 46 && near codes.2 47

/-- Both converters have converted channels 46 and 47 for a self-test (R187, R188); `a` and `b` are their codes. -/
def State.selfTestDone (s : State) (a b : Nat × Nat) : State :=
  if s.adc.selfTest then
    let passA := s.adcPasses 0 a
    let passB := s.adcPasses 1 b
    let s := { s with adc := { s.adc with selfTest := false } }
    let sole (s : State) (sel : Nat) : State :=
      ((s.setF Fd.RAILS_STAT_ADCSEL sel).setF Fd.HEALTH_SPARESTAT_ADCSOLE 1).ev Fd.RAILS_EVRAW_ADCSUB
    match s.f Fd.RAILS_STAT_ADCSEL with
    | 0 =>
      match passA, passB with
      | true, true => s
      | false, true => (sole s 2).spareUsed
      | true, false => sole s 1
      | false, false => s.adcGone
    | 1 => if passA then s else s.adcGone
    | 2 => if passB then s else s.adcGone
    | _ => s
  else s

end Sys2Proof.Machine
end

