-- ==== Sys2Proof/Machine/Seq.lean ====
section
/-! DEFINITION. The rail table (R191–R201), RSTO# (R203) and the first-failure capture (R204). -/

namespace Sys2Proof.Machine

/-! ## Slots -/

/-- Slot states (R193). -/
def slOff : Nat := 0
def slWaitdep : Nat := 1
def slGood : Nat := 2
def slStart : Nat := 3
def slFailed : Nat := 4
def slStop : Nat := 5

/-- The sequencer's own state replaced. -/
def State.setSeq (s : State) (q : Seq) : State := { s with seq := q }

/-- The slots whose bit is set in a slot's dependency mask. -/
def State.deps (s : State) (k : Nat) : List Nat := bitList 32 (s.rd (Reg.SEQ_SLOTDEP k)).toNat

/-- The slots that depend on a slot directly. -/
def State.dependents (s : State) (k : Nat) : List Nat := (List.range 32).filter fun j => bit (s.rd (Reg.SEQ_SLOTDEP j)) k

/-- A slot's PEND, mirrored by its loop or rail (R124, R174, R198). -/
def State.setPend (s : State) (k : Nat) (b : Bool) : State :=
  let s := s.setFb (Fd.SEQ_SLOTSTAT_PEND k) b
  if k < 4 then s.setFb (Fd.LOOP_STAT_PEND k) b
  else if k < 10 then s.setFb (railPend (k - 4)) b
  else s

/-- The window signal of a slot (R191). -/
def State.slotWindow (s : State) (k : Nat) : Bool :=
  if k < 4 then s.fb (Fd.LOOP_STAT_PGOOD k)
  else if k < 10 then s.fb (railGood (k - 4))
  else if k < 18 then s.vmonIn (k - 10)
  else (s.deps k).all fun j => s.slotSt j == slGood

/-- A slot changes state: its CFG and TIME act from here (R201). -/
def State.setSlotSt (s : State) (k st : Nat) : State :=
  let s := s.setF (Fd.SEQ_SLOTSTAT_STATE k) st
  s.setSlot k { s.slot k with cfg := s.rd (Reg.SEQ_SLOTCFG k), time := s.rd (Reg.SEQ_SLOTTIME k) }

/-- `GOODMASK` (R210). -/
def State.goodMask (s : State) : Nat := (List.range 32).foldl (fun acc k => if s.slotSt k = slGood then acc + 2 ^ k else acc) 0

/-- `ONMASK` (R210). -/
def State.onMask (s : State) : Nat := (List.range 32).foldl (fun acc k => if s.slotSt k = slOff then acc else acc + 2 ^ k) 0

/-- Turned on (R191). -/
def State.slotTurnOn (s : State) (k : Nat) : State :=
  let s := s.setSlot k { s.slot k with on := true }
  if k < 4 then s.loopTurnOn k
  else if k < 10 then s.railOn (k - 4)
  else s

/-- Turned off (R191). -/
def State.slotTurnOff (s : State) (k : Nat) : State :=
  let s := s.setSlot k { s.slot k with on := false }
  if k < 4 then s.loopTurnOff k
  else if k < 10 then s.railDischarge (k - 4)
  else s

/-- The slot enters START: turned on, counts cleared, start timer started (R193). -/
def State.slotStart (s : State) (k : Nat) : State :=
  let s := s.setSlotSt k slStart
  let s := ((s.setF (Fd.SEQ_SLOTSTAT_CHAT k) 0).setF (Fd.SEQ_SLOTSTAT_CAUSE k) 0).setF (Fd.SEQ_SLOTSTAT_FORCED k) 0
  let s := s.slotTurnOn k
  s.setSlot k { s.slot k with startDue := some (s.ticks + msTicks (getBits (s.slot k).time 12 12)), qualFrom := s.ticks,
                              inWin := s.slotWindow k }

/-! ## First-failure capture (R204) -/

/-- The 16 bytes of slot states, 4 bits each, slot 0 in bits [7:4] of the first byte. -/
def State.slotNibbles (s : State) : List Byte :=
  (List.range 16).map fun i => BitVec.ofNat 8 (s.slotSt (2 * i) * 16 + s.slotSt (2 * i + 1))

/-- A value of the ADC as it stands, 0 while it is not valid. -/
def State.adcValue (s : State) (ch : Nat) : Nat := if s.fb (Fd.RAILS_ADC_VALID ch) then s.f (Fd.RAILS_ADC_VALUE ch) else 0

/-- The slots in a power-down run, one bit each. -/
def State.runSlots (s : State) : Nat := (List.range 32).foldl (fun acc k => if (s.slot k).inRun then acc + 2 ^ k else acc) 0

/-- The armed capture fires. -/
def State.firstFail (s : State) (trigger : Nat) : State :=
  if s.fb Fd.SEQ_STAT_FFARMED then
    let s := s.setF Fd.SEQ_STAT_FFARMED 0
    let s := s.recRing .firstFail .firstFail fun n =>
      withCrc32c (packBE [(0x46, 1), (trigger, 1), (n, 2), (s.chipTime, 8)] ++ s.slotNibbles ++
        packBE [(s.goodMask, 4), (s.adcValue 0, 2), (s.adcValue 2, 2), (s.adcValue 3, 2), (s.adcValue 4, 2),
          (s.f Fd.PATH_STAT_HOSTATE, 1), (s.power.state.code, 1), (0, 2), (s.runSlots, 4), (0, 12)])
    let s := (s.setF Fd.SEQ_FFSTAT_RECNO s.rflash.numbers[Ring.firstFail.ix]).setF Fd.SEQ_FFSTAT_TRIGGER trigger
    s.ev Fd.SEQ_EVRAW_FFREC
  else s

/-- The capture is armed. -/
def State.ffArm (s : State) : State := s.setF Fd.SEQ_STAT_FFARMED 1

/-! ## RSTO# (R203) -/

/-- RSTO# released, READY set with its event (R74), the capture armed. -/
def State.rstoRelease (s : State) (failed : Bool) : State :=
  let s := s.setSeq { s.seq with rsto := true, rstoDue := none }
  let s := if failed then s.setF Fd.SEQ_STAT_BOOTFAIL 1 else s
  ((s.setF Fd.SYS_STAT_READY 1).ev Fd.SYS_EVRAW_READY).ffArm

/-- RSTO#'s release condition: step 6 has ended and every slot of RSTOMASK is GOOD. -/
def State.rstoReady (s : State) : Bool :=
  s.seq.step6 && (bitList 32 (s.rd Reg.SEQ_RSTOMASK).toNat).all fun k => s.slotSt k == slGood

/-- The release delay starts when the condition first holds (R203; log entry 26). -/
def State.rstoJudge (s : State) : State :=
  if s.seq.rsto ∨ s.seq.stage ≠ .running then s
  else
    match s.seq.rstoDue, s.rstoReady with
    | none, true => s.setSeq { s.seq with rstoDue := some (s.ticks + msTicks (s.f Fd.SEQ_RSTOCFG_DELAY)) }
    | _, _ => s

/-- The delay expires. -/
def State.rstoExpire (s : State) : State :=
  match s.seq.rstoDue with
  | some due => if due ≤ s.ticks then s.rstoRelease false else s
  | none => s

/-! ## Failure and stop -/

/-- A slot fails (R193, R194): FS20 with its cause; a slot of RSTOMASK that fails first releases RSTO#. -/
def State.slotFail (s : State) (k cause : Nat) : State :=
  let s := (s.setSlotSt k slFailed).setF (Fd.SEQ_SLOTSTAT_CAUSE k) cause
  let s := (s.ev Fd.SEQ_EVRAW_FAILED).raise 20 cause k
  if !s.seq.rsto ∧ s.seq.stage = .running ∧ bit (s.rd Reg.SEQ_RSTOMASK) k then s.rstoRelease true else s

/-- A slot enters STOP: turned off, discharge timer started (R193). -/
def State.slotStop (s : State) (k : Nat) : State :=
  let s := (s.setSlotSt k slStop).setF (Fd.SEQ_SLOTSTAT_RUNWAIT k) 0
  let s := s.slotTurnOff k
  s.setSlot k { s.slot k with disDue := s.ticks + msTicks (getBits (s.slot k).cfg 0 12) }

/-- A slot that was turned on reaches OFF: MINOFF runs from here (R198). -/
def State.slotReachOff (s : State) (k : Nat) : State :=
  let s := (s.setSlotSt k slOff).setF (Fd.SEQ_SLOTSTAT_RUNWAIT k) 0
  let s := s.setSlot k { s.slot k with on := false, inRun := false, minoffDue := s.ticks + msTicks (10 * getBits (s.slot k).time 24 8) }
  if 4 ≤ k ∧ k < 10 then s.railOff (k - 4) else s

/-- A slot goes to OFF without order, its PEND cleared (R193). -/
def State.slotKill (s : State) (k : Nat) : State :=
  let s := s.setPend k false
  let s := if k < 4 then s.loopKill k else s
  match s.slotSt k with
  | 0 => s
  | 1 => s.setSlotSt k slOff
  | _ => s.slotReachOff k

/-! ## Requests (R196–R198) -/

/-- A slot waits in a power-down run for its dependents. -/
def State.runWaits (s : State) (k : Nat) : Bool := s.fb (Fd.SEQ_SLOTSTAT_RUNWAIT k)

/-- A dependency fails those that wait for it (R193): FAILED, or OFF or STOP with its PEND clear. -/
def State.depDead (s : State) (j : Nat) : Bool :=
  let st := s.slotSt j
  st == slFailed || ((st == slOff || st == slStop) && !s.fb (Fd.SEQ_SLOTSTAT_PEND j))

/-- USE of a slot: as written while the slot is OFF, since the next request is its next change of state; else as it stood at
the last one (R193, R201). -/
def State.slotUse (s : State) (k : Nat) : Bool :=
  if s.slotSt k = slOff then s.fb (Fd.SEQ_SLOTCFG_USE k) else bit (s.slot k).cfg 31

/-- A dependency for which a request is refused (R196): unused, or as `depDead`. -/
def State.depLost (s : State) (j : Nat) : Bool := !s.slotUse j || s.depDead j

/-- A refused on request (R196). -/
def State.slotRefuse (s : State) (k reason : Nat) : State :=
  let s := s.setF (Fd.SEQ_SLOTSTAT_RREASON k) reason
  let s := (s.setF Fd.SEQ_REFUSE_REASON reason).setF Fd.SEQ_REFUSE_SLOT k
  s.ev Fd.SEQ_EVRAW_REFUSED

/-- An on request (R196); answers whether it was refused. Between a die shut-down's trip and the hold the request is only
latched (R16, R338). -/
def State.slotOn (s : State) (k : Nat) : State × Bool :=
  let st := s.slotSt k
  if s.slotUse k = false then (s.slotRefuse k 1, true)
  else if s.therm.holding then (s.setPend k true, false)
  else if st = slFailed then (s.slotRefuse k 2, true)
  else if st = slOff then
    if (s.deps k).any s.depLost then (s.slotRefuse k 3, true)
    else if k < 4 ∧ s.enableReason k ≠ 0 then ((s.slotRefuse k 4).convRefuse (s.enableReason k) k 0xF, true)
    else if s.ticks < (s.slot k).minoffDue then (s.setPend k true, false)
    else if (s.deps k).all fun j => s.slotSt j == slGood then (s.slotStart k, false)
    else (s.setSlotSt k slWaitdep, false)
  else if st = slStop ∨ s.runWaits k then (s.setPend k true, false)
  else (s, false)

/-- The dependents of a set of slots, direct and indirect, added to it; 32 rounds reach them all. -/
def withDependents (s : State) : Nat → List Nat → List Nat
  | 0, ks => ks
  | n + 1, ks => withDependents s n ((List.range 32).filter fun j => ks.contains j || (s.deps j).any ks.contains)

/-- A power-down run of a set of slots with all their dependents (R199). -/
def State.downRun (s : State) (ks : List Nat) : State :=
  let set := withDependents s 32 ((List.range 32).filter ks.contains)
  let s := s.setF Fd.SEQ_STAT_RUN 1
  set.foldl (fun s k =>
    let s := s.setPend k false
    match s.slotSt k with
    | 0 => s
    | 1 => s.setSlotSt k slOff
    | 5 => s
    | _ => (s.setSlot k { s.slot k with inRun := true }).setF (Fd.SEQ_SLOTSTAT_RUNWAIT k) 1) s

/-- An off request (R193, R198, R199). -/
def State.slotOffReq (s : State) (k : Nat) : State :=
  let s := s.setPend k false
  let st := s.slotSt k
  if st = slWaitdep then s.setSlotSt k slOff
  else if st = slStart ∨ st = slGood ∨ st = slFailed then s.downRun [k]
  else s

/-- A write of `SEQ.DOWN` (R199); 0 starts no run. -/
def State.seqDown (s : State) (mask : Word) : State := if mask = 0 then s else s.downRun (bitList 32 mask.toNat)

/-- A write of `SEQ.REQ`. -/
def State.seqReq (s : State) (d : Word) : State :=
  let k := getBits d 0 5
  if getBits d 8 1 = 1 then (s.slotOn k).1 else s.slotOffReq k

/-- With `dep` as its mask, a chain of dependencies leads from slot k back to it (R201). -/
def State.makesCycle (s : State) (k : Nat) (dep : Word) : Bool :=
  let t := s.wr (Reg.SEQ_SLOTDEP k) dep
  (withDependents t 32 (t.dependents k)).contains k

/-- A write of `SEQ.SLOTkDEP` (R201). -/
def State.depWrite (s : State) (k : Nat) (d : Word) : State :=
  let d := d &&& ~~~ bitAt k
  if s.slotSt k ≠ slOff then s.slotRefuse k 6
  else if s.makesCycle k d then s.slotRefuse k 5
  else s.wr (Reg.SEQ_SLOTDEP k) d

/-! ## Events of a slot (R193, R195) -/

/-- The qualification count reaches QUAL; in a power-down run too, since R200 keeps a slot from START and FAILED alone. -/
def State.slotQualified (s : State) (k : Nat) : State :=
  let x := s.slot k
  if s.slotSt k = slStart ∧ x.inWin ∧ getBits x.time 0 12 ≤ s.ticks - x.qualFrom then
    ((s.setSlotSt k slGood).setF (Fd.SEQ_SLOTSTAT_CHAT k) 0).ev Fd.SEQ_EVRAW_GOOD
  else s

/-- A window exit or a fault of a slot in a power-down run (R200): reported, and the run goes on. -/
def State.runFault (s : State) (k : Nat) : State := (s.ev Fd.SEQ_EVRAW_RUNFAULT).almanacBlock 12 6 k 0

/-- The start timer has expired. -/
def State.startOver (s : State) (k : Nat) : Bool :=
  match (s.slot k).startDue with
  | some due => decide (due ≤ s.ticks)
  | none => false

/-- The start timer reaches TSTART: the slot fails, or in a power-down run only reports it (R193, R200). -/
def State.slotStartTimeout (s : State) (k : Nat) : State :=
  if s.slotSt k = slStart ∧ s.startOver k then
    if (s.slot k).inRun then (s.setSlot k { s.slot k with startDue := none }).runFault k else s.slotFail k 1
  else s

/-- A stopping slot falls below its threshold (R191): `mv` for slots 0–17, no commitment for a group. -/
def State.slotDischarged (s : State) (k mv : Nat) : State :=
  let below := if k < 18 then decide (mv < 20 * getBits (s.slot k).cfg 12 8) else s.groupCommit (k - 18) == 0
  if s.slotSt k = slStop ∧ below then
    let s := if k < 4 then s.setF (Fd.LOOP_MEAS_VOUT k) mv else if k < 10 then s.railSeen (k - 4) mv else s
    s.slotReachOff k
  else s

/-- The discharge timer reaches TDIS (R193). -/
def State.slotDischargeTimeout (s : State) (k : Nat) : State :=
  if s.slotSt k = slStop ∧ (s.slot k).disDue ≤ s.ticks then
    let s := (s.slotReachOff k).setFb (Fd.SEQ_SLOTSTAT_FORCED k) (decide (k < 18))
    ((s.ev Fd.SEQ_EVRAW_DTIMEOUT).almanacBlock 12 4 k 0).raise 21 0 k
  else s

/-- MINOFF has passed since a slot with PEND reached OFF (R198). -/
def State.slotPendDue (s : State) (k : Nat) : State :=
  if s.fb (Fd.SEQ_SLOTSTAT_PEND k) ∧ s.slotSt k = slOff ∧ (s.slot k).minoffDue ≤ s.ticks then
    ((s.setPend k false).slotOn k).1
  else s

/-- A chatter added to a slot in START and judged against CHATMAX (R195). -/
def State.chatter (s : State) (k n : Nat) : State :=
  let s := s.setF (Fd.SEQ_SLOTSTAT_CHAT k) n
  if getBits (s.slot k).cfg 20 8 ≤ n then s.slotFail k 2 else s

/-- A GOOD slot loses its window outside a run (R193). -/
def State.goodLost (s : State) (k : Nat) : State :=
  let s := s.firstFail k
  let s := s.setSeq { s.seq with lastLoss := s.ticks }
  let s := (s.setSlotSt k slStart).ev Fd.SEQ_EVRAW_GOODLOST
  let s := s.setSlot k { s.slot k with startDue := some (s.ticks + msTicks (getBits (s.slot k).time 12 12)) }
  s.chatter k 1

/-- The window signal of a slot changed and is taken in (R182, R195, R200). -/
def State.takeWindow (s : State) (k : Nat) (win : Bool) : State :=
  let x := s.slot k
  let s := s.setSlot k { x with inWin := win, qualFrom := s.ticks }
  if win then s
  else
    let st := s.slotSt k
    if x.inRun then
      if st = slStart ∨ st = slGood ∨ st = slFailed then s.runFault k else s
    else if st = slGood then s.goodLost k
    else if st = slStart then s.chatter k (satInc 255 (s.f (Fd.SEQ_SLOTSTAT_CHAT k)))
    else s

/-! ## Settling (R193, R199) -/

/-- The first slot, ascending, that moves without a further command, moved; `none` when none does. DESIGN CHOICE (log entry
86): a loop's slot that leaves WAITDEP starts its loop without a new judgement of R113, which was made when the request was
accepted; no rule asks for another, should the last SPARE of a COMPACT device have gone meanwhile. -/
def State.seqMove (s : State) : Option State :=
  (List.range 32).findSome? fun k =>
    let st := s.slotSt k
    let win := s.slotWindow k
    if (st ≠ slOff ∨ (s.slot k).inWin) ∧ (s.slot k).inWin ≠ win then some (s.takeWindow k win)
    else if st = slWaitdep ∧ (s.deps k).all (fun j => s.slotSt j == slGood) then some (s.slotStart k)
    else if st = slWaitdep ∧ (s.deps k).any s.depDead then some (s.slotFail k 3)
    else if s.runWaits k ∧ (s.dependents k).all (fun j => s.slotSt j == slOff) then some (s.slotStop k)
    else none

/-- Moves until none is left; each slot moves at most a few times in one command. -/
def seqSettleN : Nat → State → State
  | 0, s => s
  | n + 1, s =>
    match s.seqMove with
    | some t => seqSettleN n t
    | none => s

/-- A run whose last slot has reached OFF ends (R199). -/
def State.runEnd (s : State) : State :=
  if s.fb Fd.SEQ_STAT_RUN ∧ !(List.range 32).any (fun k => (s.slot k).inRun) then
    (s.setF Fd.SEQ_STAT_RUN 0).ev Fd.SEQ_EVRAW_RUNDONE
  else s

/-- An enable latched while the loop was in SOFTOFF or CROWBAR is acted on once the loop has left them (R124): to a slot that
is already on it changes nothing (R196). -/
def State.loopPend (s : State) (n : Nat) : State :=
  if s.fb (Fd.SEQ_SLOTSTAT_PEND n) && (s.slotSt n == slWaitdep || s.slotSt n == slStart || s.slotSt n == slGood) &&
      s.lstate n != lpSoftoff && s.lstate n != lpCrowbar && !s.therm.holding then s.setPend n false
  else s

/-- The rail table settled: windows taken in, waiting slots moved, an empty run ended, RSTO# judged. -/
def State.seqSettle (s : State) : State :=
  ((List.range 4).foldl (fun (t : State) n => t.loopPend n) (seqSettleN 256 s).runEnd).rstoJudge

/-! ## Collapse warning and re-arming (R204, R205) -/

/-- VSYS as the collapse comparator sees it. -/
def State.seeVsys (s : State) (vsys : Nat) : State := { s with plant := { s.plant with vsys := some vsys } }

/-- `STAT.VCWLOW` (R210): VSYS stands below VCW. -/
def State.vcwLow (s : State) : Bool :=
  match s.plant.vsys with
  | some v => decide (v < 100 * s.f Fd.SEQ_COLLAPSE_VCW)
  | none => false

/-- VSYS at a level for 5 µs: below VCW, FS2, whether or not the capture is armed. -/
def State.vsysCollapse (s : State) (vsys : Nat) : State :=
  let s := s.seeVsys vsys
  if s.vcwLow then
    let s := s.setSeq { s.seq with lastLoss := s.ticks }
    (((s.ev Fd.SEQ_EVRAW_VCW).firstFail 0x40).raise 2 0 0).gaugeOwe
  else s

/-- VSYS has stood above VCW + HYST since the AO tick `since`, with no GOOD slot lost, for REARM ms. -/
def State.firstFailRearm (s : State) (vsys since : Nat) : State :=
  if 100 * (s.f Fd.SEQ_COLLAPSE_VCW + s.f Fd.SEQ_COLLAPSE_HYST) < vsys ∧
      max since s.seq.lastLoss + msTicks (s.f Fd.SEQ_COLLAPSE_REARM) ≤ s.ticks ∧ s.seq.rsto then
    (s.seeVsys vsys).ffArm
  else s

end Sys2Proof.Machine
end

