-- ==== Sys2Proof/Machine/Apply.lean ====
section
/-! DEFINITION. Register writes that act on a loop (R112, R119–R121, R126, R152), and the application of a health proposal,
whose items are such writes (R162). -/

namespace Sys2Proof.Machine

/-! ## Writes to a loop, its bank and its phases -/

/-- A write of `LOOPn.CTRL` (R113, R119, R124, R197): the settings, and EN as an on or off request of slot n; a write that
R113 refuses changes nothing. EN = 1 in SOFTOFF or CROWBAR sets PEND. DESIGN CHOICE (log entry 85): it does so beside what
R196 answers for the slot's state, though R196 gives WAITDEP, START and GOOD no change and refuses FAILED. -/
def State.loopCtrl (s : State) (n : Nat) (d : Word) : State :=
  if bit d 0 then
    let (t, refused) := (s.loopCtrlWrite n d).slotOn n
    if s.lstate n = lpSoftoff ∨ s.lstate n = lpCrowbar then t.setPend n true
    else if refused ∧ t.f (Fd.SEQ_SLOTSTAT_RREASON n) = 4 then (s.slotOn n).1 else t
  else
    let t := (s.loopCtrlWrite n d).slotOffReq n
    if t.lstate n = lpCrowbar then t.setLoop n { t.loop n with enZero := true } else t

/-- A LOOPn page (R120, R121, R132, R152). -/
def State.writeLoop (s : State) (n off : Nat) (v new : Word) : State :=
  let k := 0x5000 + 0x1000 * n + off
  let abort (s : State) : State := s.probeAbort n 9
  match off with
  | 0x004 => abort (s.loopCtrl n v)
  | 0x040 => abort (s.targetWrite n v)
  | 0x04C => abort (if s.loopEnabled n then s else s.wr k new)
  | 0x054 => abort (s.wr k new)
  | 0x058 => abort (s.wr k (putBits new 16 10 (min (getBits new 16 10) (getBits new 0 10))))
  | 0x060 => abort (s.wr k new)
  | _ => s.wr k new

/-- A write of `CONV.BANKm`: a probe of a loop that uses the bank ends (R152). -/
def State.bankWrite (s : State) (k : Nat) (new : Word) : State :=
  let m := (k - Reg.CONV_BANK 0) / 4
  let t := s.wr k new
  (List.range 4).foldl (fun t n => if s.f (Fd.LOOP_CTRL_BANK n) = m then State.probeAbort t n 9 else t) t

/-- A write of `PHASE.ASSIGNk`; one that R113 accepts ends a probe of the phase's loop (R152). -/
def State.phaseAssign (s : State) (k : Nat) (d : Word) : State :=
  let t := s.assignWrite k d
  if s.assignReason k (getBits d 4 2) (getBits d 0 2) = 0 then t.probeAbort (s.f (Fd.PHASE_ASSIGN_LOOP k)) 9 else t

/-! ## Applying a proposal (R162) -/

/-- The SE, ILIM and MINPH items of an APPLY take effect, as register writes; an ILIM item lets the ledger see the D it was
formed for (R158). -/
def State.dueItem (s : State) (n : Nat) (i : DueItems) : State :=
  let put (s : State) (off : Nat) (w : Word) : State :=
    let v := normWord (5 + n) off w
    s.writeLoop n off v v
  let s := if i.mask.testBit 3 then put s 0x054 (putBits (s.rd (Reg.LOOP_ISENSE n)) 16 9 i.se) else s
  let s := if i.mask.testBit 4 then
      let s := put s 0x058 (putBits (putBits (s.rd (Reg.LOOP_ILIM n)) 0 10 i.hi) 16 10 i.lo)
      s.setHl n { s.hl n with held := min i.derate (s.f (Fd.HEALTH_LCAP_D n)) }
    else s
  if i.mask.testBit 5 then (s.setF (Fd.LOOP_ADDSHED_MINPH n) i.minph).probeAbort n 9 else s

/-- What has been applied takes effect at the loop's period start. -/
def State.takeItems (s : State) (n : Nat) : State :=
  let due := (s.hl n).due
  if due.isEmpty then s
  else due.foldl (fun s i => s.dueItem n i) (s.setHl n { s.hl n with due := [] })

/-- PERIOD_START: the items applied since the last one take effect, and the period begins. -/
def State.periodBegin (s : State) (n vout : Nat) (ms : List PhaseMeas) : State :=
  if s.lstate n = lpOff then s else (s.takeItems n).periodStart n vout ms

/-- The role items: SWAP brings PIN in UNTESTED, its baseline to be captured (R163); POUT is RETIRED. -/
def State.roleItems (s : State) (n : Nat) (i : Items) (mask : Nat) : State :=
  let s := if mask.testBit 0 then
      let s := ((s.setRole i.pin roleActive).setRole i.pout 3).spareUsed
      s.setHl n { s.hl n with bringIn := (s.hl n).bringIn ++ [i.pin] }
    else s
  if mask.testBit 1 then s.setRole i.pout 3 else s

/-- Items of a mask applied (R162): the bank and the roles, which the loop takes in at its next period start (R112, R119),
FSW, and the others at that period start; at once while the loop is OFF. -/
def State.applyItems (s : State) (n mask : Nat) : State :=
  let i := s.itemsNow n
  let x := s.hl n
  let rev := if (mask.testBit 2 || mask.testBit 3) && !bit (s.rd Reg.HEALTH_STAT) (16 + n) then
      some (s.f (Fd.HEALTH_LRESP_PM n), s.f (Fd.LOOP_CTRL_BANK n), s.f (Fd.LOOP_ISENSE_SE n))
    else x.revert
  let s := if mask.testBit 2 then
      ((s.bankWrite (Reg.CONV_BANK i.bank) i.cells).setF (Fd.LOOP_CTRL_BANK n) i.bank).copyBank n
    else s
  let s := s.roleItems n i mask
  let s := if mask.testBit 6 then
      let v := normWord (5 + n) 0x04C (putBits (s.rd (Reg.LOOP_FSW n)) 0 17 i.period)
      s.writeLoop n 0x04C v v
    else s
  let x := s.hl n
  let s := s.setHl n { x with applied := Vector.ofFn (fun j => if mask.testBit j.val then some s.ticks else x.applied[j]),
                              revert := rev, due := x.due ++ [⟨mask &&& 0x38, i.se, i.lo, i.hi, i.minph, x.ilimD⟩] }
  let s := if s.loopEnabled n then s else s.takeItems n
  if mask = 0 then s
  else (s.ev Fd.HEALTH_EVRAW_APPLIED).almanacBlock 0x00A 3 n (s.f (Fd.HEALTH_LPROP0_SEQ n) * 256 + mask)

/-- The reason R113 gives to refuse a proposal's role changes. -/
def State.rolesReason (s : State) (n : Nat) (i : Items) : Nat :=
  if i.mask.testBit 0 then s.assignReason i.pin roleActive n
  else if i.mask.testBit 1 then s.assignReason i.pout 3 n
  else 0

/-- A write of `HEALTH.APPLY`. -/
def State.healthApply (s : State) (d : Word) : State :=
  let n := getBits d 0 2
  let seq := getBits d 16 8
  let i := s.itemsNow n
  let s := ((s.wr Reg.HEALTH_APPLYRES 0).setF Fd.HEALTH_APPLYRES_LOOP n).setF Fd.HEALTH_APPLYRES_SEQ seq
  let res (s : State) (r : Nat) : State := s.setF Fd.HEALTH_APPLYRES_RESULT r
  let roles := i.mask.testBit 0 || i.mask.testBit 1
  let stale := seq != s.f (Fd.HEALTH_LPROP0_SEQ n) || (roles && s.f (Fd.PHASE_ASSIGN_ROLE i.pout) != roleActive) ||
    (i.mask.testBit 0 && s.f (Fd.PHASE_ASSIGN_ROLE i.pin) != roleSpare)
  if !s.fb (Fd.HEALTH_LPROP0_VALID n) then res s 2
  else if stale then res s 3
  else if s.probing n then res s 6
  else if s.rolesReason n i ≠ 0 then res (s.setF Fd.HEALTH_APPLYRES_REASON (s.rolesReason n i)) 4
  else if !s.loopEnabled n || !i.mask.testBit 6 then res ((s.applyItems n i.mask).dropProposal n) 1
  else
    let s := (s.applyItems n (i.mask &&& 0x3F)).setF (Fd.HEALTH_LPROP0_ITEMS n) 64
    res (s.orReg Reg.HEALTH_STAT (bitAt (20 + n))) 5

end Sys2Proof.Machine
end

