-- ==== Sys2Proof/Machine/Thermal.lean ====
section
/-! DEFINITION. Thermal sensing (R326–R339): the sample, cross-check and substitution, levels and their faults, the Thaw's
condition and count. -/

namespace Sys2Proof.Machine

/-- The thermal block replaced. -/
def State.setTherm (s : State) (t : Therm) : State := { s with therm := t }

/-- A die sensor is in service. -/
def State.dieIn (s : State) (k : Nat) : Bool := !(s.f Fd.THERM_STAT_FAILED).testBit k

/-- DS8 substitutes for position `k`. -/
def State.subFor (s : State) (k : Nat) : Bool := s.f Fd.THERM_STAT_SUBPOS == k && decide (k < 8)

/-- A position is in service: its own sensor, or DS8 in its place. DS8 itself is no position (R326). -/
def State.posIn (s : State) (k : Nat) : Bool := decide (k < 8) && (s.dieIn k || s.subFor k)

/-- Neighbours for the cross-check (R326). -/
def dieNeighbours (k : Nat) : List Nat :=
  match k with
  | 0 => [1, 2]
  | 1 => [0, 3]
  | 2 => [0, 4]
  | 3 => [1, 6]
  | 4 => [2, 5]
  | 5 => [4, 7]
  | 6 => [3, 7, 8]
  | 7 => [5, 6]
  | _ => [6, 7]

/-- `OFFk` in 0.1 °C. -/
def State.dieOff (s : State) (k : Nat) : Int := signed 16 (s.f (Fd.THERM_DS_OFF k))

/-- The mean of a list of differences, rounded to nearest; 0 while fewer than 16 (R331; log entry 48). -/
def offMean (l : List Int) : Int :=
  if l.length < 16 then 0 else (2 * l.sum + l.length) / (2 * l.length)

/-! ## Cross-check (R330, R331) -/

/-- A die sensor fails the check of this sample: `rd` gives the sensors' readings, `ends` the converter codes at an end. -/
def State.dieFails (s : State) (rd : Nat → Int) (ends k : Nat) : Bool :=
  let nb := (dieNeighbours k).filter s.dieIn
  let tol : Int := 10 * s.f Fd.THERM_CFG_XTOL
  ends.testBit k ||
    (match nb with
      | [] => false
      | j :: js =>
        let lo := js.foldl (fun m i => min m (rd i)) (rd j)
        let hi := js.foldl (fun m i => max m (rd i)) (rd j)
        decide (rd k < lo - tol) || decide (hi + tol < rd k))

/-- FS8 with its cause (1 DIE, 2 OPEN, 3 SHORT) and channel. -/
def State.sensorFailed (s : State) (cause chan : Nat) : State :=
  (((s.setF Fd.THERM_SENSFAIL_CAUSE cause).setF Fd.THERM_SENSFAIL_CHAN chan).ev Fd.THERM_EVRAW_SENSFAIL).raise 8 cause chan

/-- A sensor is taken out of service; DS8 takes its position, or no spare is left (R330, R331). -/
def State.dieOut (s : State) (k : Nat) : State :=
  let free := decide (k < 8) && s.dieIn 8 && s.f Fd.THERM_STAT_SUBPOS == 15
  let s := (s.setF Fd.THERM_STAT_FAILED (s.f Fd.THERM_STAT_FAILED ||| 2 ^ k)).sensorFailed 1 k
  if free then
    let s := ((s.setF Fd.THERM_STAT_SUBPOS k).setF Fd.HEALTH_SPARESTAT_DIESPARE 1).spareUsed
    if (tget (fun _ => []) s.therm.diffs k).length < 16 then s.setF Fd.THERM_STAT_OFFPART 1 else s
  else
    let s := if k = 8 ∧ s.f Fd.THERM_STAT_SUBPOS ≠ 15 then s.setF Fd.THERM_STAT_SUBPOS 15 else s
    s.spareGone 2

/-- The cross-check of one sample: consecutive failures counted, sensors taken out, offsets kept up. -/
def State.dieCheck (s : State) (rd : Nat → Int) (ends : Nat) : State :=
  if s.f Fd.THERM_CTRL_XCHKEN = 0 then s.setTherm { s.therm with fails := [] }
  else
    let bad := (List.range 9).filter fun k => s.dieIn k && s.dieFails rd ends k
    let live := (List.range 9).filter s.dieIn
    let fails := live.foldl (fun l k => chanSet 0 l k (if bad.contains k then chanGet 0 l k + 1 else 0)) s.therm.fails
    let s := s.setTherm { s.therm with fails := fails }
    let s := (List.range 8).foldl (fun s k =>
      if s.dieIn k && s.dieIn 8 && !bad.contains k && !bad.contains 8 then
        let l := ((rd k - rd 8) :: tget (fun _ => []) s.therm.diffs k).take 1024
        (s.setTherm { s.therm with diffs := tset (fun _ => []) s.therm.diffs k l }).setF (Fd.THERM_DS_OFF k) (toSigned 16 (offMean l))
      else s) s
    bad.foldl (fun s k => if s.f Fd.THERM_CFG_XCNT ≤ chanGet 0 s.therm.fails k then s.dieOut k else s) s

/-! ## Levels (R332, R333) -/

/-- The level of a channel set. -/
def State.setLevel (s : State) (c l : Nat) : State :=
  if c < 16 then s.setTherm { s.therm with above := chanSet 0 s.therm.above (32 + c) l } else s.setF (Fd.THERM_TDVAL_LVL (c - 16)) l

/-- The limit and hysteresis of a level of a channel, in 0.1 °C. -/
def State.limitOf (s : State) (c l : Nat) : Int × Int :=
  let t (die td : Fld) : Int := 10 * signed 9 (s.f (if c < 16 then die else td))
  let h (die td : Fld) : Int := 10 * (s.f (if c < 16 then die else td) : Int)
  let n := c - 16
  match l with
  | 1 => (t Fd.THERM_DIELIM_WARN (Fd.THERM_TDLIM_WARN n), h Fd.THERM_DIEHYS_HWARN (Fd.THERM_TDHYS_HWARN n))
  | 2 => (t Fd.THERM_DIELIM_THROT (Fd.THERM_TDLIM_THROT n), h Fd.THERM_DIEHYS_HTHROT (Fd.THERM_TDHYS_HTHROT n))
  | _ => (t Fd.THERM_DIELIM_SHUT (Fd.THERM_TDLIM_SHUT n), h Fd.THERM_DIEHYS_HSHUT (Fd.THERM_TDHYS_HSHUT n))

/-- The conditions of FS4, FS6 and FS7 end where no channel holds them any longer. -/
def State.thermHold (s : State) : State :=
  let any (cs : List Nat) (l : Nat) : Bool := cs.any fun c => decide (l ≤ s.levelOf c)
  let die := List.range 8
  let td := [16, 17, 18, 19, 20, 21]
  let s := if any die 2 then s else s.endLevel 4
  let s := if any td 2 then s else s.endLevel 6
  if any td 3 then s else s.endLevel 7

/-- A channel enters one level (R333). FS5 and its reflex follow in the command (R334). -/
def State.enterLevel (s : State) (c l : Nat) : State :=
  match l, decide (c < 16) with
  | 1, _ => (s.ev Fd.THERM_EVRAW_WARN).wakeUp
  | 2, true => ((s.ev Fd.THERM_EVRAW_THROT).wakeUp).raiseLevel 4 0 c
  | 2, false => ((s.ev Fd.THERM_EVRAW_THROT).wakeUp).raiseLevel 6 0 (c - 16)
  | 3, false => ((s.ev Fd.THERM_EVRAW_SHUTREM).wakeUp).raiseLevel 7 0 (c - 16)
  | _, _ => s

/-- A channel comes to a level, through every level on the way. -/
def State.toLevel (s : State) (c new : Nat) : State :=
  let old := s.levelOf c
  let s := s.setLevel c new
  if old < new then ([1, 2, 3].filter fun l => decide (old < l) && decide (l ≤ new)).foldl (fun s l => s.enterLevel c l) s
  else if new < old then ((s.ev Fd.THERM_EVRAW_CLEAR).wakeUp).thermHold
  else s

/-- The level below which two samples have put a channel that holds `l`. -/
def fallTo (below : Nat) : Nat → Nat
  | 0 => 0
  | l + 1 => if below.testBit (l + 1) then fallTo below l else l + 1

/-- One valid reading of a channel, 0.1 °C, judged with the one before (R332). -/
def State.judgeLevel (s : State) (c : Nat) (t : Int) : State :=
  let bits (p : Nat → Bool) : Nat := [1, 2, 3].foldl (fun m l => if p l then m + 2 ^ l else m) 0
  let ab := bits fun l => decide ((s.limitOf c l).1 ≤ t)
  let be := bits fun l => decide (t < (s.limitOf c l).1 - (s.limitOf c l).2)
  let up := (chanGet 0 s.therm.above c) &&& ab
  let down := (chanGet 0 s.therm.below c) &&& be
  let s := s.setTherm { s.therm with above := chanSet 0 s.therm.above c ab, below := chanSet 0 s.therm.below c be }
  let cur := s.levelOf c
  let top := if up.testBit 3 then 3 else if up.testBit 2 then 2 else if up.testBit 1 then 1 else 0
  if cur < top then s.toLevel c top else s.toLevel c (fallTo down cur)

/-- A channel without a valid reading keeps nothing of the last sample. -/
def State.forgetSample (s : State) (c : Nat) : State :=
  s.setTherm { s.therm with above := chanSet 0 s.therm.above c 0, below := chanSet 0 s.therm.below c 0 }

/-! ## Remote channels (R328, R329) -/

/-- The condition a conversion shows: 0 valid, 1 open, 2 shorted. -/
def State.tdCond (s : State) (n : Nat) (r : TdReading) : Nat :=
  if s.fb (Fd.THERM_TDCFG_TYPE n) then (if 500000 < r.ohm then 1 else if r.ohm < 50 then 2 else 0)
  else if 950000 < r.v10 then 1
  else if r.v10 < 150000 then 2
  else 0

/-- 2^60 × ln n, by the series of ln((1 + z) ÷ (1 − z)) after the power of 2 in `n`; 799144290325165979 is 2^60 × ln 2. -/
def lnFix (n : Nat) : Nat :=
  let k := n.log2
  let z := (n - 2 ^ k) * 2 ^ 60 / (n + 2 ^ k)
  let sum := (List.range 20).foldl (fun (a : Nat × Nat) i => (a.1 + a.2 / (2 * i + 1), a.2 * (z * z / 2 ^ 60) / 2 ^ 60)) (0, z)
  k * 799144290325165979 + 2 * sum.1

/-- A quotient of kelvins less 273.15, in 0.1 °C rounded to nearest; none where it does not exist or lies outside its format
(log entry 47). -/
def celsius (num den : Int) : Option Int :=
  let t := (20 * num - 5463 * den + den) / (2 * den)
  if 0 < den ∧ -32768 ≤ t ∧ t < 32767 then some t else none

/-- The temperature of a thermistor of `ohm` Ω with `beta` K (R328): 29,815 × B ÷ (100 × B + 29,815 × ln(R ÷ 10 kΩ)) K. -/
def ntcTemp (ohm beta : Nat) : Option Int :=
  let l : Int := (lnFix ohm : Int) - (lnFix 10000 : Int)
  celsius (29815 * beta * 2 ^ 60) (100 * beta * 2 ^ 60 + 29815 * l)

/-- The temperature of a diode with the ideality `ideal` ÷ 10,000 (R328): ΔV in µV ÷ (IDEAL × 198.42 µV/K). -/
def diodeTemp (dv : Int) (ideal : Nat) : Option Int := celsius (1000000 * dv) (19842 * ideal)

/-- The temperature of a conversion; none where the spec states none. -/
def State.tdTemp (s : State) (n : Nat) (r : TdReading) : Option Int :=
  if s.fb (Fd.THERM_TDCFG_TYPE n) then ntcTemp r.ohm (s.f (Fd.THERM_TDCFG_BETA n))
  else diodeTemp ((r.v100 : Int) - (r.v10 : Int)) (s.f (Fd.THERM_TDCFG_IDEAL n))

/-- A disabled channel (R329): it reads DISABLED and raises no level. -/
def State.tdDisabled (s : State) (n : Nat) : State :=
  let s := (s.setTherm { s.therm with cond := chanSet 3 s.therm.cond n 3 }).forgetSample (16 + n)
  ((s.setF (Fd.THERM_TDVAL_FSTATE n) 3).setF (Fd.THERM_TDVAL_TEMP n) 0x7FFF).toLevel (16 + n) 0

/-- One sample of a remote channel. -/
def State.tdSample (s : State) (n : Nat) (r : TdReading) : State :=
  let c := 16 + n
  if s.f (Fd.THERM_TDCFG_EN n) = 0 then s.tdDisabled n
  else
    let now := s.tdCond n r
    let twice := chanGet 3 s.therm.cond n == now
    let s := s.setTherm { s.therm with cond := chanSet 3 s.therm.cond n now }
    if now ≠ 0 then
      let s := s.forgetSample c
      if twice ∧ s.f (Fd.THERM_TDVAL_FSTATE n) ≠ now then
        let s := (s.setF (Fd.THERM_TDVAL_FSTATE n) now).setF (Fd.THERM_TDVAL_TEMP n) 0x7FFF
        (s.sensorFailed (now + 1) n).toLevel c 3
      else s
    else
      let known := s.tdTemp n r
      let t := known.getD (signed 16 s.free)
      let s := s.when known.isNone State.nextFree
      let s := if twice then s.setF (Fd.THERM_TDVAL_FSTATE n) 0 else s
      let s := if s.f (Fd.THERM_TDVAL_FSTATE n) = 0 then s.setF (Fd.THERM_TDVAL_TEMP n) (toSigned 16 t) else s
      s.judgeLevel c t

/-- What a block that names a remote channel reads of it: 0.1 °C, or none where it is open, shorted or disabled (R329). -/
def State.tdValue (s : State) (n : Nat) : Option Int :=
  if n ≤ 5 ∧ s.f (Fd.THERM_TDVAL_FSTATE n) = 0 then some (signed 16 (s.f (Fd.THERM_TDVAL_TEMP n))) else none

/-! ## The sample (R327) -/

/-- `STAT`'s summaries (R332, R339). -/
def State.thermStat (s : State) : State :=
  let top (cs : List Nat) : Nat := cs.foldl (fun m c => max m (s.levelOf c)) 0
  let td := [16, 17, 18, 19, 20, 21]
  let flt := (List.range 6).foldl (fun m n => if s.f (Fd.THERM_TDVAL_FSTATE n) = 0 then m else m + 2 ^ n) 0
  ((s.setF Fd.THERM_STAT_DIELVL (top (List.range 8))).setF Fd.THERM_STAT_TDLVL (top td)).setF Fd.THERM_STAT_TDFLT flt

/-- A position's reading, 0.1 °C. -/
def State.posTemp (s : State) (k : Nat) : Int := signed 16 (s.f (Fd.THERM_DS_TEMP k))

/-- The condition of the Thaw: every in-service position below SHUT − HSHUT (R336). -/
def State.allCool (s : State) : Bool :=
  (List.range 8).all fun k => !s.posIn k ||
    decide (s.posTemp k < 10 * (signed 9 (s.f Fd.THERM_DIELIM_SHUT) - (s.f Fd.THERM_DIEHYS_HSHUT : Int)))

/-- The thermal converter samples every sensor: die readings in 0.1 °C, codes at an end of the range, remote channels. -/
def State.thermalSample (s : State) (die : List Int) (ends : Nat) (td : List TdReading) : State :=
  let rd (k : Nat) : Int := (die[k]?).getD 0
  let s := s.dieCheck rd ends
  let s := (List.range 9).foldl (fun s k =>
    if s.dieIn k then s.setF (Fd.THERM_DS_TEMP k) (toSigned 16 (rd k))
    else if s.subFor k then s.setF (Fd.THERM_DS_TEMP k) (toSigned 16 (rd 8 + s.dieOff k))
    else s) s
  let best := ((List.range 8).filter s.posIn).foldl (fun (acc : Option Nat) k => match acc with
    | some j => if s.posTemp j < s.posTemp k then some k else some j
    | none => some k) none
  let s := match best with
    | some k => (s.setF Fd.THERM_DIE_TEMP_POS k).setF Fd.THERM_DIE_TEMP_TEMP (s.f (Fd.THERM_DS_TEMP k))
    | none => s
  let s := (List.range 8).foldl (fun s k => if s.posIn k then s.judgeLevel k (s.posTemp k) else (s.forgetSample k).toLevel k 0) s
  let s := (List.range 6).foldl (fun s n => match td[n]? with
    | some r => s.tdSample n r
    | none => s) s
  let s := s.setTherm { s.therm with cool := if s.allCool then some (s.therm.cool.getD s.ticks) else none }
  s.thermStat

/-- A position that stands at SHUT after a sample and did not before, if any: the reflex of R334 follows. -/
def newShut (before after : State) : Option Nat :=
  (List.range 8).find? fun k => after.levelOf k == 3 && before.levelOf k != 3

/-! ## Limits written (R332) -/

/-- A write of DIELIM or a TDnLIM: the thresholds in order, SHUT within its range. -/
def limWord (die : Bool) (d : Word) : Word :=
  let sh := clampInt (if die then 125 else -55) 150 (signed 9 (getBits d 18 9))
  let th := min sh (signed 9 (getBits d 9 9))
  let th := if die then th else max (-55) th
  let wa := min th (signed 9 (getBits d 0 9))
  let wa := if die then wa else max (-55) wa
  BitVec.ofNat 32 (toSigned 9 sh * 2 ^ 18 + toSigned 9 th * 2 ^ 9 + toSigned 9 wa)

/-! ## Thaw (R336) -/

/-- The Thaw condition has held for DLY seconds. -/
def State.thawReady (s : State) : Bool :=
  match s.therm.cool with
  | some t => s.seq.hold && decide (t + secTicks (s.f Fd.THERM_THAWCFG_DLY) ≤ s.ticks)
  | none => false

/-- The present hold thaws by itself. -/
def State.thawsAlone (s : State) : Bool := s.f Fd.THERM_CTRL_THAWMODE == 0 && !s.therm.needKey

/-- The automatic Thaws of the last 3,600 s. -/
def State.thawsKept (s : State) : List Nat := s.therm.thaws.filter fun t => decide (s.ticks < t + secTicks 3600)

/-- An automatic Thaw counted. -/
def State.countThaw (s : State) : State :=
  let l := s.thawsKept ++ [s.ticks]
  (s.setTherm { s.therm with thaws := l }).setF Fd.THERM_TSDCNT_RECENT (min 15 l.length)

/-- Automatic Thaws older than 3,600 s leave the window. -/
def State.recentExpire (s : State) : State :=
  let l := s.thawsKept
  (s.setTherm { s.therm with thaws := l }).setF Fd.THERM_TSDCNT_RECENT (min 15 l.length)

/-- A write of a TDnCFG: a channel that it disables reads so at once (R329). -/
def State.tdCfgWrite (s : State) (n : Nat) (new : Word) : State :=
  let s := s.wr (Reg.THERM_TDCFG n) new
  if bit new 31 then s else (s.tdDisabled n).thermStat

/-- A block reset of THERM but for its settings (R346): levels and states start afresh. -/
def State.thermBlockReset (s : State) : State :=
  let s := s.setTherm { s.therm with above := [], below := [], cond := [] }
  let s := (List.range 6).foldl (fun s n => s.wr (Reg.THERM_TDVAL n) 0x00037FFF) s
  s.thermHold.thermStat

/-- The SHUTDOWN record of a die shut-down at position `k` (R337); `mask` is ONMASK before the release. -/
def State.tsdRecord (s : State) (k hostate chg : Nat) (mask : Nat) : List Byte :=
  let ds := (List.range 9).map fun j => (s.f (Fd.THERM_DS_TEMP j), 2)
  let td := (List.range 6).map fun j => (s.f (Fd.THERM_TDVAL_TEMP j), 2)
  withCrc32c (packBE ([(0x54, 1), (k, 1), (s.f Fd.THERM_TSDCNT_TOTAL, 2), (s.chipTime, 8)] ++ ds ++ td ++
    [(hostate, 1), (chg, 1), (mask, 4), (0, 12)]))

end Sys2Proof.Machine
end

