-- ==== Sys2Proof/Machine/PowerPath.lean ====
section
/-! DEFINITION. The power path and the charger (R211–R238): hand-over, bypass, supplement, charging, hardware limits and
battery presence. -/

namespace Sys2Proof.Machine

/-- The path replaced. -/
def State.setPath (s : State) (p : Path) : State := { s with path := p }

/-! ## Hand-over states (R221) -/

def hoOff : Nat := 0
def hoQualify : Nat := 1
def hoReconnect : Nat := 2
def hoSource : Nat := 3
def hoDetect : Nat := 4
def hoBridge : Nat := 5
def hoBattery : Nat := 6

/-- The hand-over state. -/
def State.ho (s : State) : Nat := s.f Fd.PATH_STAT_HOSTATE

/-- A limit of R233 is in force. -/
def State.limOn (s : State) (cause : Nat) : Bool := (s.f Fd.PATH_FCAUSE_LIMACT).testBit (cause - 1)

/-- The charge direction is free. -/
def State.chargeFree (s : State) : Bool := !s.limOn 1 && !s.limOn 2 && !s.limOn 4

/-- The discharge direction is free. -/
def State.dischargeFree (s : State) : Bool := !s.limOn 3 && !s.limOn 5

/-- HOEN as it acts: a 0 written on the battery waits for the next exit from DETECT (R222). -/
def State.hoen (s : State) : Bool := s.fb Fd.PATH_CTRL_HOEN || s.path.hoenKept

/-- The battery is usable (R221). -/
def State.batteryUsable (s : State) : Bool := s.fb Fd.PATH_STAT_BATPRES && s.hoen && s.dischargeFree

/-- VAC as last measured, mV. -/
def State.vac (s : State) : Nat := s.plant.vac.getD 0

/-- VAC is in window (R213). -/
def State.inWindow (s : State) : Bool := decide (100 * s.f Fd.PATH_VACWIN_LO ≤ s.vac) && decide (s.vac ≤ 100 * s.f Fd.PATH_VACWIN_HI)

/-- VAC is in the qualification band (R213). -/
def State.inBand (s : State) : Bool :=
  decide (100 * s.f Fd.PATH_VACWIN_LO + 10 * s.f Fd.PATH_VACWIN_HYST ≤ s.vac) &&
    decide (s.vac + 10 * s.f Fd.PATH_VACWIN_HYST ≤ 100 * s.f Fd.PATH_VACWIN_HI)

/-- A bounce (R223): FS23 once, as the count reaches BOUNCEMAX. -/
def State.bounce (s : State) : State :=
  let old := s.f Fd.PATH_HOCOUNT_BOUNCE
  let s := (s.incF Fd.PATH_HOCOUNT_BOUNCE).ev Fd.PATH_EVRAW_BOUNCE
  let n := s.f Fd.PATH_HOCOUNT_BOUNCE
  if old < s.f Fd.PATH_QUAL_BOUNCEMAX ∧ s.f Fd.PATH_QUAL_BOUNCEMAX ≤ n then s.raise 23 0 n else s

/-- Qualification starts, goes on or stops with VAC and INEN, in the states that qualify (R221, R222). -/
def State.qualJudge (s : State) : State :=
  let st := s.ho
  let may := (st == hoQualify || st == hoBridge || st == hoBattery) && s.fb Fd.PATH_CTRL_INEN
  let run := may && s.inBand
  let s' := if s.path.qual ∧ may ∧ !run then s.bounce else s
  let s' := s'.setPath { s'.path with qual := run }
  s'.setFb Fd.PATH_STAT_QUALRUN (run && st != hoQualify)

/-- A presence test is ended without a result and falls due again (R234). -/
def State.testCut (s : State) : State :=
  if s.path.testOn then s.setPath { s.path with testOn := false, testDue := true } else s

/-- The path comes to a state: a presence test ends in DETECT and on the battery (R234), u starts at 0, and supplement and
INREG stand in SOURCE alone (R218). -/
def State.toHo (s : State) (st : Nat) : State :=
  let s := if 4 ≤ st then s.testCut else s
  let s := (s.setF Fd.PATH_STAT_HOSTATE st).setF Fd.PATH_STAT_INREG 0
  let s := s.setPath { s.path with qual := false, settled := false, supp := false, u := 0, integ := 0,
                                   rampDown := s.path.rampDown && st == hoSource, bypassed := false }
  (s.setF Fd.PATH_STAT_QUALRUN 0).qualJudge

/-- BRIDGE is entered, which is a trigger of a gauge store (R253). -/
def State.toBridge (s : State) : State := ((s.toHo hoBridge).ev Fd.PATH_EVRAW_BRIDGE).gaugeOwe

/-- SOURCE is left because INEN is 0 (R221, R222). -/
def State.sourceOff (s : State) : State :=
  let s := s.setF Fd.PATH_STAT_ACON 0
  if s.batteryUsable then s.toBridge else s.toHo hoOff

/-- DETECT is entered by a loss (1), an over-voltage (2) or a trip (3); the device wakes (R235). -/
def State.toDetect (s : State) (det : Nat) : State :=
  let settled := s.path.settled
  let s := ((s.toHo hoDetect).ev Fd.PATH_EVRAW_DETECT).wakeUp
  let s := s.setPath { s.path with det := det, revDet := false, settled := settled }
  if det = 1 then s else s.setF Fd.PATH_STAT_ACON 0

/-- FS22 with its cause. -/
def State.inputLost (s : State) (cause : Nat) : State := (s.setF Fd.PATH_FCAUSE_INCAUSE cause).raise 22 cause 0

/-- SOURCE is reached. -/
def State.toSource (s : State) : State := (s.toHo hoSource).ev Fd.PATH_EVRAW_SOURCE

/-- A HOEN = 0 that was written on the battery acts from here (R222). -/
def State.hoenActs (s : State) : State := s.setPath { s.path with hoenKept := false }

/-- DETECT ends with VAC back (R221): SOURCE with GLITCH, and its 1 s of R223 and R229 anew; a reverse block that acted
raises its FS22 (R215). -/
def State.glitch (s : State) : State :=
  let rev := s.path.revDet
  let s := ((s.hoenActs.toSource).ev Fd.PATH_EVRAW_GLITCH).incF Fd.PATH_HOCOUNT_GLITCH
  let s := if rev then s.inputLost 4 else s
  if s.f Fd.PATH_CTRL_INEN = 0 then s.sourceOff else s

/-- RECONNECT is left for the state it came from, ACDRV off (R221, R222), whose event is set (R238). A bounce is counted when
VAC has left its window, and whenever the battery takes over again (R223). -/
def State.reconnectBack (s : State) (lost : Bool) : State :=
  let came := s.path.came
  let s := s.setF Fd.PATH_STAT_ACON 0
  let s := if lost ∨ came ≠ hoQualify then s.bounce else s
  if came = hoBridge then s.toBridge
  else
    let s := s.toHo came
    if came = hoBattery then s.ev Fd.PATH_EVRAW_ONBATT else s

/-- VAC crosses a bound (R213, R221). -/
def State.vacChange (s : State) (vac : Nat) : State :=
  let s := { s with plant := { s.plant with vac := some vac } }
  let st := s.ho
  let above := decide (100 * s.f Fd.PATH_VACWIN_HI < vac)
  if st = hoSource then
    if above then s.toDetect 2 else if !s.inWindow then s.toDetect 1 else s
  else if st = hoDetect then
    if s.inWindow ∧ s.path.det = 1 then s.glitch
    else if above then s.setF Fd.PATH_STAT_ACON 0
    else s
  else if st = hoReconnect then (if s.inWindow then s else s.reconnectBack true)
  else s.qualJudge

/-- Qualification of VAC is complete (R221, R224). -/
def State.vacQualified (s : State) : State :=
  if s.path.qual then
    let came := s.ho
    let closed := s.fb Fd.PATH_STAT_BYPASS
    let s := s.toHo hoReconnect
    let s := s.setPath { s.path with came := came, reverse := false, bypassed := closed }
    if closed then s else s.setF Fd.PATH_STAT_ACON 1
  else s

/-- Step 2 of R224: BATDRV off, and the ramp starts. -/
def State.batdrvOff (s : State) : State :=
  if s.ho = hoReconnect ∧ s.path.bypassed then
    ((s.setPath { s.path with bypassed := false }).setF Fd.PATH_STAT_BYPASS 0).setF Fd.PATH_STAT_ACON 1
  else s

/-- The ramp completes with VAC in window (R224). -/
def State.reconnected (s : State) : State :=
  if s.ho = hoReconnect ∧ s.fb Fd.PATH_STAT_ACON ∧ s.inWindow then s.toSource else s

/-- 50 µs in DETECT (R221, R222): FS22, and on to BRIDGE, QUALIFY or OFF; towards the first two, a loss within 1 s of SOURCE
is a bounce (R223). -/
def State.detectTimeout (s : State) : State :=
  if s.ho = hoDetect then
    let early := !s.path.settled
    let det := s.path.det
    let s := ((s.hoenActs).setF Fd.PATH_STAT_ACON 0).incF Fd.PATH_HOCOUNT_LOSSES
    let s := if early && (s.batteryUsable || s.fb Fd.PATH_CTRL_INEN) then s.bounce else s
    let s := if s.batteryUsable then s.toBridge else if s.fb Fd.PATH_CTRL_INEN then s.toHo hoQualify else s.toHo hoOff
    (s.setPath { s.path with reverse := false }).inputLost det
  else s

/-- VSYS has held within 2 % of VSYSHOLD for BRIDGET (R221). -/
def State.bridgeSettled (s : State) (vsys : Nat) : State :=
  let h := 100 * s.f Fd.PATH_SUP_VSYSHOLD
  if s.ho = hoBridge ∧ 98 * h ≤ 100 * vsys ∧ 100 * vsys ≤ 102 * h then
    let q := s.path.qual
    let s := (s.setF Fd.PATH_STAT_HOSTATE hoBattery).setPath { s.path with qual := q }
    s.ev Fd.PATH_EVRAW_ONBATT
  else s

/-- VSYS below VBAT − 0.2 V for 2 µs: the bypass closes (R225). -/
def State.bypassClose (s : State) (vsys vbat : Nat) : State :=
  let st := s.ho
  if (st = hoBridge ∨ st = hoBattery) ∧ s.f Fd.PATH_STAT_BYPASS = 0 ∧ vsys + 200 < vbat then
    let s := { s with plant := { s.plant with vsys := some vsys, vbat := some vbat } }
    let s := if st = hoBridge then (s.setF Fd.PATH_STAT_HOSTATE hoBattery).ev Fd.PATH_EVRAW_ONBATT else s
    (s.setF Fd.PATH_STAT_BYPASS 1).ev Fd.PATH_EVRAW_BYPASS
  else s

/-! ## Input protection (R215–R218) -/

/-- The reverse-current block acts (R215). -/
def State.reverseBlock (s : State) : State :=
  if s.fb Fd.PATH_STAT_ACON then
    let s := ((s.setF Fd.PATH_STAT_ACON 0).ev Fd.PATH_EVRAW_REVERSE).setPath { s.path with reverse := true, revDet := s.ho == hoDetect }
    if s.ho = hoSource then s.inputLost 4 else s
  else s

/-- VAC exceeds VSYS by 100 mV for 10 µs (R215); an over-voltage or a trip keeps ACDRV off (R214). -/
def State.reverseRelease (s : State) (vac vsys : Nat) : State :=
  let st := s.ho
  if s.path.reverse ∧ (st = hoSource ∨ (st = hoDetect ∧ s.path.det = 1)) ∧ vsys + 100 < vac ∧
      vac ≤ 100 * s.f Fd.PATH_VACWIN_HI then
    let s := { s with plant := { s.plant with vac := some vac, vsys := some vsys } }
    (s.setPath { s.path with reverse := false }).setF Fd.PATH_STAT_ACON 1
  else s

/-- Input current above TRIP % of MA for 20 µs (R216). -/
def State.inputTrip (s : State) (iin : Nat) : State :=
  let trip := s.f Fd.PATH_INLIM_TRIP
  if trip ≠ 0 ∧ trip * s.f Fd.PATH_INLIM_MA < 100 * iin ∧ s.fb Fd.PATH_STAT_ACON then
    let s := s.setF Fd.PATH_MEAS_IIN (min 0xFFFF (iin / 10))
    if s.ho = hoSource ∨ s.ho = hoReconnect then s.toDetect 3
    else if s.ho = hoDetect then (s.setF Fd.PATH_STAT_ACON 0).setPath { s.path with det := 3 }
    else s.setF Fd.PATH_STAT_ACON 0
  else s

/-- The bounds of u (R218): −SUPLIM, and ICHG × VBAT ÷ VSYS. -/
def State.uLow (s : State) : Int := -(s.f Fd.PATH_SUP_SUPLIM : Int)

def State.uHigh (s : State) : Int :=
  ((s.f Fd.PATH_ICHG_CC * s.plant.vbat.getD 0 / max 1 (s.plant.vsys.getD 0) : Nat) : Int)

/-- A sample of the supplement law in SOURCE (R218): u = (MA − IIN) + the integral, which is clamped to keep u in its bounds;
with u below 0 and no supplement the input is held above MA. -/
def State.hbSample (s : State) (x : HbSample) : State :=
  let p : Int := (s.f Fd.PATH_INLIM_MA : Int) - (x.iin : Int)
  let u := clampInt s.uLow s.uHigh (p + s.path.integ + x.acc)
  let s := (s.setF Fd.PATH_MEAS_IIN (min 0xFFFF (x.iin / 10))).setPath { s.path with u := u, integ := u - p }
  s.setFb Fd.PATH_STAT_INREG (decide (u < 0) && !s.path.supp)

/-- u below −0.2 A for 10 µs in SOURCE (R218): a presence test ends (R234), and the half-bridge supplements where it may. -/
def State.supplementStart (s : State) (x : HbSample) : State :=
  if s.ho = hoSource then
    let s := s.hbSample x
    if s.path.u < -200 then
      let s := s.testCut
      if s.fb Fd.PATH_CTRL_SUPEN && s.dischargeFree then (s.setPath { s.path with supp := true }).setF Fd.PATH_STAT_INREG 0
      else s
    else s
  else s

/-- u above 0 for 1 ms. -/
def State.supplementEnd (s : State) (x : HbSample) : State :=
  if s.ho = hoSource then
    let s := s.hbSample x
    if 0 < s.path.u then s.setPath { s.path with supp := false } else s
  else s

/-- The input held above MA for 1 ms without supplement. -/
def State.inputSaturated (s : State) (x : HbSample) : State :=
  if s.ho = hoSource then
    let s := s.hbSample x
    if s.fb Fd.PATH_STAT_INREG then s.ev Fd.PATH_EVRAW_INSAT else s
  else s

/-- 1 s in SOURCE (R223, R229). -/
def State.bounceClear (s : State) : State :=
  if s.ho = hoSource then (s.setF Fd.PATH_HOCOUNT_BOUNCE 0).setPath { s.path with settled := true } else s

/-! ## Charger (R228–R232) -/

def chOff : Nat := 0
def chWait : Nat := 1
def chDrizzle : Nat := 2
def chPre : Nat := 3
def chCc : Nat := 4
def chCv : Nat := 5
def chDone : Nat := 6
def chStopping : Nat := 7
def chTimeout : Nat := 8

/-- The charger's state. -/
def State.chg (s : State) : Nat := s.f Fd.PATH_STAT_CHGSTATE

/-- A charging phase. -/
def charging (st : Nat) : Bool := decide (2 ≤ st) && decide (st ≤ 5)

/-- The safety timer of a phase: 1 TDRZ, 2 TPRE, 3 TFAST. -/
def timerOf (st : Nat) : Nat := if st = chDrizzle then 1 else if st = chPre then 2 else if st = chCc ∨ st = chCv then 3 else 0

/-- The charger comes to a state (R228); a charging phase takes its timer, which starts full unless it is the one kept. -/
def State.toChg (s : State) (st : Nat) : State :=
  if s.chg = st then s
  else
    let s := (s.setF Fd.PATH_STAT_CHGSTATE st).ev Fd.PATH_EVRAW_CHGPHASE
    let s := if charging st ∧ s.path.tPhase ≠ timerOf st then s.setPath { s.path with tPhase := timerOf st, tCount := 0 } else s
    if st = chOff then s.setPath { s.path with offAt := some s.ticks, tPhase := 0, tCount := 0 }
    else if st = chDone ∨ st = chStopping then s.setPath { s.path with tPhase := 0, tCount := 0 }
    else s

/-- The charge conditions of R229. -/
def State.chargeConds (s : State) : Bool :=
  s.ho == hoSource && s.path.settled && s.fb Fd.PATH_STAT_BATPRES && s.chargeFree && decide (s.f Fd.PATH_BATLIM_TDCH ≤ 5)

/-- The phase that VBAT selects on leaving WAIT. -/
def State.phaseFor (s : State) (vbat : Nat) : Nat :=
  if vbat < s.f Fd.PATH_VTHR_VDRZ then chDrizzle
  else if vbat < s.f Fd.PATH_VTHR_VPRE then chPre
  else if vbat + 10 * s.f Fd.PATH_VREG_RECHG < s.f Fd.PATH_VREG_MV then chCc
  else chDone

/-- The charge conditions come to hold. -/
def State.chargeResume (s : State) (vbat : Nat) : State :=
  if s.chg = chWait ∧ s.chargeConds then ({ s with plant := { s.plant with vbat := some vbat } } : State).toChg (s.phaseFor vbat) else s

/-- A phase's threshold has been met for 1 s, or the voltage loop holds VBAT at VREG. -/
def State.phaseAdvance (s : State) (vbat : Nat) : State :=
  let st := s.chg
  if st = chDrizzle ∧ s.f Fd.PATH_VTHR_VDRZ ≤ vbat then s.toChg chPre
  else if st = chPre ∧ s.f Fd.PATH_VTHR_VPRE ≤ vbat then s.toChg chCc
  else if st = chCc ∧ s.f Fd.PATH_VREG_MV ≤ vbat then s.toChg chCv
  else s

/-- Current below TERM for TERMDLY in CV (mA). Answers whether the charge ended. -/
def State.chargeTerminates (s : State) (ma : Nat) : Bool :=
  s.chg == chCv && s.fb Fd.PATH_CHGCFG_TERMEN && decide (ma < s.f Fd.PATH_ICHG_TERM)

/-- The charge ends. -/
def State.chargeDone (s : State) : State := (s.toChg chDone).ev Fd.PATH_EVRAW_CHGDONE

/-- VBAT below VREG − RECHG for 10 s in DONE. -/
def State.recharge (s : State) (vbat : Nat) : State :=
  if s.chg = chDone ∧ s.fb Fd.PATH_CHGCFG_RECHGEN ∧ vbat + 10 * s.f Fd.PATH_VREG_RECHG < s.f Fd.PATH_VREG_MV then s.toChg chCc else s

/-- Minutes of the timer in force. -/
def State.timerMin (s : State) : Nat :=
  match s.path.tPhase with
  | 1 => s.f Fd.PATH_TIMERS_TDRZ
  | 2 => s.f Fd.PATH_TIMERS_TPRE
  | 3 => s.f Fd.PATH_TIMERS_TFAST
  | _ => 0

/-- Half AO ticks of the timer in force. -/
def State.timerLen (s : State) : Nat := 2 * secTicks (60 * s.timerMin)

/-- A safety timer expires (R228, R231). -/
def State.chargeTimeout (s : State) : State :=
  if charging s.chg ∧ s.timerLen ≤ s.path.tCount then
    let ph := s.path.tPhase
    ((s.toChg chTimeout).ev Fd.PATH_EVRAW_TIMEOUT).raise 24 0 ph
  else s

/-- The phase current set in the registers, mA; 0 in CV, which counts at full rate. -/
def State.phaseMa (s : State) : Nat :=
  let st := s.chg
  if st = chDrizzle then s.f Fd.PATH_ILOW_DRZ else if st = chPre then s.f Fd.PATH_ILOW_PRE else if st = chCc then s.f Fd.PATH_ICHG_CC else 0

/-- The timer counts at half rate (R231): in DRIZZLE, PRE and CC. -/
def State.halfRate (s : State) : Bool :=
  charging s.chg && s.chg != chCv && decide (20 * signed 16 (s.f Fd.PATH_MEAS_IHB) < (s.phaseMa : Int))

/-- One AO tick of the safety timer. -/
def State.safetyTick (s : State) : State :=
  if charging s.chg then s.setPath { s.path with tCount := s.path.tCount + (if s.halfRate then 1 else 2) } else s

/-- `TIMESTAT` (R238; log entry 54). -/
def State.timeStat (s : State) : Word :=
  let left := divCeil (s.timerLen - s.path.tCount) (2 * secTicks 60)
  BitVec.ofNat 32 ((left % 4096) * 2 ^ 20 + s.path.tPhase * 2 ^ 16 + b2n s.halfRate * 2 ^ 15)

/-- Charge current 0 in STOPPING. -/
def State.chargerStopped (s : State) : State :=
  if s.chg = chStopping then (s.setPath { s.path with rampDown := false }).toChg chOff else s

/-- MINOFF has passed since OFF was reached (R232). -/
def State.chgOffPast (s : State) : Bool :=
  match s.path.offAt with
  | some t => decide (t + msTicks (10 * s.f Fd.PATH_CHGCFG_MINOFF) ≤ s.ticks)
  | none => true

/-- MINOFF has passed with CHGPEND set. -/
def State.chargerPendDue (s : State) : State :=
  if s.fb Fd.PATH_STAT_CHGPEND ∧ s.chg = chOff ∧ s.chgOffPast then (s.setF Fd.PATH_STAT_CHGPEND 0).toChg chWait else s

/-- CHGEN written 1 (R228, R232). -/
def State.chgOn (s : State) : State :=
  if s.chg = chOff then (if s.chgOffPast then s.toChg chWait else s.setF Fd.PATH_STAT_CHGPEND 1)
  else if s.chg = chStopping then s.setF Fd.PATH_STAT_CHGPEND 1
  else s

/-- CHGEN written 0. -/
def State.chgOff (s : State) : State :=
  let s := s.setF Fd.PATH_STAT_CHGPEND 0
  if 1 ≤ s.chg ∧ s.chg ≤ 6 then (s.setPath { s.path with rampDown := s.f Fd.PATH_STAT_HBMODE == 1 }).toChg chStopping else s

/-- TIMEOUT is left: a re-insertion, or TRST (R228). -/
def State.leaveTimeout (s : State) : State :=
  if s.chg = chTimeout then
    let s := s.setPath { s.path with tPhase := 0, tCount := 0 }
    s.toChg (if s.fb Fd.PATH_CTRL_CHGEN then chWait else chOff)
  else s

/-! ## Control writes (R222, R226) -/

/-- INEN written. -/
def State.inenWrite (s : State) (on : Bool) : State :=
  let s := s.setFb Fd.PATH_CTRL_INEN on
  let st := s.ho
  if on then (if st = hoOff then s.toHo hoQualify else s.qualJudge)
  else if st = hoQualify then s.toHo hoOff
  else if st = hoReconnect then s.reconnectBack false
  else if st = hoSource then s.sourceOff
  else (s.setPath { s.path with qual := false }).setF Fd.PATH_STAT_QUALRUN 0

/-- BATGO written 1 (R226; log entry 53). -/
def State.batGo (s : State) : State :=
  if s.dischargeFree then
    if s.ho = hoQualify ∧ s.batteryUsable then s.toBridge
    else if s.ho = hoBattery ∧ s.fb Fd.PATH_STAT_BYPASS then s.setF Fd.PATH_STAT_BYPASS 0
    else s
  else s.setPath { s.path with batgo := true }

/-- HOEN written (R222): a 0 on the battery leaves the episode as it is. -/
def State.hoenWrite (s : State) (on : Bool) : State :=
  let keep := !on && s.hoen && (s.ho == hoBridge || s.ho == hoBattery || s.path.hoenKept)
  (s.setFb Fd.PATH_CTRL_HOEN on).setPath { s.path with hoenKept := keep }

/-- A write of `PATH.CTRL` between a die shut-down's trip and the hold: stored, its requests latched (R16, R338). -/
def State.pathCtrlStore (s : State) (d : Word) : State :=
  let s := (s.setFb Fd.PATH_CTRL_INEN (bit d 0)).setFb Fd.PATH_CTRL_HOEN (bit d 1)
  let s := ((s.setFb Fd.PATH_CTRL_SUPEN (bit d 2)).setFb Fd.PATH_CTRL_CHGEN (bit d 3)).setFb Fd.PATH_STAT_CHGPEND (bit d 3)
  s.setPath { s.path with batgo := s.path.batgo || bit d 4 }

/-- A write of `PATH.CTRL`; `host` says that a host made it. -/
def State.pathCtrlWrite (s : State) (host : Bool) (d : Word) : State :=
  if s.therm.holding then s.pathCtrlStore d else
  let was := s.fb Fd.PATH_CTRL_CHGEN
  let s := (s.hoenWrite (bit d 1)).setFb Fd.PATH_CTRL_SUPEN (bit d 2)
  let s := s.setFb Fd.PATH_CTRL_CHGEN (bit d 3)
  let s := s.inenWrite (bit d 0)
  let s := if bit d 3 then s.chgOn else if was ∨ s.fb Fd.PATH_STAT_CHGPEND then s.chgOff else s
  let s := if bit d 5 ∧ host then s.leaveTimeout else s
  if bit d 4 then s.batGo else s

/-! ## Hardware limits (R233) -/

/-- The charger's cell reading, 0.1 °C; none is too hot. -/
def State.cellTemp (s : State) : Option Int := s.tdValue (s.f Fd.PATH_BATLIM_TDCH)

/-- A signed limit of TLIM, 0.1 °C. -/
def State.tlim (s : State) (fd : Fld) : Int := 10 * signed 8 (s.f fd)

/-- The trigger of a limit: `v` is VBAT in mV (cause 1) or the shunt voltage in µV (causes 4, 5). -/
def State.limTrigger (s : State) (cause : Nat) (v : Nat) : Bool :=
  let hot (lo hi : Fld) : Bool := match s.cellTemp with
    | some t => decide (t < s.tlim lo) || decide (s.tlim hi < t)
    | none => true
  match cause with
  | 1 => decide (s.f Fd.PATH_VREG_MV * (100 + s.f Fd.PATH_VREG_OVPCT) < 100 * v)
  | 2 => hot Fd.PATH_TLIM_TCLO Fd.PATH_TLIM_TCHI
  | 3 => hot Fd.PATH_TLIM_TDLO Fd.PATH_TLIM_TDHI
  | 4 => decide (500 * s.f Fd.PATH_BATLIM_OCC < v)
  | 5 => decide (500 * s.f Fd.PATH_BATLIM_OCD < v)
  | _ => false

/-- The discharge direction stops: supplement and boost end, BATDRV opens, and a ride-through goes back to QUALIFY. -/
def State.dischargeStop (s : State) : State :=
  let s := (s.setPath { s.path with supp := false }).setF Fd.PATH_STAT_BYPASS 0
  if s.ho = hoBridge ∨ s.ho = hoBattery then s.toHo hoQualify else s

/-- A hardware limit acts. -/
def State.hwLimit (s : State) (cause v : Nat) : State :=
  if s.limTrigger cause v ∧ !s.limOn cause then
    let s := (s.setF Fd.PATH_FCAUSE_LIMACT (s.f Fd.PATH_FCAUSE_LIMACT ||| 2 ^ (cause - 1))).setF Fd.PATH_FCAUSE_CHGCAUSE cause
    let s := s.setPath { s.path with limAt := tset (fun _ => 0) s.path.limAt cause s.ticks }
    let s := if cause = 1 then s.setPath { s.path with testDue := true, ovPassed := false } else s
    let s := if cause = 3 ∨ cause = 5 then s.dischargeStop else s
    (s.ev Fd.PATH_EVRAW_HWLIM).raise 25 cause 0
  else s

/-- The release condition of a limit. -/
def State.limReleases (s : State) (cause v : Nat) : Bool :=
  let cool (lo hi : Fld) : Bool := match s.cellTemp with
    | some t => decide (s.tlim lo + 30 ≤ t) && decide (t ≤ s.tlim hi - 30)
    | none => false
  match cause with
  | 1 => s.path.ovPassed && decide (v < s.f Fd.PATH_VREG_MV)
  | 2 => cool Fd.PATH_TLIM_TCLO Fd.PATH_TLIM_TCHI
  | 3 => cool Fd.PATH_TLIM_TDLO Fd.PATH_TLIM_TDHI
  | 4 => decide (tget (fun _ => 0) s.path.limAt 4 + msTicks 500 ≤ s.ticks)
  | 5 => decide (tget (fun _ => 0) s.path.limAt 5 + msTicks 500 ≤ s.ticks)
  | _ => false

/-- A hardware limit is released; a latched BATGO is acted on or dropped (R226). -/
def State.limRelease (s : State) (cause v : Nat) : State :=
  if s.limOn cause ∧ s.limReleases cause v then
    let s := s.setF Fd.PATH_FCAUSE_LIMACT (s.f Fd.PATH_FCAUSE_LIMACT ^^^ 2 ^ (cause - 1))
    if s.path.batgo ∧ s.dischargeFree then (s.setPath { s.path with batgo := false }).batGo else s
  else s

/-! ## Battery presence (R234) -/

/-- A presence test is due. -/
def State.testOwed (s : State) : Bool :=
  let st := s.chg
  s.path.testDue || ((st == chWait || st == chDone || st == chTimeout) && (s.fb Fd.PATH_CTRL_HOEN || s.fb Fd.PATH_CTRL_CHGEN) &&
    decide (s.path.lastTest + secTicks 60 ≤ s.ticks))

/-- A test starts where the half-bridge does not supply VSYS. -/
def State.testStart (s : State) : State :=
  if s.testOwed ∧ !s.path.testOn ∧ (s.ho = hoOff ∨ s.ho = hoQualify ∨ s.ho = hoSource) ∧
      s.f Fd.PATH_STAT_HBMODE ≠ 2 ∧ s.f Fd.PATH_STAT_HBMODE ≠ 3 then
    s.setPath { s.path with testOn := true, testDue := false, lastTest := s.ticks }
  else s

/-- The battery becomes absent. -/
def State.batteryOut (s : State) : State :=
  if s.fb Fd.PATH_STAT_BATPRES then ((s.setF Fd.PATH_STAT_BATPRES 0).ev Fd.PATH_EVRAW_BATTOUT).raise 26 0 0 else s

/-- A test's 20 ms end. -/
def State.testDone (s : State) (vbat : Nat) : State :=
  if s.path.testOn then
    let s := { s with plant := { s.plant with vbat := some vbat } }
    let s := s.setPath { s.path with testOn := false, ovPassed := s.path.ovPassed || decide (6000 ≤ vbat) }
    if vbat < 6000 then s.batteryOut else s
  else s

/-- VBAT at or above 7.0 V for 100 ms: present, and a re-insertion. -/
def State.batteryIn (s : State) (vbat : Nat) : State :=
  if 7000 ≤ vbat ∧ s.f Fd.PATH_STAT_BATPRES = 0 then
    let s := { s with plant := { s.plant with vbat := some vbat } }
    ((s.setF Fd.PATH_STAT_BATPRES 1).ev Fd.PATH_EVRAW_BATTIN).leaveTimeout
  else s

/-- VBAT below 6.0 V for 10 ms. -/
def State.batteryGone (s : State) (vbat : Nat) : State :=
  if vbat < 6000 then ({ s with plant := { s.plant with vbat := some vbat } } : State).batteryOut else s

/-- VSYS against VBAT (R229): HEADROOM below 1.5 V above it, until 1.7 V above it. -/
def State.headroomChange (s : State) (vsys vbat : Nat) : State :=
  let s := { s with plant := { s.plant with vsys := some vsys, vbat := some vbat } }
  if vsys < vbat + 1500 then s.setF Fd.PATH_STAT_HEADROOM 1
  else if vbat + 1700 ≤ vsys then s.setF Fd.PATH_STAT_HEADROOM 0
  else s

/-! ## What follows from every change (R227–R229) -/

/-- The half-bridge carries VSYS (R219): on the battery, and in the RECONNECT that follows, while the discharge direction is
free and the bypass open. -/
def State.boosts (s : State) : Bool :=
  (s.ho == hoBridge || s.ho == hoBattery || (s.ho == hoReconnect && s.path.came != hoQualify)) && s.dischargeFree &&
    (!s.fb Fd.PATH_STAT_BYPASS || s.ho == hoReconnect)

/-- HBMODE (R217, R238). -/
def State.hbMode (s : State) : Nat :=
  if s.boosts then 3
  else if s.fb Fd.PATH_STAT_BYPASS then 0
  else if s.ho = hoSource ∧ s.path.supp then 2
  else if s.path.testOn then 0
  else if charging s.chg ∧ !s.fb Fd.PATH_STAT_HEADROOM ∧ !s.fb Fd.PATH_STAT_INREG then 1
  else if s.path.rampDown ∧ s.chargeFree then 1
  else if s.f Fd.PATH_FCAUSE_LIMACT ≠ 0 then 4
  else 0

/-- The TREG fold-back in thousandths (R229): full up to TREG at the charger-driver sensor DS4, none from 10 °C above. -/
def State.foldBack (s : State) : Nat := (clampInt 0 1000 (1000 - 10 * (s.posTemp 4 - 10 * (s.f Fd.PATH_CHGCFG_TREG : Int)))).toNat

/-- The charge ceiling, mA (R229). -/
def State.chargeCeiling (s : State) : Nat :=
  let st := s.chg
  let vbat := s.plant.vbat.getD 0
  let ma := if st = chCv then s.f Fd.PATH_ICHG_CC else s.phaseMa
  let ma := if (st = chCc ∨ st = chCv) ∧ s.f Fd.PATH_VREG_MV ≤ vbat then min ma (Config.vbatLoop vbat (s.f Fd.PATH_VREG_MV)) else ma
  if s.fb Fd.PATH_STAT_HEADROOM then 0 else ma * s.foldBack / 1000

/-- A current into VSYS on the battery side, VSYS ÷ VBAT times as large (R218). -/
def State.batSide (s : State) (ma : Nat) : Int := ((ma * s.plant.vsys.getD 0 / max 1 (s.plant.vbat.getD 0) : Nat) : Int)

/-- Iref of the half-bridge, mA (R217–R219), by the direction in use. -/
def State.iref (s : State) : Int :=
  match s.hbMode with
  | 1 => if s.chg = chStopping then 0 else min (s.chargeCeiling : Int) (s.batSide s.path.u.toNat)
  | 2 => -s.batSide (min (-s.path.u).toNat (s.f Fd.PATH_SUP_SUPLIM))
  | 3 => -s.batSide (min (Config.vsysLoop (s.plant.vsys.getD 0) (100 * s.f Fd.PATH_SUP_VSYSHOLD)) (s.f Fd.PATH_SUP_SUPLIM))
  | _ => 0

/-- A conduction of the half-bridge goes on at an inductor current in mA (R217): it ends at ±IPK × 0.5 A. -/
def State.hbConducts (s : State) (ma : Int) : Bool := decide (ma.natAbs < 500 * s.f Fd.PATH_HBCFG_IPK)

/-- The switching period, ns (R217). -/
def State.hbPeriod (s : State) : Nat := 100000 / max 1 s.path.fsw

/-- What a stopped discharge direction and a withdrawn SUPEN end (R218, R221). -/
def State.pathLevels (s : State) : State :=
  let s := if (s.ho = hoBridge ∨ s.ho = hoBattery) ∧ !s.dischargeFree then (s.setF Fd.PATH_STAT_BYPASS 0).toHo hoQualify else s
  if s.path.supp ∧ !(s.fb Fd.PATH_CTRL_SUPEN && s.dischargeFree) then
    (s.setPath { s.path with supp := false }).setFb Fd.PATH_STAT_INREG (decide (s.path.u < 0))
  else s

/-- HBMODE as it follows; FSW acts from a start from idle. -/
def State.hbJudge (s : State) : State :=
  let old := s.f Fd.PATH_STAT_HBMODE
  let m := s.hbMode
  let s := if (old = 0 ∨ old = 4) ∧ 1 ≤ m ∧ m ≤ 3 then s.setPath { s.path with fsw := s.f Fd.PATH_HBCFG_FSW } else s
  s.setF Fd.PATH_STAT_HBMODE m

/-- After every command: the path's levels first (R237), WAIT where a charge condition fails, FS25 NOTEMP once, the values
for the ledger, HBMODE. -/
def State.pathSettle (s : State) : State :=
  let s := s.pathLevels
  let s := if charging s.chg ∧ !s.chargeConds then s.toChg chWait else s
  let lack := s.chg == chWait && s.f Fd.PATH_BATLIM_TDCH == 15
  let s := if lack ∧ !s.path.noTemp then
      ((s.setPath { s.path with noTemp := true }).setF Fd.PATH_FCAUSE_CHGCAUSE 6).raise 25 6 0
    else if !lack ∧ s.path.noTemp then s.setPath { s.path with noTemp := false } else s
  let src := s.ho == hoSource || s.ho == hoDetect
  let sup := s.fb Fd.PATH_STAT_BATPRES && s.dischargeFree && (s.hoen || s.fb Fd.PATH_CTRL_SUPEN)
  let s := s.setF Fd.PATH_CAP_INCAP (if src then s.f Fd.PATH_INLIM_MA else 0)
  (s.setF Fd.PATH_CAP_SUPCAP (if sup then s.f Fd.PATH_SUP_SUPLIM else 0)).hbJudge

/-- All drives off: chip reset, collapse release, die shut-down (R206, R212, R334). -/
def State.pathKill (s : State) : State :=
  let s := ((s.setF Fd.PATH_STAT_ACON 0).setF Fd.PATH_STAT_BYPASS 0).setF Fd.PATH_STAT_QUALRUN 0
  ((s.setF Fd.PATH_STAT_HOSTATE hoOff).setF Fd.PATH_STAT_HBMODE 0).setPath
    { s.path with qual := false, settled := false, supp := false, u := 0, integ := 0, rampDown := false, bypassed := false,
                  hoenKept := false, batgo := false, testOn := false, reverse := false }

end Sys2Proof.Machine
end

