-- ==== Sys2Proof/Machine/Gauge.lean ====
section
/-! DEFINITION. The battery gauge (R239–R259): counting, modes, samples, rest points, learning, empty and full, the proving
run, and the slots of record flash. -/

namespace Sys2Proof.Machine

/-- The gauge replaced. -/
def State.setGauge (s : State) (g : Gauge) : State := { s with gauge := g }

/-! ## Modes (R241) -/

def gmOff : Nat := 0
def gmActive : Nat := 1
def gmQuiet : Nat := 2
def gmAutozero : Nat := 3

/-- The gauge's mode. -/
def State.gMode (s : State) : Nat := s.f Fd.GAUGE_STAT_MODE

/-- Counting goes on: the gauge is on and its oscillator runs (R250). -/
def State.counting (s : State) : Bool := s.gMode != gmOff && s.power.gaugeOk

/-- A gauge event: its EVRAW bit, and the wake of R257. -/
def State.gev (s : State) (fd : Fld) : State :=
  let s := s.ev fd
  if bit (s.rd Reg.GAUGE_EVEN) fd.lo then s.wakeUp else s

/-- nC in one mAh and in 0.1 mAh. -/
def nCmAh : Nat := 3600000000
def nCtenth : Nat := 360000000

/-- FCC, mAh. -/
def State.fcc (s : State) : Nat := s.f Fd.GAUGE_FCC_MAH

/-- Cells in series; 1 before any valid setting. -/
def State.cells (s : State) : Nat := max 1 (s.f Fd.GAUGE_CFG_CELLS)

/-- CURRENT, mA. -/
def State.gCurrent (s : State) : Int := signed 32 (s.f Fd.GAUGE_CURRENT_MA)

/-- TCELL, 0.1 °C. -/
def State.tcell (s : State) : Int := signed 16 (s.f Fd.GAUGE_TEMPMEAS_TCELL)

/-- TCELL lies within TMIN–TMAX. -/
def State.tempFits (s : State) : Bool :=
  decide (10 * signed 8 (s.f Fd.GAUGE_TEMP_TMIN) ≤ s.tcell) && decide (s.tcell ≤ 10 * signed 8 (s.f Fd.GAUGE_TEMP_TMAX))

/-! ## The OCV table (R243) -/

/-- Open-circuit voltage of point k, µV. -/
def State.ocv (s : State) (k : Nat) : Nat := 100 * s.f (Fd.GAUGE_OCV_OCV k)

/-- State of charge of point k, 0.01 %. -/
def State.ocvSoc (s : State) (k : Nat) : Nat := s.f (Fd.GAUGE_OCV_SOC k)

/-- The table is valid. -/
def State.ocvValid (s : State) : Bool :=
  s.ocvSoc 0 == 0 && s.ocvSoc 31 == 10000 &&
    (List.range 31).all (fun k => decide (s.ocv k < s.ocv (k + 1)) && decide (s.ocvSoc k < s.ocvSoc (k + 1))) &&
    decide (3 ≤ s.f Fd.GAUGE_CFG_CELLS) && decide (s.f Fd.GAUGE_CFG_CELLS ≤ 6)

/-- A use of the table: OCVBAD follows the check. -/
def State.ocvCheck (s : State) : State := s.setFb Fd.GAUGE_STAT_OCVBAD (!s.ocvValid)

/-- The correction OCVTC × (T − 25 °C), µV. -/
def State.ocvShift (s : State) : Int := signed 16 (s.f Fd.GAUGE_TEMP_OCVTC) * (s.tcell - 250) / 10

/-- The lookup of a cell voltage in µV: its SOC, and its segment if it falls in one (log entry 56). -/
def State.ocvLookup (s : State) (v : Int) : Nat × Option Nat :=
  let vc := v - s.ocvShift
  if vc < (s.ocv 0 : Int) then (0, none)
  else if (s.ocv 31 : Int) < vc then (10000, none)
  else
    let k := ((List.range 31).reverse.find? fun k => decide ((s.ocv k : Int) ≤ vc)).getD 0
    let x := vc.toNat - s.ocv k
    (s.ocvSoc k + x * (s.ocvSoc (k + 1) - s.ocvSoc k) / (s.ocv (k + 1) - s.ocv k), some k)

/-- The lookup is usable: its segment is unmasked. -/
def State.segUsable (s : State) (k : Option Nat) : Bool :=
  match k with
  | some k => bit (s.rd Reg.GAUGE_OCVMASK) k
  | none => false

/-- V_half of R247, µV: the table's voltage at SOC ÷ 2 corrected to TCELL, or VCELL with a bad table. -/
def State.vHalf (s : State) (soc : Nat) : Nat :=
  if s.ocvValid then
    let k := ((List.range 31).reverse.find? fun k => decide (2 * s.ocvSoc k ≤ soc)).getD 0
    let v := s.ocv k + (soc - 2 * s.ocvSoc k) * (s.ocv (k + 1) - s.ocv k) / (2 * (s.ocvSoc (k + 1) - s.ocvSoc k))
    ((v : Int) + s.ocvShift).toNat
  else 100 * s.f Fd.GAUGE_VOLT_VCELL

/-! ## Stores (R253) -/

/-- The bytes of a slot, with the SEQ of this write. -/
def State.gSlotBytes (s : State) (seq : Nat) : List Byte :=
  let g := s.gauge
  let flags := b2n (s.fb Fd.GAUGE_STAT_RELEARN) + 2 * b2n (s.fb Fd.GAUGE_STAT_EMPTY) + 4 * b2n (s.fb Fd.GAUGE_STAT_CNTINV)
  let head := packBE [(0x47, 1), (1, 1), (0, 2), (seq, 4), (s.chipTime, 8), (s.fcc, 4), (s.f Fd.GAUGE_RM_MAH, 4),
    (s.f Fd.GAUGE_SOC_SOC, 2), (s.f Fd.GAUGE_IMP_R, 2), (flags, 2), (s.f Fd.GAUGE_AZ_OFFSET, 2), (g.accepted, 4), (g.rejected, 4)]
  let res := packBE (g.results.flatMap fun r => [(r.time, 8), (r.fccNew, 4), (r.dsoc, 2), (r.result, 1), (0, 1)])
  let body := head ++ res
  withCrc32c (body ++ List.replicate (0xFC - body.length) 0)

/-- A slot write begins: it goes to the slot that does not hold the latest good record. -/
def State.gStoreStart (s : State) : State :=
  let slot := if s.f Fd.GAUGE_STORE_SEQ = 0 ∧ s.fb Fd.GAUGE_STAT_NOSTORE then 0 else 1 - s.f Fd.GAUGE_STAT_SLOT
  let seq := (s.gauge.seq + 1) % 2 ^ 32
  let bytes := s.gSlotBytes seq
  let s := s.setGauge { s.gauge with writing := some (slot, bytes), failed := false, again := false, retryAt := none, seq := seq }
  s.recPages .gauge (32 + 2 * slot) bytes

/-- A trigger of R253. -/
def State.gStore (s : State) : State :=
  let s := s.setF Fd.GAUGE_STAT_STOREPEND 1
  match s.gauge.writing with
  | some _ => s.setGauge { s.gauge with again := true }
  | none => s.gStoreStart

/-- The trigger of R253 that is owed is taken. -/
def State.gStoreTake (s : State) : State :=
  if s.gauge.owe then (s.setGauge { s.gauge with owe := false }).gStore else s

/-- GAUGE_STORE_PERIODIC: STORE.PERIOD h of AO ticks have passed since it last expired. -/
def State.gStorePeriodic (s : State) : State :=
  if s.gauge.perAt + secTicks 3600 * s.f Fd.GAUGE_STORE_PERIOD ≤ s.ticks then
    (s.setGauge { s.gauge with perAt := s.ticks }).gStore
  else s

/-- GAUGE_STORE_DONE: the write under way is complete and verified, or has failed. -/
def State.gStoreDone (s : State) : State :=
  match s.gauge.writing with
  | none => s
  | some (slot, bytes) =>
    if s.recPending .gauge then s
    else if s.gauge.failed then
      let s := s.setGauge { s.gauge with writing := none, failed := false, again := false, retryAt := some (s.ticks + secTicks 10) }
      (s.gev Fd.GAUGE_EVRAW_STOREFAIL).raise 28 0 0
    else
      let again := s.gauge.again
      let s := s.setGauge { s.gauge with writing := none, again := false }
      let s := (s.setF Fd.GAUGE_STAT_SLOT slot).setF Fd.GAUGE_STORE_SEQ (recField bytes 4 4)
      let s := (s.gev Fd.GAUGE_EVRAW_STORED).flashAppend .gauge bytes
      if again then s.gStoreStart else s.setF Fd.GAUGE_STAT_STOREPEND 0

/-- GAUGE_STORE_RETRY: 10 s after a failed store. -/
def State.gStoreRetry (s : State) : State :=
  match s.gauge.retryAt with
  | some due => if s.gauge.writing.isNone ∧ due ≤ s.ticks then s.gStoreStart else s
  | none => s

/-- RELEARN set or cleared; a change is a trigger of R253. -/
def State.setRelearn (s : State) (b : Bool) : State :=
  if s.fb Fd.GAUGE_STAT_RELEARN = b then s else (s.setFb Fd.GAUGE_STAT_RELEARN b).gStore

/-! ## Account (R247, R258) -/

/-- RM stored, with the charge above its whole mAh. -/
def State.setRm (s : State) (mah rem : Nat) : State :=
  (s.setF Fd.GAUGE_RM_MAH mah).setGauge { s.gauge with rmRem := rem }

/-- SOC from RM (R247, step 2); 0 while FCC is 0 (R255). Only a written RM far above FCC can take it out of its field: what
the field then holds is a free value (log entry 55). -/
def State.socFromRm (s : State) : State :=
  let soc := if s.fcc = 0 then 0 else s.f Fd.GAUGE_RM_MAH * 10000 / s.fcc
  s.setF Fd.GAUGE_SOC_SOC (if soc < 2 ^ 16 then soc else Config.outOfRange Reg.GAUGE_SOC 0 soc)

/-- ENERGY (R247, step 3), for which the OCV table is checked; 0 while FCC is 0. -/
def State.energyFromRm (s : State) : State :=
  if s.fcc = 0 then s.setF Fd.GAUGE_ENERGY_J 0
  else
    let s := s.ocvCheck
    let e := s.f Fd.GAUGE_RM_MAH * 36 * s.cells * s.vHalf (s.f Fd.GAUGE_SOC_SOC) / 10000000
    s.setF Fd.GAUGE_ENERGY_J (min (2 ^ 32 - 1) e)

/-- QPASS stored, nC. -/
def State.setQPass (s : State) (q : Int) : State :=
  (s.setF Fd.GAUGE_QPASS_Q (toSigned 32 (q / (nCtenth : Int)))).setGauge { s.gauge with qPass := q }

/-- QBEYOND stored, nC. -/
def State.setQBeyond (s : State) (q : Nat) : State :=
  (s.setF Fd.GAUGE_QBEYOND_Q (min (2 ^ 32 - 1) (q / nCtenth))).setGauge { s.gauge with qBeyond := q }

/-- The anchor taken or discarded. -/
def State.setAnchor (s : State) (a : Option (Nat × Nat)) : State :=
  let s := s.setGauge { s.gauge with anchor := a }
  s.setF Fd.GAUGE_ANCHOR_SOC (match a with
    | some (soc, _) => soc
    | none => 0)

/-- Minutes since the anchor (ANCHOR.AGE), a view. -/
def State.anchorAge (s : State) : Nat :=
  match s.gauge.anchor with
  | some (_, at') => min 0xFFFF ((s.ticks - at') / secTicks 60)
  | none => 0xFFFF

/-- ANCHOR as it reads. -/
def State.anchorView (s : State) : Word := putBits (s.rd Reg.GAUGE_ANCHOR) 0 16 s.anchorAge

/-- What the gauge presents to the ledger (R251). -/
def State.gPresent (s : State) : State :=
  { s with gauged := ⟨s.f Fd.GAUGE_SOC_SOC, s.f Fd.GAUGE_ENERGY_J, s.tcell, s.fb Fd.GAUGE_STAT_EMPTY, s.fb Fd.GAUGE_STAT_HOLD1,
      s.fb Fd.GAUGE_STAT_CNTINV, s.fb Fd.GAUGE_STAT_TINV, s.fb Fd.GAUGE_STAT_PROVING⟩ }

/-- Charge of an update in nC, and its mean current in mA: the counts, limited to ±80 mV, less OFFSET, with the auto-zeros'
8 ms at the mean current of the previous update, and the deadband (R239, R240; log entry 55). -/
def State.charge (s : State) (counts : Int) (ms : Nat) : Int × Int :=
  let rsns := max 1 (s.f Fd.GAUGE_SHUNT_RSNS)
  let az := min ms (8 * s.gauge.az)
  let open' : Int := (ms - az : Nat)
  let raw := clampInt (-(8000 * open')) (8000 * open') counts
  let n := 1000 * raw - signed 16 (s.f Fd.GAUGE_AZ_OFFSET) * open' + (az : Int) * s.gCurrent * rsns
  if n.natAbs ≤ 50 * s.f Fd.GAUGE_CFG_DBAND * ms then (0, 0)
  else
    let sg : Int := if n < 0 then -1 else 1
    (sg * (n.natAbs * 1000 / rsns : Nat), sg * (divRound n.natAbs (rsns * ms) : Nat))

/-- R247: the charge added to RM and QPASS. RM stays within 0–FCC. -/
def State.addCharge (s : State) (q : Int) : State :=
  let s := s.setQPass (s.gauge.qPass + q)
  if s.fcc = 0 then (s.setRm 0 0)
  else
    let t := clampInt 0 (s.fcc * nCmAh) ((s.f Fd.GAUGE_RM_MAH * nCmAh + s.gauge.rmRem : Nat) + q)
    s.setRm (t.toNat / nCmAh) (t.toNat % nCmAh)

/-! ## Empty and full (R248, R249) -/

/-- FS27 with its cause (R248). -/
def State.conflict (s : State) (cause : Nat) : State :=
  ((s.setF Fd.GAUGE_STAT_CCAUSE cause).gev Fd.GAUGE_EVRAW_CONFLICT).raise 27 cause 0

/-- The conflict rule at one update. `soc0` and `rm0` (nC) stood before it; `q` is its charge. While FCC is 0, SOC and RM read
0 and nothing is held or cleared (R255); the voltage still declares empty. -/
def State.emptyRule (s : State) (soc0 : Nat) (rm0 : Int) (q : Int) : State :=
  let fcc := s.fcc
  let low := s.f Fd.GAUGE_SOC_SOC < 100
  let hold := s.fb Fd.GAUGE_STAT_HOLD1
  let s :=
    if fcc ≠ 0 ∧ low ∧ (100 ≤ soc0 ∨ hold) ∧ !s.fb Fd.GAUGE_STAT_EMPTY ∧ 10 * s.f Fd.GAUGE_VEMPTY_MV < s.f Fd.GAUGE_VOLT_VCELL then
      let floor' : Int := fcc / 100 * nCmAh
      let beyond := (floor' - (rm0 + q)).toNat
      let s := if rm0 + q < floor' then s.setRm (fcc / 100) 0 else s
      let s := (s.setF Fd.GAUGE_SOC_SOC 100).setQBeyond (s.gauge.qBeyond + beyond)
      if hold then s else (s.setF Fd.GAUGE_STAT_HOLD1 1).conflict 0
    else s
  let due : Bool := match s.gauge.lowMs with
    | some ms => decide (1000 * s.f Fd.GAUGE_VEMPTY_EDLY ≤ ms) && decide (s.gCurrent < 0)
    | none => false
  if due ∧ !s.fb Fd.GAUGE_STAT_EMPTY then
    let soc := s.f Fd.GAUGE_SOC_SOC
    let relearn := (s.fb Fd.GAUGE_STAT_HOLD1 && decide (10 * fcc < 50 * s.f Fd.GAUGE_QBEYOND_Q)) || decide (100 < soc)
    let s := ((s.setF Fd.GAUGE_STAT_EMPTY 1).setF Fd.GAUGE_SOC_SOC 0).setRm 0 0
    let s := s.gev Fd.GAUGE_EVRAW_EMPTY
    let s := ((if relearn then s.setF Fd.GAUGE_STAT_RELEARN 1 else s).setF Fd.GAUGE_STAT_HOLD1 0).setQBeyond 0
    if 100 < soc then s.conflict 1 else s
  else if s.fb Fd.GAUGE_STAT_EMPTY ∧ fcc ≠ 0 then
    if fcc ≤ 50 * s.f Fd.GAUGE_RM_MAH then s.setF Fd.GAUGE_STAT_EMPTY 0
    else if q < 0 then (s.setRm 0 0).socFromRm
    else s
  else s

/-- A full sync (R249): the charger reports CHGDONE to a gauge whose count is not frozen (R241, R250). -/
def State.fullSync (s : State) : State :=
  if !s.counting then s
  else
    let s := ((s.setRm s.fcc 0).setF Fd.GAUGE_SOC_SOC (if s.fcc = 0 then 0 else 10000)).setF Fd.GAUGE_STAT_FULL 1
    let s := ((s.setF Fd.GAUGE_STAT_HOLD1 0).setQBeyond 0).setF Fd.GAUGE_STAT_EMPTY 0
    (s.gev Fd.GAUGE_EVRAW_FULL).gaugeOwe

/-! ## Rest points and learning (R244, R245) -/

/-- A learning result: what LEARNRES and the slot keep, and the event. `fccNew` is present from the DEVIATION step on. -/
def State.learnResult (s : State) (result dsoc : Nat) (fccNew : Option Nat) : State :=
  let s := s.setF Fd.GAUGE_LEARNRES_RESULT result
  let s := match fccNew with
    | some n => s.setF Fd.GAUGE_LEARNRES_FCCNEW (min (2 ^ 28 - 1) n)
    | none => s
  let g := s.gauge
  let ok := result == 1
  let rs := g.results ++ [⟨s.chipTime, fccNew.getD 0, dsoc, result⟩]
  let s := s.setGauge { g with
    results := rs.drop (rs.length - 8)
    accepted := if ok then satInc (2 ^ 32 - 1) g.accepted else g.accepted
    rejected := if ok then g.rejected else satInc (2 ^ 32 - 1) g.rejected }
  if ok then s.gev Fd.GAUGE_EVRAW_LEARN else s.gev Fd.GAUGE_EVRAW_LREJECT

/-- FCC_new is out of its bounds (R245). -/
def State.deviates (s : State) (n : Nat) : Bool :=
  if s.fb Fd.GAUGE_STAT_RELEARN then
    decide (2 * n < s.f Fd.GAUGE_DESIGN_MAH) || decide (11 * s.f Fd.GAUGE_DESIGN_MAH < 10 * n)
  else decide (s.fcc * s.f Fd.GAUGE_LEARN_MAXDEV < 100 * ((n : Int) - (s.fcc : Int)).natAbs)

/-- R245 at a usable rest point with SOC `b`. Answers whether QPASS goes on (result DSOC). -/
def State.learn (s : State) (b : Nat) : State × Bool :=
  match s.gauge.anchor with
  | none => ((s.learnResult 6 0 none).setAnchor (some (b, s.ticks)), false)
  | some (a, at') =>
    let d := ((b : Int) - (a : Int)).natAbs
    let q := signed 32 (s.f Fd.GAUGE_QPASS_Q)
    if secTicks 3600 * s.f Fd.GAUGE_LEARN_TMAX < s.ticks - at' then
      ((s.learnResult 4 d none).setAnchor (some (b, s.ticks)), false)
    else if d < 100 * s.f Fd.GAUGE_LEARN_DSOC ∨ d = 0 ∨ (a < b ∧ q ≤ 0) ∨ (b < a ∧ 0 ≤ q) then (s.learnResult 5 d none, true)
    else
      let n := q.natAbs * 1000 / d
      if s.deviates n then ((s.learnResult 2 d (some n)).setAnchor (some (b, s.ticks)), false)
      else
        let w := if s.fb Fd.GAUGE_STAT_RELEARN then 8 else s.f Fd.GAUGE_LEARN_W
        let s := s.setF Fd.GAUGE_FCC_MAH ((s.fcc * (8 - w) + n * w) / 8)
        let s := ((s.setF Fd.GAUGE_STAT_RELEARN 0).learnResult 1 d (some n)).setAnchor (some (b, s.ticks))
        (s.gaugeOwe, false)

/-- The rest point of R244. -/
def State.restPoint (s : State) : State :=
  let s := s.ocvCheck
  let v : Int := (s.gauge.samples.headD 0 / s.cells : Nat)
  let (soc, seg) := s.ocvLookup v
  let soc := if s.ocvValid then soc else 0
  let s := (s.setF Fd.GAUGE_SOC_SOCOCV soc).gev Fd.GAUGE_EVRAW_REST
  let usable := s.ocvValid && s.segUsable seg && !s.fb Fd.GAUGE_STAT_TINV && s.tempFits && s.fcc != 0
  if usable then
    let (s, goesOn) := s.learn soc
    let s := (s.setRm (soc * s.fcc / 10000) 0).socFromRm
    let s := if goesOn then s else s.setQPass 0
    (s.setF Fd.GAUGE_STAT_HOLD1 0).setF Fd.GAUGE_STAT_CNTINV 0
  else s

/-- VBAT ÷ CELLS has changed by no more than DVDT between the two latest samples. -/
def State.steady (s : State) : Bool :=
  match s.gauge.samples with
  | a :: b :: _ =>
    decide (((a : Int) - (b : Int)).natAbs * 60000 ≤ s.f Fd.GAUGE_REST_DVDT * s.cells * s.gauge.gap)
  | _ => false

/-- R244 at one update. -/
def State.restRule (s : State) (ms : Nat) : State :=
  let small := decide (s.gCurrent.natAbs < s.f Fd.GAUGE_REST_IREST)
  let s := if small then s else s.setGauge { s.gauge with taken := false }
  if small ∧ s.steady then
    let t := match s.gauge.restMs with
      | some t => t + ms
      | none => 0
    let s := s.setGauge { s.gauge with restMs := some t }
    if 1000 * s.f Fd.GAUGE_REST_TIME ≤ t then
      let s := s.setF Fd.GAUGE_STAT_REST 1
      if s.gauge.taken then s else (s.setGauge { s.gauge with taken := true }).restPoint
    else s
  else (s.setGauge { s.gauge with restMs := none }).setF Fd.GAUGE_STAT_REST 0

/-! ## The proving run (R252) -/

/-- The run ends with a cause. -/
def State.proveEnd (s : State) (cause : Nat) : State :=
  match s.gauge.prove with
  | some start =>
    let s := s.setF Fd.GAUGE_PROVESTAT_MIN (min 0xFFFF ((s.ticks - start) / secTicks 60))
    let s := ((s.setGauge { s.gauge with prove := none }).setF Fd.GAUGE_STAT_PROVING 0).setF Fd.GAUGE_PROVESTAT_CAUSE cause
    s.gev Fd.GAUGE_EVRAW_PROVEEND
  | none => s

/-- The lowest cause that holds of a run begun at the AO tick `start`. -/
def State.proveCause (s : State) (start : Nat) : Option Nat :=
  if s.f Fd.GAUGE_SOC_SOC ≤ 100 * s.f Fd.GAUGE_PROVE_FLOOR then some 1
  else if s.f Fd.GAUGE_ENERGY_J ≤ s.f Fd.GAUGE_PROVEMIN_EMIN then some 2
  else if secTicks 3600 * s.f Fd.GAUGE_PROVE_TMAX ≤ s.ticks - start then some 3
  else if s.ho ≠ hoSource then some 4
  else if s.gauge.fs27 then some 5
  else if !s.tempFits || s.fb Fd.GAUGE_STAT_TINV then some 6
  else if s.fb Fd.GAUGE_STAT_CNTINV then some 7
  else none

/-- R252 at one update, and whenever another block has changed what a cause reads. -/
def State.proveRule (s : State) : State :=
  match s.gauge.prove with
  | some start =>
    let s := s.setF Fd.GAUGE_PROVESTAT_MIN (min 0xFFFF ((s.ticks - start) / secTicks 60))
    match s.proveCause start with
    | some c => s.proveEnd c
    | none => s
  | none => s

/-- PROVE.GO written 1 (R252). -/
def State.proveGo (s : State) : State :=
  let near : Bool := match s.gauge.anchor with
    | some (soc, at') => decide (s.ticks - at' < secTicks 3600) && decide (100 * s.f Fd.GAUGE_PROVE_START ≤ soc)
    | none => false
  if s.gauge.prove.isNone ∧ !s.fb Fd.GAUGE_STAT_CNTINV ∧ !s.fb Fd.GAUGE_STAT_TINV ∧ near ∧ s.ho = hoSource then
    ((s.setGauge { s.gauge with prove := some s.ticks, fs27 := false }).setF Fd.GAUGE_STAT_PROVING 1).setF Fd.GAUGE_PROVESTAT_MIN 0
  else s.setF Fd.GAUGE_PROVESTAT_CAUSE 9

/-! ## Updates, samples and auto-zero (R240–R242, R246, R258) -/

/-- One update, in the order of R258: R247, R248, R249, R244 and R245, R252, R253. `counts` is what the converter counted
in the update's `ms` milliseconds outside auto-zero. -/
def State.gUpdate (s : State) (counts : Int) (ms : Nat) : State :=
  if !s.counting || ms = 0 then s
  else
    let (q, ma) := s.charge counts ms
    let soc0 := s.f Fd.GAUGE_SOC_SOC
    let rm0 : Int := (s.f Fd.GAUGE_RM_MAH * nCmAh + s.gauge.rmRem : Nat)
    let e0 := s.fb Fd.GAUGE_STAT_EMPTY
    let r0 := s.fb Fd.GAUGE_STAT_RELEARN
    let s := (s.setF Fd.GAUGE_CURRENT_MA (toSigned 32 ma)).setGauge { s.gauge with az := 0 }
    let s := if ma < 0 then s else s.setGauge { s.gauge with lowMs := none }
    let s := ((s.addCharge q).socFromRm).energyFromRm
    let s := s.emptyRule soc0 rm0 q
    let s := if s.f Fd.GAUGE_RM_MAH < s.fcc then s.setF Fd.GAUGE_STAT_FULL 0 else s
    let s := s.restRule ms
    let s := s.proveRule
    let s := if (s.fb Fd.GAUGE_STAT_EMPTY && !e0) || (s.fb Fd.GAUGE_STAT_RELEARN != r0) then s.gaugeOwe else s
    let quiet := decide (ma.natAbs < s.f Fd.GAUGE_CFG_ISLEEP)
    let n := if quiet then s.gauge.small + 1 else 0
    let s := s.setGauge { s.gauge with small := n }
    let s := if s.gMode = gmActive ∧ 16 ≤ n then s.setF Fd.GAUGE_STAT_MODE gmQuiet else s
    ((s.gev Fd.GAUGE_EVRAW_UPDATE).gPresent).gStoreTake

/-- GAUGE_UPDATE: an update falls due. -/
def State.gaugeUpdate (s : State) (counts : Int) (ms : Nat) : State := s.gUpdate counts ms

/-- GAUGE_WAKE_ACTIVE: the 1 ms mean current reaches twice ISLEEP in QUIET; an update follows at once (R241). -/
def State.gaugeWake (s : State) (ma counts : Int) (ms : Nat) : State :=
  if s.counting ∧ s.gMode = gmQuiet ∧ 2 * s.f Fd.GAUGE_CFG_ISLEEP ≤ ma.natAbs then
    ((s.setF Fd.GAUGE_STAT_MODE gmActive).setGauge { s.gauge with small := 0 }).gUpdate counts ms
  else s

/-- The cell temperature cannot be used (R242): no channel is named, or it reads open or shorted, as a disabled one does
(R329). -/
def State.tempBad (s : State) : Bool := (s.tdValue (s.f Fd.PATH_BATLIM_TDCH)).isNone

/-- GAUGE_SAMPLE (R242, R246, R248): VBAT in µV and the cell temperature in 0.1 °C, `ms` after the sample before. -/
def State.gaugeSample (s : State) (uv : Nat) (t : Int) (ms : Nat) : State :=
  if !s.counting then s
  else
    let bad := s.tempBad
    let s := (s.setFb Fd.GAUGE_STAT_TINV bad).setF Fd.GAUGE_TEMPMEAS_TCELL (toSigned 16 (if bad then 250 else t))
    let comp := ((uv : Int) - s.gCurrent * (s.f Fd.GAUGE_IMP_R : Int) / 100).toNat / (100 * s.cells)
    let vcell := min 0xFFFF comp
    let s := (s.setF Fd.GAUGE_VOLT_VBAT (min 0xFFFF (uv / 1000))).setF Fd.GAUGE_VOLT_VCELL vcell
    let low := if vcell ≤ 10 * s.f Fd.GAUGE_VEMPTY_MV ∧ s.gCurrent < 0 then
        (match s.gauge.lowMs with
          | some t => some (t + ms)
          | none => some 0)
      else none
    s.setGauge { s.gauge with samples := (uv :: s.gauge.samples).take 2, gap := ms, lowMs := low }

/-- IMPEDANCE_UPDATE (R246): the change of VBAT in µV over a current step in mA. -/
def State.gaugeImpedance (s : State) (dv di : Int) : State :=
  if s.counting ∧ s.f Fd.GAUGE_IMP_DI ≤ di.natAbs ∧ di ≠ 0 then
    let r := -(dv * 100) / di
    if 100 ≤ r ∧ r ≤ 50000 ∧ !s.fb Fd.GAUGE_STAT_TINV then
      let r0 : Int := s.f Fd.GAUGE_IMP_R
      (s.setF Fd.GAUGE_IMP_R (r0 + (r - r0) / 8).toNat).gev Fd.GAUGE_EVRAW_IMP
    else s
  else s

/-- An auto-zero begins (R240, R241). -/
def State.autozeroStart (s : State) : State :=
  let m := s.gMode
  if s.counting ∧ (m = gmActive ∨ m = gmQuiet) then
    (s.setF Fd.GAUGE_STAT_MODE gmAutozero).setGauge { s.gauge with prev := m, az := s.gauge.az + 1 }
  else s

/-- AUTOZERO_DONE: the offset measured, 0.01 µV; one quarter of the difference is folded in. -/
def State.autozeroDone (s : State) (meas : Int) : State :=
  if s.counting ∧ s.gMode = gmAutozero then
    let o := signed 16 (s.f Fd.GAUGE_AZ_OFFSET)
    (s.setF Fd.GAUGE_AZ_OFFSET (toSigned 16 (o + (meas - o) / 4))).setF Fd.GAUGE_STAT_MODE s.gauge.prev
  else s

/-- A write of GAUGE.CTRL (R241, R245, R253). -/
def State.gaugeCtrl (s : State) (d : Word) : State :=
  let on := bit d 0
  let s := s.setFb Fd.GAUGE_CTRL_EN on
  let s :=
    if !on then (s.setF Fd.GAUGE_STAT_MODE gmOff).setGauge { s.gauge with small := 0 }
    else if s.gMode = gmOff then (s.setF Fd.GAUGE_STAT_MODE gmActive).setGauge { s.gauge with small := 0 }
    else s
  let s := if bit d 3 then s.setRelearn true else s
  let s := if bit d 2 then s.gStore else s
  if bit d 1 then s.autozeroStart else s

/-! ## Writes of the account (R255, R258) -/

/-- A write of FCC: RM is rescaled, or set to 0 where FCC was 0. -/
def State.fccWrite (s : State) (d : Nat) : State :=
  let old := s.fcc
  let rm := if old = 0 then 0 else s.f Fd.GAUGE_RM_MAH * d / old
  let s := (s.setF Fd.GAUGE_FCC_MAH d).setRm rm 0
  if d = 0 then (s.socFromRm).setF Fd.GAUGE_ENERGY_J 0 else s

/-- A write of RM: SOC is recomputed; RM reads 0 while FCC is 0. -/
def State.rmWrite (s : State) (d : Nat) : State :=
  (s.setRm (if s.fcc = 0 then 0 else d) 0).socFromRm

/-- A write of DESIGN.MAH; while FCC is 0 a non-zero value becomes FCC (R255). -/
def State.designWrite (s : State) (d : Nat) : State :=
  let s := s.setF Fd.GAUGE_DESIGN_MAH d
  if s.fcc = 0 ∧ d ≠ 0 then (s.setF Fd.GAUGE_FCC_MAH d).setRm 0 0 else s

/-- A write of GAUGE.PROVE: the settings, then ABORT and GO (R252). -/
def State.proveWrite (s : State) (d : Word) : State :=
  let s := ((s.setF Fd.GAUGE_PROVE_START (clampNat 50 100 (getBits d 16 8))).setF Fd.GAUGE_PROVE_FLOOR
    (clampNat 5 80 (getBits d 8 8))).setF Fd.GAUGE_PROVE_TMAX (clampNat 1 48 (getBits d 0 8))
  let s := if bit d 30 then s.proveEnd 8 else s
  if bit d 31 then s.proveGo else s

/-! ## Oscillator, power-on and resets (R250, R254, R256) -/

/-- The GAUGE oscillator is lost (R250). -/
def State.gaugeOscLost (s : State) : State :=
  ((s.setF Fd.GAUGE_STAT_CNTINV 1).setAnchor none).setQPass 0 |>.gev Fd.GAUGE_EVRAW_CNTINV

/-- A slot is good (R254). -/
def gSlotGood (b : List Byte) : Bool :=
  recField b 0 1 == 0x47 && recField b 1 1 == 1 && crc32c (b.take 0xFC) == recField b 0xFC 4

/-- `b`'s SEQ is later than `a`'s in 32-bit serial order. -/
def serialLater (a b : Nat) : Bool :=
  let d := (b + 2 ^ 32 - a) % 2 ^ 32
  decide (0 < d) && decide (d < 2 ^ 31)

/-- The slot that wins at power-on, with its number. -/
def gSlotChoose (a b : List Byte) : Option (Nat × List Byte) :=
  match gSlotGood a, gSlotGood b with
  | true, true => if serialLater (recField a 4 4) (recField b 4 4) then some (1, b) else some (0, a)
  | true, false => some (0, a)
  | false, true => some (1, b)
  | false, false => none

/-- Step 5 of the boot flow after power-on (R254). -/
def State.gaugeRestore (s : State) : State :=
  let s := (s.setGauge { s.gauge with anchor := none }).setF Fd.GAUGE_STAT_CNTINV 1
  let s := match gSlotChoose (s.rflash.slotBytes 32) (s.rflash.slotBytes 34) with
    | some (n, b) =>
      let s := (((s.setF Fd.GAUGE_FCC_MAH (recField b 0x10 4)).setRm (recField b 0x14 4) 0).setF Fd.GAUGE_SOC_SOC (recField b 0x18 2)).setF Fd.GAUGE_IMP_R (recField b 0x1A 2)
      let s := (s.setF Fd.GAUGE_AZ_OFFSET (recField b 0x1E 2)).setFb Fd.GAUGE_STAT_RELEARN (bit (BitVec.ofNat 32 (recField b 0x1C 2)) 0)
      ((s.setF Fd.GAUGE_STAT_SLOT n).setF Fd.GAUGE_STORE_SEQ (recField b 4 4)).setGauge { s.gauge with seq := recField b 4 4 }
    | none =>
      let s := ((s.setF Fd.GAUGE_FCC_MAH (s.f Fd.GAUGE_DESIGN_MAH)).setRm 0 0).setF Fd.GAUGE_SOC_SOC 0
      ((s.setF Fd.GAUGE_IMP_R 0).setF Fd.GAUGE_STAT_RELEARN 1).setF Fd.GAUGE_STAT_NOSTORE 1
  s.gPresent

/-- A block reset of the gauge, beside its settings: the mode returns to ACTIVE and a proving run ends with cause ABORT. -/
def State.gaugeBlockReset (s : State) : State :=
  let s := s.proveEnd 8
  if s.gMode = gmOff then s else (s.setF Fd.GAUGE_STAT_MODE gmActive).setGauge { s.gauge with small := 0 }

end Sys2Proof.Machine
end

