-- ==== Sys2Proof/Machine/Operands.lean ====
section
/-! DEFINITION. Plan rows and their operands: fields, modes, the opcode table's operand columns, and the values they
deliver (R76–R79, R86). -/

namespace Sys2Proof.Machine

/-- The fields of a plan row (R76). -/
structure Row where
  op  : Nat
  cc  : Nat
  tgt : BitVec 14
  a   : Nat
  b   : Nat
  deriving DecidableEq, Repr

/-- The fields of a 64-bit row (R76). -/
def rowOf (w : Nat) : Row where
  op := (w >>> 58) % 64
  cc := (w >>> 54) % 16
  tgt := BitVec.ofNat 14 (w >>> 40)
  a := (w >>> 20) % 2 ^ 20
  b := w % 2 ^ 20

/-- The bus address of plan row `r`'s lower word (R70). -/
def rowAddr (r : Nat) : Nat := 0x100000 + 8 * r

/-- The 64 bits of plan row `r` (R70). -/
def State.rowBits (s : State) (r : Nat) : Nat :=
  (s.memWord (rowAddr r + 4)).toNat * 2 ^ 32 + (s.memWord (rowAddr r)).toNat

/-- A whole row stored. -/
def State.setRow (s : State) (r : Nat) (lower upper : Word) : State :=
  (s.setMemWord (rowAddr r) lower).setMemWord (rowAddr r + 4) upper

/-- The row a thread's PC stands on. -/
def State.rowAt (s : State) (t : Nat) : Row := rowOf (s.rowBits (s.th t).pc.toNat)

/-- Operand modes (R77). -/
inductive Mode where
  | reg
  | imm
  | addr
  | ind
  deriving DecidableEq, Repr

/-- The mode of an operand field (R77). -/
def modeOf (x : Nat) : Mode :=
  match (x >>> 18) % 4 with
  | 0 => .reg
  | 1 => .imm
  | 2 => .addr
  | _ => .ind

/-- The register a REG or IND field names. -/
def regOf (x : Nat) : Nat := x % 8

/-- The value of an IMM field (R77). -/
def immOf (x : Nat) : Int := signed 18 x

/-- One operand column of the opcode table (R86). -/
inductive OpCol where
  /-- The field is not used (R78). -/
  | unused
  /-- REG only. -/
  | r
  /-- REG, even registers only. -/
  | rEven
  /-- REG, or IMM of any value. -/
  | ri
  /-- IMM of any value. -/
  | i
  /-- REG or IMM within a range. -/
  | riIn (lo hi : Int)
  /-- REG (no range of its own), or IMM within a range. -/
  | rOrImmIn (lo hi : Int)
  /-- ADDR or IND. -/
  | an
  /-- IND only. -/
  | n
  deriving DecidableEq, Repr

/-- The largest IMM value. -/
def immMax : Int := 131071

/-- The operand columns of an opcode; `none` for a reserved OP value (R86). -/
def opCols (op : Nat) : Option (OpCol × OpCol) :=
  match op with
  | 0x01 => some (.unused, .unused)
  | 0x02 => some (.unused, .unused)
  | 0x03 => some (.unused, .unused)
  | 0x04 => some (.unused, .unused)
  | 0x05 => some (.r, .unused)
  | 0x06 => some (.unused, .unused)
  | 0x07 => some (.riIn 0 15, .unused)
  | 0x08 => some (.riIn 0 15, .unused)
  | 0x09 => some (.r, .unused)
  | 0x10 => some (.r, .ri)
  | 0x11 => some (.r, .i)
  | 0x12 => some (.r, .ri)
  | 0x13 => some (.r, .ri)
  | 0x14 => some (.r, .ri)
  | 0x15 => some (.r, .ri)
  | 0x16 => some (.r, .ri)
  | 0x17 => some (.r, .ri)
  | 0x18 => some (.r, .ri)
  | 0x19 => some (.r, .ri)
  | 0x1A => some (.r, .ri)
  | 0x1B => some (.r, .ri)
  | 0x1C => some (.r, .ri)
  | 0x1D => some (.r, .ri)
  | 0x1E => some (.r, .ri)
  | 0x1F => some (.r, .ri)
  | 0x20 => some (.r, .ri)
  | 0x21 => some (.r, .ri)
  | 0x28 => some (.r, .an)
  | 0x29 => some (.an, .ri)
  | 0x2A => some (.unused, .unused)
  | 0x2B => some (.riIn 0 15, .unused)
  | 0x2C => some (.riIn 0 15, .unused)
  | 0x30 => some (.rOrImmIn 0 31, .rOrImmIn 0 immMax)
  | 0x31 => some (.rOrImmIn 0 immMax, .rOrImmIn 0 immMax)
  | 0x32 => some (.rOrImmIn 0 immMax, .unused)
  | 0x33 => some (.riIn 1 (2 ^ 32 - 1), .unused)
  | 0x34 => some (.riIn 0 7, .ri)
  | 0x35 => some (.rEven, .unused)
  | 0x36 => some (.rOrImmIn 0 immMax, .ri)
  | 0x37 => some (.riIn 0 47, .unused)
  | 0x38 => some (.riIn 0 511, .ri)
  | 0x39 => some (.riIn 0 511, .riIn 0 4)
  | 0x3A => some (.riIn 0 511, .unused)
  | 0x3B => some (.ri, .riIn 0 6)
  | 0x3C => some (.riIn 0 511, .n)
  | 0x3D => some (.riIn 0 31, .riIn 0 2)
  | _ => none

/-- A field is legal under its column: its mode is allowed and an IMM value lies in range (R79). -/
def colOk (c : OpCol) (x : Nat) : Bool :=
  match c, modeOf x with
  | .unused, _ => true
  | .r, .reg => true
  | .rEven, .reg => x % 2 == 0
  | .ri, .reg => true
  | .ri, .imm => true
  | .i, .imm => true
  | .riIn _ _, .reg => true
  | .riIn lo hi, .imm => decide (lo ≤ immOf x) && decide (immOf x ≤ hi)
  | .rOrImmIn _ _, .reg => true
  | .rOrImmIn lo hi, .imm => decide (lo ≤ immOf x) && decide (immOf x ≤ hi)
  | .an, .addr => true
  | .an, .ind => true
  | .n, .ind => true
  | _, _ => false

/-- The CAUSE an illegal row gives its thread, 0 for a legal row (R79, R111). DESIGN CHOICE (log entry 87): a row that is
illegal for several reasons takes the first of OP, CC and operand; R79 and R111 give no order. -/
def rowCause (r : Row) : Nat :=
  match opCols r.op with
  | none => 1
  | some (ca, cb) =>
    if r.cc = 0xF then 2
    else if colOk ca r.a && colOk cb r.b then 0 else 3

/-- Register `n` of a thread. -/
def Thread.reg (x : Thread) (n : Nat) : Word := x.w[n % 8]'(Nat.mod_lt _ (by decide))

/-- A register of a thread replaced. -/
def Thread.setReg (x : Thread) (n : Nat) (v : Word) : Thread := { x with w := x.w.set (n % 8) v (Nat.mod_lt _ (by decide)) }

/-- The word a REG or IMM operand delivers (R77). -/
def Thread.val (x : Thread) (field : Nat) : Word :=
  match modeOf field with
  | .imm => BitVec.ofInt 32 (immOf field)
  | _ => x.reg (regOf field)

/-- The bus address an ADDR or IND operand delivers (R77), word-aligned (R52). DESIGN CHOICE (log entry 88): the sum of an
IND operand wraps at 24 bits; R77 does not say. -/
def Thread.addrOf (x : Thread) (field : Nat) : Nat :=
  match modeOf field with
  | .addr => (field >>> 10) % 64 * 0x1000 + 4 * (field % 1024)
  | _ => busWordAddr ((x.reg (regOf field)).toNat % 2 ^ 24 + 4 * ((field >>> 10) % 256))

/-- A ranged operand's value, `none` when a register holds a value outside the range (R86). -/
def Thread.inRange (x : Thread) (field lo hi : Nat) : Option Nat :=
  let v := (x.val field).toNat
  if lo ≤ v ∧ v ≤ hi then some v else none

end Sys2Proof.Machine
end

