-- ==== Sys2Proof/Machine/Flags.lean ====
section
/-! DEFINITION. The condition codes (R85) and the results and flags of the engine's arithmetic (R86, R87). -/

namespace Sys2Proof.Machine

/-- A condition code on the flags (R85); 0xF never stands in a legal row. -/
def condHolds (cc : Nat) (f : Flags) : Bool :=
  match cc with
  | 0x0 => true
  | 0x1 => f.z
  | 0x2 => !f.z
  | 0x3 => f.c
  | 0x4 => !f.c
  | 0x5 => f.n
  | 0x6 => !f.n
  | 0x7 => f.v
  | 0x8 => !f.v
  | 0x9 => !f.c && !f.z
  | 0xA => f.c || f.z
  | 0xB => f.n == f.v
  | 0xC => f.n != f.v
  | 0xD => !f.z && f.n == f.v
  | 0xE => f.z || f.n != f.v
  | _ => false

/-- Z and N from a result. -/
def Flags.zn (f : Flags) (r : Word) : Flags := { f with z := r == 0, n := r.msb }

/-- Result and flags of an arithmetic row: the word for the A register (`none` discards it) and the flags. -/
abbrev Alu := Word → Word → Flags → Option Word × Flags

/-- MOV. -/
def aluMov : Alu := fun _ b f => (some b, f.zn b)

/-- LDH: the upper half replaced. -/
def aluLdh : Alu := fun a b f =>
  let r := BitVec.ofNat 32 (b.toNat % 2 ^ 16 * 2 ^ 16 + a.toNat % 2 ^ 16)
  (some r, f.zn r)

/-- ADD: C is the carry out, V the two's-complement overflow. -/
def aluAdd : Alu := fun a b f =>
  let r := a + b
  (some r, { f.zn r with c := decide (2 ^ 32 ≤ a.toNat + b.toNat), v := a.msb == b.msb && r.msb != a.msb })

/-- The difference, with C the borrow and V the two's-complement overflow. -/
def subFlags (a b : Word) (f : Flags) : Flags :=
  let r := a - b
  { f.zn r with c := decide (a.toNat < b.toNat), v := a.msb != b.msb && r.msb != a.msb }

/-- SUB. -/
def aluSub : Alu := fun a b f => (some (a - b), subFlags a b f)

/-- CMP. -/
def aluCmp : Alu := fun a b f => (none, subFlags a b f)

/-- AND. -/
def aluAnd : Alu := fun a b f => (some (a &&& b), f.zn (a &&& b))

/-- OR. -/
def aluOr : Alu := fun a b f => (some (a ||| b), f.zn (a ||| b))

/-- XOR. -/
def aluXor : Alu := fun a b f => (some (a ^^^ b), f.zn (a ^^^ b))

/-- TST. -/
def aluTst : Alu := fun a b f => (none, f.zn (a &&& b))

/-- SHL: C is the last bit shifted out; a count of 0 clears C. -/
def aluShl : Alu := fun a b f =>
  let k := b.toNat % 32
  let r := a <<< k
  (some r, { f.zn r with c := k != 0 && a.getLsbD (32 - k) })

/-- SHR. -/
def aluShr : Alu := fun a b f =>
  let k := b.toNat % 32
  let r := a >>> k
  (some r, { f.zn r with c := k != 0 && a.getLsbD (k - 1) })

/-- ASR. -/
def aluAsr : Alu := fun a b f =>
  let k := b.toNat % 32
  let r := a.sshiftRight k
  (some r, { f.zn r with c := k != 0 && a.getLsbD (k - 1) })

/-- MUL: saturates with V when the true product exceeds 32 bits. -/
def aluMul : Alu := fun a b f =>
  let p := a.toNat * b.toNat
  let r := if 2 ^ 32 ≤ p then BitVec.allOnes 32 else BitVec.ofNat 32 p
  (some r, { f.zn r with v := decide (2 ^ 32 ≤ p) })

/-- DIV: truncates; a divisor of 0 gives 0xFFFF_FFFF with V. -/
def aluDiv : Alu := fun a b f =>
  let r := if b = 0 then BitVec.allOnes 32 else BitVec.ofNat 32 (a.toNat / b.toNat)
  (some r, { f.zn r with v := b == 0 })

/-- ADDS: unsigned add saturating at 0xFFFF_FFFF; C when it saturates, V cleared. -/
def aluAdds : Alu := fun a b f =>
  let p := a.toNat + b.toNat
  let r := if 2 ^ 32 ≤ p then BitVec.allOnes 32 else BitVec.ofNat 32 p
  (some r, { f.zn r with c := decide (2 ^ 32 ≤ p), v := false })

/-- SUBS: unsigned subtract saturating at 0; C when it saturates, V cleared. -/
def aluSubs : Alu := fun a b f =>
  let r := if a.toNat < b.toNat then 0 else a - b
  (some r, { f.zn r with c := decide (a.toNat < b.toNat), v := false })

/-- MIN: B only when it is unsigned-lower; C says that B was taken. -/
def aluMin : Alu := fun a b f =>
  let r := if b.toNat < a.toNat then b else a
  (some r, { f.zn r with c := decide (b.toNat < a.toNat) })

/-- MAX: B only when it is unsigned-higher; C says that B was taken. -/
def aluMax : Alu := fun a b f =>
  let r := if a.toNat < b.toNat then b else a
  (some r, { f.zn r with c := decide (a.toNat < b.toNat) })

end Sys2Proof.Machine
end

