-- ==== Sys2Proof/Machine/Engine.lean ====
section
/-! DEFINITION. The plan engine's shared operations: which thread issues (R81, R82), issuing a row, ending a row, thread
faults (R79), waits (R91–R94), and the control of one thread by another or by a host (R97, R100). -/

namespace Sys2Proof.Machine

/-- The engine has a clock (R83). -/
def State.engineRuns (s : State) : Bool := s.power.wakeRuns

/-- A thread is ready (R81): RUN, and no earlier row of its own still completing. -/
def Thread.ready (x : Thread) : Bool := x.st == .run && x.busy.isNone

/-- The first thread after `last`, in cyclic order, that satisfies a condition (R82). -/
def firstAfter (last : Nat) (c : Nat → Bool) : Option Nat :=
  (List.range 16).map (fun i => (last + 1 + i) % 16) |>.find? c

/-- The thread that R82 lets issue next. -/
def State.nextThread (s : State) : Option Nat := firstAfter s.eng.lastIssued fun t => (s.th t).ready

/-- Thread `t` may issue its row in this engine cycle. -/
def State.canIssue (s : State) (t : Nat) : Bool := s.engineRuns && s.nextThread == some t

/-- The row boundary after a completed row: a pending halt acts, and a stepped thread halts (R97, R100). -/
def Thread.boundary (x : Thread) : Thread :=
  if x.st = .run ∧ (x.haltReq ∨ x.step) then { x with st := .halted, haltReq := false, step := false } else x

/-- A row of `t` completes with the PC at `pc`. -/
def State.endRowAt (s : State) (t : Nat) (pc : BitVec 14) : State :=
  s.setTh t { (s.th t) with pc := pc, busy := none }.boundary

/-- A row of `t` completes and the PC advances by one. -/
def State.endRow (s : State) (t : Nat) : State := s.endRowAt t ((s.th t).pc + 1)

/-- Thread `t` stays busy on the row at its PC. -/
def State.setBusy (s : State) (t : Nat) (b : Busy) : State := s.setTh t { s.th t with busy := some b }

/-- The flags of `t` replaced. -/
def State.setFlags (s : State) (t : Nat) (f : Flags) : State := s.setTh t { s.th t with flags := f }

/-- The C flag of `t`. -/
def State.setC (s : State) (t : Nat) (c : Bool) : State := s.setFlags t { (s.th t).flags with c := c }

/-- A thread register written. -/
def State.setW (s : State) (t n : Nat) (v : Word) : State := s.setTh t ((s.th t).setReg n v)

/-- A row of `t` completes after writing registers and flags. -/
def State.finishRow (s : State) (t : Nat) (writes : List (Nat × Word)) (f : Flags) : State :=
  ((writes.foldl (fun s p => s.setW t p.1 p.2) s).setFlags t f).endRow t

/-- A thread enters FAULT (R79): PC stays on the row, CAUSE is set, THFAULT is reported and `source` (FS33 or FS34) is
raised with CAUSE and thread. -/
def State.threadFault (s : State) (t cause source : Nat) : State :=
  let x := s.th t
  let s := s.setTh t { x with st := .fault, cause := cause, busy := none, waiting := none, waitDue := none,
                              haltReq := false, step := false }
  let s := s.evBit Fd.PLAN_EVRAW_THFAULT t
  s.raise source (if source = 33 then cause else 0) t

/-- Issue the row at the PC of thread `t` as opcode `op` (R82, R84): nothing happens unless `t` is the thread that issues
and its row is a legal row of that opcode; a false condition only advances the PC; otherwise `k` gives the effect. -/
def State.issue (s : State) (t : Nat) (op : Nat) (k : Row → State → State) : State :=
  let r := s.rowAt t
  if s.canIssue t ∧ rowCause r = 0 ∧ r.op = op then
    let s := { s with eng := { s.eng with lastIssued := t }, power := { s.power with idleTicks := 0 } }
    if condHolds r.cc (s.th t).flags then k r s else s.endRow t
  else s

/-- A one-cycle arithmetic row (R86, R87). -/
def State.aluRow (s : State) (t op : Nat) (f : Alu) : State :=
  s.issue t op fun r s =>
    let x := s.th t
    let (res, fl) := f (x.reg (regOf r.a)) (x.val r.b) x.flags
    let s := match res with
      | some v => s.setW t (regOf r.a) v
      | none => s
    (s.setFlags t fl).endRow t

/-- A multi-cycle arithmetic row: its result lands when it completes (R81). -/
def State.aluRowBusy (s : State) (t op : Nat) (f : Alu) : State :=
  s.issue t op fun r s =>
    let x := s.th t
    let (res, fl) := f (x.reg (regOf r.a)) (x.val r.b) x.flags
    s.setBusy t (.result (match res with | some v => [(regOf r.a, v)] | none => []) fl)

/-- A REG operand out of range at run time: C = 1 and no other effect (R86). -/
def State.outOfRange (s : State) (t : Nat) : State := (s.setC t true).endRow t

/-! ## Block events (R91, R92) -/

/-- `EVSTAT` of a page: EVRAW AND EVEN (R66). -/
def State.evstat (s : State) (base : Nat) : Word := s.rd (base + 0xC) &&& s.rd (base + 0x10)

/-- Block event En is present (R91). -/
def State.eventPresent (s : State) (n : Nat) : Bool :=
  if n = 1 then s.evstat 0x001000 != 0 || s.evstat 0x01F000 != 0
  else if n < 24 then s.evstat (n * 0x1000) != 0
  else s.evstat (0x020000 + (n - 24) * 0x1000) != 0

/-- The present events among those of a mask. -/
def State.eventsIn (s : State) (mask : Word) : Word :=
  (bitList 32 mask.toNat).foldl (fun acc n => if s.eventPresent n then acc ||| bitAt n else acc) 0

/-- A wait ends: W7, C, Z and N as R92, the thread runs on past its row. -/
def State.endWait (s : State) (t : Nat) (w7 : Word) (timedOut : Bool) : State :=
  let x := s.th t
  let x := { x with st := .run, waiting := none, waitDue := none, flags := { (x.flags.zn w7) with c := timedOut } }
  (s.setTh t (x.setReg 7 w7)).endRow t

/-- The thread enters WAIT (R92, R94). -/
def State.enterWait (s : State) (t : Nat) (wf : WaitFor) (timeout : Nat) : State :=
  s.setTh t { s.th t with st := .wait, waiting := some wf, waitDue := if timeout = 0 then none else some (s.ticks + timeout) }

/-- The post flags among those of a mask that are set. -/
def State.postsIn (s : State) (mask : Nat) : Nat := (s.f Fd.PLAN_POST_FLAGS) &&& (mask % 2 ^ 16)

/-- A WAITP ends by its flags: they are cleared and written to W7 (R94). -/
def State.takePosts (s : State) (t mask : Nat) : State :=
  let got := s.postsIn mask
  (s.clrReg Reg.PLAN_POST (BitVec.ofNat 32 got)).endWait t (BitVec.ofNat 32 got) false

/-- The waiting thread that takes the post flags now set, first in the order of R82 (R94). -/
def State.postTaker (s : State) : Option Nat :=
  firstAfter s.eng.lastIssued fun t =>
    match (s.th t).waiting with
    | some (.posts m) => s.postsIn m != 0
    | _ => false

/-! ## Control of threads (R96, R97, R100) -/

/-- A thread may be started: HALTED or FAULT. -/
def Thread.startable (x : Thread) : Bool := x.st == .halted || x.st == .fault

/-- START (R97): PC, SP and CAUSE; registers and flags stay. -/
def Thread.started (x : Thread) (pc : BitVec 14) : Thread :=
  { x with pc := pc, stack := [], cause := 0, st := .run, busy := none, waiting := none, waitDue := none,
           haltReq := false, step := false }

/-- RESUME, and the first half of STEP (R100). -/
def Thread.resumed (x : Thread) (step : Bool) : Thread :=
  { x with cause := 0, st := .run, busy := none, waiting := none, waitDue := none, haltReq := false, step := step }

/-- A halt at the next row boundary (R96, R97): a busy row completes first; WAIT and DLY are set aside at once. -/
def Thread.halted (x : Thread) : Thread :=
  match x.st with
  | .run =>
    match x.busy with
    | none => { x with st := .halted, haltReq := false, step := false }
    | some .dly => { x with st := .halted, busy := none, haltReq := false, step := false }
    | some _ => { x with haltReq := true }
  | .wait => { x with st := .halted, waiting := none, waitDue := none, haltReq := false, step := false }
  | _ => x

/-- A REG or IMM thread operand (START, STOP). -/
def State.threadArg (s : State) (t : Nat) (field : Nat) : Option Nat := (s.th t).inRange field 0 15

end Sys2Proof.Machine
end

