-- ==== Sys2Proof/Machine/EngineRows.lean ====
section
/-! DEFINITION. The effects of the plan rows that reach no other block, and of the waits and host thread commands
(R86–R102). The rows that read and write the register space, act on the ledger, a rail or a link stand in
EngineBus.lean. -/

namespace Sys2Proof.Machine

/-- A fetched row has a double-bit error: the thread halts with CAUSE 7 and FS34 is raised (R25, R79). -/
def rowEccError (s : State) (t : Nat) : State :=
  if s.canIssue t then
    ({ s with eng := { s.eng with lastIssued := t } } : State).threadFault t 7 34
  else s

/-- The corrected fetch of the row that a thread issues next is counted (R25). -/
def fetchCorrected (s : State) (t : Nat) : State := if s.canIssue t then s.incF Fd.PLAN_ECC_CORR else s

/-- NOP (R86); the check bits of the fetch come with it (R25). A corrected error is counted whatever the row holds, and a
row that is no NOP is then issued by its own command; a double-bit error faults the thread whatever the row holds. -/
def rowNop (s : State) (t : Nat) (ecc : Ecc) : State :=
  match ecc with
  | .clean => s.issue t 0x01 fun _ s => s.endRow t
  | .corrected => (fetchCorrected s t).issue t 0x01 fun _ s => s.endRow t
  | .double => rowEccError s t

/-- A row that is illegal at decode faults its thread (R79). -/
def rowIllegal (s : State) (t : Nat) : State :=
  let cause := rowCause (s.rowAt t)
  if s.canIssue t ∧ cause ≠ 0 then
    ({ s with eng := { s.eng with lastIssued := t } } : State).threadFault t cause 33
  else s

/-- JMP. -/
def rowJmp (s : State) (t : Nat) : State := s.issue t 0x02 fun r s => s.endRowAt t r.tgt

/-- CALL (R88). -/
def rowCall (s : State) (t : Nat) : State :=
  s.issue t 0x03 fun r s =>
    let x := s.th t
    if x.stack.length < 4 then (s.setTh t { x with stack := (x.pc + 1) :: x.stack }).endRowAt t r.tgt
    else s.threadFault t 5 33

/-- RET (R88). -/
def rowRet (s : State) (t : Nat) : State :=
  s.issue t 0x04 fun _ s =>
    let x := s.th t
    match x.stack with
    | pc :: rest => (s.setTh t { x with stack := rest }).endRowAt t pc
    | [] => s.threadFault t 6 33

/-- DBNZ: of the flags, only Z is set (R86). -/
def rowDbnz (s : State) (t : Nat) : State :=
  s.issue t 0x05 fun r s =>
    let x := s.th t
    let v := x.reg (regOf r.a) - 1
    let s := (s.setW t (regOf r.a) v).setFlags t { x.flags with z := v == 0 }
    if v = 0 then s.endRow t else s.endRowAt t r.tgt

/-- HALT: the PC advances, the thread halts. -/
def rowHalt (s : State) (t : Nat) : State :=
  s.issue t 0x06 fun _ s =>
    s.setTh t { s.th t with pc := (s.th t).pc + 1, st := .halted, haltReq := false, step := false }

/-- START (R97). -/
def rowStart (s : State) (t : Nat) : State :=
  s.issue t 0x07 fun r s =>
    match s.threadArg t r.a with
    | none => s.outOfRange t
    | some u =>
      if (s.th u).startable then ((s.setTh u ((s.th u).started r.tgt)).setC t false).endRow t
      else (s.setC t true).endRow t

/-- STOP (R97). -/
def rowStop (s : State) (t : Nat) : State :=
  s.issue t 0x08 fun r s =>
    match s.threadArg t r.a with
    | none => s.outOfRange t
    | some u =>
      if u = t then
        let s := s.setC t false
        s.setTh t { s.th t with pc := (s.th t).pc + 1, st := .halted, haltReq := false, step := false }
      else if (s.th u).startable then (s.setC t true).endRow t
      else ((s.setTh u (s.th u).halted).setC t false).endRow t

/-- JMPX: CAUSE 8 beyond row 16,383 (R87). DESIGN CHOICE (log entry 90): the sum does not wrap at 32 bits; R87 does not
say. -/
def rowJmpx (s : State) (t : Nat) : State :=
  s.issue t 0x09 fun r s =>
    let target := r.tgt.toNat + ((s.th t).reg (regOf r.a)).toNat
    if target ≤ 16383 then s.endRowAt t (BitVec.ofNat 14 target) else s.threadFault t 8 33

/-- SEMGET (R98). -/
def rowSemget (s : State) (t : Nat) : State :=
  s.issue t 0x2B fun r s =>
    match s.threadArg t r.a with
    | none => s.outOfRange t
    | some k =>
      if bit (s.rd Reg.PLAN_SEM) k then (s.setC t true).endRow t
      else
        let s := s.orReg Reg.PLAN_SEM (bitAt k)
        let s := { s with eng := { s.eng with semOwner := tset (fun _ => none) s.eng.semOwner k (some t) } }
        (s.setC t false).endRow t

/-- A semaphore becomes free (R98). -/
def State.freeSem (s : State) (k : Nat) : State :=
  let s := s.clrReg Reg.PLAN_SEM (bitAt k)
  { s with eng := { s.eng with semOwner := tset (fun _ => none) s.eng.semOwner k none } }

/-- SEMPUT (R98): only the holder releases. -/
def rowSemput (s : State) (t : Nat) : State :=
  s.issue t 0x2C fun r s =>
    match s.threadArg t r.a with
    | none => s.outOfRange t
    | some k =>
      if bit (s.rd Reg.PLAN_SEM) k ∧ tget (fun _ => none) s.eng.semOwner k = some t then
        ((s.freeSem k).setC t false).endRow t
      else (s.setC t true).endRow t

/-- The event mask that WAIT's A operand selects (R92). -/
def waitMask (x : Thread) (field : Nat) : Word :=
  match modeOf field with
  | .imm => bitAt (immOf field).toNat
  | _ => x.reg (regOf field)

/-- WAIT (R92). -/
def rowWait (s : State) (t : Nat) : State :=
  s.issue t 0x30 fun r s =>
    let mask := waitMask (s.th t) r.a
    let got := s.eventsIn mask
    if got ≠ 0 then s.endWait t got false
    else s.enterWait t (.events mask) ((s.th t).val r.b).toNat

/-- A selected event is present and the wait ends (R92). -/
def waitEventEnd (s : State) (t : Nat) : State :=
  match (s.th t).waiting with
  | some (.events mask) =>
    let got := s.eventsIn mask
    if s.engineRuns ∧ (s.th t).st = .wait ∧ got ≠ 0 then s.endWait t got false else s
  | _ => s

/-- WAITP (R94). -/
def rowWaitp (s : State) (t : Nat) : State :=
  s.issue t 0x31 fun r s =>
    let mask := ((s.th t).val r.a).toNat % 2 ^ 16
    if s.postsIn mask ≠ 0 then s.takePosts t mask
    else s.enterWait t (.posts mask) ((s.th t).val r.b).toNat

/-- A waited post flag is visible; the first waiting thread in the order of R82 consumes it (R94). -/
def waitpEnd (s : State) (t : Nat) : State :=
  match (s.th t).waiting with
  | some (.posts mask) => if s.engineRuns ∧ s.postTaker = some t then s.takePosts t mask else s
  | _ => s

/-- The timeout of a WAIT or WAITP: the B-th AO tick edge after it issued (R93). A selected event or flag that is present
ends the wait instead (log entry 12). -/
def waitTimeout (s : State) (t : Nat) : State :=
  let x := s.th t
  let present := match x.waiting with
    | some (.events m) => s.eventsIn m != 0
    | some (.posts m) => s.postsIn m != 0
    | none => true
  match x.waitDue with
  | some due => if x.st = .wait ∧ due ≤ s.ticks ∧ !present then (s.wakeUp).endWait t 0 true else s
  | none => s

/-- POST (R94). -/
def rowPost (s : State) (t : Nat) : State :=
  s.issue t 0x32 fun r s =>
    (s.orReg Reg.PLAN_POST (BitVec.ofNat 32 (((s.th t).val r.a).toNat % 2 ^ 16))).endRow t

/-- DLY (R95): busy until DLY_END. -/
def rowDly (s : State) (t : Nat) : State :=
  s.issue t 0x33 fun r s =>
    match (s.th t).inRange r.a 1 (2 ^ 32 - 1) with
    | none => s.outOfRange t
    | some _ => s.setBusy t .dly

/-- A DLY delay expires (R95). -/
def dlyEnd (s : State) (t : Nat) : State :=
  if s.engineRuns ∧ (s.th t).st = .run ∧ (s.th t).busy = some .dly then s.endRow t else s

/-- SIGNAL: SIGDATAn, then PLAN_SIGNALn pending (R86). -/
def rowSignal (s : State) (t : Nat) : State :=
  s.issue t 0x34 fun r s =>
    match (s.th t).inRange r.a 0 7 with
    | none => s.outOfRange t
    | some n =>
      let s := s.wr (Reg.PLAN_SIGDATA n) ((s.th t).val r.b)
      (State.noteOutputs s (s.orReg Reg.INTC_PEND1 (bitAt (16 + n)))).endRow t

/-- TCAP (R43): chip time into the plan bank; the registers follow when the row completes. -/
def rowTcap (s : State) (t : Nat) : State :=
  s.issue t 0x35 fun r s =>
    let time := s.chipTime
    let s := { s with eng := { s.eng with planBank := time } }
    s.setBusy t (.result [(regOf r.a, BitVec.ofNat 32 time), (regOf r.a + 1, BitVec.ofNat 32 (time >>> 32))] (s.th t).flags)

/-- LOG (R86, R375). -/
def rowLog (s : State) (t : Nat) : State :=
  s.issue t 0x36 fun r s =>
    let x := s.th t
    (s.almanacAdd 2 t ((x.val r.a).toNat % 2 ^ 16) (x.val r.b).toNat 0 0).endRow t

/-- RAISE (R99): the fault's programmed reaction set, with the thread as origin. -/
def rowRaise (s : State) (t : Nat) : State :=
  s.issue t 0x37 fun r s =>
    match (s.th t).inRange r.a 0 47 with
    | none => s.outOfRange t
    | some k =>
      let s := s.raiseFrom k 0 0 false (some t)
      s.setBusy t (.result [] { (s.th t).flags with c := false })

/-! ## Host thread commands (R100, R101) -/

/-- THCMD HALT: accepted in RUN and WAIT. -/
def thcmdHalt (s : State) (t : Nat) : State := s.setTh t (s.th t).halted

/-- THCMD START: accepted in HALTED and FAULT. -/
def thcmdStart (s : State) (t : Nat) (pc : BitVec 14) : State :=
  if (s.th t).startable then s.setTh t ((s.th t).started pc) else s

/-- THCMD RESUME: accepted in HALTED and FAULT. -/
def thcmdResume (s : State) (t : Nat) : State :=
  if (s.th t).startable then s.setTh t ((s.th t).resumed false) else s

/-- THCMD STEP: accepted in HALTED and FAULT. -/
def thcmdStep (s : State) (t : Nat) : State :=
  if (s.th t).startable then s.setTh t ((s.th t).resumed true) else s

/-- A write of `PLAN.THCMD` (R100); other ACTION values have no effect. -/
def thcmdWrite (s : State) (d : Word) : State :=
  let t := getBits d 0 4
  match getBits d 4 3 with
  | 1 => thcmdHalt s t
  | 2 => thcmdStart s t (BitVec.ofNat 14 (getBits d 16 14))
  | 3 => thcmdResume s t
  | 4 => thcmdStep s t
  | _ => s

/-- A write of `PLAN.THWn_m` acts only while thread n is HALTED or FAULT (R101). -/
def thwWrite (s : State) (n m : Nat) (d : Word) : State :=
  if (s.th n).startable then s.setW n m d else s

/-- `PLAN.STAT.ANYFAULT` (R111). -/
def State.anyFault (s : State) : Bool := (List.range 16).any fun t => (s.th t).st == .fault

/-- The 2-bit code of a thread state (R111). -/
def ThState.code : ThState → Nat
  | .halted => 0
  | .run => 1
  | .wait => 2
  | .fault => 3

/-- `PLAN.THSTATn` (R111). -/
def State.thstat (s : State) (n : Nat) : Word :=
  let x := s.th n
  BitVec.ofNat 32 (x.st.code * 2 ^ 30 + x.pc.toNat * 2 ^ 16 + b2n x.flags.z * 2 ^ 15 + b2n x.flags.n * 2 ^ 14 +
    b2n x.flags.c * 2 ^ 13 + b2n x.flags.v * 2 ^ 12 + x.stack.length * 2 ^ 8 + x.cause * 2 ^ 4)

end Sys2Proof.Machine
end

