-- ==== Sys2Proof/Machine/LinkLine.lean ====
section
/-! DEFINITION. The point-link line (R262–R267): the levels that a bit, a delimiter and a frame put on it, and what a
receiver accepts. A list of levels has one entry for each half bit-time, `true` for high; the idle line is high. -/

namespace Sys2Proof.Machine

/-- Request kinds (R271). -/
def kPoll : Nat := 0x0
def kGrant : Nat := 0x1
def kShed : Nat := 0x3
def kOff : Nat := 0x4
def kRole : Nat := 0x5
def kIdent : Nat := 0x6

/-- The Manchester code of a bit (R262): low then high for a 1, high then low for a 0. -/
def manchester (b : Bool) : List Bool := [!b, b]

/-- The bits of a byte, most significant first (R262). -/
def bitsOfByte (b : Byte) : List Bool := [7, 6, 5, 4, 3, 2, 1, 0].map b.getLsbD

/-- A number sent most significant bit first. -/
def natOfBits (bs : List Bool) : Nat := bs.foldl (fun n b => 2 * n + b2n b) 0

/-- The preamble: bits 1, 0 eight times (R263). -/
def preamble : List Bool := (List.replicate 8 [true, false]).flatten.flatMap manchester

/-- The start and the end delimiter (R263): whole bit-times with no transition inside them. -/
def startDelimiter : List Bool := [true, true, false, false]
def endDelimiter : List Bool := [true, true]

/-- The frame expects a reply. -/
def LinkXact.replies (x : LinkXact) : Bool := x.addr != 127 && x.kind != kShed

/-- The frame comes from the shed set or from Q0 (R264). -/
def LinkXact.urgent (x : LinkXact) : Bool :=
  match x.src with
  | .shed _ => true
  | .desc q _ => q == 0
  | _ => false

/-- The frame belongs to a train (R267): NOREPLY, of the shed set or of Q0. -/
def LinkXact.inTrain (x : LinkXact) : Bool := x.urgent && !x.replies

/-- The bytes of a request frame between SD and ED (R264, R265). -/
def LinkXact.frame (x : LinkXact) : List Byte :=
  let flags := (if x.urgent then 32 else 0) + (if x.tries = 0 then 0 else 16) + (if x.replies then 0 else 8)
  let h := x.addr * 2 ^ 25 + x.kind * 2 ^ 20 + x.epoch * 2 ^ 16 + x.seq * 2 ^ 12 + x.payload.length * 2 ^ 6 + flags
  let body := bytesBE 4 h ++ x.payload
  body ++ bytesBE 2 (crc16 body)

/-- The levels of a frame up to its CRC; a later frame of a train has no preamble (R263, R267). -/
def LinkXact.levels (x : LinkXact) (later : Bool) : List Bool :=
  (if later then [] else preamble) ++ startDelimiter ++ (x.frame.flatMap bitsOfByte).flatMap manchester

/-! ## The port's bias and termination (R261) -/

/-- The internal termination across the line, Ω. -/
def State.termination (s : State) (p : Nat) : Option Nat := if s.fb (Fd.LINK_CTRL_TERM p) then some 120 else none

/-- The bias network, Ω to VANA on PLnP and to ground on PLnN. -/
def State.biasOhms (s : State) (p : Nat) : Option Nat :=
  match s.f (Fd.LINK_CTRL_BIAS p) with
  | 0 => none
  | 1 => some 560
  | _ => some 360

/-! ## Reception (R266) -/

/-- Bits in groups of eight, as bytes. -/
def bytesOfBits (bs : List Bool) : List Byte :=
  (List.range (bs.length / 8)).map fun i => BitVec.ofNat 8 (natOfBits ((bs.drop (8 * i)).take 8))

/-- A receiver accepts the frame (R266): SD seen, no violation, and LEN, the bit count and the CRC in order. -/
def rxAccepted (r : RxFrame) : Bool :=
  let len := natOfBits ((r.bits.drop 20).take 6)
  let bytes := bytesOfBits r.bits
  r.sd && !r.violation && r.bits.length == 48 + 8 * len && decide (len ≤ if r.bits.getD 7 false then 8 else 32) &&
    crc16 (bytes.take (4 + len)) == natBE (bytes.drop (4 + len))

end Sys2Proof.Machine
end

