-- ==== Sys2Proof/Machine/Link.lean ====
section
/-! DEFINITION. Point links (R260–R299): frames, presence, the descriptor queues, the shed set, the scheduler and the
handling of every reply. -/

namespace Sys2Proof.Machine

/-! ## Ports, points and descriptors -/

/-- What a port keeps. -/
def State.lk (s : State) (p : Nat) : LinkPort := tget (fun _ => LinkPort.init) s.links p

/-- What a port keeps, replaced. -/
def State.setLk (s : State) (p : Nat) (x : LinkPort) : State := { s with links := tset (fun _ => LinkPort.init) s.links p x }

/-- What a port keeps, changed. -/
def State.modLk (s : State) (p : Nat) (g : LinkPort → LinkPort) : State := s.setLk p (g (s.lk p))

/-- Global point number (R286). -/
def gpOf (p a : Nat) : Nat := 64 * p + a

/-- The port is enabled and running. -/
def State.linkOn (s : State) (p : Nat) : Bool := s.fb (Fd.LINK_STAT_ON p)

/-- Bit `a` of a pair of mask registers. -/
def State.pairBit (s : State) (reg : Nat → Nat) (a : Nat) : Bool := bit (s.rd (reg (a / 32))) (a % 32)

/-- Bit `a` of a pair of mask registers set. -/
def State.setPairBit (s : State) (reg : Nat → Nat) (a : Nat) : State := s.orReg (reg (a / 32)) (bitAt (a % 32))

/-- Bit `a` of a pair of mask registers cleared. -/
def State.clrPairBit (s : State) (reg : Nat → Nat) (a : Nat) : State := s.clrReg (reg (a / 32)) (bitAt (a % 32))

/-- Addresses set in a pair of mask registers, ascending. -/
def State.pairList (s : State) (reg : Nat → Nat) : List Nat :=
  bitList 32 (s.rd (reg 0)).toNat ++ (bitList 32 (s.rd (reg 1)).toNat).map (· + 32)

/-- Slot of a descriptor (R284). -/
def slotOf (p q d : Nat) : Nat := 0x800 * p + 0x100 * q + 0x10 * d

/-- Address of word `w` of a descriptor (R284). -/
def descAddr (p q d w : Nat) : Nat := 0x160000 + slotOf p q d + 4 * w

/-- A field of a descriptor (R285): word, low bit, width. -/
def descFld (p q d : Nat) (f : Nat × Nat × Nat) : Fld := ⟨descAddr p q d f.1, f.2.1, f.2.2⟩

namespace Ds
abbrev STATUS : Nat × Nat × Nat := (0, 28, 4)
abbrev STATE : Nat × Nat × Nat := (0, 26, 2)
abbrev EXT : Nat × Nat × Nat := (0, 25, 1)
abbrev BCAST : Nat × Nat × Nat := (0, 24, 1)
abbrev ADDR : Nat × Nat × Nat := (0, 18, 6)
abbrev KIND : Nat × Nat × Nat := (0, 14, 4)
abbrev EPOCH : Nat × Nat × Nat := (0, 10, 4)
abbrev LEN : Nat × Nat × Nat := (0, 4, 6)
abbrev RKIND : Nat × Nat × Nat := (3, 12, 4)
abbrev RLEN : Nat × Nat × Nat := (3, 8, 4)
abbrev TRIES : Nat × Nat × Nat := (3, 4, 4)
abbrev RCODE : Nat × Nat × Nat := (3, 0, 4)
end Ds

/-- A descriptor field. -/
def State.ds (s : State) (p q d : Nat) (f : Nat × Nat × Nat) : Nat := s.f (descFld p q d f)

/-- A descriptor field stored. -/
def State.setDs (s : State) (p q d : Nat) (f : Nat × Nat × Nat) (v : Nat) : State := s.setF (descFld p q d f) v

/-- The reply kind that answers a request kind (R271); `none` for SHED. -/
def replyKind (k : Nat) : Option Nat :=
  match k with
  | 0x0 => some 0
  | 0x3 => none
  | 0x6 => some 5
  | 0x8 => some 4
  | 0x9 => some 4
  | 0xB => some 4
  | _ => some 1

/-- Kinds that may be broadcast by a descriptor (R271). -/
def mayBroadcast (k : Nat) : Bool := k == kShed || k == kOff || k == 0x7 || k == 0x9

/-! ## Completion of descriptors (R287, R288) -/

/-- HOSTQ is set (R288). -/
def State.hostQ (s : State) (p : Nat) : State := s.ev (Fd.LINK_EVRAW_HOSTQ p)

/-- A descriptor completes. -/
def State.descDone (s : State) (p q d status : Nat) : State :=
  let s := s.setDs p q d Ds.STATUS status
  let s := s.setDs p q d Ds.STATE (if bit (s.rd (Reg.LINK_CTRL p)) (16 + q) then 0 else 3)
  let s := (s.setF (Fd.LINK_LASTDONE_STATUS p) status).setF (Fd.LINK_LASTDONE_SLOT p) (slotOf p q d)
  let s := if bit (s.rd (Reg.LINK_CTRL p)) (8 + q) then s.ev (Fd.LINK_EVRAW_QDONE p) else s
  if q = 3 ∨ q = 7 then s.hostQ p else s

/-- A transaction's descriptor, if it serves one, completes. -/
def State.xactDone (s : State) (p : Nat) (x : LinkXact) (status : Nat) : State :=
  match x.src with
  | .desc q d => (s.setDs p q d Ds.TRIES (x.tries + 1)).descDone p q d status
  | _ => s

/-- Every READY descriptor of a port that satisfies a condition completes. -/
def State.flushDescs (s : State) (p status : Nat) (c : State → Nat → Nat → Bool) : State :=
  (List.range 8).foldl (fun s q => (List.range 16).foldl (fun s d =>
    if s.ds p q d Ds.STATE = 1 ∧ c s q d then s.descDone p q d status else s) s) s

/-- A latched GRANT that has become due is due no longer (R290). -/
def State.dropDue (s : State) (p a : Nat) : State := s.modLk p fun x => { x with grants := x.grants.filter (· != a) }

/-- SHED or OFF is sent to a point (R289): STOPPING, PEND cleared, its READY GRANTs cancelled. -/
def State.markStopping (s : State) (p a : Nat) : State :=
  let gp := gpOf p a
  let s := ((s.setPt gp Pt.OUTPUT 3).setPt gp Pt.PEND 0).dropDue p a
  s.flushDescs p 9 fun s q d => s.ds p q d Ds.KIND == kGrant && s.ds p q d Ds.ADDR == a && s.ds p q d Ds.BCAST == 0

/-! ## Presence (R274) -/

/-- A point arrives (R274). -/
def State.arrive (s : State) (p a vendor model serial : Nat) : State :=
  let gp := gpOf p a
  let seq := s.pt gp Pt.SEQ
  let s := [0x00, 0x04, 0x08, 0x0C, 0x10, 0x14, 0x18, 0x1C, 0x30, 0x34].foldl (fun s off => s.wr (ptAddr gp off) 0) s
  let s := ((s.setPt gp Pt.PRES 1).setPt gp Pt.GROUP 0xF).setPt gp Pt.SEQ seq
  let s := ((s.setPt gp Pt.VENDOR vendor).setPt gp Pt.MODEL model).setPt gp Pt.SERIAL serial
  let s := s.ledgerLink (.arrive gp) fun s => s.ledgerArrive gp
  (s.setPairBit (Reg.LINK_CHGMASK p) a).ev (Fd.LINK_EVRAW_ARRIVE p)

/-- A point leaves (R274); its record is released (R319). -/
def State.leave (s : State) (p a pres : Nat) : State :=
  let gp := gpOf p a
  let s := ((s.setPt gp Pt.PRES pres).setPt gp Pt.EPOCH 0).setPt gp Pt.ROLE 0
  let s := ((s.setPt gp Pt.OUTPUT 0).setPt gp Pt.PEND 0).dropDue p a
  let s := (s.setPt gp Pt.PGRANT0 0).setPt gp Pt.PGRANT1 0
  let s := s.ledgerLink (.remove gp) fun s => s.ledgerRemove gp
  (s.setPairBit (Reg.LINK_CHGMASK p) a).ev (Fd.LINK_EVRAW_LEAVE p)

/-- A miss of a NEW or PRESENT point; the third in a row makes it ABSENT (R274). -/
def State.missed (s : State) (p a : Nat) : State :=
  let gp := gpOf p a
  if s.ptHere gp then
    let m := s.pt gp Pt.MISS + 1
    let s := s.setPt gp Pt.MISS (min 3 m)
    if 3 ≤ m then s.leave p a 3 else s
  else s

/-! ## Faults (R283, R289, R293, R295) -/

/-- FS30 POINT_FAULT. -/
def State.pointFault (s : State) (p a cause : Nat) : State :=
  let s := (s.setF (Fd.LINK_FAULTSTAT_PCAUSE p) cause).setF (Fd.LINK_FAULTSTAT_PADDR p) a
  s.raise 30 cause (gpOf p a)

/-- FS29 LINK_FAULT, once for each episode. -/
def State.linkFault (s : State) (p cause : Nat) : State :=
  if (s.lk p).episode.contains cause then s
  else
    let s := s.modLk p fun x => { x with episode := cause :: x.episode }
    let s := (s.setF (Fd.LINK_FAULTSTAT_LCAUSE p) cause).ev (Fd.LINK_EVRAW_LFAULT p)
    s.raise 29 cause p

/-- A transaction ended without a valid reply: its part in the NOISE judgement. -/
def State.noteError (s : State) (p a : Nat) : State :=
  let s := s.modLk p fun x =>
    if x.errRun = 0 then { x with errRun := 1, errFirst := a, errMixed := false }
    else { x with errRun := x.errRun + 1, errMixed := x.errMixed || a != x.errFirst }
  let x := s.lk p
  if s.f (Fd.LINK_PTCFG_ERRMAX p) ≤ x.errRun ∧ x.errMixed then s.linkFault p 2 else s

/-- A valid reply ends every run of errors and the episode. -/
def State.noteGood (s : State) (p : Nat) : State :=
  (s.modLk p fun x => { x with errRun := 0, errMixed := false, episode := [], collRun := 0 }).setF (Fd.LINK_STAT_LINELOW p) 0

/-! ## Choosing the next transaction (R291) -/

/-- The bytes at a word-aligned buffer. -/
def State.bufBytes (s : State) (a n : Nat) : List Byte :=
  ((List.range 8).flatMap fun i => bytesBE 4 (s.rd (a + 4 * i)).toNat).take n

/-- An EXT buffer of `n` bytes is legal (R285). -/
def extOk (a n : Nat) : Bool :=
  a % 4 == 0 && ((decide (0x120000 ≤ a) && decide (a + n ≤ 0x128000)) ||
    (decide (Reg.PLAN_SCRATCH 0 ≤ a) && decide (a + n ≤ Reg.PLAN_SCRATCH 64)))

/-- The buffer address of a descriptor. -/
def State.descExt (s : State) (p q d : Nat) : Nat := (s.rd (descAddr p q d 1)).toNat % 2 ^ 24

/-- A descriptor's payload bytes (R285). -/
def State.descPayload (s : State) (p q d : Nat) : List Byte :=
  let n := s.ds p q d Ds.LEN
  if s.ds p q d Ds.EXT = 1 then s.bufBytes (s.descExt p q d) n
  else (bytesBE 4 (s.rd (descAddr p q d 1)).toNat ++ bytesBE 4 (s.rd (descAddr p q d 2)).toNat).take n

/-- The next new request to a point: its SEQ advances (R268). -/
def State.nextSeq (s : State) (gp : Nat) : State × Nat :=
  let s := s.setPt gp Pt.SEQ (s.pt gp Pt.SEQ + 1)
  (s, s.pt gp Pt.SEQ)

/-- The SEQ of a request about to be sent: its own, if it was abandoned before (R270), else a new one. -/
def State.sendSeq (s : State) (p a : Nat) (src : LinkSrc) : State × Nat :=
  match (s.lk p).kept.find? fun k => k.1 == src && k.2.1 == a with
  | some k => (s.modLk p fun x => { x with kept := x.kept.erase k }, k.2.2)
  | none => s.nextSeq (gpOf p a)

/-- A unicast request of the device's own to a point, in its present epoch. -/
def State.unicast (s : State) (p a rank kind : Nat) (src : LinkSrc) (payload : List Byte) : State × LinkXact :=
  let gp := gpOf p a
  let (s, q) := s.sendSeq p a src
  (s, ⟨src, rank, a, kind, s.pt gp Pt.EPOCH, q, payload, 0⟩)

/-- A point is still inside MINOFF, or stopping, so that a GRANT to it is held (R290). -/
def State.grantHeld (s : State) (p gp : Nat) : Bool :=
  let out := s.pt gp Pt.OUTPUT
  out == 3 || (out == 0 &&
    decide ((s.stamp + 2 ^ 32 - s.pt gp Pt.TOFF) % 2 ^ 32 < msTicks (10 * s.f (Fd.LINK_PTCFG_MINOFF p))))

/-- What a READY descriptor does at dequeue (R288): it completes, or becomes a transaction. A GRANT for a point with PEND set
replaces the latch (R290). -/
def State.dequeue (s : State) (p q d rank : Nat) : State × Option LinkXact :=
  let a := s.ds p q d Ds.ADDR
  let gp := gpOf p a
  let kind := s.ds p q d Ds.KIND
  let bc := s.ds p q d Ds.BCAST = 1
  let payload := s.descPayload p q d
  let release := kind == kOff && (payload.headD 0).getLsbD 0
  let stamp := s.ds p q d Ds.EPOCH
  if !bc ∧ kind ≠ kIdent ∧ !s.ptHere gp then (s.descDone p q d 5, none)
  else if !bc ∧ kind ≠ kIdent ∧ kind ≠ kRole ∧ !release ∧ stamp ≠ s.pt gp Pt.EPOCH then
    (((s.incF (Fd.LINK_EPCNT_STALEDROP p)).ev (Fd.LINK_EVRAW_STALE p)).descDone p q d 4, none)
  else if s.ds p q d Ds.EXT = 1 ∧ !extOk (s.descExt p q d) (s.ds p q d Ds.LEN) then (s.descDone p q d 11, none)
  else if !bc ∧ kind = kGrant ∧ (s.grantHeld p gp ∨ s.pt gp Pt.PEND = 1) then
    let s := (s.setPt gp Pt.PGRANT0 (natBE (payload.take 4))).setPt gp Pt.PGRANT1 (natBE ((payload.drop 4).take 2))
    let s := ((s.setPt gp Pt.PEPOCH stamp).setPt gp Pt.PEND 1).dropDue p a
    (s.descDone p q d 7, none)
  else
    let s := s.setDs p q d Ds.STATE 2
    if bc then (s, some ⟨.desc q d, rank, 127, kind, 0, 0, payload, 0⟩)
    else
      let (s, sq) := s.sendSeq p a (.desc q d)
      let e := s.pt gp Pt.EPOCH
      let epoch := if kind = kRole then (if e = 15 then 1 else e + 1) else stamp
      (s, some ⟨.desc q d, rank, a, kind, epoch, sq, payload, 0⟩)

/-- The first READY descriptor of a queue, in fill order. -/
def State.readyIn (s : State) (p q : Nat) : Option Nat :=
  ((List.range 16).map fun i => ((s.lk p).head.getD q 0 + i) % 16).find? fun d => s.ds p q d Ds.STATE == 1

/-- A descriptor's frame expects no reply. -/
def State.descQuiet (s : State) (p q d : Nat) : Bool := s.ds p q d Ds.BCAST == 1 || s.ds p q d Ds.KIND == kShed

/-- Queue work of a rank: the first descriptor that becomes a transaction; with `quiet`, only as long as each expects no
reply. -/
def takeDesc (p q rank : Nat) (quiet : Bool) : Nat → State → State × Option LinkXact
  | 0, s => (s, none)
  | n + 1, s =>
    match s.readyIn p q with
    | none => (s, none)
    | some d =>
      if quiet && !s.descQuiet p q d then (s, none)
      else
        let s := s.modLk p fun x => { x with head := x.head.setIfInBounds q ((d + 1) % 16) }
        match s.dequeue p q d rank with
        | (s, some x) => (s, some x)
        | (s, none) => takeDesc p q rank quiet n s

/-- The payload of a request that is sent again: an EXT buffer is read anew (R270, R285). -/
def State.payloadAgain (s : State) (p : Nat) (x : LinkXact) : List Byte :=
  match x.src with
  | .desc q d => if s.ds p q d Ds.EXT = 1 then s.descPayload p q d else x.payload
  | _ => x.payload

/-- A request waiting to be sent again at a rank. -/
def State.takeAgain (s : State) (p rank : Nat) : State × Option LinkXact :=
  match (s.lk p).again.find? fun x => x.rank == rank with
  | some x => (s.modLk p fun l => { l with again := l.again.erase x }, some { x with payload := s.payloadAgain p x })
  | none => (s, none)

/-- The next SHED of the shed set and of the resends, in ascending address order (R289): its bit clears as the frame starts,
and the set may become empty by it. -/
def State.takeShed (s : State) (p : Nat) : State × Option LinkXact :=
  let fresh := s.pairList (Reg.LINK_SHEDMASK p)
  let again := (s.lk p).resend
  match (List.range 64).find? fun a => fresh.contains a || again.any fun r => r.1 == a with
  | some a =>
    let n := if fresh.contains a then 0 else ((again.find? fun r => r.1 == a).getD (a, 0)).2
    let s := s.modLk p fun x => { x with resend := again.filter fun r => r.1 != a }
    let s := if fresh.contains a then s.clrPairBit (Reg.LINK_SHEDMASK p) a else s
    let s := if fresh = [a] then s.ev (Fd.LINK_EVRAW_SHEDDONE p) else s
    let (s, x) := s.unicast p a 1 kShed (.shed n) []
    (s.markStopping p a, some x)
  | none => (s, none)

/-- The first of a list of addresses taken, as a request of the device's own. -/
def State.takeOwn (s : State) (p rank kind : Nat) (src : LinkSrc) (payload : List Byte) (as : List Nat)
    (rest : LinkPort → List Nat → LinkPort) : State × Option LinkXact :=
  match as with
  | [] => (s, none)
  | a :: more =>
    let s := s.modLk p fun x => rest x more
    let (s, x) := s.unicast p a rank kind src payload
    (s, some x)

/-- The scan cursor's next poll: the first address that is still NEW or PRESENT. -/
def State.takeScan (s : State) (p : Nat) : State × Option LinkXact :=
  match (s.lk p).cursor with
  | some as =>
    let as := as.dropWhile fun a => !s.ptHere (gpOf p a)
    let s := s.modLk p fun x => { x with cursor := some as }
    s.takeOwn p 9 kPoll .scan [] as fun x more => { x with cursor := some more }
  | none => (s, none)

/-- The work of one rank. -/
def State.takeRank (s : State) (p rank : Nat) : State × Option LinkXact :=
  match s.takeAgain p rank with
  | (s, some x) => (s, some x)
  | (s, none) =>
    match rank with
    | 0 => if (s.lk p).releases = 0 then (s, none)
      else (s.modLk p fun x => { x with releases := x.releases - 1 }, some ⟨.release, 0, 127, kOff, 0, 0, [1], 0⟩)
    | 1 => s.takeShed p
    | 2 =>
      match takeDesc p 0 2 false 16 s with
      | (s, some x) => (s, some x)
      | (s, none) => s.takeOwn p 2 kOff .offRelease [1] (s.lk p).offs fun x more => { x with offs := more }
    | 3 =>
      match (s.lk p).verify with
      | [] => (s, none)
      | (a, n) :: more =>
        let s := s.modLk p fun x => { x with verify := more }
        let (s, x) := s.unicast p a 3 kPoll (.verify n) []
        (s, some x)
    | 4 =>
      match (s.lk p).follow with
      | a :: _ => s.takeOwn p 4 (if s.ptHere (gpOf p a) then kPoll else kIdent) .follow [] (s.lk p).follow
          fun x more => { x with follow := more }
      | [] =>
        if (s.lk p).alert then
          (s.modLk p fun x => { x with alert := false }, some ⟨.alertPoll, 4, 127, kPoll, 0, 0, [], 0⟩)
        else (s, none)
    | 5 =>
      match (s.lk p).grants with
      | [] => (s, none)
      | a :: more =>
        let gp := gpOf p a
        let payload := bytesBE 4 (s.pt gp Pt.PGRANT0) ++ bytesBE 2 (s.pt gp Pt.PGRANT1)
        (s.setPt gp Pt.PEND 0).takeOwn p 5 kGrant .grant payload (a :: more) fun x more => { x with grants := more }
    | 6 => takeDesc p 1 6 false 16 s
    | 7 => takeDesc p 2 7 false 16 s
    | 8 => takeDesc p 3 8 false 16 s
    | 9 =>
      match s.takeScan p with
      | (s, some x) => (s, some x)
      | (s, none) => takeDesc p 4 9 false 16 s
    | 10 =>
      match (s.lk p).probe with
      | some a => s.takeOwn p 10 kIdent .probe [] [a] fun x _ => { x with probe := none }
      | none => takeDesc p 5 10 false 16 s
    | 11 => takeDesc p 6 11 false 16 s
    | 12 => takeDesc p 7 12 false 16 s
    | _ => (s, none)

/-- The first work among ranks, in the order given. -/
def takeFrom (p : Nat) : List Nat → State → State × Option LinkXact
  | [], s => (s, none)
  | r :: rs, s =>
    match s.takeRank p r with
    | (s, some x) => (s, some x)
    | (s, none) => takeFrom p rs s

/-- The order of the ranks (R291): the scan cursor goes before ranks 6–8 once they have taken four transactions. -/
def State.rankOrder (s : State) (p : Nat) : List Nat :=
  if 4 ≤ (s.lk p).busyRun ∧ (s.lk p).cursor.isSome then [0, 1, 2, 3, 4, 5, 9, 6, 7, 8, 10, 11, 12]
  else [0, 1, 2, 3, 4, 5, 6, 7, 8, 9, 10, 11, 12]

/-- A transaction is on the line; `later` says that its frame follows another of its train directly. -/
def State.xactBegin (s : State) (p : Nat) (x : LinkXact) (later : Bool) : State :=
  let run := if 6 ≤ x.rank ∧ x.rank ≤ 8 then (s.lk p).busyRun + 1 else if x.rank = 9 then 0 else (s.lk p).busyRun
  let s := s.modLk p fun l => { l with cur := some x, onLine := true, later := later, busyRun := run }
  let s := (s.setF (Fd.LINK_STAT_BUSY p) 1).setFb (Fd.LINK_STAT_TRAIN p) x.inTrain
  if x.kind = kOff ∧ x.rank ≠ 0 then
    if x.addr = 127 then (List.range 64).foldl (fun s a => if s.ptHere (gpOf p a) then s.markStopping p a else s) s
    else s.markStopping p x.addr
  else if x.kind = kShed ∧ x.addr = 127 then
    (List.range 64).foldl (fun s a => if s.ptHere (gpOf p a) then s.markStopping p a else s) s
  else
    match x.src with
    | .desc _ _ => if x.kind = kShed then s.markStopping p x.addr else s
    | _ => s

/-- The LINK clock runs (R33). -/
def State.linkClock (s : State) : Bool := s.power.state == .full

/-- At the end of a gap the port starts the highest-ranked work (R291); while it is being enabled, only the broadcasts of
R276. -/
def State.linkStart (s : State) (p : Nat) : State :=
  if (s.linkOn p ∨ (s.lk p).opening) ∧ s.linkClock ∧ (s.lk p).cur.isNone then
    match takeFrom p (if (s.lk p).opening then [0] else s.rankOrder p) s with
    | (s, some x) => s.xactBegin p x false
    | (s, none) => s
  else s

/-- The frame that follows the present one in its train (R267): the shed set's next, then a NOREPLY descriptor of Q0; a port
that is being disabled sends the shed set only (R276). -/
def State.trainNext (s : State) (p : Nat) : State × Option LinkXact :=
  match s.takeShed p with
  | (s, some x) => (s, some x)
  | (s, none) =>
    if (s.lk p).closing || (s.lk p).again.any fun x => x.rank == 2 then (s, none) else takeDesc p 0 2 true 16 s

/-- What the device puts on a port's line for the frame that it is sending: the ED follows unless its train goes on; nothing
where it sends none and the line is idle. -/
def State.lineLevels (s : State) (p : Nat) : List Bool :=
  match (s.lk p).cur with
  | some x =>
    if (s.lk p).onLine then
      x.levels (s.lk p).later ++ (if x.inTrain && (s.trainNext p).2.isSome then [] else endDelimiter)
    else []
  | none => []

/-! ## Rounds (R292) -/

/-- A round begins. -/
def State.roundBegin (s : State) (p : Nat) : State :=
  let mask := s.pairList (Reg.LINK_SCANMASK p)
  let polls := mask.filter fun a => s.ptHere (gpOf p a)
  let from_ := (s.lk p).probed
  let probe := if s.fb (Fd.LINK_SCAN_DISC p) then
      ((List.range 64).map fun i => (from_ + 1 + i) % 64).find? fun a => mask.contains a && !s.ptHere (gpOf p a)
    else none
  let s := s.modLk p fun x => { x with cursor := some polls, probe := probe, probed := probe.getD x.probed,
                                       roundDue := false, roundFrom := s.halfUs }
  s.setF (Fd.LINK_STAT_ROUND p) 1

/-- The round ends once its cursor has nothing left to poll; a round held due then begins. -/
def State.roundCheck (s : State) (p : Nat) : State :=
  match (s.lk p).cursor with
  | some as =>
    let scanning := ((s.lk p).cur.toList ++ (s.lk p).again).any fun x => x.src == .scan
    if !scanning ∧ as.all (fun a => !s.ptHere (gpOf p a)) then
      let s := s.setF (Fd.LINK_SCANSTAT_LASTDUR p) (min 0xFFFF ((s.halfUs - (s.lk p).roundFrom) / 2))
      let s := (s.ev (Fd.LINK_EVRAW_ROUND p)).setF (Fd.LINK_STAT_ROUND p) 0
      let due := (s.lk p).roundDue
      let s := s.modLk p fun x => { x with cursor := none }
      if due then s.roundBegin p else s
    else s
  | none => s

/-- The scan period elapses (R292); it is an AO wake source. -/
def State.scanRound (s : State) (p : Nat) : State :=
  if s.fb (Fd.LINK_SCAN_SCANEN p) ∧ s.linkOn p ∧ (s.lk p).nextRound ≤ s.ticks then
    let s := s.modLk p fun x => { x with nextRound := s.ticks + s.f (Fd.LINK_SCAN_PERIOD p) }
    let s := s.wakeUp
    if (s.lk p).cursor.isSome then
      ((s.incF (Fd.LINK_SCANSTAT_OVERRUN p)).ev (Fd.LINK_EVRAW_OVERRUN p)).modLk p fun x => { x with roundDue := true }
    else (s.roundBegin p).roundCheck p
  else s

/-! ## Enabling and disabling (R275, R276) -/

/-- An enable begins, once the LINK clock runs: the two broadcasts come first (R276). -/
def State.linkOpen (s : State) (p : Nat) : State :=
  s.modLk p fun x => { LinkPort.init with tail := x.tail, head := x.head, opening := true, releases := 2 }

/-- The broadcasts are sent: records are released, entries cleared, and the port scans (R276, steps 3 and 4). -/
def State.linkEnable (s : State) (p : Nat) : State :=
  let s := (List.range 64).foldl (fun s a => s.ledgerRemove (gpOf p a)) s
  let s := { s with regs := s.regs.filter fun r => !(decide (ptAddr (gpOf p 0) 0 ≤ r.1) && decide (r.1 < ptAddr (gpOf (p + 1) 0) 0)) }
  (s.modLk p fun x => { x with opening := false, nextRound := s.ticks }).setF (Fd.LINK_STAT_ON p) 1

/-- The port has finished closing: descriptors flushed, latches cleared, the line released. -/
def State.linkClosed (s : State) (p : Nat) : State :=
  let s := s.flushDescs p 8 fun _ _ _ => true
  let s := (List.range 64).foldl (fun s a => if s.pt (gpOf p a) Pt.PEND = 1 then s.setPt (gpOf p a) Pt.PEND 0 else s) s
  let s := s.modLk p fun x => { LinkPort.init with tail := x.tail, head := x.head }
  (((s.setF (Fd.LINK_STAT_ON p) 0).setF (Fd.LINK_STAT_BUSY p) 0).setF (Fd.LINK_STAT_ROUND p) 0).setF (Fd.LINK_STAT_TRAIN p) 0

/-- A port that is being disabled goes on while the LINK clock runs (R33): a frame that collided is sent again, then its shed
set as one more train, then it closes. -/
def State.closeOn (s : State) (p : Nat) : State :=
  if (s.lk p).closing ∧ (s.lk p).cur.isNone ∧ s.linkClock then
    match (s.lk p).again with
    | x :: more => (s.modLk p fun l => { l with again := more }).xactBegin p { x with payload := s.payloadAgain p x } false
    | [] =>
      match s.takeShed p with
      | (s, some x) => s.xactBegin p x false
      | (s, none) => s.linkClosed p
  else s

/-- A request waiting to be sent again when its port is disabled: no attempt follows (R276). -/
def State.dropAgain (s : State) (p : Nat) (x : LinkXact) : State :=
  match x.src with
  | .desc q d => (s.setDs p q d Ds.TRIES x.tries).descDone p q d (if x.tries = 0 then 8 else 3)
  | _ => s

/-- A disable begins (R276). -/
def State.linkClosing (s : State) (p : Nat) : State :=
  let s := (s.lk p).again.foldl (fun s x => s.dropAgain p x) s
  (s.modLk p fun x => { x with closing := true, opening := false, again := [], resend := [] }).closeOn p

/-- A change of EN (R275, R276). While a die shut-down holds the ports released, the write is only stored (R16, R338). -/
def State.linkEnWrite (s : State) (p : Nat) (en : Bool) : State :=
  let old := s.fb (Fd.LINK_CTRL_EN p)
  let s := s.setFb (Fd.LINK_CTRL_EN p) en
  if old && !en && (s.linkOn p || (s.lk p).opening) && !s.therm.holding then s.linkClosing p else s

/-- A write of `LINKn.CTRL`: an enable of PL4–PL7 is refused in COMPACT (R275). -/
def State.linkCtrlWrite (s : State) (p : Nat) (d : Word) : State :=
  if getBits d 0 1 = 1 ∧ 4 ≤ p ∧ !s.fb Fd.SYS_CONFIG_CLASS then s.ev (Fd.LINK_EVRAW_REFUSED p)
  else
    let bias := if getBits d 4 2 = 3 then 2 else getBits d 4 2
    let w := putBits (d &&& 0x00FFFF0C) 4 2 bias
    let s := s.wr (Reg.LINK_CTRL p) (putBits w 0 1 (s.f (Fd.LINK_CTRL_EN p)))
    s.linkEnWrite p (getBits d 0 1 == 1)

/-- A port that waits for the LINK clock goes on with its disable or begins its enable. -/
def State.linkAwait (s : State) (p : Nat) : State :=
  if (s.lk p).closing then s.closeOn p
  else if s.fb (Fd.LINK_CTRL_EN p) ∧ !s.linkOn p ∧ !(s.lk p).opening ∧ s.linkClock ∧ !s.therm.holding then s.linkOpen p
  else s

/-- Ports that wait for the LINK clock. -/
def State.linkSettle (s : State) : State := (List.range 8).foldl State.linkAwait s

/-- A block reset of a port (R346): EN written 0, then 1. -/
def State.linkBlockReset (s : State) (p : Nat) : State :=
  if s.fb (Fd.LINK_CTRL_EN p) then (s.linkEnWrite p false).linkEnWrite p true else s

/-! ## Ends of transactions (R269, R288, R289) -/

/-- The transaction on the line is over. -/
def State.xactEnd (s : State) (p : Nat) : State :=
  ((s.modLk p fun x => { x with cur := none, onLine := false, later := false }).setF (Fd.LINK_STAT_BUSY p) 0).setF (Fd.LINK_STAT_TRAIN p) 0

/-- After the end of any transaction: the round and a closing port go on. -/
def State.afterXact (s : State) (p : Nat) : State := (s.roundCheck p).closeOn p

/-- A transaction is not retried: a scan poll or a discovery probe (R269). -/
def LinkXact.single (x : LinkXact) : Bool := x.src == .scan || x.src == .probe

/-- A frame has been sent without a collision (R270). -/
def State.noCollision (s : State) (p : Nat) : State := s.modLk p fun l => { l with collRun := 0 }

/-- An attempt ended without a valid reply (R269): retried at its rank, or ended. -/
def State.attemptFailed (s : State) (p : Nat) (x : LinkXact) : State :=
  let s := (s.xactEnd p).noCollision p
  let gp := gpOf p x.addr
  if !x.single ∧ x.tries < s.f (Fd.LINK_TIMING_RETRY p) ∧ !(s.lk p).closing then
    s.modLk p fun l => { l with again := { x with tries := x.tries + 1 } :: l.again }
  else
    let s := if x.src = .probe ∧ !s.ptHere gp then s else s.noteError p x.addr
    let s := s.xactDone p x 3
    (s.missed p x.addr).afterXact p

/-- No SD arrives by the timeout (R269). -/
def State.replyTimeout (s : State) (p : Nat) : State :=
  match (s.lk p).cur with
  | some x =>
    if x.replies then
      ((s.incF (Fd.LINK_ERRCNT_NOREPLY p)).incPt (gpOf p x.addr) Pt.NOREPLY).attemptFailed p x
    else s
  | none => s

/-- A frame that the port does not accept is discarded and counted (R266); it ends the attempt that awaits a reply (R269). -/
def State.replyInvalid (s : State) (p : Nat) (r : RxFrame) : State :=
  if rxAccepted r || !s.linkOn p then s
  else
    let s := s.incF (Fd.LINK_ERRCNT_CRCERR p)
    match (s.lk p).cur with
    | some x => if x.replies then (s.incPt (gpOf p x.addr) Pt.CRCERR).attemptFailed p x else s
    | none => s

/-- A stale reply is discarded (R282). -/
def State.replyStale (s : State) (p : Nat) (x : LinkXact) : State :=
  let s := (s.incPt (gpOf p x.addr) Pt.STALE).incF (Fd.LINK_EPCNT_STALEREPLY p)
  (s.ev (Fd.LINK_EVRAW_STALE p)).attemptFailed p x

/-- A reply of a kind the request does not expect (R269, R288): not retried. -/
def State.replyUnexpected (s : State) (p : Nat) (x : LinkXact) : State :=
  let s := (s.xactEnd p).noCollision p
  let s := (s.noteError p x.addr).xactDone p x 12
  (s.missed p x.addr).afterXact p

/-- Reply fields of a descriptor (R285). -/
def State.storeReply (s : State) (p : Nat) (x : LinkXact) (rkind : Nat) (payload : List Byte) : State :=
  match x.src with
  | .desc q d =>
    let s := (s.setDs p q d Ds.RKIND rkind).setDs p q d Ds.RLEN payload.length
    if payload.isEmpty then s
    else
      let b := payload ++ List.replicate (8 - payload.length) 0
      (s.wr (descAddr p q d 1) (wordBE (b.take 4))).wr (descAddr p q d 2) (wordBE ((b.drop 4).take 4))
  | _ => s

/-- A reply arrives whose kind and epoch are as they may be: its common effects, then `k`, then the end. -/
def State.replyTaken (s : State) (p : Nat) (x : LinkXact) (k : State → State) : State :=
  let s := ((s.xactEnd p).noteGood p).setPt (gpOf p x.addr) Pt.MISS 0
  (k s).afterXact p

/-- A reply from a point to the transaction on the line: checks of R269 and R282, then `k`. ROLE's reply carries the new
epoch. -/
def State.reply (s : State) (p rkind epoch : Nat) (k : LinkXact → State → State) : State :=
  match (s.lk p).cur with
  | some x =>
    if !x.replies then s
    else
      let want := if x.kind = kRole ∧ rkind = 1 then x.epoch else s.pt (gpOf p x.addr) Pt.EPOCH
      if epoch ≠ want then s.replyStale p x
      else if rkind ≠ 2 ∧ replyKind x.kind ≠ some rkind then s.replyUnexpected p x
      else s.replyTaken p x (k x)
  | none => s

/-- A verification poll's outcome (R289): `confirmed` when the reply shows OUTPUT OFF or STOPPING. -/
def State.verified (s : State) (p a n : Nat) (confirmed : Bool) : State :=
  if confirmed then s
  else if n < s.f (Fd.LINK_TIMING_VERIFY p) then s.modLk p fun x => { x with resend := x.resend ++ [(a, n + 1)] }
  else s.pointFault p a 2

/-- A valid STATUS (R293): `payload` is its 8 bytes. -/
def State.takeStatus (s : State) (p a : Nat) (payload : List Byte) : State :=
  let gp := gpOf p a
  let oldOut := s.pt gp Pt.OUTPUT
  let oldFlt := s.pt gp Pt.FLT
  let b := (payload ++ List.replicate 8 0).take 8
  let s := (s.setPt gp Pt.STATUS0 (natBE (b.take 4))).setPt gp Pt.STATUS1 (natBE (b.drop 4))
  let s := s.setPt gp Pt.TSTATUS s.stamp
  let out := s.pt gp Pt.STATUS0 / 2 ^ 29
  let s := s.setPt gp Pt.OUTPUT out
  let s := if out = 0 ∧ oldOut ≠ 0 then s.setPt gp Pt.TOFF s.stamp else s
  let s := if (s.pt gp Pt.STATUS0).testBit 28 then (s.setPairBit (Reg.LINK_REQMASK p) a).ev (Fd.LINK_EVRAW_REQ p) else s
  let s := if s.pt gp Pt.FLT = 1 ∧ oldFlt = 0 then
      ((s.setPairBit (Reg.LINK_FLTMASK p) a).ev (Fd.LINK_EVRAW_PFAULT p)).pointFault p a 1
    else s
  s.ledgerDraw gp

/-- STATUS_REPLY. -/
def State.statusReply (s : State) (p epoch : Nat) (query : Bool) (payload : List Byte) : State :=
  s.reply p 0 epoch fun x s =>
    let s := s.takeStatus p x.addr payload
    let s := ((s.storeReply p x 0 payload).xactDone p x 1)
    let s := if query then s.hostQ p else s
    match x.src with
    | .verify n => s.verified p x.addr n (s.pt (gpOf p x.addr) Pt.OUTPUT == 0 || s.pt (gpOf p x.addr) Pt.OUTPUT == 3)
    | _ => s

/-- ACK_REPLY (R274): after ROLE the point takes its role and epoch, and a NEW point becomes PRESENT; a latched GRANT that was
due is judged again, by its stamp (R290). -/
def State.ackReply (s : State) (p epoch out : Nat) : State :=
  s.reply p 1 epoch fun x s =>
    let gp := gpOf p x.addr
    let s := if x.kind = kRole then
        let s := if s.pt gp Pt.PRES = 1 then s.setPt gp Pt.PRES 2 else s
        ((s.setPt gp Pt.ROLE (x.payload.headD 0).toNat).setPt gp Pt.EPOCH x.epoch).dropDue p x.addr
      else s
    (s.storeReply p x 1 [BitVec.ofNat 8 (out % 8 * 32)]).xactDone p x 1

/-- NAK_REPLY (R288). -/
def State.nakReply (s : State) (p epoch reason : Nat) : State :=
  s.reply p 2 epoch fun x s =>
    let s := (s.incPt (gpOf p x.addr) Pt.NAK).storeReply p x 2 [BitVec.ofNat 8 reason]
    let s := match x.src with
      | .desc q d => s.setDs p q d Ds.RCODE reason
      | .verify n => s.verified p x.addr n false
      | _ => s
    s.xactDone p x 2

/-- NAK_EPOCH_REPLY (R274, R283). -/
def State.nakEpochReply (s : State) (p epoch : Nat) : State :=
  match (s.lk p).cur with
  | some x =>
    if !x.replies then s
    else
      let a := x.addr
      let gp := gpOf p a
      s.replyTaken p x fun s =>
        let s := (s.storeReply p x 3 []).xactDone p x 6
        if epoch = 0 then
          if s.pt gp Pt.PRES = 2 then (s.leave p a 3).arrive p a 0 0 0 else s
        else (s.pointFault p a 3).modLk p fun l => { l with offs := l.offs ++ [a] }
  | none => s

/-- DATA_REPLY (R288). -/
def State.dataReply (s : State) (p epoch : Nat) (query : Bool) (payload : List Byte) : State :=
  s.reply p 4 epoch fun x s =>
    let s := (s.storeReply p x 4 (payload.take 8)).xactDone p x 1
    if query then s.hostQ p else s

/-- IDENT_R_REPLY (R274): an address that is NONE or ABSENT gains a NEW point. -/
def State.identReply (s : State) (p epoch vendor model serial : Nat) : State :=
  s.reply p 5 epoch fun x s =>
    let gp := gpOf p x.addr
    let s := if s.ptHere gp then s else s.arrive p x.addr vendor model serial
    (s.storeReply p x 5 (packBE [(vendor, 2), (model, 2), (serial, 4)])).xactDone p x 1

/-- The last frame of a train is sent: its points are verified (R289), unless the port is being disabled. -/
def State.trainDone (s : State) (p : Nat) : State :=
  s.modLk p fun l => { l with shedNow := [], verify := if l.closing then l.verify else l.verify ++ l.shedNow }

/-- What the end of a NOREPLY frame does beside its descriptor: a point shed is noted for verification (R289), and the second
broadcast of an enable leads to its next step (R276). -/
def State.quietSent (s : State) (p : Nat) (x : LinkXact) : State :=
  match x.src with
  | .release => if (s.lk p).releases = 0 ∧ (s.lk p).opening then s.ledgerLink (.enable p) fun s => s.linkEnable p else s
  | .shed n => s.modLk p fun l => { l with shedNow := l.shedNow ++ [(x.addr, n)] }
  | .desc 0 _ => if x.kind = kShed ∧ x.addr ≠ 127 then s.modLk p fun l => { l with shedNow := l.shedNow ++ [(x.addr, 0)] } else s
  | _ => s

/-- A frame has been sent. One that awaits a reply, or alert slots, stays the port's transaction; a NOREPLY frame completes
(R288), and its train goes on with the next frame directly or ends (R267). -/
def State.frameSent (s : State) (p : Nat) : State :=
  match (s.lk p).cur with
  | some x =>
    if x.replies ∨ x.src = .alertPoll then s.modLk p fun l => { l with onLine := false, collRun := 0 }
    else
      let s := (((s.xactEnd p).noCollision p).xactDone p x 10).quietSent p x
      if x.inTrain then
        match s.trainNext p with
        | (s, some y) => s.xactBegin p y true
        | (s, none) => (s.trainDone p).afterXact p
      else s.afterXact p
  | none => s

/-! ## Alerts, collisions and a stuck line (R270, R278, R295) -/

/-- An alert: one alert poll is queued. -/
def State.alertSeen (s : State) (p : Nat) : State :=
  if s.fb (Fd.LINK_CTRL_ALERTEN p) then (s.ev (Fd.LINK_EVRAW_ALERT p)).modLk p fun x => { x with alert := true } else s

/-- A low of 10 µs outside a frame (R278): an alert wakes a sleeping device. -/
def State.lineAlert (s : State) (p : Nat) : State :=
  if s.linkOn p ∧ (s.lk p).cur.isNone ∧ s.fb (Fd.LINK_CTRL_ALERTEN p) then (s.alertSeen p).wakeUp else s

/-- The 64 slots are sampled (R278). -/
def State.alertSlots (s : State) (p : Nat) (lo hi : Word) : State :=
  match (s.lk p).cur with
  | some x =>
    if x.src = .alertPoll then
      let s := (s.wr (Reg.LINK_ALERTMASK p 0) lo).wr (Reg.LINK_ALERTMASK p 1) hi
      let as := s.pairList (Reg.LINK_ALERTMASK p)
      let s := if as.isEmpty then s.incF (Fd.LINK_ALERTSTAT_SPURIOUS p) else s
      let s := (s.incF (Fd.LINK_ALERTSTAT_ALERTS p)).modLk p fun l => { l with follow := as }
      ((s.xactEnd p).noCollision p).afterXact p
    else s
  | none => s

/-- A frame that was not sent to its end waits to be sent again; an alert poll is queued again, so that further alerts merge
into it (R278). -/
def State.sendAgain (s : State) (p : Nat) (x : LinkXact) : State :=
  s.modLk p fun l => if x.src = .alertPoll then { l with alert := true } else { l with again := x :: l.again }

/-- Read-back differs from the driven level (R270): the frame is sent again without counting an attempt. -/
def State.collision (s : State) (p : Nat) : State :=
  match (s.lk p).cur with
  | some x =>
    if (s.lk p).onLine then
      let s := ((s.incF (Fd.LINK_FAULTSTAT_COLLIDE p)).xactEnd p).sendAgain p x
      let s := (s.modLk p fun l => { l with collRun := l.collRun + 1 }).alertSeen p
      if 8 ≤ (s.lk p).collRun then (s.modLk p fun l => { l with collRun := 0 }).linkFault p 3 else s
    else s
  | none => s

/-- The line stays low for 200 µs outside any frame (R295). -/
def State.stuck (s : State) (p : Nat) : State :=
  if s.linkOn p ∧ (s.lk p).cur.isNone then (s.setF (Fd.LINK_STAT_LINELOW p) 1).linkFault p 1 else s

/-! ## The shed set and latched grants (R270, R289, R290) -/

/-- An abandoned transaction is back at the head of its queue with its SEQ (R270): a descriptor is READY again, a latched
grant latched again, so that a SHED that now goes first cancels them (R289); a request that has been tried before, or has no
queue, waits ahead of its rank. -/
def State.requeue (s : State) (p : Nat) (x : LinkXact) : State :=
  match x.src, x.tries with
  | .desc q d, 0 =>
    (s.setDs p q d Ds.STATE 1).modLk p fun l => { l with head := l.head.setIfInBounds q d, kept := (x.src, x.addr, x.seq) :: l.kept }
  | .grant, 0 =>
    (s.setPt (gpOf p x.addr) Pt.PEND 1).modLk p fun l => { l with grants := x.addr :: l.grants, kept := (x.src, x.addr, x.seq) :: l.kept }
  | _, _ => s.sendAgain p x

/-- A frame of a lower rank that is being sent is abandoned (R270). -/
def State.abandon (s : State) (p lowest : Nat) : State :=
  match (s.lk p).cur with
  | some x => if lowest ≤ x.rank ∧ (s.lk p).onLine then (s.xactEnd p).requeue p x else s
  | none => s

/-- Addresses added to the shed set (R289). -/
def State.shedSet (s : State) (p m : Nat) (mask : Word) : State :=
  let s := s.orReg (Reg.LINK_SHEDMASK p m) mask
  if mask = 0 then s else s.abandon p 2

/-- MINOFF has passed since TOFF (R290): the latched GRANT is due, or dropped as stale. -/
def State.grantDue (s : State) (p a : Nat) : State :=
  let gp := gpOf p a
  if s.pt gp Pt.PEND = 1 ∧ s.pt gp Pt.OUTPUT = 0 ∧ !s.grantHeld p gp ∧ !(s.lk p).grants.contains a then
    if s.pt gp Pt.PEPOCH = s.pt gp Pt.EPOCH then (s.modLk p fun x => { x with grants := x.grants ++ [a] }).wakeUp
    else (s.setPt gp Pt.PEND 0).incF (Fd.LINK_EPCNT_STALEDROP p)
  else s

/-! ## Queueing a descriptor (R286, R287) -/

/-- The refusal code of R286 for an image with the broadcast bit that will be stored, 0 if it is accepted. -/
def State.pushCode (s : State) (p a : Nat) (w0 w1 : Word) (bc : Bool) : Nat :=
  let kind := getBits w0 14 4
  let len := getBits w0 4 6
  let ext := getBits w0 25 1 = 1
  let q := getBits w0 0 3
  if !s.linkOn p ∨ !s.fb (Fd.LINK_CTRL_EN p) then 2
  else if 0xC ≤ kind ∨ 32 < len ∨ (!ext ∧ 8 < len) ∨ (ext ∧ !extOk (w1.toNat % 2 ^ 24) len) ∨ (bc ∧ !mayBroadcast kind) then 4
  else if !bc ∧ kind ≠ kIdent ∧ !s.ptHere (gpOf p a) then 3
  else if s.ds p q ((s.lk p).tail.getD q 0) Ds.STATE ≠ 0 then 1
  else 0

/-- A push of an image for a point (R286): answers the slot, or 0x8000_0000 + code. -/
def State.push (s : State) (p a : Nat) (w0 w1 w2 w3 : Word) (bc : Bool) : State × Word :=
  match s.pushCode p a w0 w1 bc with
  | 0 =>
    let q := getBits w0 0 3
    let d := (s.lk p).tail.getD q 0
    let w := putBits (w0 &&& 0x0203C3F7) 24 1 (b2n bc)
    let w := putBits (putBits (putBits w 18 6 a) 10 4 (s.pt (gpOf p a) Pt.EPOCH)) 26 2 1
    let s := (s.wr (descAddr p q d 0) w).wr (descAddr p q d 1) w1
    let s := (s.wr (descAddr p q d 2) w2).wr (descAddr p q d 3) (w3 &&& 0xFFFF0000)
    let s := s.modLk p fun x => { x with tail := x.tail.setIfInBounds q ((d + 1) % 16) }
    let s := if q = 0 then s.abandon p 3 else s
    (s, BitVec.ofNat 32 (slotOf p q d))
  | c => (s, BitVec.ofNat 32 (0x80000000 + c))

/-- A write of `LINKn.HOSTPUSH` (R286). -/
def State.hostPush (s : State) (p : Nat) (d : Word) : State :=
  let img (i : Nat) : Word := s.rd (Reg.LINK_HOSTDESC p i)
  let (s, r) := s.push p (getBits d 0 6) (img 0) (img 1) (img 2) (img 3) (getBits d 7 1 == 1)
  s.wr (Reg.LINK_HOSTRES p) (r &&& 0x80003FFF)

/-- A write of a descriptor word (R287): it changes the enqueuer's fields, and only while STATE is FREE or DONE; STATE
itself can only be written FREE. -/
def State.descWrite (s : State) (p q d w : Nat) (v : Word) : State :=
  let st := s.ds p q d Ds.STATE
  if st = 0 ∨ st = 3 then
    match w with
    | 0 =>
      let old := s.rd (descAddr p q d 0)
      let keep := old &&& 0xF0FC3C00
      let st' := if getBits v 26 2 = 0 then 0 else st
      s.wr (descAddr p q d 0) (putBits ((keep &&& 0xF3FFFFFF) ||| (v &&& 0x0303C3F7)) 26 2 st')
    | 3 => s.wr (descAddr p q d 3) ((v &&& 0xFFFF0000) ||| (s.rd (descAddr p q d 3) &&& 0x0000FFFF))
    | _ => s.wr (descAddr p q d w) v
  else s

/-! ## Register views (R299) -/

/-- Addresses NEW or PRESENT among 32, as a mask. -/
def State.presMask (s : State) (p m : Nat) : Nat :=
  (List.range 32).foldl (fun acc i => if s.ptHere (gpOf p (32 * m + i)) then acc + 2 ^ i else acc) 0

/-- `LINKn.STAT` with its computed fields. -/
def State.linkStat (s : State) (p : Nat) : Word :=
  let n := popCount 32 (s.presMask p 0) + popCount 32 (s.presMask p 1)
  let qne := (List.range 8).foldl (fun acc q =>
    if (List.range 16).any fun d => s.ds p q d Ds.STATE == 1 then acc + 2 ^ q else acc) 0
  putBits (putBits (s.rd (Reg.LINK_STAT p)) 16 7 n) 8 8 qne

/-- `LINKn.QCNT0` or `QCNT1`. -/
def State.linkQcnt (s : State) (p h : Nat) : Word :=
  (List.range 4).foldl (fun acc i =>
    putBits acc (8 * i) 8 ((List.range 16).filter fun d => s.ds p (4 * h + i) d Ds.STATE != 0).length) 0

end Sys2Proof.Machine
end

