-- ==== Sys2Proof/Machine/Ledger.lean ====
section
/-! DEFINITION. The ledger's operations (R310–R319), its queue (R18) and its timers. -/

namespace Sys2Proof.Machine

/-- What an operation answers: W7, W6 where it writes it, and the carry (R310–R316). -/
structure LedgerRes where
  w7 : Word
  w6 : Option Word
  c  : Bool
  deriving DecidableEq, Repr

/-- A refusal's W7 (R310). -/
def ledgerRefusal (code : Nat) : LedgerRes := ⟨BitVec.ofNat 32 (0x80000000 + code), none, true⟩

/-- The code of R310 that refuses LRES, 0 if it is accepted. -/
def State.lresCode (s : State) (gp mw : Nat) : Nat :=
  let g := s.pt gp Pt.GROUP
  let prio := s.pt gp Pt.PRIO
  let loop := s.groupLoop g
  if s.f Fd.LEDGER_CTRL_EN = 0 then 1
  else if mw = 0 ∨ 65535 < mw ∨ 512 ≤ gp ∨ (256 ≤ gp ∧ !s.fb Fd.SYS_CONFIG_CLASS) then 2
  else if s.pt gp Pt.PRES ≠ 2 then 3
  else if s.pt gp Pt.LSTATE = 1 ∨ s.pt gp Pt.LSTATE = 2 then 4
  else if 14 ≤ g ∨ s.f (Fd.SEQ_SLOTSTAT_STATE (18 + g)) ≠ 2 then 5
  else if prio < s.effPrio then 6
  else if s.headroom < (mw : Int) then 7
  else if loop < 4 ∧ s.loopCap loop < s.loopCommit loop + mw then 8
  else if s.fb Fd.LEDGER_CTRL_ECHECK ∧ s.emargin < ((mw * s.tstop prio / 1000 + s.pt gp Pt.EXTRAMJ : Nat) : Int) then 9
  else 0

/-- LRES (R306, R310, R314). -/
def State.lres (s : State) (gp mw : Nat) : State × LedgerRes :=
  match s.lresCode gp mw with
  | 0 =>
    let g := s.pt gp Pt.GROUP
    let s := (((s.setPt gp Pt.BLOOP (s.groupLoop g)).setPt gp Pt.BGROUP g).setPt gp Pt.BPRIO (s.pt gp Pt.PRIO))
    let s := ((s.setPt gp Pt.ODRAW 0).setPt gp Pt.ODCNT 0).setPt gp Pt.RESMW mw
    let s := (s.setPt gp Pt.LSTATE 1).setResDue gp (some (s.ticks + msTicks (s.f Fd.LEDGER_RESTO_MS)))
    (s, ⟨BitVec.ofInt 32 s.headroom, none, false⟩)
  | c => (s, ledgerRefusal c)

/-- A Forecast of `mw` to a loop, with its hold (R312). -/
def State.forecast (s : State) (n mw : Nat) : State :=
  let s := s.setF (Fd.LEDGER_LOOP_FCMW_MW n) (satAdd (s.f (Fd.LEDGER_LOOP_FCMW_MW n)) mw)
  (s.setLoop n { s.loop n with fcDue := s.halfUs + 2 * s.f Fd.LEDGER_PREARM_HOLD_US }).forecastIn n mw

/-- LCOM (R311, R312): PEAKMW restarts with the commitment. -/
def State.lcom (s : State) (gp b : Nat) : State × LedgerRes :=
  if s.pt gp Pt.LSTATE = 1 ∧ gp < 512 then
    let mw := s.pt gp Pt.RESMW
    let s := ((s.setPt gp Pt.LSTATE 2).setPt gp Pt.TSTAMP s.stamp).setResDue gp none
    let s := s.setPt gp Pt.PEAKMW 0
    let s := if b < 4 then s.forecast b mw else s
    (s, ⟨BitVec.ofNat 32 s.commitTotal, none, false⟩)
  else (s, ledgerRefusal 10)

/-- LREL (R313). -/
def State.lrel (s : State) (gp : Nat) : State × LedgerRes :=
  if s.pt gp Pt.LSTATE = 0 ∨ 512 ≤ gp then (s, ledgerRefusal 10)
  else
    let (s, mw) := s.releaseRecord gp
    (s, ⟨BitVec.ofNat 32 mw, none, false⟩)

/-- The COMMITTED points that a shed-scan examines, in its order (R315). -/
def State.shedOrder (s : State) (maxPrio : Nat) : List Nat :=
  let mask := s.rd Reg.LEDGER_SHEDLOOP
  (List.range (maxPrio + 1)).flatMap fun prio =>
    (s.records.filter fun r => recState r.2 == 2 && getBits r.2 23 3 == prio && bit mask (getBits r.2 26 3)).map (·.1)

/-- One point shed (R315). -/
def State.shedPoint (s : State) (gp : Nat) : State :=
  let s := (s.setPt gp Pt.LASTMW (s.pt gp Pt.RESMW)).setPt gp Pt.RESMW 0
  let s := (s.setPt gp Pt.LSTATE 3).setPt gp Pt.TSTAMP s.stamp
  s.shedSet (gp / 64) (gp % 64 / 32) (bitAt (gp % 32))

/-- Points shed in order until the freed power reaches the need; answers the mW and the number freed. -/
def shedUntil (need : Int) : List Nat → State → Nat → Nat → State × Nat × Nat
  | [], s, freed, n => (s, freed, n)
  | gp :: gps, s, freed, n =>
    if need ≤ (freed : Int) then (s, freed, n)
    else shedUntil need gps (s.shedPoint gp) (freed + s.pt gp Pt.RESMW) (n + 1)

/-- LSHED (R315). FS31's DETAIL holds up to 511 points: what 512 leave there is a free value. -/
def State.lshed (s : State) (need : Int) (prio : Nat) : State × LedgerRes :=
  let (s, freed, n) := shedUntil need (s.shedOrder prio) s 0 0
  let s := if n = 0 then s
    else
      let s := (s.setF Fd.LEDGER_SHEDMW_MW freed).setF Fd.LEDGER_SHEDCNT_POINTS n
      ((s.incF Fd.LEDGER_SHEDCNT_SCANS).ev Fd.LEDGER_EVRAW_SHED).raise 31 0 (if n < 512 then n else Config.outOfRange (Reg.FAULT_HISTW2 0) 0 n)
  (s, ⟨BitVec.ofNat 32 freed, some (BitVec.ofNat 32 n), decide ((freed : Int) < need)⟩)

/-- An operation carried out on the values of the moment it is taken up (R18, R301; log entry 27). -/
def State.ledgerRun (s : State) (op : LedgerOp) : State × LedgerRes :=
  let (s, r) := match op with
    | .lres gp mw => s.lres gp mw
    | .lcom gp loop => s.lcom gp loop
    | .lrel gp => s.lrel gp
    | .lshed need prio => s.lshed need prio
    | .outside =>
      (s, ⟨s.rd Reg.LEDGER_HOSTRES, some (BitVec.ofNat 32 (s.f Fd.LEDGER_HOSTRESX_COUNT)), true⟩)
    | .arrive gp => (s.ledgerArrive gp, ⟨0, none, false⟩)
    | .remove gp => (s.ledgerRemove gp, ⟨0, none, false⟩)
    | .enable p => (s.linkEnable p, ⟨0, none, false⟩)
  (s.ledgerJudge, r)

/-- The ledger taken or left (R324: STAT.BUSY). -/
def State.setLedgerBusy (s : State) (b : Option LedgerBy) : State :=
  ({ s with eng := { s.eng with ledgerBusy := b } } : State).setFb Fd.LEDGER_STAT_BUSY b.isSome

/-- An operation taken up: a row's results wait for the row to complete, a host's are in place at once (R316), a link event
answers nothing. -/
def State.ledgerTake (s : State) (who : LedgerBy) (op : LedgerOp) : State :=
  let (s, r) := s.ledgerRun op
  match who with
  | .row t =>
    let writes := (match r.w6 with
      | some w => [(6, w)]
      | none => []) ++ [(7, r.w7)]
    let s := s.setLedgerBusy (some who)
    s.setBusy t (.result writes { ((s.th t).flags.zn r.w7) with c := r.c })
  | .host =>
    let s := (s.wr Reg.LEDGER_HOSTRES r.w7).wr Reg.LEDGER_HOSTRESX 0
    let s := (s.setFb Fd.LEDGER_HOSTRESX_C r.c).setF Fd.LEDGER_HOSTRESX_COUNT (r.w6.getD 0).toNat
    s.setF Fd.LEDGER_HOSTRESX_DONE 1
  | .link => s

/-- An operation issued (R18): taken up at once, or queued behind the one that occupies the ledger. -/
def State.ledgerIssue (s : State) (who : LedgerBy) (op : LedgerOp) : State :=
  if s.ledgerFree then s.ledgerTake who op
  else
    let s := { s with eng := { s.eng with ledgerQ := s.eng.ledgerQ ++ [(who, op)] } }
    match who with
    | .row t => s.setBusy t .ledger
    | _ => s

/-- The next waiting operation takes the ledger once it is free (R18). -/
def State.ledgerDequeue (s : State) : State :=
  if s.eng.ledgerBusy.isSome then s
  else
    match s.eng.ledgerQ with
    | (who, op) :: rest => ({ s with eng := { s.eng with ledgerQ := rest } } : State).ledgerTake who op
    | [] => s

/-- A row's operation has completed with the row: the ledger is free (R18). -/
def State.ledgerLeave (s : State) (t : Nat) : State :=
  match s.eng.ledgerBusy with
  | some (.row u) => if u.val = t then s.setLedgerBusy none else s
  | _ => s

/-- The operation that a write of HOSTOP issues (R316); an OP of no operation has no effect. -/
def hostOpOf (op gp b arg : Nat) : Option LedgerOp :=
  match op with
  | 1 => some (.lres gp arg)
  | 2 => some (if b ≤ 4 then .lcom gp b else .outside)
  | 3 => some (.lrel gp)
  | 4 => some (if b ≤ 6 then .lshed arg b else .outside)
  | _ => none

/-- A host's operation (R316): DONE is cleared at the write. -/
def State.hostOp (s : State) (op gp b : Nat) : State :=
  match hostOpOf op gp b (s.rd Reg.LEDGER_HOSTARG).toNat with
  | some o => (s.setF Fd.LEDGER_HOSTRESX_DONE 0).ledgerIssue .host o
  | none => s

/-- A reservation has stood for RESTO (R314). -/
def State.reservationTimeout (s : State) (gp : Nat) : State :=
  match s.resDue gp with
  | some due =>
    if due ≤ s.ticks ∧ s.pt gp Pt.LSTATE = 1 then
      let (s, mw) := s.releaseRecord gp
      (s.ev Fd.LEDGER_EVRAW_RESEXP).almanacBlock 3 3 gp mw
    else s
  | none => s

/-- A Forecast's hold ends (R312). -/
def State.forecastHoldEnd (s : State) (n : Nat) : State :=
  if s.fb (Fd.LOOP_STAT_FCAST n) ∧ (s.loop n).fcDue ≤ s.halfUs then
    ((s.setF (Fd.LEDGER_LOOP_FCMW_MW n) 0).ev Fd.LEDGER_EVRAW_FCEND).forecastOut n
  else s

/-- The ledger rows (R86, R310–R315): REG operands out of range set C and do nothing else. -/
def rowLres (s : State) (t : Fin 16) : State :=
  s.issue t 0x38 fun r s =>
    match (s.th t).inRange r.a 0 511 with
    | none => s.outOfRange t
    | some gp => s.ledgerIssue (.row t) (.lres gp ((s.th t).val r.b).toNat)

/-- LCOM (R311). -/
def rowLcom (s : State) (t : Fin 16) : State :=
  s.issue t 0x39 fun r s =>
    match (s.th t).inRange r.a 0 511, (s.th t).inRange r.b 0 4 with
    | some gp, some b => s.ledgerIssue (.row t) (.lcom gp b)
    | _, _ => s.outOfRange t

/-- LREL (R313). -/
def rowLrel (s : State) (t : Fin 16) : State :=
  s.issue t 0x3A fun r s =>
    match (s.th t).inRange r.a 0 511 with
    | none => s.outOfRange t
    | some gp => s.ledgerIssue (.row t) (.lrel gp)

/-- LSHED (R315). -/
def rowLshed (s : State) (t : Fin 16) : State :=
  s.issue t 0x3B fun r s =>
    match (s.th t).inRange r.b 0 6 with
    | none => s.outOfRange t
    | some b => s.ledgerIssue (.row t) (.lshed ((s.th t).val r.a).toNat b)

/-- A block reset of the ledger (R323), but for its settings. -/
def State.ledgerBlockReset (s : State) : State :=
  let s := (List.range 4).foldl (fun s n => (s.setF (Fd.LEDGER_LOOP_FCMW_MW n) 0).forecastOut n) s
  let s := (s.setF Fd.LEDGER_STAT_OVER 0).setF Fd.LEDGER_STAT_LOVER 0
  s.records.foldl (fun s r =>
    if recState r.2 = 1 then s.setResDue r.1 (some (s.ticks + msTicks (s.f Fd.LEDGER_RESTO_MS))) else s) s

/-- A read of a computed LEDGER register (R324); `none` for a register that is stored. -/
def State.ledgerView (s : State) (a : Nat) : Option Word :=
  let off := a - 0x3000
  let nat (n : Nat) : Option Word := some (BitVec.ofNat 32 n)
  if off = 0x008 then some (putBits (s.rd a) 2 1 (b2n (s.fb Fd.LEDGER_CTRL_AUTOT && s.hot)))
  else if off = 0x040 then nat s.sourceCap
  else if off = 0x044 then nat s.battCap
  else if off = 0x048 then nat s.effCap
  else if off = 0x04C then nat s.commitTotal
  else if off = 0x050 then nat s.resvTotal
  else if off = 0x054 then some (BitVec.ofInt 32 s.headroom)
  else if off = 0x058 then nat s.overBy
  else if off = 0x05C then nat s.reserve
  else if off = 0x060 then some (BitVec.ofInt 32 s.emargin)
  else if off = 0x064 then nat s.measTotal
  else if off = 0x070 then some (putBits (s.rd a) 8 3 s.effPrio)
  else if off = 0x078 then some (putBits (s.rd a) 0 8 s.battFactor)
  else if 0x0C0 ≤ off ∧ off < 0x0E0 then
    if off % 8 = 0 then nat (s.loopCap ((off - 0x0C0) / 8)) else nat (s.loopCommit ((off - 0x0C0) / 8))
  else if 0x100 ≤ off ∧ off < 0x138 then nat (s.groupCommit ((off - 0x100) / 4))
  else none

end Sys2Proof.Machine
end

