-- ==== Sys2Proof/Machine/Intc.lean ====
section
/-! DEFINITION. The interrupt controller (R356–R366): input levels, sensing and pending bits, hold-off groups, the NMI
bits, and its views. -/

namespace Sys2Proof.Machine

/-- `EVSTAT` of LINK `n` presents IS62 (R288). -/
def State.hostqLevel (s : State) : Bool :=
  (List.range 8).any fun n => bit (s.evstat (0x020000 + n * 0x1000)) 11

/-- The level of each interrupt input (R356): sources 0–63 shared, 64–79 processor A's bank, 80–95 processor B's. -/
def State.inputLevel (s : State) (i : Nat) : Bool :=
  if i < 48 then (s.src i).uncleared && s.f (Fd.FAULT_REACT_NOTIFY i) == 1
  else if i = 60 then s.evstat 0xD000 &&& (maskBits Fd.PATH_EVRAW_CHGPHASE.lo 1 ||| maskBits Fd.PATH_EVRAW_CHGDONE.lo 1 |||
    maskBits Fd.PATH_EVRAW_TIMEOUT.lo 1 ||| maskBits Fd.PATH_EVRAW_BATTIN.lo 1 ||| maskBits Fd.PATH_EVRAW_BATTOUT.lo 1) != 0
  else if i = 61 then s.evstat 0xE000 != 0
  else if i = 62 then s.hostqLevel
  else if i = 65 then s.evstat 0x1000 != 0
  else if i = 81 then s.evstat 0x1F000 != 0
  else false

/-- The CFG or PCFG register of a source. -/
def cfgReg (i : Nat) : Nat := if i < 64 then Reg.INTC_CFG i else Reg.INTC_PCFG ((i - 64) / 16) (i % 16)

/-- The pending register of a source, and its bit there. -/
def pendReg (i : Nat) : Nat × Nat :=
  if i < 32 then (Reg.INTC_PEND0, i)
  else if i < 64 then (Reg.INTC_PEND1, i - 32)
  else (Reg.INTC_PPEND ((i - 64) / 16), i % 16)

/-- SENSE of a source (R357). -/
def State.sense (s : State) (i : Nat) : Nat := getBits (s.rd (cfgReg i)) 0 3

/-- A pending bit. -/
def State.pend (s : State) (i : Nat) : Bool := bit (s.rd (pendReg i).1) (pendReg i).2

/-- A pending bit falls from 1 to 0: the open hold-off group of a member shuts (R360). -/
def State.groupFall (s : State) (i : Nat) : State :=
  let c := s.rd (cfgReg i)
  let g := getBits c 8 3
  let n := s.f (Fd.INTC_HOLDOFF_TICKS g)
  if bit c 11 ∧ n ≠ 0 ∧ !s.groupShut g then
    { s with intc := { s.intc with shutAt := tset (fun _ => none) s.intc.shutAt g (some (s.ticks + n)) } }
  else s

/-- A pending bit brought to a value. -/
def State.setIntPend (s : State) (i : Nat) (b : Bool) : State :=
  let (a, j) := pendReg i
  if b then s.orReg a (bitAt j)
  else if s.pend i then (s.clrReg a (bitAt j)).groupFall i
  else s

/-- The controller takes in a source's input (R357, R363): the edges since it was last taken in, a pulse included. -/
def State.takeIn (s : State) (i : Nat) : State :=
  let now := s.inputLevel i
  let was := tget (fun _ => false) s.intc.prev i
  let pulse := s.intc.pulse.contains i
  let s := { s with intc := { s.intc with
    prev := tset (fun _ => false) s.intc.prev i now
    pulse := s.intc.pulse.filter (· != i) } }
  let rise := pulse || (now && !was)
  let fall := pulse || (!now && was)
  if 48 ≤ i ∧ i < 56 then s
  else match s.sense i with
    | 0 => (if pulse then s.setIntPend i (!now) else s).setIntPend i now
    | 1 => (if pulse then s.setIntPend i now else s).setIntPend i (!now)
    | 3 => if fall then s.setIntPend i true else s
    | 4 => if rise || fall then s.setIntPend i true else s
    | _ => if rise then s.setIntPend i true else s

/-- INTC_SOURCE_EDGE (R357): taken in once WAKE runs (R363). -/
def State.intcEdge (s : State) (i : Nat) : State :=
  if s.pagesRun then s.noteOutputs (s.takeIn i) else s

/-- WAKE runs: the NMI edges that came before are taken in (R363). -/
def State.nmiTakeIn (s : State) : State :=
  let t : State := { s with intc := { s.intc with nmi := [] } }
  if s.intc.nmi.isEmpty then s
  else s.noteOutputs (s.intc.nmi.foldl (fun (u : State) k => u.orReg (nmiReg k) (bitAt (k % 32))) t)

/-- A level-mode source of the register `a` follows its input, whatever is written. -/
def State.levelMode (s : State) (i : Nat) : Bool := s.sense i < 2 && !(decide (48 ≤ i) && decide (i < 56))

/-- A write of a PEND register brings its edge-mode bits to `w` (R8, R357). -/
def State.pendWrite (s : State) (first n : Nat) (w : Word) : State :=
  State.noteOutputs s ((List.range n).foldl (fun (t : State) j =>
    let i := first + j
    if t.levelMode i then t else t.setIntPend i (bit w j)) s)

/-- A write of an NMIPEND register (R359). -/
def State.nmiWrite (s : State) (a : Nat) (w : Word) : State := s.noteOutputs (s.wr a w)

/-- A write of an enable register. -/
def State.enWrite (s : State) (a : Nat) (w : Word) : State := s.noteOutputs (s.wr a w)

/-- A write of CFGk or PCFGj (R357, R361): SENSE 5–7 is stored as 2; a change of SENSE clears the pending bit and takes the
present level as the previous one. -/
def State.cfgWrite (s : State) (i : Nat) (d : Word) : State :=
  let old := s.sense i
  let se := if 4 < getBits d 0 3 then 2 else getBits d 0 3
  let w := putBits (d &&& (if i < 64 then 0x00000F17 else 0x00000F07)) 0 3 se
  let t := s.wr (cfgReg i) w
  let t := if se = old then t
    else
      let now := t.inputLevel i
      let t := t.setIntPend i false
      let t := { t with intc := { t.intc with prev := tset (fun _ => false) t.intc.prev i now, pulse := t.intc.pulse.filter (· != i) } }
      if t.levelMode i then t.setIntPend i (if se = 0 then now else !now) else t
  s.noteOutputs t

/-- HOLDOFF_REOPEN (R360): the group's count has expired; an AO wake source. In FALLOW the outputs are held (R363): the
device wakes, and the group opens once WAKE runs. -/
def State.groupReopen (s : State) (g : Nat) : State :=
  match tget (fun _ => none) s.intc.shutAt g with
  | some due =>
    if due ≤ s.ticks then
      if s.pagesRun then
        let t := { s with intc := { s.intc with shutAt := tset (fun _ => none) s.intc.shutAt g none } }
        (s.noteOutputs t).ev Fd.INTC_EVRAW_HOLDEXP
      else s.wakeUp
    else s
  | none => s

/-- WAKE runs: what reached the interrupt controller while it was not clocked is taken in (R363). -/
def State.intcWake (s : State) : State :=
  (List.range 8).foldl (fun (t : State) g => t.groupReopen g) s.nmiTakeIn

/-! ## Views (R362, R366) -/

/-- A word of input levels from source `first` on. -/
def State.rawWord (s : State) (first n : Nat) : Word :=
  BitVec.ofNat 32 ((List.range n).foldl (fun acc j => acc + b2n (s.inputLevel (first + j)) * 2 ^ j) 0)

/-- `INTC.OUT`. -/
def State.outWord (s : State) : Word :=
  BitVec.ofNat 32 (b2n (s.irqOut .A) + 2 * b2n (s.irqOut .B) + 4 * b2n (s.nmiOut .A) + 8 * b2n (s.nmiOut .B))

/-- The shut groups. -/
def State.shutWord (s : State) : Word :=
  BitVec.ofNat 32 ((List.range 8).foldl (fun acc g => acc + b2n (s.groupShut g) * 2 ^ g) 0)

/-- The presented source that R362 puts first. -/
def State.firstPresented (s : State) (p : Proc) : Option Nat :=
  let shared := s.isReady.filter (s.isPresented p)
  let priv := (s.privReady p).filter (s.privPresented p)
  (shared.filter (· < 48) ++ priv.map (· + 64) ++ shared.filter (48 ≤ ·)).head?

/-- `INTC.VEC` of a processor. -/
def State.vecWord (s : State) (p : Proc) : Word :=
  let i := match s.firstPresented p with
    | some k => 2 ^ 31 + k * 2 ^ 16
    | none => 0
  let n := match (s.nmiSources.filter fun k => s.f (Fd.INTC_CFG_TGT k) == procIx p).head? with
    | some k => 2 ^ 15 + k
    | none => 0
  BitVec.ofNat 32 (i + n)

/-- What IRQA# or IRQB# drives (R358, R366): low while asserted, else high, or nothing as an open-drain output. -/
def State.irqDrive (s : State) (p : Proc) : Option Bool :=
  if s.irqOut p then some false else if s.fb Fd.INTC_CTRL_IRQOD then none else some true

/-- What NMIA# or NMIB# drives (R359, R366). -/
def State.nmiDrive (s : State) (p : Proc) : Option Bool :=
  if s.nmiOut p then some false else if s.fb Fd.INTC_CTRL_NMIOD then none else some true

/-! ## Resets (R365) -/

/-- A chip reset: every pending bit is cleared and the groups are open; the registers take their reset values with the
other pages. -/
def State.intcReset (s : State) : State := { s with intc := ⟨[], [], [], []⟩ }

/-- Step 5 of the boot flow is complete: every previous level is taken as low, and the uncleared faults are presented. -/
def State.intcBoot (s : State) : State :=
  let t := { s with intc := { s.intc with prev := [] } }
  let t := (List.range 96).foldl (fun (u : State) i => u.takeIn i) t
  s.noteOutputs ((List.range 48).foldl (fun (u : State) k =>
    if (u.src k).uncleared && u.f (Fd.FAULT_REACT_NOTIFY k) == 2 then u.orReg (nmiReg k) (bitAt (k % 32)) else u) t)

end Sys2Proof.Machine
end

