-- ==== Sys2Proof/Machine/FaultCtl.lean ====
section
/-! DEFINITION. The fault collector's commands and views (R341–R355): the end of a raise, Lull and Squall, clears, the
reaction registers, the history ring and the external fault input. -/

namespace Sys2Proof.Machine

/-- AO ticks of a source's Lull (R347): ⌈LULL × 327.68⌉. -/
def State.lullTicks (s : State) (k : Nat) : Nat := divCeil (s.f (Fd.FAULT_RECOV_LULL k) * 32768) 100

/-- Source `k` enters LULL; its timer starts now (R347). -/
def State.toLull (s : State) (k : Nat) : State :=
  s.setSrc k { s.src k with st := .lull, lullDue := s.ticks + s.lullTicks k, lullNext := false }

/-- FAULT_ENDED (R347): a level source's condition has ended, or the cycle after an event source's raise. A condition
that another block reports as ended (FS4, FS6, FS7, FS44) must have ended there; of FS0, FS1, FS3 and FS14 this command
is itself the end. -/
def State.faultEnded (s : State) (k : Nat) : State :=
  let x := s.src k
  let s := if k = 14 then s.setF Fd.CONV_STAT_SFLT 0 else s
  if !x.live ∨ (x.hw ∧ [4, 6, 7, 44].contains k) then s
  else
    let s := s.setSrc k { x with live := false, hw := false }
    if x.st = .active ∧ s.fb (Fd.FAULT_REACT_AUTO k) then s.toLull k else s

/-- LULL_EXPIRE (R348): a recovery is counted. -/
def State.lullExpire (s : State) (k : Nat) : State :=
  let x := s.src k
  if x.st = .lull ∧ x.lullDue ≤ s.ticks then
    let past : Bool := match x.window with
      | some w => decide (secTicks (s.f (Fd.FAULT_RECOV_WINDOW k)) ≤ s.ticks - w)
      | none => true
    let rcnt := (if past then 0 else x.rcnt) + 1
    let window := if past then some s.ticks else x.window
    let s := s.wakeUp
    if s.f (Fd.FAULT_RECOV_RECMAX k) < rcnt then
      ((s.setSrc k { x with st := .squall, rcnt := rcnt, window := window }).history k histSquall x.cause x.detail none).ev Fd.FAULT_EVRAW_SQUALL
    else
      ((s.setSrc k { x with st := .idle, rcnt := rcnt, window := window }).history k histRecover x.cause x.detail none).ev Fd.FAULT_EVRAW_RECOVER
  else s

/-- A clear request of one source (R349). `host`: the write came from a host. -/
def State.clearSource (s : State) (k : Nat) (host : Bool) : State :=
  let x := s.src k
  if x.st = .idle ∨ x.hw ∨ (x.st = .squall ∧ !host) then s
  else
    let x' := if x.st = .squall then { x with rcnt := 0, window := none } else x
    ((s.setSrc k { x' with st := .idle, live := false, lullNext := false }).history k histClear x.cause x.detail none).ev Fd.FAULT_EVRAW_CLEARED

/-- A write of CLEAR0 or CLEAR1 (R349). -/
def State.clearWrite (s : State) (i : Nat) (d : Word) (host : Bool) : State :=
  (bitList (if i = 0 then 32 else 16) d.toNat).foldl (fun (t : State) j => t.clearSource (32 * i + j) host) s

/-- A write of REACTk (R342, R344, R346, R347). -/
def State.reactWrite (s : State) (k : Nat) (d : Word) : State :=
  let oldN := s.f (Fd.FAULT_REACT_NOTIFY k)
  let noty := if getBits d 0 2 = 3 then 0 else getBits d 0 2
  let rst := if getBits d 2 2 = 3 ∨ (getBits d 2 2 = 1 ∧ (blockOf k 0).isNone) then 0 else getBits d 2 2
  let t := s.wr (Reg.FAULT_REACT k) (putBits (putBits (d &&& 0x7F) 0 2 noty) 2 2 rst)
  let x := t.src k
  let t := if x.uncleared ∧ noty = 2 ∧ oldN ≠ 2 then s.noteOutputs (t.orReg (nmiReg k) (bitAt (k % 32))) else t
  let auto := bit d 6
  let y := if auto then
      (if x.st = .active ∧ !x.live then { x with lullNext := true } else x)
    else
      (if x.st = .lull then { x with st := .active, lullNext := false } else { x with lullNext := false })
  t.setSrc k y

/-- The AO tick edge of R347: sources whose AUTO was written 1 while ended enter LULL. -/
def State.lullEdge (s : State) : State :=
  (List.range 48).foldl (fun (t : State) k => if (t.src k).lullNext then t.toLull k else t) s

/-- A host write of CTRL.HCLR (R351): NUM, NEXT and every entry are 0, TOTAL goes on. -/
def State.historyClear (s : State) : State :=
  let s := (s.setF Fd.FAULT_HISTSTAT_NUM 0).setF Fd.FAULT_HISTSTAT_NEXT 0
  (List.range 16).foldl (fun (t : State) j =>
    (((t.wr (Reg.FAULT_HISTW0 j) 0).wr (Reg.FAULT_HISTW1 j) 0).wr (Reg.FAULT_HISTW2 j) 0).wr (Reg.FAULT_HISTW3 j) 0) s

/-- The external fault input has stood active or inactive for DEGL µs (R354). -/
def State.extFault (s : State) (active : Bool) : State :=
  if s.fb Fd.FAULT_EXTIN_EN then
    if active then (if (s.src 44).hw then s else s.raiseLevel 44 0 (s.f Fd.FAULT_EXTIN_PIN))
    else s.endLevel 44
  else s

/-- A write of EXTIN (R354): EN = 0, or another PIN or POL, ends FS44's condition. -/
def State.extinWrite (s : State) (d : Word) : State :=
  let pin := min 11 (getBits d 24 4)
  let old := s.rd Reg.FAULT_EXTIN
  let w := putBits (putBits (d &&& 0xCF0000FF) 24 4 pin) 0 8 (max 1 (getBits d 0 8))
  let ends := !bit d 31 || (bit old 31 && (bit old 30 != bit w 30 || getBits old 24 4 != pin))
  let s := s.wr Reg.FAULT_EXTIN w
  if ends then s.endLevel 44 else s

/-! ## Views (R355) -/

/-- A word of the sources in a state. -/
def State.faultWord (s : State) (i : Nat) (c : FState → Bool) : Word :=
  BitVec.ofNat 32 (s.faults.foldl (fun acc p => if 32 * i ≤ p.1 ∧ p.1 < 32 * i + 32 ∧ c p.2.st then acc + 2 ^ (p.1 - 32 * i) else acc) 0)

/-- What FAULT# drives: open-drain (R345). -/
def State.faultDrive (s : State) : Option Bool := if s.faultPin then some false else none

/-- `FAULT.STAT`. -/
def State.faultStat (s : State) : Word :=
  let anyOf (f : FState) := b2n (s.faults.any fun p => p.2.st == f)
  BitVec.ofNat 32 (b2n s.faultPin + 2 * anyOf .active + 4 * anyOf .lull + 8 * anyOf .squall)

/-- `FAULT.RCNTi`. -/
def State.rcntWord (s : State) (i : Nat) : Word :=
  BitVec.ofNat 32 ((List.range 4).foldl (fun acc j => acc + (s.src (4 * i + j)).rcnt * 2 ^ (8 * j)) 0)

/-- Power-on (R353): sources at rest; the page's registers are reset with the others. -/
def State.faultsPowerOn (s : State) : State := { s with faults := [] }

end Sys2Proof.Machine
end

