-- ==== Sys2Proof/Machine/Otp.lean ====
section
/-! DEFINITION. One-time-programmable memory (R392–R410): the array and its code, spare rows, locks, the boot reads, the
BOOT shadow, and the controller's commands. -/

namespace Sys2Proof.Machine

/-- The OTP replaced. -/
def State.setOtp (s : State) (o : Otp) : State := { s with otp := o }

/-! ## Words and their code (R392, R393) -/

/-- The 39-bit codeword of a data word (log entry 6). -/
def otpEncode (d : Word) : Nat :=
  if d = 0 then 0
  else if d = BitVec.allOnes 32 then 2 ^ 39 - 1
  else d.toNat + (Config.otpCheck d).toNat * 2 ^ 32

/-- The data of a stored pattern, and whether one bit was corrected; none for an uncorrectable pattern. -/
def otpDecode (p : Nat) : Option (Word × Bool) :=
  if otpEncode (BitVec.ofNat 32 p) = p then some (BitVec.ofNat 32 p, false)
  else ((List.range 39).find? fun i => otpEncode (BitVec.ofNat 32 (p ^^^ 2 ^ i)) == p ^^^ 2 ^ i).map
    fun i => (BitVec.ofNat 32 (p ^^^ 2 ^ i), true)

/-- The entry that serves a row, if one is VALID for it: the highest (R394). -/
def State.redirOf (s : State) (row : Nat) : Option Nat :=
  [7, 6, 5, 4, 3, 2, 1, 0].find? fun e => s.fb (Fd.OTP_REDIR_VALID e) && s.f (Fd.OTP_REDIR_ROW e) == row

/-- The stored pattern of an array word. -/
def Otp.pattern (o : Otp) (w : Nat) : Nat := tget (fun _ => 0) o.words w

/-- The stored pattern of a spare word. -/
def Otp.sparePattern (o : Otp) (i : Nat) : Nat := tget (fun _ => 0) o.spare i

/-- The stored pattern that a raw read of a word shows, through the redirection (R394). -/
def State.otpRaw (s : State) (w : Nat) : Nat :=
  match s.redirOf (w / 8) with
  | some e => s.otp.sparePattern (8 * e + w % 8)
  | none => s.otp.pattern w

/-- What the array holds of a word, through the redirection. -/
def State.otpStored (s : State) (w : Nat) : Option (Word × Bool) :=
  match s.redirOf (w / 8) with
  | some e => otpDecode (s.otp.sparePattern (8 * e + w % 8))
  | none => if w < 192 then some (Config.otpFactory w, false) else otpDecode (s.otp.pattern w)

/-- A word read at normal margin, with what the array showed (R393); none where it is uncorrectable. -/
def State.otpValue (s : State) (o : OtpSense) (w : Nat) : Option (Word × Bool) :=
  if o.uncorr.contains w then none
  else (s.otpStored w).map fun p => (p.1, p.2 || o.corrected.contains w)

/-- A word read: corrections counted, an uncorrectable word counted and raised with its row (R393). -/
def State.otpRead (s : State) (o : OtpSense) (w : Nat) : State × Option Word :=
  match s.otpValue o w with
  | some (d, c) => (if c then s.incF Fd.OTP_ECC_CORR else s, some d)
  | none => (((s.incF Fd.OTP_ECC_UNCORR).ev Fd.OTP_EVRAW_UNCORR).raise 39 0 (w / 8), none)

/-- Words read in turn; an uncorrectable one reads as none. -/
def State.otpReads (s : State) (o : OtpSense) : List Nat → State × List (Option Word)
  | [] => (s, [])
  | w :: ws =>
    let (s, d) := s.otpRead o w
    let (s, ds) := s.otpReads o ws
    (s, d :: ds)

/-! ## Regions, closing words and locks (R396–R398) -/

/-- First word and closing word of a region. -/
def otpRegion (r : Nat) : Nat × Nat :=
  match r with
  | 0 => (0, 127)
  | 1 => (128, 191)
  | 2 => (192, 511)
  | 3 => (512, 1535)
  | 4 => (1536, 1599)
  | 5 => (1600, 1823)
  | _ => (1824, 2047)

/-- The region of a word. -/
def regionOfWord (w : Nat) : Nat :=
  if w < 128 then 0 else if w < 192 then 1 else if w < 512 then 2 else if w < 1536 then 3 else if w < 1600 then 4
  else if w < 1824 then 5 else 6

/-- The words of a region, first to last. -/
def otpWords (r : Nat) : List Nat :=
  let (lo, hi) := otpRegion r
  (List.range (hi + 1 - lo)).map (· + lo)

/-- The CRC-32 of R397 over words, each most significant byte first. -/
def crc32 (ws : List Word) : Word :=
  BitVec.ofNat 32 ((ws.flatMap fun w => bytesBE 4 w.toNat).foldl (crcByteR 0xEDB88320) 0xFFFFFFFF ^^^ 0xFFFFFFFF)

/-- A region's words check: a non-zero closing word equal to the CRC of the others. -/
def closingGood (ws : List Word) : Bool :=
  match ws.getLast? with
  | some c => c != 0 && c == crc32 ws.dropLast
  | none => false

/-- A lock fuse is blown. -/
def Otp.fuse (o : Otp) (r i : Nat) : Bool := tget (fun k => decide (k < 6)) o.fuses (3 * r + i)

/-- Lock fuse `i` of a region blown. -/
def Otp.blow (o : Otp) (r i : Nat) : Otp := { o with fuses := tset (fun k => decide (k < 6)) o.fuses (3 * r + i) true }

/-- A region is locked: two of its three fuses (R398). -/
def Otp.locked (o : Otp) (r : Nat) : Bool := decide (2 ≤ b2n (o.fuse r 0) + b2n (o.fuse r 1) + b2n (o.fuse r 2))

/-- `STAT.LOCKED`. -/
def Otp.lockedMask (o : Otp) : Nat := (List.range 7).foldl (fun m r => if o.locked r then m + 2 ^ r else m) 0

/-! ## Redirection table (R394, R395) -/

/-- Copy `c` of entry `e`. -/
def Otp.copy (o : Otp) (e c : Nat) : Nat := tget (fun _ => 0) o.copies (3 * e + c)

/-- The redirection table read: each bit by majority of the three copies. -/
def State.readRedir (s : State) : State :=
  (List.range 8).foldl (fun s e =>
    let a := s.otp.copy e 0
    let b := s.otp.copy e 1
    let c := s.otp.copy e 2
    let m := (a &&& b) ||| (a &&& c) ||| (b &&& c)
    let s := (s.setF (Fd.OTP_REDIR_VALID e) (m / 256)).setF (Fd.OTP_REDIR_ROW e) m
    s.setFb (Fd.OTP_REDIR_DISAGREE e) (a != b || b != c)) s

/-- Spare row `e` is usable: its entry not VALID, its words blank. -/
def State.spareUsable (s : State) (e : Nat) : Bool :=
  !s.fb (Fd.OTP_REDIR_VALID e) && (List.range 8).all fun i => s.otp.sparePattern (8 * e + i) == 0

/-- OTPROWS brought up to date. -/
def State.countRows (s : State) : State :=
  s.setF Fd.HEALTH_SPARESTAT_OTPROWS (((List.range 8).filter s.spareUsable).length)

/-- `STAT`'s LOCKED and VINOK. -/
def State.otpStat (s : State) : State :=
  (s.setF Fd.OTP_STAT_LOCKED s.otp.lockedMask).setFb Fd.OTP_STAT_VINOK (decide (12000 ≤ s.plant.vin.getD 0))

/-! ## Boot reads and the shadow (R401–R405) -/

/-- The built-in mid-range trims taken, or left (R401). -/
def State.setMidTrim (s : State) (b : Bool) : State := s.setOtp { s.otp with midTrim := b }

/-- Step 3: TRIM and IDENT read; `bad` names the regions whose closing word fails. A region that fails, or holds an
uncorrectable word, leaves the device on its built-in trims. -/
def State.bootTrim (s : State) (o : OtpSense) (bad : List Nat) : State :=
  let s := (s.readRedir.countRows).setMidTrim false
  [0, 1].foldl (fun s r =>
    let (s, ws) := s.otpReads o (otpWords r)
    let read := ws.all Option.isSome
    let s := if bad.contains r ∧ read then s.raise 45 0 0 else s
    if bad.contains r ∨ !read then s.setMidTrim true else s) s

/-- The shadow's word for OTP word `w`. -/
def shadowAddr (w : Nat) : Nat := 0x150000 + 4 * w

/-- The shadow filled from word 192 on. -/
def State.fillShadow (s : State) (ws : List Word) : State :=
  (ws.zip (List.range ws.length)).foldl (fun s p => s.setMemWord (shadowAddr (192 + p.2)) p.1) s

/-- A marginal word recorded (R402). -/
def State.marginal (s : State) (w : Nat) : State :=
  (((s.incF Fd.OTP_MARG_COUNT).setF Fd.OTP_MARG_WORD w).ev Fd.OTP_EVRAW_MARGINAL).raise 38 0 (w / 8)

/-- BOOTSTAT.STATE for the words read (R402). -/
def bootState (ws : List (Option Word)) : Nat :=
  if ws.all (fun d => d == some 0) then 1
  else if ws.any Option.isNone then 3
  else if closingGood (ws.filterMap id) then 0
  else 2

/-- Step 4: the BOOT region read at both margins, judged, and the shadow filled. -/
def State.bootShadow (s : State) (o : OtpSense) : State :=
  let (s, ws) := s.otpReads o (otpWords 2)
  let s := (otpWords 2).foldl (fun s w => if o.marginal.contains w ∧ !o.uncorr.contains w then s.marginal w else s) s
  let st := bootState ws
  let s := (s.setF Fd.OTP_BOOTSTAT_STATE st).setOtp { s.otp with overridden := [] }
  let s := s.setF Fd.OTP_STAT_OVR 0
  let s := s.fillShadow (if st = 0 then ws.map (·.getD 0) else List.replicate 320 0)
  let s := if st = 0 then s else s.setF Fd.SYS_STAT_BOOTBLANK 1
  if st = 2 then s.raise 45 0 0 else s

/-- A word of the shadow, by its OTP word number. -/
def State.shadow (s : State) (w : Nat) : Word := s.memWord (shadowAddr w)

/-- The records of a list of words (R403): pairs of address and value, to the first KIND of 0. -/
def bootRecordsOf : List Word → List (Nat × Word)
  | a :: v :: rest =>
    match getBits a 30 2 with
    | 0 => []
    | 1 => (getBits a 0 24, v) :: bootRecordsOf rest
    | _ => bootRecordsOf rest
  | _ => []

/-- The shadow's records in order. -/
def State.bootRecords (s : State) : List (Nat × Word) := bootRecordsOf ((List.range 318).map fun i => s.shadow (193 + i))

/-- The shadow refuses a write: BOOT locked or write-locked (R405). -/
def State.shadowLocked (s : State) : Bool := s.otp.locked 2 || (s.f Fd.OTP_WLOCK_REGION).testBit 2

/-- A write of shadow word `w` (R405). -/
def State.shadowWrite (s : State) (w : Nat) (d : Word) : State :=
  if s.shadowLocked ∨ w < 192 ∨ 511 < w then s
  else
    let s := s.setMemWord (shadowAddr w) d
    let l := if s.otp.overridden.contains w then s.otp.overridden else w :: s.otp.overridden
    (s.setOtp { s.otp with overridden := l }).setF Fd.OTP_STAT_OVR l.length

/-- A write of `CTRL.OVRCLR` = 1: the shadow as the array gives it. -/
def State.overrideClear (s : State) : State :=
  let d (w : Nat) : Word := ((s.otpStored w).map (·.1)).getD 0
  let s' := s.fillShadow (if s.f Fd.OTP_BOOTSTAT_STATE = 0 then (otpWords 2).map d else List.replicate 320 0)
  (s'.setOtp { s'.otp with overridden := [] }).setF Fd.OTP_STAT_OVR 0

/-! ## Commands (R406–R408) -/

/-- A command completes. `pulses` is given by a PROGRAM that ran; PULSES keeps the last such number (R410). -/
def State.otpEnd (s : State) (by' : Option Proc) (code : Nat) (marg corr : Bool) (pulses : Option Nat) : State :=
  let p := pulses.getD (s.f Fd.OTP_RES_PULSES)
  let s := (s.wr Reg.OTP_RES 0).setF Fd.OTP_RES_DONE 1
  let s := ((s.setFb Fd.OTP_RES_ERR (code != 0)).setF Fd.OTP_RES_CODE code).setFb Fd.OTP_RES_MARG marg
  let s := ((s.setFb Fd.OTP_RES_CORR corr).setF Fd.OTP_RES_PULSES (min 3 p)).ev Fd.OTP_EVRAW_DONE
  match by' with
  | some .A => s.pulse 69
  | some .B => s.pulse 85
  | none => s

/-- A boot-plan load has the controller. -/
def State.otpLoading (s : State) : Bool :=
  match s.eng.load with
  | some l => l.stage == .otpRead || (l.src == .otp && l.stage == .header)
  | none => false

/-- `STAT.BUSY`. -/
def State.otpBusy (s : State) : State := s.setFb Fd.OTP_STAT_BUSY (s.otp.cmd.isSome || s.otpLoading)

/-- A region's words as stored, none where one is uncorrectable. -/
def State.regionWords (s : State) (r : Nat) : Option (List Word) := (otpWords r).mapM fun w => (s.otpStored w).map (·.1)

/-- The code that refuses a command at its start, 0 if it is accepted (R398, R399, R406–R408). -/
def State.otpRefuse (s : State) (op arg key : Nat) (data : Word) : Nat :=
  let rl (r : Nat) : Bool := (s.f Fd.OTP_RLOCK_REGION).testBit r
  let wl (r : Nat) : Bool := (s.f Fd.OTP_WLOCK_REGION).testBit r
  let low := decide (s.plant.vin.getD 0 < 12000)
  if (op = 2 ∨ op = 3 ∨ op = 4) ∧ key ≠ 0xB7 then 11
  else match op with
  | 1 => if rl (regionOfWord arg) then 10 else 0
  | 2 =>
    let r := regionOfWord arg
    if r ≤ 1 ∨ s.otp.locked r ∨ wl r then 3
    else if low then 5
    else if s.otpRaw arg &&& (otpEncode data ^^^ (2 ^ 39 - 1)) ≠ 0 then 4
    else 0
  | 3 =>
    if 6 < arg then 2
    else if s.otp.locked arg ∨ wl arg then 3
    else match s.regionWords arg with
      | none => 7
      | some ws => if closingGood ws then 0 else 8
  | 4 => if 255 < arg then 2 else if low then 5 else if (List.range 8).any s.spareUsable then 0 else 9
  | 5 => if 6 < arg then 2 else if rl arg then 10 else 0
  | _ => 0

/-- What judging a command at its start reads: LOCK reads its region, refused by what it finds or accepted (R393, R399). -/
def State.otpJudge (s : State) (op arg code : Nat) : State :=
  if op = 3 ∧ (code = 0 ∨ code = 7 ∨ code = 8) then (s.otpReads ⟨[], [], [], none, 0, none⟩ (otpWords arg)).1 else s

/-- A write of `OTP.CMD`; `by'` is the bank that learns of the end. -/
def State.otpCmd (s : State) (by' : Option Proc) (d : Word) : State :=
  let op := getBits d 28 4
  if op = 0 ∨ 6 < op then s
  else
    let s := s.setF Fd.OTP_RES_DONE 0
    if s.otp.cmd.isSome ∨ s.otpLoading then s.otpEnd by' 1 false false none
    else
      let arg := getBits d 0 11
      let data := s.rd Reg.OTP_DATA
      let code := s.otpRefuse op arg (getBits d 16 8) data
      let s := s.otpJudge op arg code
      match code with
      | 0 => (s.setOtp { s.otp with cmd := some ⟨op, min 2 (getBits d 26 2), arg, data, by'⟩ }).otpBusy
      | c => (s.when (c == 9) fun s => s.spareGone 4).otpEnd by' c false false none

/-- Bits burned into an array word. -/
def Otp.burn (o : Otp) (w bits : Nat) : Otp := { o with words := tset (fun _ => 0) o.words w (o.pattern w ||| bits) }

/-- Bits burned into a spare word. -/
def Otp.burnSpare (o : Otp) (i bits : Nat) : Otp := { o with spare := tset (fun _ => 0) o.spare i (o.sparePattern i ||| bits) }

/-- Bits burned into a copy of an entry. -/
def Otp.burnCopy (o : Otp) (e c bits : Nat) : Otp :=
  { o with copies := tset (fun _ => 0) o.copies (3 * e + c) (o.copy e c ||| bits) }

/-- A pattern of which an interrupted or failed pulse burned an unspecified part (R409). -/
def State.partly (s : State) (bits : Nat) : Nat := bits &&& s.free

/-- A READ completes. -/
def State.otpReadEnd (s : State) (c : OtpCmd) (o : OtpSense) : State :=
  let corr := ((s.otpValue o c.arg).map (·.2)).getD false
  match s.otpRead o c.arg with
  | (s, none) => s.otpEnd c.by' 7 false false none
  | (s, some d) =>
    let marg := o.marginal.contains c.arg
    let s := if marg ∧ c.margin = 1 then (s.wr Reg.OTP_RDATA (BitVec.ofNat 32 s.free)).nextFree else s.wr Reg.OTP_RDATA d
    s.otpEnd c.by' 0 (marg && c.margin == 2) corr none

/-- A PROGRAM completes (R407). Of a redirected row the pulses reach the row, and the verification reads the spare row
(R394; log entry 68). -/
def State.otpProgramEnd (s : State) (c : OtpCmd) (o : OtpSense) : State :=
  let bits := otpEncode c.data
  if o.lowv.isSome ∨ o.fails.isSome then
    let s := (s.setOtp (s.otp.burn c.arg (s.partly bits))).nextFree
    if o.lowv.isSome then s.otpEnd c.by' 5 false false (some o.pulses) else s.otpEnd c.by' 6 false false (some 3)
  else
    let s := s.setOtp (s.otp.burn c.arg bits)
    if (s.redirOf (c.arg / 8)).isSome ∧ s.otpRaw c.arg ≠ bits then s.otpEnd c.by' 6 false false (some 3)
    else s.otpEnd c.by' 0 false false (some o.pulses)

/-- A LOCK completes (R399): the fuses before a failing one are blown. -/
def State.otpLockEnd (s : State) (c : OtpCmd) (o : OtpSense) : State :=
  let n := o.fails.getD 3
  let s := s.setOtp ((List.range (min 3 n)).foldl (fun t i => t.blow c.arg i) s.otp)
  (s.otpStat).otpEnd c.by' (if n < 3 then 6 else 0) false false none

/-- The programming of REPAIR into spare row `e`: steps 0–7 its words, 8–10 the copies of its entry. -/
def State.repairBurn (s : State) (e row : Nat) (ws : List Word) (steps : Nat) (cut : Bool) : State :=
  let bits (i : Nat) : Nat := if i < 8 then otpEncode ((ws[i]?).getD 0) else 256 + row
  let put (t : Otp) (i b : Nat) : Otp := if i < 8 then t.burnSpare (8 * e + i) b else t.burnCopy e (i - 8) b
  let s := s.setOtp ((List.range (min 11 steps)).foldl (fun t i => put t i (bits i)) s.otp)
  if cut ∧ steps < 11 then (s.setOtp (put s.otp steps (s.partly (bits steps)))).nextFree else s

/-- A REPAIR completes (R408). -/
def State.otpRepairEnd (s : State) (c : OtpCmd) (o : OtpSense) : State :=
  let row := (List.range 8).map (· + 8 * c.arg)
  let (s, ds) := s.otpReads o row
  match (List.range 8).find? s.spareUsable with
  | none => s.otpEnd c.by' 9 false false none
  | some e =>
    if ds.any Option.isNone then s.otpEnd c.by' 7 false false none
    else
      let ws := ds.filterMap id
      match o.lowv, o.fails with
      | some i, _ => ((s.repairBurn e c.arg ws i true).readRedir.countRows).otpEnd c.by' 5 false false none
      | none, some i => ((s.repairBurn e c.arg ws i true).readRedir.countRows).otpEnd c.by' 6 false false none
      | none, none =>
        let s := (s.repairBurn e c.arg ws 11 false).readRedir.countRows
        if row.any o.marginal.contains then (s.raise 38 0 c.arg).otpEnd c.by' 6 false false none
        else ((s.ev Fd.OTP_EVRAW_REPAIRED).spareUsed).otpEnd c.by' 0 false false none

/-- A CHECK completes (R397). -/
def State.otpCheckEnd (s : State) (c : OtpCmd) (o : OtpSense) : State :=
  let (s, ds) := s.otpReads o (otpWords c.arg)
  if ds.any Option.isNone then s.otpEnd c.by' 7 false false none
  else
    let ws := ds.filterMap id
    (s.wr Reg.OTP_RDATA (crc32 ws.dropLast)).otpEnd c.by' (if closingGood ws then 0 else 8) false false none

/-- A command of the array completes. A REAPPLY, whose records act on the whole register space, completes in the command
that calls this with its state after the records. -/
def State.otpComplete (s : State) (o : OtpSense) : State :=
  match s.otp.cmd with
  | none => s
  | some c =>
    let s := (s.setOtp { s.otp with cmd := none }).otpBusy
    match c.op with
    | 1 => s.otpReadEnd c o
    | 2 => s.otpProgramEnd c o
    | 3 => s.otpLockEnd c o
    | 4 => s.otpRepairEnd c o
    | 5 => s.otpCheckEnd c o
    | _ => s.otpEnd c.by' 0 false false none

/-- A reset cuts a command short (R409): what its pulses have burned is unspecified. -/
def State.otpCut (s : State) : State :=
  match s.otp.cmd with
  | none => s
  | some c =>
    let s := s.setOtp { s.otp with cmd := none }
    match c.op with
    | 2 => (s.setOtp (s.otp.burn c.arg (s.partly (otpEncode c.data)))).nextFree
    | 3 => ([0, 1, 2].foldl (fun s i => (if s.free % 2 = 1 then s.setOtp (s.otp.blow c.arg i) else s).nextFree) s)
    | 4 =>
      match (List.range 8).find? s.spareUsable, (List.range 8).mapM (fun i => (s.otpStored (8 * c.arg + i)).map (·.1)) with
      | some e, some ws => (s.repairBurn e c.arg ws (s.free % 12) true).nextFree
      | _, _ => s
    | _ => s

/-- A write of RLOCK or WLOCK: bits are set, never cleared (R398). -/
def State.stickyLock (s : State) (a : Nat) (d : Word) : State := s.orReg a (d &&& 0x7F)

end Sys2Proof.Machine
end

