-- ==== Sys2Proof/Machine/PlanLoad.lean ====
section
/-! DEFINITION. Loading a plan (R20, R103–R109): from the boot plan in OTP, or from an image in external flash. -/

namespace Sys2Proof.Machine

/-- The engine replaced. -/
def State.setEng (s : State) (e : Engine) : State := { s with eng := e }

/-- A load's next stage. -/
def State.setStage (s : State) (l : Load) : State := s.setEng { s.eng with load := some l }

/-- The code of a plan source (R107). -/
def PlanSrc.code : PlanSrc → Nat
  | .otp => 1
  | .planA => 2
  | .planB => 3

/-- The source a code names. -/
def planSrcOf (n : Nat) : Option PlanSrc :=
  match n with
  | 1 => some .otp
  | 2 => some .planA
  | 3 => some .planB
  | _ => none

/-- Every thread halted at its next row boundary. -/
def State.haltAll (s : State) : State := (List.range 16).foldl (fun (t : State) i => t.setTh i (t.th i).halted) s

/-- Step 1 of a load (R107); no effect while one runs. With the flash port off a load from flash ends at once (R383). -/
def State.loadStart (s : State) (src : PlanSrc) : State :=
  if s.eng.load.isSome then s
  else if src ≠ .otp ∧ s.f Fd.FLASH_CTRL_EN = 0 then
    ((s.setF Fd.PLAN_LOADSTAT_SRC src.code).setF Fd.PLAN_LOADSTAT_RESULT 2).flashFail 1
  else
    let l : Load := ⟨src, .halting, s.eng.threads, 0, 0, 0, 0, false, [], false⟩
    let s := ((s.setF Fd.PLAN_STAT_LOADING 1).setF Fd.PLAN_LOADSTAT_BUSY 1).setF Fd.PLAN_LOADSTAT_SRC src.code
    (s.haltAll).setStage l

/-- A write of `PLAN.LOAD`. -/
def State.loadWrite (s : State) (d : Word) : State :=
  match planSrcOf (getBits d 0 2) with
  | some src => s.loadStart src
  | none => s

/-- Discovery that waited for the load to end begins (R457). -/
def State.loadOver (s : State) : State :=
  let s := s.setEng { s.eng with load := none }
  let s := (s.setF Fd.PLAN_STAT_LOADING 0).setF Fd.PLAN_LOADSTAT_BUSY 0
  if s.xflash.discOwed then (s.setX { s.xflash with discOwed := false }).discBegin else s

/-- A row that was under way when a load began has completed before it (R107, step 2), and with it the halt or the single
step that the thread was to end with (R97, R100). -/
def Thread.spent (old : Thread) : Bool :=
  old.st == .run && old.busy.isSome && old.busy != some .dly && (old.haltReq || old.step)

/-- Threads return to their state before the load; a wait or a delay is executed again (R96, R108). -/
def State.restoreThreads (s : State) (saved : List (Nat × Thread)) : State :=
  (List.range 16).foldl (fun (t : State) i =>
    let old := tget (fun _ => Thread.init) saved i
    let x := t.th i
    if (old.st = .run ∨ old.st = .wait) ∧ x.st = .halted ∧ !old.spent then t.setTh i { x with st := .run, haltReq := old.haltReq, step := old.step }
    else if old.st = .run ∧ x.st = .run then t.setTh i { x with haltReq := old.haltReq }
    else t) s

/-- The fault of a failed load (R108). -/
def State.loadFault (s : State) (result : Nat) : State :=
  if result = 2 then s.flashFail 1
  else if (3 ≤ result ∧ result ≤ 8) ∨ result = 10 then s.raise 45 result 0
  else s

/-- A load fails (R108): before step 5 the threads go on; in step 5 the OTP boot plan is loaded; when that fails too, no
plan is left. -/
def State.loadFail (s : State) (l : Load) (result : Nat) : State :=
  let s := s.setF Fd.PLAN_LOADSTAT_RESULT result
  if l.last then
    let s := ((s.setF Fd.SYS_STAT_PLANSRC 0).setF Fd.PLAN_LOADSTAT_ROWS 0).setF Fd.PLAN_STAT_UNSEALED 0
    ((s.setF Fd.PLAN_PLANID_ID 0).setF Fd.PLAN_PLANVER_VERSION 0).loadOver.loadFault result
  else if l.stage = .pass2 then
    ((s.setStage { l with src := .otp, stage := .header, unsealed := false, last := true }).setF Fd.PLAN_LOADSTAT_SRC 1).loadFault result
  else ((s.restoreThreads l.saved).loadOver).loadFault result

/-- Plan memory filled from row 0 on; every row beyond is cleared (R107). -/
def State.fillPlan (s : State) (bytes : List Byte) : State :=
  let rest := s.mem.filter fun c => !(decide (0x100000 ≤ c.1) && decide (c.1 < 0x120000))
  ({ s with mem := rest } : State).setBytes 0x100000 bytes

/-- Step 6: the plan is in use (R20, R107). -/
def State.loadDone (s : State) (l : Load) (planid : Word) : State :=
  let s := s.setEng { s.eng with threads := [], semOwner := [] }
  let s := (s.wr Reg.PLAN_SEM 0).wr Reg.PLAN_POST 0
  let s := (s.wr Reg.PLAN_PLANID planid).wr Reg.PLAN_PLANVER l.version
  let s := ((s.setF Fd.SYS_STAT_PLANSRC l.src.code).setF Fd.PLAN_LOADSTAT_ROWS l.rows).setF Fd.PLAN_LOADSTAT_RESULT 1
  let s := (s.setFb Fd.PLAN_STAT_UNSEALED l.unsealed).setF Fd.PLAN_STAT_PATCHED 0
  (s.loadOver).setTh 0 { Thread.init with st := .run }

/-- LOAD_THREADS_HALTED: every busy row has completed (R107, step 2). -/
def State.loadHalted (s : State) : State :=
  match s.eng.load with
  | some l =>
    if l.stage = .halting ∧ (List.range 16).all (fun t => (s.th t).st == .halted || (s.th t).st == .fault) then
      s.setStage { l with stage := .header }
    else s
  | none => s

/-- The partition of a plan source. -/
def State.imagePart (s : State) (src : PlanSrc) : Option (Nat × Nat × Nat) := s.part (if src = .planA then 1 else 2)

/-- A program or erase under way on the image's chip select is completed before its header is read (R107, R387). -/
def State.imageWaits (s : State) (src : PlanSrc) : Bool :=
  match s.imagePart src with
  | some (cs, _, _) => (s.xflash.busy cs).isSome
  | none => false

/-- Bytes of a flash image from an offset on; `none` when the partition does not exist or the port is off (R383). -/
def State.imageBytes (s : State) (src : PlanSrc) (off n : Nat) : Option (List Byte) :=
  match s.imagePart src with
  | some (cs, base, _) => if s.csPresent cs && s.fb Fd.FLASH_CTRL_EN then some (s.xBytes cs (base + off) n) else none
  | none => none

/-- The header check of R106. -/
def headerGood (h : List Byte) : Bool :=
  recField h 0 4 == 0x594C504C && recField h 4 2 == 1 && recField h 0x3C 4 == crc32c (h.take 0x3C) &&
    decide (1 ≤ recField h 8 4) && decide (recField h 8 4 ≤ 16384)

/-- LOAD_HEADER_READ: `ok` says that the flash delivered it. -/
def State.loadHeader (s : State) (ok : Bool) : State :=
  match s.eng.load with
  | some l =>
    if l.stage = .header ∧ l.src ≠ .otp ∧ !s.imageWaits l.src then
      match s.imageBytes l.src 0 0x40 with
      | some h =>
        if !ok then s.loadFail l 2
        else if headerGood h then
          s.setStage { l with stage := .pass1, rows := recField h 8 4, planid := BitVec.ofNat 32 (recField h 0xC 4),
                              version := BitVec.ofNat 32 (recField h 0x10 4) }
        else s.loadFail l 3
      | none => s.loadFail l 2
    else s
  | none => s

/-- An IMAGE entry: its four words (R105). -/
def imageEntry (ws : List (Option Word)) (k : Nat) : List (Option Word) := (ws.drop (4 * k)).take 4

/-- The result of the IMAGE check (R106): 1 accepted, 6 NOTSEALED, 7 IMAGEINV; and whether the fourth condition was
waived. -/
def imageCheck (locked : Bool) (ws : List (Option Word)) (planid version : Word) (cls rows bcrc : Nat) : Nat × Bool :=
  let whole := ws.mapM id
  if locked && !((whole.map closingGood).getD false) then (7, false)
  else
    let unused := (List.range 15).all fun k => (imageEntry ws k).head? == some (some 0)
    if !locked && unused then (1, true)
    else
      let want := [some planid, some version, some (BitVec.ofNat 32 (cls * 2 ^ 16 + (rows - 1))), some (BitVec.ofNat 32 bcrc)]
      let same (k : Nat) : Bool :=
        let e := (imageEntry ws k).map fun w => w
        let e := e.mapIdx fun i w => if i = 2 then w.map (· &&& 0x00FFFFFF) else w
        e == want && planid != 0 && planid != 0xFFFFFFFF
      if (List.range 15).any same then (1, false) else (6, false)

/-- LOAD_PASS1_DONE (R107, step 4): the body's BCRC, the class, then the IMAGE entries, read from OTP with what the array
showed. -/
def State.loadPass1 (s : State) (ok : Bool) (o : OtpSense) : State :=
  match s.eng.load with
  | some l =>
    if l.stage = .pass1 then
      match s.imageBytes l.src 0 0x40, s.imageBytes l.src 0x40 (8 * l.rows), s.imageBytes l.src (0x40 + 8 * l.rows) 4 with
      | some h, some body, some c =>
        let bcrc := crc32c body
        let cls := recField h 6 1
        if !ok then s.loadFail l 2
        else if bcrc ≠ natBE c then s.loadFail l 4
        else if cls ≠ 0xFF ∧ cls ≠ s.f Fd.SYS_CONFIG_CLASS then s.loadFail l 5
        else
          let (s, ws) := s.otpReads o (otpWords 4)
          match imageCheck (s.otp.locked 4) ws l.planid l.version cls l.rows bcrc with
          | (1, u) => s.setStage { l with stage := .pass2, bcrc := bcrc, unsealed := u }
          | (r, _) => s.loadFail l r
      | _, _, _ => s.loadFail l 2
    else s
  | none => s

/-- LOAD_PASS2_DONE (R107, step 5): the body is streamed into plan memory; `read` says that the flash delivered it, `same`
that the recomputed BCRC equals that of pass 1. -/
def State.loadPass2 (s : State) (read same : Bool) : State :=
  match s.eng.load with
  | some l =>
    if l.stage = .pass2 then
      match s.imageBytes l.src 0x40 (8 * l.rows) with
      | some body =>
        if !read then s.loadFail l 2
        else
          let s := s.fillPlan (planOrder body)
          if same ∧ crc32c body = l.bcrc then s.loadDone l l.planid else s.loadFail l 8
      | none => s.loadFail l 2
    else s
  | none => s
where
  /-- Image bytes in the order of the plan window: each row's lower word first (R70, R104). -/
  planOrder : List Byte → List Byte
    | a :: b :: c :: d :: e :: f :: g :: h :: rest => e :: f :: g :: h :: a :: b :: c :: d :: planOrder rest
    | _ => []

/-- OTP_PLAN_HEADER_READ: word 1534 (R103, R107). -/
def State.otpHeader (s : State) (o : OtpSense) : State :=
  match s.eng.load with
  | some l =>
    if l.stage = .header ∧ l.src = .otp then
      match s.otpRead o 1534 with
      | (s, none) => s.loadFail { l with stage := .header } 11
      | (s, some w) =>
        let rows := getBits w 0 16
        if w = 0 then s.loadFail l 9
        else if rows < 1 ∨ 511 < rows then s.loadFail l 10
        else s.setStage { l with stage := .otpRead, rows := rows, version := BitVec.ofNat 32 (getBits w 16 16) }
    else s
  | none => s

/-- OTP_PLAN_READ_DONE: the whole region has been read into the staging buffer (R103, R107). -/
def State.otpPlanRead (s : State) (o : OtpSense) : State :=
  match s.eng.load with
  | some l =>
    if l.stage = .otpRead then
      let (s, ws) := s.otpReads o (otpWords 3)
      match ws.mapM id with
      | none => s.loadFail l 11
      | some ws => if closingGood ws then s.setStage { l with stage := .otpWrite, staging := ws } else s.loadFail l 10
    else s
  | none => s

/-- OTP_PLAN_WRITE_DONE: the staged rows are in plan memory. -/
def State.otpPlanWritten (s : State) : State :=
  match s.eng.load with
  | some l =>
    if l.stage = .otpWrite then
      (s.fillPlan ((l.staging.take (2 * l.rows)).flatMap fun w => bytesBE 4 w.toNat)).loadDone l 0
    else s
  | none => s

/-- A chip reset of the engine (R80): every thread at its reset values, no semaphore held, nothing outstanding. DESIGN CHOICE
(log entry 89): T15 counts as the thread that issued last, so that T0 comes first; R82 names none. -/
def State.engineReset (s : State) : State :=
  s.setEng { s.eng with threads := [], lastIssued := 15, stores := [], semOwner := [], ledgerBusy := none, ledgerQ := [], load := none }

end Sys2Proof.Machine
end

