-- ==== Sys2Proof/Machine/Timers.lean ====
section
/-! DEFINITION. The timers (R411–R419) and the CRC unit (R420–R424). -/

namespace Sys2Proof.Machine

/-! ## Timers -/

/-- A timer. -/
def State.tm (s : State) (t : Nat) : Timer := tget (fun _ => Timer.init) s.timers t

/-- A timer replaced. -/
def State.setTm (s : State) (t : Nat) (x : Timer) : State := { s with timers := tset (fun _ => Timer.init) s.timers t x }

/-- The source of a timer runs (R411); during the thermal hold every timer stops (R418). -/
def State.sourceRuns (s : State) (t : Nat) : Bool :=
  s.power.ao && !s.seq.hold && s.portUp &&
    (match s.f (Fd.TIMER_TCFG_SRC t) with
      | 1 => s.power.wakeRuns
      | 2 => s.power.state == .full
      | _ => true)

/-- Compare value `x` of a timer. -/
def State.cmpOf (s : State) (t x : Nat) : Nat :=
  if x = 0 then (s.rd (Reg.TIMER_CMP0_HI t)).toNat * 2 ^ 32 + (s.rd (Reg.TIMER_CMP0_LO t)).toNat
  else (s.rd (Reg.TIMER_CMP1_HI t)).toNat * 2 ^ 32 + (s.rd (Reg.TIMER_CMP1_LO t)).toNat

/-- A timer event (R414): its EVRAW bit, and the pulse of IS56 + t where EVEN has the bit. -/
def State.timerEvent (s : State) (t b : Nat) : State :=
  let s := s.orReg Reg.TIMER_EVRAW (bitAt (4 * t + b))
  if bit (s.rd Reg.TIMER_EVEN) (4 * t + b) then s.pulse (56 + t) else s

/-- The compare output after an action (R413): 0 nothing, 1 high, 2 low, 3 toggle. -/
def outAct (act : Nat) (out : Bool) : Bool :=
  match act with
  | 1 => true
  | 2 => false
  | 3 => !out
  | _ => out

/-- A match of a compare channel (R413); a compare of an AO timer wakes the device (R414). -/
def State.timerMatch (s : State) (t x : Nat) : State :=
  let s := s.timerEvent t x
  let act := if x = 0 then s.f (Fd.TIMER_TIO_ACT0 t) else s.f (Fd.TIMER_TIO_ACT1 t)
  let s := if s.fb (Fd.TIMER_TIO_OUTEN t) then s.setTm t { s.tm t with out := outAct act (s.tm t).out } else s
  if s.f (Fd.TIMER_TCFG_SRC t) = 0 then s.wakeUp else s

/-- The prescaler phase after the source edge that makes it reach DIV (R412; log entry 49). -/
def nextPhase (phase div : Nat) : Nat :=
  let edges := max 1 (divCeil (div - phase) 65536)
  phase + 65536 * edges - div

/-- The phase reaches DIV: one increment, with its matches. -/
def State.timerIncrement (s : State) (t : Nat) : State :=
  if s.fb (Fd.TIMER_TCFG_EN t) && s.sourceRuns t then
    let x := s.tm t
    let wrap := s.fb (Fd.TIMER_TCFG_WRAP t) && x.count == s.cmpOf t 0
    let c := if wrap then 0 else (x.count + 1) % 2 ^ 64
    let s := s.setTm t { x with count := c, phase := nextPhase x.phase (s.f (Fd.TIMER_DIV_DIV t)) }
    let s := if s.cmpOf t 0 = c then s.timerMatch t 0 else s
    if s.cmpOf t 1 = c then s.timerMatch t 1 else s
  else s

/-- An edge of the capture ball (R415). -/
def State.timerCapture (s : State) (t : Nat) (rising late : Bool) : State :=
  let e := s.f (Fd.TIMER_TIO_CEDGE t)
  let hit := e == 3 || (rising && e == 1) || (!rising && e == 2)
  if s.fb (Fd.TIMER_TIO_CAPEN t) && hit && s.power.wakeRuns && !s.seq.hold then
    let x := s.tm t
    if x.queue.length < 8 then (s.setTm t { x with queue := x.queue ++ [(x.count, late)] }).timerEvent t 2
    else (s.incF (Fd.TIMER_TSTAT_QOVF t)).timerEvent t 3
  else s

/-- The bank of a writer (R43, R416). -/
def bankIx : Writer → Fin 3
  | .host .A => 0
  | .host .B => 1
  | .row _ => 2
  | .boot => 0

/-- A write of `TMRt.CMD` (R416). -/
def State.timerCmd (s : State) (w : Writer) (t op : Nat) : State :=
  let x := s.tm t
  let bank (v : Nat) (st : Nat) : Vector (Nat × Word) 3 := x.banks.set (bankIx w) (v, BitVec.ofNat 32 st)
  match op with
  | 1 => s.setTm t { x with banks := bank x.count 3 }
  | 2 =>
    match x.queue with
    | (v, late) :: rest => s.setTm t { x with queue := rest, banks := bank v (5 + 8 * b2n late) }
    | [] => s.setTm t { x with banks := bank (x.banks[bankIx w]).1 0 }
  | 3 => s.setTm t { x with count := (s.rd (Reg.TIMER_LOAD_HI t)).toNat * 2 ^ 32 + (s.rd (Reg.TIMER_LOAD_LO t)).toNat, phase := 0 }
  | 4 => s.setTm t { x with queue := [] }
  | _ => s

/-- A write of `TMRt.TIO`: the output is low when OUTEN becomes 1 (R413). -/
def State.tioWrite (s : State) (t : Nat) (w : Word) : State :=
  let rises := !s.fb (Fd.TIMER_TIO_OUTEN t) && bit w 23
  let s := s.wr (Reg.TIMER_TIO t) w
  if rises then s.setTm t { s.tm t with out := false } else s

/-- `TSTAT` as it reads (R419). -/
def State.tstat (s : State) (t : Nat) : Word :=
  let w := putBits (s.rd (Reg.TIMER_TSTAT t)) 4 1 (b2n (!s.sourceRuns t))
  putBits w 0 4 (s.tm t).queue.length

/-! ## CRC unit -/

/-- The CRC unit replaced. -/
def State.setCrc (s : State) (c : CrcUnit) : State := { s with crc := c }

/-- The initial register of an algorithm (R420). -/
def crcInit (poly : Nat) : Nat :=
  match poly with
  | 0 => 0
  | 1 => 0xFFFF
  | _ => 0xFFFFFFFF

/-- One byte fed (R420). -/
def crcFeed (poly r : Nat) (b : Byte) : Nat :=
  match poly with
  | 0 => crcByte 8 0x07 r b
  | 1 => crcByte 16 0x1021 r b
  | 2 => crcByteR 0xEDB88320 r b
  | _ => crcByteR 0x82F63B78 r b

/-- `CRC.RESULT` (R422). -/
def CrcUnit.result (c : CrcUnit) : Word := BitVec.ofNat 32 (if c.poly ≤ 1 then c.value else c.value ^^^ 0xFFFFFFFF)

/-- The ID of a writer in OWNER (R423). -/
def ownerId : Writer → Nat
  | .host .A => 1
  | .host .B => 2
  | .row t => 0x10 + t.val
  | .boot => 0

/-- A write from anyone but the owner (R423). -/
def State.crcForeign (s : State) (w : Writer) : State :=
  let o := s.f Fd.CRC_OWNER_ID
  if o ≠ 0 ∧ o ≠ ownerId w then s.setF Fd.CRC_STAT_FOREIGN 1 else s

/-- An entry put into the queue, or dropped (R421). -/
def State.crcPush (s : State) (e : CrcEntry) : State :=
  if s.crc.queue.length < 8 then s.setCrc { s.crc with queue := s.crc.queue ++ [e] }
  else (s.setF Fd.CRC_STAT_OVF 1).ev Fd.CRC_EVRAW_OVF

/-- A feed of `n` bytes. -/
def State.crcDin (s : State) (w : Writer) (n : Nat) (d : Word) : State := (s.crcForeign w).crcPush (.feed (bytesBE n d.toNat))

/-- A write of `CRC.CTRL` enters the queue as a feed does; one that finds it full is dropped (R421; log entry 50). -/
def State.crcCtrl (s : State) (w : Writer) (d : Word) : State :=
  let s := s.crcForeign w
  let poly := getBits d 0 2
  let sets := bit d 8 || poly != s.f Fd.CRC_CTRL_POLY
  let t := s.crcPush (if sets then .init poly else .feed [])
  if s.crc.queue.length < 8 then t.setF Fd.CRC_CTRL_POLY poly else t

/-- The next entry of the queue is applied. -/
def State.crcApply (s : State) : State :=
  if s.power.wakeRuns then
    match s.crc.queue with
    | [] => s
    | .feed bs :: rest => s.setCrc { s.crc with queue := rest, value := bs.foldl (crcFeed s.crc.poly) s.crc.value }
    | .init p :: rest => s.setCrc ⟨p, crcInit p, rest⟩
  else s

/-- A write of `CRC.OWNER` (R423). -/
def State.crcOwner (s : State) (w : Writer) (d : Word) : State :=
  let id := getBits d 0 8
  let o := s.f Fd.CRC_OWNER_ID
  let host : Bool := match w with
    | .row _ => false
    | _ => true
  if id = 0 then
    if o ≠ 0 ∧ (host ∨ o = ownerId w) then
      (((s.setF Fd.CRC_OWNER_ID 0).ev Fd.CRC_EVRAW_FREE).pulse 68).pulse 84
    else s
  else if id = ownerId w ∧ o = 0 then s.setF Fd.CRC_OWNER_ID id
  else s

/-- `CRC.STAT` as it reads (R424). -/
def State.crcStat (s : State) : Word :=
  let n := s.crc.queue.length
  putBits (putBits (s.rd Reg.CRC_STAT) 4 4 n) 0 1 (b2n (n != 0))

/-- The timer block and the CRC unit after a reset (R418, R423). -/
def State.timersReset (s : State) : State := { s with timers := [], crc := ⟨0, 0, []⟩ }

end Sys2Proof.Machine
end

