-- ==== Sys2Proof/Machine/Bus.lean ====
section
/-! DEFINITION. The register bus: what a read of an address returns and clears (R8, R9, R66–R70), and what a write of an
address does (R8, R10), register by register where the owning chapter gives the write an action. -/

namespace Sys2Proof.Machine

/-! ## Addressing -/

/-- The host that a write or read comes from. -/
def hostOf : Writer → Option Proc
  | .host p => some p
  | _ => none

/-- A register write that is not a plan row's: a host's, or a BOOT record's (R404). -/
def isHost : Writer → Bool
  | .row _ => false
  | _ => true

/-- A page offset that the bus decodes: the stored register's address, its row, and 0 for the base, 1 for the SET alias,
2 for the CLR alias (R66, R67). The HOSTIF page and the private bank of INTC are those of the asking host (R61); rows and
BOOT records see bank A at 0x200 and bank B at 0x300. -/
def accessOf (w : Writer) (a : Nat) : Option (Nat × RegRow × Nat) :=
  let page := a / 0x1000
  let off := a % 0x1000
  if 0xC00 ≤ off then none
  else
    let o := off % 0x400
    let key : Option (Nat × Nat) :=
      if page = 1 then some (if w = .host .B then 0x1F else 1, o)
      else if page = 0x11 ∧ 0x200 ≤ o ∧ o < 0x400 then
        match w with
        | .host p => if o < 0x300 then some (page, o + 0x100 * procIx p) else none
        | _ => some (page, o)
      else some (page, o)
    match key with
    | some (pg, o) => (findRow pg o).map fun r => (pg * 0x1000 + o, r, off / 0x400)
    | none => none

/-- The bits of a register row that some write acts on. -/
def RegRow.writable (r : RegRow) : Bool := (r.rw ||| r.w1c ||| r.sc ||| r.wo) != 0

/-- Plan memory is read-only to the hosts (R102). -/
def State.planLocked (s : State) : Bool := s.fb Fd.PLAN_CTRL_WLOCK || s.fb Fd.PLAN_STAT_LOADING

/-- The discard reason that a host write to an address meets (R64): 5 ABSENT, 4 READONLY, 0 none. -/
def State.writeReason (s : State) (w : Writer) (a : Nat) : Nat :=
  match regionOf a with
  | .absent => 5
  | .page _ =>
    match accessOf w a with
    | some (_, r, al) => if al = 0 then (if r.writable then 0 else 4) else if r.sc = 0 then 4 else 0
    | none => 4
  | .planMem => if s.planLocked then 4 else 0
  | .pointTable => 0
  | .almanac => 4
  | .logbook => 4
  | .shadow => if s.shadowLocked then 4 else 0
  | .queues => 0

/-! ## Watchdogs (R72, R73) -/

/-- AO ticks of the period in `WDCTRL.PERIOD`. -/
def State.wdTicks (s : State) (p : Proc) : Nat := msTicks (s.f (Fd.HOSTIF_WDCTRL_PERIOD (procIx p)))

/-- The count restarts with a period. -/
def State.wdRestart (s : State) (p : Proc) (period : Nat) : State :=
  s.setPort p { s.port p with wdStart := s.ticks, wdPeriod := period, wdWarned := false }

/-- The watchdog expires (R73). -/
def State.wdExpire (s : State) (p : Proc) : State :=
  let i := procIx p
  let s := (s.setF (Fd.HOSTIF_WDSTAT_EXPIRED i) 1).incF (Fd.HOSTIF_WDSTAT_EXPCNT i)
  (s.raise (41 + i) 0 (s.f (Fd.HOSTIF_WDSTAT_EXPCNT i))).wdRestart p (s.port p).wdPeriod

/-- A write of `WDCTRL`: EN can be set, not cleared; a period written while EN is 1 waits for the next kick. -/
def State.wdCtrl (s : State) (p : Proc) (v : Word) : State :=
  let i := procIx p
  let was := s.fb (Fd.HOSTIF_WDCTRL_EN i)
  let s := s.wr (Reg.HOSTIF_WDCTRL i) ((v &&& 0x80FFFFFF) ||| (s.rd (Reg.HOSTIF_WDCTRL i) &&& 0x80000000))
  if !was && s.fb (Fd.HOSTIF_WDCTRL_EN i) then s.wdRestart p (s.wdTicks p) else s

/-- A write of `WDKICK`. -/
def State.wdKick (s : State) (p : Proc) (d : Word) : State :=
  if s.fb (Fd.HOSTIF_WDCTRL_EN (procIx p)) then
    if getBits d 0 16 = 0x5A5A then s.wdRestart p (s.wdTicks p) else s.wdExpire p
  else s

/-! ## Mailbox (R63) -/

/-- A write of `MBOX_OUT` by processor `p`. -/
def State.mboxOut (s : State) (p : Proc) (d : Word) : State :=
  let i := procIx p
  let s := if s.fb (Fd.HOSTIF_STAT_MBFULL i) then s.setF (Fd.HOSTIF_STAT_MBOVR i) 1 else s
  let s := (s.wr (Reg.HOSTIF_MBOX_OUT i) d).wr (Reg.HOSTIF_MBOX_IN (1 - i)) d
  (s.setF (Fd.HOSTIF_STAT_MBFULL i) 1).pulse (if i = 0 then 80 else 64)

/-- A read of `MBOX_IN` by processor `p`. -/
def State.mboxIn (s : State) (p : Proc) : State :=
  (s.wr (Reg.HOSTIF_MBOX_IN (procIx p)) 0).setF (Fd.HOSTIF_STAT_MBFULL (1 - procIx p)) 0

/-! ## Chip time (R43) -/

/-- A write of 1 to `SYS.TIMECAP.GO`: the writer's bank; a BOOT record captures nothing (R43). -/
def State.timeCap (s : State) (w : Writer) : State :=
  match w with
  | .host p => s.setPort p { s.port p with bank := s.chipTime }
  | .row _ => { s with eng := { s.eng with planBank := s.chipTime } }
  | .boot => s

/-- The bank a reader sees. -/
def State.timeBank (s : State) (w : Writer) : Nat :=
  match w with
  | .host p => (s.port p).bank
  | _ => s.eng.planBank

/-! ## Reads -/

/-- A view of the TIMER page (R416, R418). -/
def State.timerView (s : State) (w : Writer) (k off : Nat) : Word :=
  let t := (off - 0x40) / 0x40
  let b := (s.tm t).banks[bankIx w]
  if 0x40 ≤ off ∧ off < 0x140 then
    match off % 0x40 with
    | 0x28 => BitVec.ofNat 32 b.1
    | 0x2C => BitVec.ofNat 32 (b.1 >>> 32)
    | 0x30 => b.2
    | 0x34 => s.tstat t
    | _ => s.rd k
  else s.rd k

/-- A view of the FAULT page (R355). -/
def State.faultView (s : State) (k off : Nat) : Word :=
  if off = 0x008 then s.faultStat
  else if 0x040 ≤ off ∧ off < 0x048 then s.faultWord ((off - 0x040) / 4) fun x => x != .idle
  else if 0x048 ≤ off ∧ off < 0x050 then s.faultWord ((off - 0x048) / 4) fun x => x == .active
  else if 0x050 ≤ off ∧ off < 0x058 then s.faultWord ((off - 0x050) / 4) fun x => x == .lull
  else if 0x058 ≤ off ∧ off < 0x060 then s.faultWord ((off - 0x058) / 4) fun x => x == .squall
  else if 0x200 ≤ off ∧ off < 0x230 then s.rcntWord ((off - 0x200) / 4)
  else s.rd k

/-- A view of the INTC page (R366). -/
def State.intcView (s : State) (k off : Nat) : Word :=
  if off = 0x008 then s.shutWord
  else if off = 0x058 then s.rawWord 0 32
  else if off = 0x05C then s.rawWord 32 32
  else if off = 0x060 then s.outWord
  else if 0x080 ≤ off ∧ off < 0x0A0 then putBits (s.rd k) 16 1 (b2n (s.groupShut ((off - 0x080) / 4)))
  else if off = 0x248 then s.rawWord 64 16
  else if off = 0x348 then s.rawWord 80 16
  else if off = 0x24C then s.vecWord .A
  else if off = 0x34C then s.vecWord .B
  else s.rd k

/-- What a register reads as: the stored word, or what the device computes at the read. -/
def State.regView (s : State) (w : Writer) (k : Nat) : Word :=
  let off := k % 0x1000
  let page := k / 0x1000
  if off = 0x014 then s.evstat (k - 0x014)
  else match page with
    | 0x00 =>
      if off = 0x064 then putBits (s.rd k) 0 2 s.power.state.code
      else if off = 0x06C then BitVec.ofNat 32 (s.timeBank w)
      else if off = 0x070 then BitVec.ofNat 32 (s.timeBank w >>> 32)
      else s.rd k
    | 0x02 =>
      if off = 0x008 then putBits (s.rd k) 0 1 (b2n s.anyFault)
      else if off = 0x080 then BitVec.ofNat 32 s.eng.planBank
      else if off = 0x084 then BitVec.ofNat 32 (s.eng.planBank >>> 32)
      else if 0x0C0 ≤ off ∧ off < 0x100 then s.thstat ((off - 0x0C0) / 4)
      else if 0x100 ≤ off ∧ off < 0x300 then (s.th ((off - 0x100) / 32)).reg ((off - 0x100) / 4 % 8)
      else s.rd k
    | 0x03 => (s.ledgerView k).getD (s.rd k)
    | 0x04 => if off = 0x008 then s.convStat else s.rd k
    | 0x0B =>
      if off = 0x008 then (List.range 8).foldl (fun acc n => putBits acc (16 + n) 1 (b2n (s.vmonIn n))) (s.rd k)
      else s.rd k
    | 0x0C =>
      if off = 0x04C then BitVec.ofNat 32 s.goodMask
      else if off = 0x050 then BitVec.ofNat 32 s.onMask
      else if off = 0x008 then putBits (s.rd k) 3 1 (b2n s.vcwLow)
      else s.rd k
    | 0x0D => if off = 0x074 then s.timeStat else s.rd k
    | 0x0E => if off = 0x0A4 then s.anchorView else s.rd k
    | 0x0F => if off = 0x058 then putBits (s.rd k) 0 4 (min 15 s.thawsKept.length) else s.rd k
    | 0x10 => s.faultView k off
    | 0x11 => s.intcView k off
    | 0x14 => if off = 0x008 then (s.otpStat.otpBusy).rd k else s.rd k
    | 0x15 => s.timerView w k off
    | 0x16 => if off = 0x008 then s.crcStat else if off = 0x04C then s.crc.result else s.rd k
    | 0x17 =>
      if 0x040 ≤ off ∧ off < 0x070 then putBits (s.rd k) 7 1 (b2n (s.gpioLevel ((off - 0x040) / 4))) else s.rd k
    | _ =>
      if 0x20 ≤ page ∧ page < 0x28 then
        let p := page - 0x20
        if off = 0x008 then s.linkStat p
        else if off = 0x064 ∨ off = 0x068 then BitVec.ofNat 32 (s.presMask p ((off - 0x064) / 4))
        else if off = 0x088 ∨ off = 0x08C then s.linkQcnt p ((off - 0x088) / 4)
        else s.rd k
      else s.rd k

/-- What a read of a word address returns (R8, R67, R405); an absent address returns 0. -/
def State.busRead (s : State) (w : Writer) (a : Nat) : Word :=
  match regionOf a with
  | .page _ =>
    match accessOf w a with
    | some (k, r, al) => if al ≠ 0 ∧ r.sc = 0 then 0 else s.regView w k &&& ~~~ r.wo
    | none => 0
  | .planMem => s.memWord a
  | .pointTable => s.rd a
  | .almanac => s.memWord a
  | .logbook => s.memWord a
  | .shadow => if (s.f Fd.OTP_RLOCK_REGION).testBit 2 then 0 else s.memWord a
  | .queues => s.rd a
  | .absent => 0

/-- The ROC bits of an address: those that a read clears. -/
def rocBits (w : Writer) (a : Nat) : Word :=
  match regionOf a with
  | .page _ =>
    match accessOf w a with
    | some (_, r, al) => if al = 0 then r.roc else 0
    | none => 0
  | _ => 0

/-- The clear that follows a read of ROC fields (R9, R57): the value fetched is taken away. -/
def State.rocClear (s : State) (w : Writer) (a : Nat) : State :=
  match accessOf w a with
  | some (k, r, al) =>
    if r.roc = 0 ∨ al ≠ 0 then s
    else if k = Reg.HOSTIF_MBOX_IN 0 then s.mboxIn .A
    else if k = Reg.HOSTIF_MBOX_IN 1 then s.mboxIn .B
    else s.clrReg k r.roc
  | none => s

/-! ## Writes of SC registers (R8–R10) -/

/-- An SC register takes a new word; the clears and sets of some registers act. -/
def State.scWrite (s : State) (k : Nat) (new : Word) : State :=
  if k = Reg.INTC_EN0 ∨ k = Reg.INTC_EN1 ∨ k = Reg.INTC_PEN 0 ∨ k = Reg.INTC_PEN 1 then s.enWrite k new
  else if k = Reg.INTC_PEND0 then s.pendWrite 0 32 new
  else if k = Reg.INTC_PEND1 then s.pendWrite 32 32 new
  else if k = Reg.INTC_PPEND 0 then s.pendWrite 64 16 new
  else if k = Reg.INTC_PPEND 1 then s.pendWrite 80 16 new
  else if k = Reg.INTC_NMIPEND0 ∨ k = Reg.INTC_NMIPEND1 then s.nmiWrite k new
  else if 0x20000 ≤ k ∧ k < 0x28000 ∧ (k % 0x1000 = 0x074 ∨ k % 0x1000 = 0x078) then
    let p := (k - 0x20000) / 0x1000
    let old := s.rd k
    let s := s.wr k (old &&& new)
    let s := s.shedSet p ((k % 0x1000 - 0x074) / 4) (new &&& ~~~ old)
    if (s.pairList (Reg.LINK_SHEDMASK p)).isEmpty ∧ old ≠ new then s.ev (Fd.LINK_EVRAW_SHEDDONE p) else s
  else s.wr k new

/-- Semaphores named by a mask are released (R98). -/
def State.releaseSems (s : State) (mask : Word) : State :=
  (bitList 16 (mask &&& s.rd Reg.PLAN_SEM).toNat).foldl State.freeSem s

/-! ## Writes at a base offset, by page -/

/-- The RAILS page (R173, R180, R183, R186). -/
def State.writeRails (s : State) (k off : Nat) (d new : Word) : State :=
  if off = 0x0C8 then
    let t := s.wr k (new &&& ~~~ 0x200)
    let t := { t with adc := { t.adc with scanDue := t.ticks + t.f Fd.RAILS_SCANCFG_PERIOD } }
    if bit d 9 then t.scanBegin else t
  else if 0x080 ≤ off ∧ off < 0x0C0 ∧ off % 8 = 4 then
    let n := (off - 0x080) / 8
    let new := if s.slotSt (10 + n) = slOff then new else (new &&& ~~~ 0x70000000) ||| (s.rd k &&& 0x70000000)
    let t := s.wr k new
    if bit new 31 then t else t.clrReg Reg.RAILS_STAT (bitAt (16 + n))
  else if off = 0x040 ∨ off = 0x044 then s.railCfgWrite ((off - 0x040) / 4) k new
  else if 0x050 ≤ off ∧ off < 0x060 then s.railCfgWrite (2 + (off - 0x050) / 4) k new
  else s.wr k new

/-- The SEQ page (R196–R204). -/
def State.writeSeq (s : State) (k off : Nat) (d new : Word) : State :=
  if off = 0x004 then (if bit d 0 then s.ffArm else s)
  else if off = 0x040 then s.seqReq d
  else if off = 0x044 then s.seqDown d
  else if 0x100 ≤ off ∧ off < 0x300 ∧ off % 16 = 8 then s.depWrite ((off - 0x100) / 16) d
  else s.wr k new

/-- The HEALTH page (R149, R152, R154, R162). -/
def State.writeHealth (s : State) (k off : Nat) (v d new : Word) : State :=
  if off = 0x004 then
    let t := s.wr k (new &&& 0x7)
    if bit d 4 then t.rebase (getBits d 8 2) else t
  else if off = 0x040 then s.probeWrite v
  else if off = 0x058 then s.healthApply v
  else if off = 0x04C then s.wr k (putBits new 16 8 (max (getBits new 16 8) (getBits new 24 8 + 1)))
  else s.wr k new

/-- The PATH page (R213, R222–R232). -/
def State.writePath (s : State) (w : Writer) (k off : Nat) (d new : Word) : State :=
  if off = 0x004 then s.pathCtrlWrite (isHost w) d
  else if off = 0x040 then (s.wr k (putBits new 10 10 (min (getBits new 10 10) (getBits new 20 10 - 10)))).qualJudge
  else s.wr k new

/-- The GAUGE page (R241, R245, R252, R253, R258). -/
def State.writeGauge (s : State) (k off : Nat) (v d new : Word) : State :=
  if off = 0x004 then s.gaugeCtrl d
  else if off = 0x04C then s.designWrite v.toNat
  else if off = 0x068 then s.proveWrite d
  else if off = 0x090 then s.rmWrite v.toNat
  else if off = 0x094 then s.fccWrite v.toNat
  else s.wr k new

/-- The FAULT page (R342, R349, R351, R354). -/
def State.writeFault (s : State) (w : Writer) (k off : Nat) (v d new : Word) : State :=
  if off = 0x004 then (if bit d 0 ∧ isHost w then s.historyClear else s)
  else if off = 0x068 then s.extinWrite v
  else if off = 0x070 ∨ off = 0x074 then s.clearWrite ((off - 0x070) / 4) d (isHost w)
  else if 0x100 ≤ off ∧ off < 0x1C0 then s.reactWrite ((off - 0x100) / 4) v
  else s.wr k new

/-- The INTC page (R357, R361). -/
def State.writeIntc (s : State) (k off : Nat) (v new : Word) : State :=
  if 0x100 ≤ off ∧ off < 0x200 then s.cfgWrite ((off - 0x100) / 4) v
  else if 0x200 ≤ off ∧ off < 0x240 then s.cfgWrite (64 + (off - 0x200) / 4) v
  else if 0x300 ≤ off ∧ off < 0x340 then s.cfgWrite (80 + (off - 0x300) / 4) v
  else s.wr k new

/-- The OTP page (R398, R405, R406). -/
def State.writeOtp (s : State) (w : Writer) (k off : Nat) (d new : Word) : State :=
  if off = 0x004 then (if bit d 0 then s.overrideClear else s)
  else if off = 0x048 then s.otpCmd (hostOf w) d
  else if off = 0x050 ∨ off = 0x054 then s.stickyLock k d
  else s.wr k new

/-- The TIMER page (R412–R416). -/
def State.writeTimer (s : State) (w : Writer) (k off : Nat) (d new : Word) : State :=
  let t := (off - 0x40) / 0x40
  if 0x40 ≤ off ∧ off < 0x140 then
    match off % 0x40 with
    | 0x04 => s.wr k (if new.toNat < 0x10000 then 0x10000 else new)
    | 0x18 => s.tioWrite t (if getBits new 4 2 = 0 then putBits new 4 2 1 else new)
    | 0x24 => s.timerCmd w t (getBits d 0 3)
    | _ => s.wr k new
  else s.wr k new

/-- The CRC page (R420–R423). -/
def State.writeCrc (s : State) (w : Writer) (k off : Nat) (d new : Word) : State :=
  match off with
  | 0x004 => s.crcCtrl w d
  | 0x040 => s.crcDin w 1 d
  | 0x044 => s.crcDin w 2 d
  | 0x048 => s.crcDin w 4 d
  | 0x050 => s.crcOwner w d
  | _ => s.wr k new

/-- A LINKp page (R276, R286). -/
def State.writeLink (s : State) (p k off : Nat) (v new : Word) : State :=
  match off with
  | 0x004 => s.linkCtrlWrite p v
  | 0x0B0 => s.hostPush p v
  | _ => s.wr k new

/-- The LEDGER page (R306, R316). -/
def State.writeLedger (s : State) (k off : Nat) (d new : Word) : State :=
  match off with
  | 0x074 => s.wr k (putBits new 24 8 (max (getBits new 24 8) (getBits new 16 8 + 1)))
  | 0x0A4 => s.wr k ((List.range 8).foldl (fun w i => putBits w (4 * i) 4 (min 4 (getBits w (4 * i) 4))) new)
  | 0x0A8 => s.wr k ((List.range 6).foldl (fun w i => putBits w (4 * i) 4 (min 4 (getBits w (4 * i) 4))) new)
  | 0x144 => s.hostOp (getBits d 28 4) (getBits d 0 9) (getBits d 16 3)
  | _ => s.wr k new

/-- The SYS page (R39, R43, R74, R207): XTALLOST stays 1 while AO runs from the RC. -/
def State.writeSys (s : State) (w : Writer) (k off : Nat) (d new : Word) : State :=
  match off with
  | 0x004 =>
    if getBits d 16 16 = 0x5AFE ∧ bit d 0 then
      ({ s with resetReq := { s.resetReq with chip := true } } : State).orReg Reg.SEQ_RSTCAUSE 4
    else s
  | 0x064 => s.wr k (if s.fb Fd.SYS_PWRSTAT_AOSRC then new ||| (s.rd k &&& 8) else new)
  | 0x068 => if bit d 0 then s.timeCap w else s
  | _ => s.wr k new

/-- A HOSTIF page (R63, R72, R73). -/
def State.writeHostif (s : State) (p : Proc) (k off : Nat) (v d new : Word) : State :=
  match off with
  | 0x050 => s.wdCtrl p v
  | 0x054 => s.wdKick p d
  | 0x060 => s.mboxOut p d
  | _ => s.wr k new

/-- The PLAN page (R100–R102, R107). -/
def State.writePlan (s : State) (k off : Nat) (d new : Word) : State :=
  if off = 0x004 then s.orReg k (d &&& 1)
  else if off = 0x040 then thcmdWrite s d
  else if off = 0x044 then s.loadWrite d
  else if 0x100 ≤ off ∧ off < 0x300 then thwWrite s ((off - 0x100) / 32) ((off - 0x100) / 4 % 8) d
  else s.wr k new

/-- The RECORD and FLASH pages (R373, R383, R388). -/
def State.writeRecord (s : State) (k off : Nat) (d new : Word) : State :=
  if off = 0x040 then s.recordCmd d else s.wr k new

/-- The FLASH page. -/
def State.writeFlash (s : State) (w : Writer) (k off : Nat) (v new : Word) : State :=
  match off with
  | 0x004 => s.flashCtrlWrite v
  | 0x054 => s.hostFlash (hostOf w) v
  | _ => s.wr k new

/-- The THERM page (R332, R336). -/
def State.writeTherm (s : State) (k off : Nat) (d new : Word) : State :=
  if off = 0x054 then
    if getBits d 0 16 = 0x7A4E ∧ s.thawReady ∧ !s.thawsAlone then { s with resetReq := { s.resetReq with thaw := true } } else s
  else if off = 0x048 then s.wr k (limWord true new)
  else if 0x0C0 ≤ off ∧ off < 0x120 ∧ off % 16 = 4 then s.wr k (limWord false new)
  else if 0x0C0 ≤ off ∧ off < 0x120 ∧ off % 16 = 0 then s.tdCfgWrite ((off - 0x0C0) / 16) new
  else s.wr k new

/-- A write at the base offset of register `k`: `v` is the word with its fields in range, `d` as written, `new` what the
register holds after RW and W1C fields have taken it. -/
def State.baseWrite (s : State) (w : Writer) (k : Nat) (v d new : Word) : State :=
  let off := k % 0x1000
  let page := k / 0x1000
  match page with
  | 0x00 => s.writeSys w k off d new
  | 0x01 => s.writeHostif .A k off v d new
  | 0x1F => s.writeHostif .B k off v d new
  | 0x02 => s.writePlan k off d new
  | 0x03 => s.writeLedger k off d new
  | 0x04 => if 0x080 ≤ off ∧ off < 0x0C0 then s.bankWrite k new else if off = 0x004 then s.convCtrlWrite new else s.wr k new
  | 0x05 => s.writeLoop 0 off v new
  | 0x06 => s.writeLoop 1 off v new
  | 0x07 => s.writeLoop 2 off v new
  | 0x08 => s.writeLoop 3 off v new
  | 0x09 => if 0x040 ≤ off ∧ off < 0x080 then s.phaseAssign ((off - 0x040) / 4) d else s.wr k new
  | 0x0A => s.writeHealth k off v d new
  | 0x0B => s.writeRails k off d new
  | 0x0C => s.writeSeq k off d new
  | 0x0D => s.writePath w k off d new
  | 0x0E => s.writeGauge k off v d new
  | 0x0F => s.writeTherm k off d new
  | 0x10 => s.writeFault w k off v d new
  | 0x11 => s.writeIntc k off v new
  | 0x12 => s.writeRecord k off d new
  | 0x13 => s.writeFlash w k off v new
  | 0x14 => s.writeOtp w k off d new
  | 0x15 => s.writeTimer w k off d new
  | 0x16 => s.writeCrc w k off d new
  | _ => if 0x20 ≤ page ∧ page < 0x28 then s.writeLink (page - 0x20) k off v new else s.wr k new

/-! ## Windows -/

/-- The RW bits of a point-table word, by its number in the entry (R298). -/
def pointRw (i : Nat) : Word :=
  match i with
  | 0 => 0x0003F800
  | 11 => 0x0000FFFF
  | 14 => 0xFFFFFFFF
  | 15 => 0xFFFFFFFF
  | _ => 0

/-- A write to the point table: only RW fields change (R298). -/
def State.pointWrite (s : State) (a : Nat) (d : Word) : State :=
  let m := pointRw (a % 64 / 4)
  if m = 0 then s else s.wr a ((s.rd a &&& ~~~ m) ||| (d &&& m))

/-- A host write to the lower word of plan row `r` (R70). -/
def State.planLower (s : State) (p : Proc) (r : Nat) (d : Word) : State :=
  (s.setPort p { s.port p with staged := some (r, d) }).setF Fd.PLAN_STAT_PATCHED 1

/-- A host write to the upper word of plan row `r` (R70, R102). -/
def State.planUpper (s : State) (p : Proc) (r : Nat) (d : Word) : State :=
  let lower := match (s.port p).staged with
    | some (r', l) => if r' = r then l else s.memWord (rowAddr r)
    | none => s.memWord (rowAddr r)
  let s := s.setPort p { s.port p with staged := none }
  (s.setRow r lower d).setF Fd.PLAN_STAT_PATCHED 1

/-- A host write to the plan-memory window; rows never reach it (R89), and BOOT records are skipped (R404). -/
def State.planWrite (s : State) (w : Writer) (a : Nat) (d : Word) : State :=
  match w with
  | .host p =>
    let r := (a - 0x100000) / 8
    if s.planLocked then s else if a % 8 = 0 then s.planLower p r d else s.planUpper p r d
  | _ => s

/-- A write to the link-queue window (R287). -/
def State.queueWrite (s : State) (a : Nat) (d : Word) : State :=
  let o := a - 0x160000
  s.descWrite (o / 0x800) (o / 0x100 % 8) (o / 0x10 % 16) (o / 4 % 4) d

/-! ## The write of an address -/

/-- A write of a word address that its sender's checks have let through (R8). What is not writable stays. -/
def State.busWrite (s : State) (w : Writer) (a : Nat) (d : Word) : State :=
  match regionOf a with
  | .page _ =>
    match accessOf w a with
    | some (k, r, al) =>
      let old := s.rd k
      if al = 0 then
        if r.sc ≠ 0 then (if k = Reg.PLAN_SEM then s else s.scWrite k ((old &&& ~~~ r.sc) ||| (d &&& r.sc)))
        else if r.writable then
          let v := normWord (k / 0x1000) (k % 0x1000) d
          s.baseWrite w k v d ((old &&& ~~~ (r.rw ||| r.w1c)) ||| (v &&& r.rw) ||| (old &&& r.w1c &&& ~~~ d))
        else s
      else if r.sc = 0 then s
      else if k = Reg.PLAN_SEM then (if al = 2 then s.releaseSems d else s)
      else s.scWrite k (if al = 1 then old ||| (d &&& r.sc) else old &&& ~~~ (d &&& r.sc))
    | none => s
  | .planMem => s.planWrite w a d
  | .pointTable => s.pointWrite a d
  | .shadow => if s.shadowLocked then s else s.shadowWrite ((a - 0x150000) / 4) d
  | .queues => s.queueWrite a d
  | .almanac => s
  | .logbook => s
  | .absent => s

end Sys2Proof.Machine
end

