-- ==== Sys2Proof/Machine/EngineBus.lean ====
section
/-! DEFINITION. The rows that reach the register space: LD, ST, SYNC, LSEND and RAIL, the application of posted stores and
the completion of multi-cycle rows (R81, R89, R90, R196, R286). -/

namespace Sys2Proof.Machine

/-- The domain that holds an address (R89, R90): 0 ENG, 1 WAKE, 2 PWM, 3 GAUGE. -/
def domainOf (a : Nat) : Nat :=
  match regionOf a with
  | .page p =>
    if p = 2 ∨ p = 3 ∨ p = 0x16 then 0
    else if 5 ≤ p ∧ p ≤ 9 then 2
    else if p = 0x0E ∧ 0x080 ≤ a % 0x400 ∧ a % 0x400 < 0x0A8 then 3
    else 1
  | .shadow => 1
  | _ => 0

/-- An address that no row may name (R89): HOSTIF, or absent. -/
def forbidden (a : Nat) : Bool := regionOf a == .absent || regionOf a == .page 1

/-- The register or window word that an address writes: aliases brought to the base. -/
def storeKey (a : Nat) : Nat :=
  match regionOf a with
  | .page p => p * 0x1000 + a % 0x400
  | _ => a

/-! ## Check bits (R25) -/

/-- The FS35 detail of an SRAM window, if it has one (R25, R340). -/
def sramRegion (a : Nat) : Option Nat :=
  match regionOf a with
  | .pointTable => some 1
  | .almanac => some 2
  | .logbook => some 3
  | .queues => some 4
  | _ => none

/-- What the check bits of a fetched window word do (R25): a corrected plan word is counted; a double-bit error raises its
fault, and the word is what the array gave, a free value. Answers that value, `none` for a word read right. `t` is the thread
that FS34 names. -/
def State.eccFetch (s : State) (a t : Nat) (ecc : Ecc) : State × Option Word :=
  match ecc, sramRegion a, regionOf a == .planMem with
  | .double, some d, _ => ((s.nextFree).raise 35 0 d, some (BitVec.ofNat 32 s.free))
  | .double, none, true => ((s.nextFree).raise 34 0 t, some (BitVec.ofNat 32 s.free))
  | .corrected, _, true => (s.incF Fd.PLAN_ECC_CORR, none)
  | _, _, _ => (s, none)

/-- Words fetched one after the other, each as one value from one instant (R57), with what their check bits showed; words
beyond the list `es` are clean. -/
def fetchWords (w : Writer) (t : Nat) : List Ecc → List Nat → State → State × List Word
  | _, [], s => (s, [])
  | es, a :: as, s =>
    let d := s.busRead w a
    let (s, v) := s.eccFetch a t (es.headD .clean)
    let r := fetchWords w t es.tail as s
    (r.1, v.getD d :: r.2)

/-! ## Rows -/

/-- LD (R89). -/
def rowLd (s : State) (t : Nat) : State :=
  s.issue t 0x28 fun r s =>
    let a := (s.th t).addrOf r.b
    if forbidden a then s.threadFault t 4 33 else s.setBusy t (.load (regOf r.a) a)

/-- ST (R90): the store is posted. -/
def rowSt (s : State) (t : Fin 16) : State :=
  s.issue t 0x29 fun r s =>
    let a := (s.th t).addrOf r.a
    if forbidden a ∨ regionOf a = .planMem then s.threadFault t 4 33
    else
      let s := { s with eng := { s.eng with stores := s.eng.stores ++ [(⟨t, a, (s.th t).val r.b⟩ : PostedStore)] } }
      s.endRow t

/-- SYNC (R90): busy while a store of the thread waits. -/
def rowSync (s : State) (t : Fin 16) : State :=
  s.issue t 0x2A fun _ s => if s.eng.stores.any (fun x => x.t == t) then s.setBusy t .sync else s.endRow t

/-- LSEND (R286): the descriptor is queued, or the request is refused with its code. Its image is four words, with what
their check bits showed. DESIGN CHOICE: an image in HOSTIF or at an absent address faults the thread as an LD there would,
though R89 names LD and ST alone (log entry 91); the image is read at issue, without waiting for the thread's posted stores,
since R90 orders LD alone (log entry 92). -/
def rowLsend (s : State) (t : Fin 16) (ecc : List Ecc) : State :=
  s.issue t 0x3C fun r s =>
    match (s.th t).inRange r.a 0 511 with
    | none => s.outOfRange t
    | some gp =>
      let a := (s.th t).addrOf r.b
      let addrs := (List.range 4).map fun i => busWordAddr (a + 4 * i)
      if addrs.any forbidden then s.threadFault t 4 33
      else
        let (s, ws) := fetchWords (.row t) t ecc addrs s
        let w0 := ws.getD 0 0
        let (s, w7) := s.push (gp / 64) (gp % 64) w0 (ws.getD 1 0) (ws.getD 2 0) (ws.getD 3 0) (bit w0 24)
        s.setBusy t (.result [(7, w7)] { ((s.th t).flags.zn w7) with c := w7.msb })

/-- RAIL (R196): 0 off, 1 on, 2 query. -/
def rowRail (s : State) (t : Nat) : State :=
  s.issue t 0x3D fun r s =>
    match (s.th t).inRange r.a 0 31, (s.th t).inRange r.b 0 2 with
    | some k, some op =>
      let (s, c) := match op with
        | 0 => (s.slotOffReq k, false)
        | 1 => s.slotOn k
        | _ => (s, false)
      let w7 := s.rd (Reg.SEQ_SLOTSTAT k)
      s.setBusy t (.result [(7, w7)] { ((s.th t).flags.zn w7) with c := c })
    | _, _ => s.outOfRange t

/-! ## Posted stores -/

/-- The store at the head of thread `t`'s own stores, if nothing earlier goes to the same word (R90). -/
def nextStore (t : Fin 16) : List PostedStore → Option PostedStore
  | [] => none
  | x :: rest =>
    if x.t = t then some x
    else match nextStore t rest with
      | some y => if storeKey y.addr = storeKey x.addr then none else some y
      | none => none

/-- The first store of thread `t` taken out. -/
def dropStore (t : Fin 16) : List PostedStore → List PostedStore
  | [] => []
  | x :: rest => if x.t = t then rest else x :: dropStore t rest

/-- The oldest store of thread `t` reaches its register (R90). -/
def State.storeApply (s : State) (t : Fin 16) : State :=
  match s.engineRuns, nextStore t s.eng.stores with
  | true, some x =>
    let s := { s with eng := { s.eng with stores := dropStore t s.eng.stores } }
    s.busWrite (.row t) x.addr x.data
  | _, _ => s

/-! ## Completion -/

/-- An LD completes (R89): the word read with what its check bits showed (R25), ROC bits cleared, Z and N from it. -/
def State.loadEnd (s : State) (t : Fin 16) (a addr : Nat) (ecc : Ecc) : State :=
  let w := s.busRead (.row t) addr
  let (s, v) := s.eccFetch addr t ecc
  let w := v.getD w
  (s.rocClear (.row t) addr).finishRow t [(a, w)] ((s.th t).flags.zn w)

/-- A multi-cycle row completes (R81): its results land and the thread can issue again. A load waits for the thread's
earlier stores to the same domain, a SYNC for all of them (R90); a row that waits for the ledger or a delay does not end
here. -/
def State.rowComplete (s : State) (t : Fin 16) (ecc : Ecc) : State :=
  if s.engineRuns then
    match (s.th t).busy with
    | some (.result writes f) => (s.finishRow t writes f).ledgerLeave t
    | some (.load a addr) =>
      if s.eng.stores.any fun x => x.t == t && domainOf x.addr == domainOf addr then s else s.loadEnd t a addr ecc
    | some .sync => if s.eng.stores.any fun x => x.t == t then s else s.endRow t
    | _ => s
  else s

end Sys2Proof.Machine
end

