-- ==== Sys2Proof/Machine/HostPort.lean ====
section
/-! DEFINITION. The host port: the checks of a frame, what an accepted one does and what the device answers, and the count
of discards (R47–R65). -/

namespace Sys2Proof.Machine

/-! ## The bytes of a frame (R50, R51) -/

/-- The first byte of a frame, if it is complete. -/
def frameCmd (f : Frame) : Option Nat := (f.bytes.head?).map BitVec.toNat

/-- The address bytes of a frame, as a word address; 0 if the frame had none. -/
def frameAddr (f : Frame) : Nat :=
  if f.bytes.length < 4 then 0 else busWordAddr (natBE ((f.bytes.drop 1).take 3))

/-- The commands of R50. -/
def isCmd (c : Nat) : Bool := [0x03, 0x0B, 0x02, 0x0A, 0x05, 0x9F].contains c

/-- STATUS and ID. -/
def isStatusId (c : Nat) : Bool := c == 0x05 || c == 0x9F

/-- A command with an address. -/
def hasAddr (c : Nat) : Bool := [0x03, 0x0B, 0x02, 0x0A].contains c

/-- A write command. -/
def isWrite (c : Nat) : Bool := c == 0x02 || c == 0x0A

/-- CRC bytes are present on a chip select (R50). -/
def State.crcOn (s : State) (p : Proc) : Bool := s.fb (Fd.HOSTIF_CTRL_CRCEN (procIx p))

/-- The bytes of a frame that HCRC covers with it: all of a write frame, the header of any other. -/
def headLen (s : State) (f : Frame) (c : Nat) : Nat :=
  if isWrite c then f.bytes.length else (if isStatusId c then 1 else 4) + b2n (s.crcOn f.p)

/-- The data words of a write frame. -/
def frameWords (s : State) (f : Frame) : List Word :=
  let body := (f.bytes.drop 4).take (f.bytes.length - 4 - b2n (s.crcOn f.p))
  (List.range (body.length / 4)).map fun i => wordBE ((body.drop (4 * i)).take 4)

/-- The length of a frame is that of R50, and a burst stays in its page (R55). -/
def lengthOk (s : State) (f : Frame) (c : Nat) : Bool :=
  let n := f.bytes.length
  let k := b2n (s.crcOn f.p)
  if c = 0x02 then n == 8 + k
  else if c = 0x0A then
    decide (8 + k ≤ n) && (n - 4 - k) % 4 == 0 && decide ((n - 4 - k) / 4 ≤ 64) &&
      decide (frameAddr f % 0x1000 + (n - 4 - k) ≤ 0x1000)
  else decide (headLen s f c ≤ n)

/-- HCRC matches, or is not there (R51). -/
def crcOk (s : State) (f : Frame) (c : Nat) : Bool :=
  if s.crcOn f.p then
    let h := f.bytes.take (headLen s f c)
    decide (crc8 h.dropLast = (h.getLast?.getD 0).toNat)
  else true

/-- Access is allowed (R58): the pages are up, or the frame goes to the THERM page in the thermal hold (R335). -/
def State.accessible (s : State) (a : Nat) : Bool := s.portUp || (s.seq.hold && regionOf a == .page 0x0F)

/-! ## Discards (R64, R65) -/

/-- The reason a word of a write frame gives: ABSENT before READONLY. -/
def worstReason (rs : List Nat) : Nat := if rs.contains 5 then 5 else if rs.contains 4 then 4 else 0

/-- The discard reason of a frame, 0 for an accepted one: the first of BOTHCS, BUSY, COMMAND, LENGTH, CRC, ABSENT and
READONLY that applies. A read is BUSY only behind a burst still being applied (R54). DESIGN CHOICE (log entry 83): a
READ_BURST whose first address exists is accepted where it runs past its window's end inside the page, and the words outside
read as 0; R55 and R64 do not say whether such a word makes the frame ABSENT. -/
def State.frameReason (s : State) (f : Frame) : Nat :=
  if f.both then 6
  else match frameCmd f with
    | none => 1
    | some c =>
      let a := frameAddr f
      if hasAddr c ∧ s.burst.isSome ∧ (isWrite c ∨ f.waits.isNone) then 7
      else if !isCmd c then 3
      else if !lengthOk s f c then 1
      else if !crcOk s f c then 2
      else if isStatusId c then 0
      else if !s.accessible a ∨ regionOf a = .absent then 5
      else if isWrite c then
        worstReason ((List.range (frameWords s f).length).map fun i => s.writeReason (.host f.p) (a + 4 * i))
      else 0

/-! ## What the device drives (R50, R55, R56) -/

/-- The bytes on HSDO in a frame: 0x00 during the host's `head` bytes, then what the device sends, then 0x00, as many as were
clocked. -/
def State.drive (s : State) (p : Proc) (head clocked : Nat) (dev : List Byte) : State :=
  s.setPort p { s.port p with hsdo := (List.replicate head 0 ++ dev ++ List.replicate clocked 0).take clocked }

/-- A frame in which the device drives 0x00 throughout: a write, or a discarded frame. -/
def State.silent (s : State) (p : Proc) (f : Frame) : State := s.drive p 0 f.bytes.length []

/-- A discard on one chip select: no marker is sent, and the count, the last reason, command and address, and the abuse
check follow. DESIGN CHOICE (log entry 84): LASTCMD is 0 for a frame without a complete first byte, and LASTADDR is 0 for a
frame whose first byte is no command with an address; R64 does not say what either holds then. -/
def State.discardOn (s : State) (p : Proc) (reason : Nat) (f : Frame) : State :=
  let i := procIx p
  let c := frameCmd f
  let s := s.silent p f
  let s := (s.incF (Fd.HOSTIF_DISCARD_COUNT i)).setF (Fd.HOSTIF_DISCARD_REASON i) reason
  let s := s.setF (Fd.HOSTIF_DISCARD_LASTCMD i) (c.getD 0)
  let s := s.setF (Fd.HOSTIF_LASTADDR_ADDR i) (if (c.map hasAddr).getD false then frameAddr f else 0)
  let s := s.ev (Fd.HOSTIF_EVRAW_DISCARD i)
  let s := if (c.map isStatusId).getD false then s else s.setF (Fd.HOSTIF_STAT_LASTOK i) 0
  let limit := s.f (Fd.HOSTIF_ABUSE_LIMIT i)
  let recent := s.ticks :: (s.port p).discards.filter fun t => decide (s.ticks < t + s.f (Fd.HOSTIF_ABUSE_WINDOW i))
  if limit = 0 then s.setPort p { s.port p with discards := [] }
  else if limit ≤ recent.length then
    ((s.setPort p { s.port p with discards := [] }).ev (Fd.HOSTIF_EVRAW_ABUSE i)).raise 43 reason i
  else s.setPort p { s.port p with discards := recent }

/-! ## Answers (R50, R57, R59) -/

/-- The status word of a chip select (R59). -/
def State.statusWord (s : State) (p : Proc) : Word :=
  let i := procIx p
  let w := putBits 0 16 16 (s.f (Fd.HOSTIF_ACCEPT_COUNT i))
  let w := putBits w 8 8 (s.f (Fd.HOSTIF_DISCARD_COUNT i))
  let w := putBits w 7 1 (b2n s.faultPin)
  let w := putBits w 6 1 (b2n (s.irqOut p))
  let w := putBits w 5 1 (b2n (s.nmiOut p))
  let w := putBits w 4 1 (s.f (Fd.HOSTIF_WDSTAT_WARN i))
  let w := putBits w 3 1 (b2n s.portUp)
  let w := putBits w 2 1 (s.f (Fd.HOSTIF_STAT_LASTOK i))
  putBits w 0 2 s.power.state.code

/-- A word on the wire: its bytes, and DCRC where CRC bytes are present (R51). -/
def State.wireWord (s : State) (p : Proc) (w : Word) : List Byte :=
  let bs := bytesBE 4 w.toNat
  if s.crcOn p then bs ++ [BitVec.ofNat 8 (crc8 bs)] else bs

/-- The device drives at most 64 wait bytes, the marker and words (R50, R56); `whole` words have been shifted out to their
last bit. -/
def State.answer (s : State) (f : Frame) (c whole : Nat) (ws : List Word) : State :=
  let waits := if isStatusId c then 0 else min 64 (f.waits.getD 0)
  let head := headLen s f c
  let need := if whole = 0 then head else head + waits + 1 + whole * (4 + b2n (s.crcOn f.p))
  s.drive f.p head (max f.bytes.length need) (List.replicate waits 0 ++ [0x5A] ++ ws.flatMap (s.wireWord f.p))

/-- The read of one word whose last bit has been shifted out: ROC fields are cleared and entered (R57, R62). -/
def State.readShifted (s : State) (p : Proc) (a : Nat) (v : Word) : State :=
  if rocBits (.host p) a = 0 then s else (s.rocClear (.host p) a).logbook 3 p a v

/-- ACCEPT and LASTOK after an accepted frame other than STATUS and ID (R60). -/
def State.countFrame (s : State) (p : Proc) : State :=
  let i := procIx p
  (s.setF (Fd.HOSTIF_ACCEPT_COUNT i) (s.f (Fd.HOSTIF_ACCEPT_COUNT i) + 1)).setF (Fd.HOSTIF_STAT_LASTOK i) 1

/-- An accepted READ or READ_BURST from `a` on: `m` words fetched, the first `n` of them shifted out whole. -/
def State.readFrame (s : State) (f : Frame) (c a n m : Nat) : State :=
  let (s, ws) := fetchWords (.host f.p) 0 f.ecc ((List.range m).map fun i => a + 4 * i) s
  let s := (s.answer f c f.words ws).countFrame f.p
  (List.range n).foldl (fun (t : State) i => t.readShifted f.p (a + 4 * i) (ws.getD i 0)) s

/-! ## Frames (R50–R62) -/

/-- The clock of the block that an address belongs to runs (R53, R71): the LINK clock in FULL, the GAUGE oscillator, WAKE
for every other page and for the windows. -/
def State.clocked (s : State) (a : Nat) : Bool :=
  s.pagesRun && match regionOf a with
    | .page p => if 0x20 ≤ p ∧ p < 0x28 then s.linkClock else if p = 0x0E then s.power.gaugeOk else true
    | _ => true

/-- The word of an accepted WRITE: applied, or held until its target's clock runs (R53, R71). -/
def State.hostWrite (s : State) (p : Proc) (a : Nat) (d : Word) : State :=
  if s.clocked a then s.busWrite (.host p) a d else { s with held := s.held ++ [⟨p, a, d⟩] }

/-- The held words whose target's clock runs now are applied, in order. -/
def State.heldApply (s : State) : State :=
  s.held.foldl (fun s h => s.hostWrite h.p h.addr h.data) { s with held := [] }

/-- Words left in a page from an address on (R55). -/
def pageWords (a : Nat) : Nat := (0x1000 - a % 0x1000) / 4

/-- What an accepted frame does. -/
def State.acceptFrame (s : State) (f : Frame) (c : Nat) : State :=
  let p := f.p
  let a := frameAddr f
  match c with
  | 0x05 => s.answer f c 1 [s.statusWord p]
  | 0x9F => s.answer f c 1 [s.rd Reg.SYS_ID]
  | 0x03 => s.readFrame f c a (min 1 f.words) 1
  | 0x0B => s.readFrame f c a (min f.words (pageWords a)) (min (f.words + 1) (pageWords a))
  | 0x02 =>
    let d := (frameWords s f).headD 0
    (((s.silent p f).countFrame p).logbook 1 p a d).hostWrite p a d
  | _ =>
    match frameWords s f with
    | [] => s
    | d :: rest =>
      let s := (s.silent p f).countFrame p
      let time := s.chipTime
      if s.clocked a then
        let s := (s.logbookAt 2 p a d time).busWrite (.host p) a d
        if rest.isEmpty then s else { s with burst := some ⟨p, a + 4, rest, time⟩ }
      else { s with burst := some ⟨p, a, d :: rest, time⟩ }

/-- An accepted frame with a burst still being applied (R54): a read is served after the burst's last word, but for one that
ended before its word was fetched; STATUS and ID are answered at once. -/
def State.takeFrame (s : State) (f : Frame) (c : Nat) : State :=
  if hasAddr c ∧ s.burst.isSome then
    if f.words = 0 then (s.silent f.p f).countFrame f.p else { s with reads := s.reads ++ [f] }
  else s.acceptFrame f c

/-- A frame ends: its chip select has woken the device (R31), and it is accepted or discarded. In OFF the port is not
clocked. -/
def State.hostFrame (s : State) (f : Frame) : State :=
  if s.power.state = .off then s
  else
    let s := s.wakeUp
    let s : State := { s with power := { s.power with idleTicks := 0 } }
    match s.frameReason f with
    | 0 =>
      match frameCmd f with
      | some c => s.takeFrame f c
      | none => s
    | 6 => (s.discardOn f.p 6 f).discardOn (Proc.other f.p) 6 f
    | r => s.discardOn f.p r f

/-- A frame whose first byte is the command `c`, or no command of R50 at all; a frame of another command is not this
event. -/
def State.frameOf (s : State) (c : Nat) (f : Frame) : State :=
  match frameCmd f with
  | some b => if b = c ∨ !isCmd b then s.hostFrame f else s
  | none => s.hostFrame f

/-- The read frames that a burst held up are served, once it is over (R54). -/
def State.serveReads (s : State) : State :=
  if s.burst.isSome then s
  else s.reads.foldl (fun s f => s.acceptFrame f ((frameCmd f).getD 0)) { s with reads := [] }

/-- The next word of an accepted burst is applied, once its target's clock runs (R53). -/
def State.burstApply (s : State) : State :=
  match s.burst with
  | some b =>
    if s.clocked b.addr then
      match b.words with
      | d :: rest =>
        let s := { s with burst := if rest.isEmpty then none else some { b with addr := b.addr + 4, words := rest } }
        ((s.logbookAt 2 b.p b.addr d b.time).busWrite (.host b.p) b.addr d).serveReads
      | [] => ({ s with burst := none } : State).serveReads
    else s
  | none => s

/-! ## Watchdog events (R73) -/

/-- The warning point of the period, in AO ticks from its start; `none` with WARNPCT 0. -/
def State.wdWarnAt (s : State) (p : Proc) : Option Nat :=
  let pct := s.f (Fd.HOSTIF_WDCTRL_WARNPCT (procIx p))
  if pct = 0 then none else some (divCeil ((s.port p).wdPeriod * pct) 100)

/-- The count reaches WARNPCT of the period. -/
def State.wdWarn (s : State) (p : Proc) : State :=
  let h := s.port p
  match s.wdWarnAt p with
  | some n =>
    if s.fb (Fd.HOSTIF_WDCTRL_EN (procIx p)) ∧ !h.wdWarned ∧ h.wdStart + n ≤ s.ticks then
      let s := (s.setPort p { h with wdWarned := true }).setF (Fd.HOSTIF_WDSTAT_WARN (procIx p)) 1
      s.pulse (66 + 16 * procIx p)
    else s
  | none => s

/-- The count reaches the period. -/
def State.wdTimeout (s : State) (p : Proc) : State :=
  let h := s.port p
  if s.fb (Fd.HOSTIF_WDCTRL_EN (procIx p)) ∧ h.wdStart + h.wdPeriod ≤ s.ticks then s.wdExpire p else s

end Sys2Proof.Machine
end

