-- ==== Sys2Proof/Machine/Power.lean ====
section
/-! DEFINITION. Power states, the wake sequence and the clock monitors (R26–R46). -/

namespace Sys2Proof.Machine

/-- The power controller's state replaced. -/
def State.setPower (s : State) (p : Power) : State := { s with power := p }

/-! ## Idle and FALLOW (R29, R30) -/

/-- No thread has a row ready, as R95 counts it: none in RUN, and no store outstanding. -/
def State.engineIdle (s : State) : Bool :=
  (List.range 16).all (fun t => (s.th t).st != .run) && s.eng.stores.isEmpty && s.eng.load.isNone

/-- No transaction is in progress on a port, one that is to be sent again and those of an enable or a disable counted, and no
queue descriptor awaits dispatch; a shed bit of an enabled port counts as one (R289). -/
def State.linkIdle (s : State) (p : Nat) : Bool :=
  let x := s.lk p
  x.cur.isNone && x.again.isEmpty && !x.opening && !x.closing && (!s.linkOn p || (s.pairList (Reg.LINK_SHEDMASK p)).isEmpty) &&
    (List.range 8).all fun q => (s.readyIn p q).isNone

/-- No record-flash, external-flash or OTP operation is in progress. -/
def State.storesIdle (s : State) : Bool :=
  s.rflash.busy.isNone && s.xflash.busy0.isNone && s.xflash.busy1.isNone && !s.xflash.disc && s.otp.cmd.isNone

/-- The conditions of R29 hold together. No host frame is in progress between two commands; an accepted write whose words
are still being applied counts as one. A running probe keeps the ADC list from being idle (R150). DESIGN CHOICE (log entry
82): R29 does not say whether the device may enter FALLOW before step 5 of the boot flow, with RESET# held low or in the
thermal hold; here it does not. -/
def State.idleNow (s : State) : Bool :=
  s.portUp && s.engineIdle && s.burst.isNone && s.held.isEmpty && s.reads.isEmpty && (List.range 8).all s.linkIdle &&
    s.storesIdle && !s.fb Fd.RAILS_STAT_SCANBUSY && s.health.probe.isNone && !s.fb Fd.SYS_PWRCTRL_STAYUP

/-- One more AO tick of the idle count (R29). -/
def State.idleTick (s : State) : State :=
  s.setPower { s.power with idleTicks := if s.idleNow then s.power.idleTicks + 1 else 0 }

/-- FALLOW_ENTRY: the idle conditions have held for IDLE AO ticks (R29); it takes effect at an AO tick edge (R30). -/
def State.fallowEntry (s : State) : State :=
  if (s.power.state = .full ∨ s.power.state = .awake) ∧ s.atEdge ∧ s.idleNow ∧ s.f Fd.SYS_PWRCTRL_IDLE ≤ s.power.idleTicks then
    s.setPower { s.power with state := .fallow, wakeRuns := false, pll := .off, subValid := false, idleTicks := 0 }
  else s

/-! ## The wake sequence (R31–R34) -/

/-- Clock loss `b` of R38: its `SYS.PWRSTAT` bit, `EVRAW.CLOCK` when a loss bit becomes 1, and FS40. -/
def State.clockLost (s : State) (b : Nat) : State :=
  let seen := bit (s.rd Reg.SYS_PWRSTAT) b
  let s := s.orReg Reg.SYS_PWRSTAT (bitAt b)
  let s := if seen then s else s.ev Fd.SYS_EVRAW_CLOCK
  s.raise 40 b 0

/-- WAKE runs: the interrupt controller and the Almanac take in what came before (R38, R363). -/
def State.wakeTakeIn (s : State) : State := (s.almanacCatchUp).intcWake

/-- WAKE_STABLE: step 2 of the wake sequence (R32). -/
def State.wakeStable (s : State) : State :=
  if s.power.state = .awake ∧ !s.power.wakeRuns then
    (s.setPower { s.power with wakeRuns := true, wakeFail := false, pll := .locking }).wakeTakeIn
  else s

/-- ENG_LOCK: step 5 of the wake sequence (R32). -/
def State.engLock (s : State) : State :=
  if s.power.state = .awake ∧ s.power.wakeRuns ∧ s.power.pll = .locking then
    ({ s with sub := 0 } : State).setPower { s.power with state := .full, pll := .locked, subValid := false }
  else s

/-- PLL_LOCK_TIMEOUT: ENG has not locked 100 µs after the PLL was enabled (R34), or the lock detector reports the loss of
ENG and LINK in FULL, which is answered in the same way (R38). -/
def State.pllTimeout (s : State) : State :=
  if (s.power.state = .awake ∧ s.power.pll = .locking) ∨ s.power.state = .full then
    (s.setPower { s.power with state := .awake, pll := .failed, subValid := false,
                               retryTick := s.ticks + s.f Fd.SYS_PWRCTRL_IDLE }).clockLost 4
  else s

/-- PLL_LOCK_RETRY (R34). -/
def State.pllRetry (s : State) : State :=
  if s.power.state = .awake ∧ s.power.pll = .failed ∧ s.power.retryTick ≤ s.ticks then s.setPower { s.power with pll := .locking } else s

/-! ## Clock monitors (R38–R40) -/

/-- AO_XTAL_LOST: AO switches to the RC (R38). -/
def State.xtalLost (s : State) : State :=
  if s.f Fd.SYS_PWRSTAT_AOSRC = 0 then (s.setF Fd.SYS_PWRSTAT_AOSRC 1).clockLost 3 else s

/-- XTAL_RETURN: AO switches back to the crystal at a tick edge (R40); XTALLOST stays. -/
def State.xtalReturn (s : State) : State :=
  if s.fb Fd.SYS_PWRCTRL_XTALRET ∧ s.atEdge then s.setF Fd.SYS_PWRSTAT_AOSRC 0 else s

/-- PWM_OSC_LOST: every loop to mid-level and reported faulted (R38, R142). -/
def State.pwmLost (s : State) : State := (s.clockLost 6).loopsPwmLost

/-- GAUGE_OSC_LOST (R38, R250). -/
def State.gaugeLost (s : State) : State :=
  if s.power.gaugeOk then ((s.setPower { s.power with gaugeOk := false }).clockLost 7).gaugeOscLost else s

/-- WAKE_OSC_FAIL: back to FALLOW (R38). -/
def State.wakeFailed (s : State) : State :=
  if s.power.state = .awake ∧ !s.power.wakeRuns then
    let s := s.clockLost 5
    s.setPower { s.power with state := .fallow, wakeRuns := false, pll := .off, wakeFail := true, retryTick := s.ticks + 1 }
  else s

/-- The retry once per AO tick of a WAKE that failed to start (R38). -/
def State.wakeRetry (s : State) : State :=
  if s.power.state = .fallow ∧ s.power.wakeFail ∧ s.power.retryTick ≤ s.ticks then (s.setPower { s.power with wakeFail := false }).wakeUp else s

end Sys2Proof.Machine
end

