-- ==== Sys2Proof/Machine/Reset.lean ====
section
/-! DEFINITION. Resets and the boot flow (R202–R209, R334–R337): power-on, chip reset, collapse release, the thermal hold,
block resets, and the reload of settings from the BOOT shadow. -/

namespace Sys2Proof.Machine

/-! ## BOOT records (R404) -/

/-- A record may be applied: not to SYS, HOSTIF, PLAN or a window, to OTP only RLOCK and WLOCK, and not where the write
would be discarded. -/
def State.recordable (s : State) (a : Nat) : Bool :=
  match regionOf (busWordAddr a) with
  | .page p =>
    let off := busWordAddr a % 0x1000
    p != 0 && p != 1 && p != 2 && (p != 0x14 || 0x14000 + off == Reg.OTP_RLOCK || 0x14000 + off == Reg.OTP_WLOCK) &&
      s.writeReason .boot (busWordAddr a) == 0
  | _ => false

/-- Records applied in order; the counts of BOOTSTAT are those of this application. -/
def State.applyRecords (s : State) (rs : List (Nat × Word)) : State :=
  let (s, n, m) := rs.foldl (fun (acc : State × Nat × Nat) r =>
    let (s, n, m) := acc
    if s.recordable r.1 then (s.busWrite .boot (busWordAddr r.1) r.2, n + 1, m) else (s, n, m + 1)) (s, 0, 0)
  (s.setF Fd.OTP_BOOTSTAT_APPLIED (min 255 n)).setF Fd.OTP_BOOTSTAT_SKIP (min 255 m)

/-- OTP_CMD_COMPLETE (R406): REAPPLY applies the shadow's records when it completes. -/
def State.otpDone (s : State) (o : OtpSense) : State :=
  match s.otp.cmd with
  | some c => (if c.op = 6 then s.applyRecords s.bootRecords else s).otpComplete o
  | none => s

/-! ## Registers over a reset (R208) -/

/-- Bits of a GAUGE register that a chip reset keeps (R256): the results, RM, FCC and CTRL.EN. -/
def gaugeKeep (a : Nat) (r : RegRow) : Word :=
  if a = Reg.GAUGE_RM ∨ a = Reg.GAUGE_FCC then 0xFFFFFFFF
  else if a = Reg.GAUGE_CTRL then 1
  else ~~~(r.rw ||| r.w1c ||| r.sc ||| r.roc ||| r.wo)

/-- The bits of a register word that a chip reset keeps: the AO domain, the gauge's results, ASTATE and BOOTNO (R208, R371,
R377); into the thermal hold, the whole THERM page (R335; log entry 46). -/
def chipKeep (hold : Bool) (a : Nat) : Word :=
  if 0x100000 ≤ a then 0
  else
    let page := a / 0x1000
    match findRow page (a % 0x1000) with
    | none => 0
    | some r =>
      if hold && page == 0xF then 0xFFFFFFFF
      else if page = 0xE then gaugeKeep a r
      else if a = Reg.RECORD_STAT then maskBits Fd.RECORD_STAT_ASTATE.lo Fd.RECORD_STAT_ASTATE.width
      else if a = Reg.RECORD_BOOTNO then 0xFFFFFFFF
      else r.ao

/-- Register words with the bits outside `keep` at their reset values, in canonical form. -/
def resetRegs (keep : Nat → Word) (regs : List (Nat × Word)) : List (Nat × Word) :=
  regs.filterMap fun p =>
    let w := (p.2 &&& keep p.1) ||| (resetWord p.1 &&& ~~~keep p.1)
    if w = resetWord p.1 then none else some (p.1, w)

/-- The settings of a page reloaded (R170, R346): their reset values, then the page's records. `skip` gives the bits of a
register that are no settings. -/
def State.reloadPage (s : State) (page : Nat) (skip : Nat → Word) : State :=
  let keep (a : Nat) : Word :=
    if a / 0x1000 = page then
      match findRow page (a % 0x1000) with
      | some r => ~~~(r.rw ||| r.sc) ||| skip (a % 0x1000) ||| r.ao
      | none => 0xFFFFFFFF
    else 0xFFFFFFFF
  let s := { s with regs := resetRegs keep s.regs }
  s.applyRecords (s.bootRecords.filter fun r => busWordAddr r.1 / 0x1000 == page)

/-! ## Power-on and power loss of the AO domain (R28) -/

/-- Record flash cells after a loss of power. -/
def State.rflashTorn (s : State) : State :=
  match s.rflash.busy with
  | some o => (s.recTorn o).setRec { (s.recTorn o).rflash with busy := none }
  | none => s

/-- The AO power-on reset asserts: only the non-volatile stores keep their contents (R28, R208). Where the appends and
archives of external flash go on afterwards is not stated: unspecified places (log entry 62). -/
def State.aoReset (s : State) (ao : Bool) : State :=
  let s := (((s.otpCut).rflashTorn).xflashTorn 0).xflashTorn 1
  let f := s.freeCtr
  { State.reset with
    pending := s.pending
    freeCtr := f + 5
    power := { State.reset.power with ao := ao }
    rflash := { RecFlash.init with cells := s.rflash.cells }
    xflash := { XFlash.init with cells := s.xflash.cells, mirPage := Config.freeNat f, healthPos := 256 * Config.freeNat (f + 1),
                                 gaugePos := 256 * Config.freeNat (f + 2), archBlock := Config.freeNat (f + 3), archNo := Config.freeNat (f + 4) }
    health := { State.reset.health with keptRev := s.health.keptRev, keptLow := s.health.keptLow }
    otp := { s.otp with cmd := none, overridden := [] } }

/-- AO_POWER_ON: the AO supply rises through 2.2 V. -/
def State.aoPowerOn (s : State) : State := if s.power.ao then s else s.aoReset true

/-- AO_POWER_LOSS: the AO supply falls below 2.2 V. -/
def State.aoPowerLoss (s : State) : State := if s.power.ao then s.aoReset false else s

/-! ## Chip reset (R207, R208) -/

/-- Every slot, loop, rail and EXT enable off without order, the path's drives off, the ports released, RSTO# asserted. -/
def State.outputsOff (s : State) : State :=
  let s := (List.range 32).foldl (fun (t : State) k => t.slotKill k) s
  let s := (List.range 4).foldl (fun (t : State) n => t.loopKill n) s
  let s := { s.pathKill with links := [] }
  let s := (List.range 8).foldl (fun (t : State) p => (t.wr (Reg.LINK_STAT p) 0).setF (Fd.LINK_CTRL_EN p) 0) s
  s.setSeq { s.seq with rsto := false, rstoDue := none }

/-- Record-flash work over a reset (R458): the device's own work is kept, a RECORD.CMD and the freeze copies are not; the
operation under way completes. -/
def State.recReset (s : State) : State :=
  let mine (j : RecJob) : Bool := j.kind != .cmdShutdown && j.kind != .cmdTails && j.kind != .freeze
  let busy := s.rflash.busy.map fun o => match o.job with
    | some j => if mine j then o else if j.kind = .cmdShutdown then { o with job := some { j with kind := .shutdown } } else { o with job := none }
    | none => o
  s.setRec { s.rflash with queue := s.rflash.queue.filter mine, busy := busy }

/-- External-flash work over a reset (R458): an operation under way completes; appends are kept, a FLASH.HCMD, a mirror
group and the archive are not. -/
def State.xflashReset (s : State) : State :=
  let keep (j : FlashJob) : Bool := j.kind == .health || j.kind == .gauge
  let one (s : State) (cs : Nat) : State :=
    match s.xflash.busy cs with
    | some j =>
      let s := match s.jobOp j with
        | some (.read _ _ _) => s
        | some o => s.flashCommit o
        | none => s
      let rest := s.jobNext j
      s.setX { s.xflash.setBusy cs none with queue := if keep j ∧ rest.ops ≠ [] then rest :: s.xflash.queue else s.xflash.queue }
    | none => s
  let s := one (one s 0) 1
  s.setX { s.xflash with queue := s.xflash.queue.filter keep, disc := false, discDone := false, discOwed := false }

/-- The slots after a chip reset: only the time since each reached OFF goes on (R198). -/
def State.slotsReset (s : State) : State :=
  s.setSeq { s.seq with slots := s.seq.slots.foldl (fun l p => tset (fun _ => Slot.init) l p.1 { Slot.init with minoffDue := p.2.minoffDue }) [] }

/-- Outputs off and work in progress ended (R208, R458). -/
def State.chipStop (s : State) : State :=
  let s := ((s.outputsOff.proveEnd 8).otpCut).engineReset
  ((s.recReset).xflashReset).slotsReset

/-- Registers, ports and block state at their reset values, AO-domain fields kept; `charging` says that the charger was on. -/
def State.chipFields (s : State) (hold charging : Bool) : State :=
  { s with
    regs := resetRegs (chipKeep hold) s.regs
    hostA := HostPort.init
    hostB := HostPort.init
    burst := none
    held := []
    reads := []
    eng := { s.eng with planBank := 0 }
    resetReq := ⟨[], false, false⟩
    path := { Path.init with offAt := if charging then some s.ticks else s.path.offAt }
    adc := ⟨[], 0, false, s.ticks⟩
    health := { s.health with probe := none, loops := [] }
    loops := []
    trim := ⟨1, 1⟩
    resTimers := []
    links := [] }

/-- What is judged again after the reset: timers, interrupts, the external fault input, thermal levels, spares. -/
def State.chipTail (s : State) (hold : Bool) : State :=
  let s := (s.timersReset).intcReset
  let s := s.endLevel 44
  let s := if hold then s
    else (s.setTherm { s.therm with fails := [], above := [], below := [], cond := [], cool := none, holding := false }).thermHold
  let s := s.setF Fd.HEALTH_SPARESTAT_RECRES (100 - s.rflash.remap.length)
  s.setFb Fd.HEALTH_SPARESTAT_DIESPARE (decide (s.f Fd.THERM_STAT_SUBPOS < 8))

/-- The chip reset of every block (R208): settings at reset values, AO-domain fields kept; into the thermal hold the THERM
page and the thermal block are kept too (R335). -/
def State.chipClear (s : State) (hold : Bool) : State :=
  ((s.chipStop).chipFields hold (s.chg != chOff)).chipTail hold

/-- Clocks at step 2 of the boot flow: WAKE runs and the PLL is started (R202). The Almanac is clocked again. -/
def State.bootClocks (s : State) : State :=
  (s.setPower { s.power with state := .awake, wakeRuns := true, wakeFail := false, pll := .locking, subValid := false,
                             idleTicks := 0 }).almanacCatchUp

/-- A chip reset: every block, then the boot flow from step 2 (R207). -/
def State.chipReset (s : State) : State :=
  let c := s.rflash.counters
  let s := s.setRec { s.rflash with counters := { c with chipResets := satInc (2 ^ 32 - 1) c.chipResets } }
  let s := (s.chipClear false).bootClocks
  s.setSeq { s.seq with stage := .step2, step6 := false, rsto := false, rstoDue := none, reload := false, hold := false }

/-- RESET# low for 1 µs (R207): in the hold it does not end the hold (R335). -/
def State.resetPin (s : State) : State :=
  if s.seq.resetPin then s
  else
    let s := s.setSeq { s.seq with resetPin := true }
    if s.power.state = .off then s
    else ({ s with resetReq := { s.resetReq with chip := true } } : State).orReg Reg.SEQ_RSTCAUSE 2

/-- RESET# returns high: the boot flow goes on from step 2. -/
def State.resetPinHigh (s : State) : State := s.setSeq { s.seq with resetPin := false }

/-- A collapse release (R206): every output off without order, held in OFF; with VIN back at 8.0 V the boot flow starts at
once. `vin` is VIN when the release is complete. Record work not yet started is lost (R458). A device that waits for VIN has
nothing to release. -/
def State.collapse (s : State) (vin : Nat) : State :=
  if s.seq.stage = .waitVin then s
  else
    let s := s.orReg Reg.SEQ_RSTCAUSE 16
    let c := s.rflash.counters
    let s := s.setRec { s.rflash with counters := { c with collapse := satInc (2 ^ 32 - 1) c.collapse } }
    let s := s.chipClear false
    let s := (s.setRec { s.rflash with queue := [] }).setX { s.xflash with queue := [] }
    let s := if s.gauge.writing.isSome ∧ !s.recPending .gauge then
        (s.setGauge { s.gauge with writing := none, failed := false, again := false }).setF Fd.GAUGE_STAT_STOREPEND 0
      else s
    let s := s.setPower { s.power with state := .off, wakeRuns := false, wakeFail := false, pll := .off, subValid := false, idleTicks := 0 }
    let s := { s with plant := { s.plant with vin := some vin } }
    s.setSeq { s.seq with stage := if 8000 ≤ vin then .step1 else .waitVin, step6 := false, rsto := false, rstoDue := none,
                          reload := false, hold := false }

/-! ## Die shut-down, the hold and the Thaw (R334–R336) -/

/-- The die shut-down reflex at position `k` (R334). -/
def State.dieShutdown (s : State) (k : Nat) : State :=
  if s.power.state = .off ∨ s.seq.hold ∨ s.therm.holding ∨ !s.posIn k then s
  else
    let ho := s.ho
    let chg := s.chg
    let mask := s.onMask
    let s := (s.outputsOff).haltAll
    let s := s.raise 5 0 k
    let s := (s.setF Fd.THERM_STAT_TSD 1).incF Fd.THERM_TSDCNT_TOTAL
    let c := s.rflash.counters
    let s := s.setRec { s.rflash with counters := { c with dieShut := satInc (2 ^ 32 - 1) c.dieShut } }
    let need := decide (s.f Fd.THERM_CTRL_THAWMAX ≤ min 15 s.thawsKept.length)
    let s := s.setTherm { s.therm with needKey := need, holding := true }
    (s.recRing .shutdown .shutdown fun _ => s.tsdRecord k ho chg mask).recStart

/-- SHUTDOWN_RECORD_WRITTEN: the record is written, or was abandoned; the hold begins (R335). -/
def State.holdBegin (s : State) : State :=
  if s.therm.holding ∧ (!s.recPending .shutdown ∨ !s.portUp) then
    let s := ((s.chipClear true).bootClocks).setF Fd.THERM_STAT_HELD 1
    let s := s.setTherm { s.therm with holding := false, cool := none }
    s.setSeq { s.seq with stage := .step2, step6 := false, rsto := false, rstoDue := none, reload := false, hold := true }
  else s

/-- A Thaw: the boot flow runs from step 2 (R336). -/
def State.thaw (s : State) : State :=
  let keep (a : Nat) : Word := if a / 0x1000 = 0xF then chipKeep false a else 0xFFFFFFFF
  let s := { s with regs := resetRegs keep s.regs }
  let s := (s.setTherm { s.therm with fails := [], above := [], below := [], cond := [], cool := none, needKey := false, thawed := true }).thermHold
  s.setSeq { s.seq with hold := false }

/-- THAW_AUTO (R336). -/
def State.thawAuto (s : State) : State := if s.thawReady ∧ s.thawsAlone then s.countThaw.thaw else s

/-! ## The boot flow (R202) -/

/-- BOOT_START: VIN at 8.0 V (step 1). -/
def State.bootStart (s : State) : State :=
  if s.seq.stage = .waitVin then s.setSeq { s.seq with stage := .step1 } else s

/-- BOOT_SUPPLIES_READY: VDRV and VCORE in regulation, WAKE runs (step 2). -/
def State.bootSupplies (s : State) : State :=
  if s.seq.stage = .step1 then s.bootClocks.setSeq { s.seq with stage := .step2 } else s

/-- The device stays at step 2: RESET# low, or the thermal hold. -/
def State.heldInReset (s : State) : Bool := s.seq.resetPin || s.seq.hold

/-- BOOT_TRIM_READ_DONE: step 3. -/
def State.bootTrimDone (s : State) (o : OtpSense) (bad : List Nat) : State :=
  if s.seq.stage = .step2 ∧ !s.heldInReset then
    let s := s.bootTrim o bad
    s.setSeq { s.seq with stage := .step4 }
  else s

/-- What power-on reads back from record flash by the end of step 5 (R371): remap table, counters with the causes in
RSTCAUSE added, BOOTNO, and a counters slot queued. -/
def State.recoverRecords (s : State) : State :=
  let (r, n) := s.rflash.recover
  let cause := s.rd Reg.SEQ_RSTCAUSE
  let resets := b2n (bit cause 1) + b2n (bit cause 2) + b2n (bit cause 3)
  let c := r.counters
  let r := { r with counters := { c with collapse := min (2 ^ 32 - 1) (c.collapse + b2n (bit cause 4)),
                                         chipResets := min (2 ^ 32 - 1) (c.chipResets + resets) } }
  let s := (s.setRec r).setF Fd.RECORD_BOOTNO_BOOTNO (n + 1)
  let s := s.setF Fd.HEALTH_SPARESTAT_RECRES (100 - r.remap.length)
  s.recCounters

/-- The freeze copies begin again after a reset (R377, R458). -/
def State.refreeze (s : State) : State := 
  if s.f Fd.RECORD_STAT_ASTATE = 2 then
    ({ s with almanac := { s.almanac with archWait := true } } : State).queueTails .freeze
  else s

/-- Steps 4 and 5, the settings: the shadow, the class, what power-on recovers, the records, and the BOOTON requests. -/
def State.bootApply (s : State) (o : OtpSense) : State :=
  let cold := s.seq.cold
  let s := s.bootShadow o
  let s := s.setF Fd.SYS_CONFIG_CLASS (getBits (s.shadow 192) 0 1)
  let s := if cold then s.recoverRecords else s
  let s := s.setSeq { s.seq with stage := .running, cold := false }
  let s := s.applyRecords s.bootRecords
  (bitList 32 (s.rd Reg.SEQ_BOOTON).toNat).foldl (fun (t : State) k => (t.slotOn k).1) s

/-- The blocks that restore themselves at step 5; `cold` says that the AO domain has just powered on. -/
def State.bootRestore (s : State) (cold : Bool) : State :=
  let s := s.almanacMark 1 (s.f Fd.RECORD_BOOTNO_BOOTNO) (s.rd Reg.SEQ_RSTCAUSE).toNat
  let s := s.healthRestore
  let s := if cold then s.gaugeRestore else s
  (s.intcBoot).refreeze

/-- A Thaw is reported once the boot flow has passed step 5 (R336). -/
def State.bootThawed (s : State) : State :=
  if s.therm.thawed then (s.ev Fd.THERM_EVRAW_THAWED).setTherm { s.therm with thawed := false } else s

/-- BOOT_SHADOW_LOADED: steps 4 and 5; then the boot plan's load begins (step 6). -/
def State.bootShadowDone (s : State) (o : OtpSense) : State :=
  if s.seq.stage = .step4 ∧ !s.heldInReset then
    ((((s.bootApply o).bootRestore s.seq.cold).bootThawed).loadStart .otp).recStart
  else s

/-- Step 6 ends when the boot plan's load has ended (R203). -/
def State.step6Judge (s : State) : State :=
  if s.seq.stage = .running ∧ !s.seq.step6 ∧ s.eng.load.isNone then s.setSeq { s.seq with step6 := true } else s

/-! ## Input supervisors (R204, R205, R340) -/

/-- VIN below 7.5 V (R205). -/
def State.vinUv (s : State) (vin : Nat) : State :=
  if vin < 7500 ∧ s.power.state ≠ .off ∧ !(s.src 0).hw then
    ({ s with plant := { s.plant with vin := some vin } } : State).raiseLevel 0 0 0
  else s

/-- VIN above 38.0 V for 10 µs. -/
def State.vinOv (s : State) (vin : Nat) : State :=
  if 38000 < vin ∧ s.power.state ≠ .off ∧ !(s.src 1).hw then
    ({ s with plant := { s.plant with vin := some vin } } : State).raiseLevel 1 0 0
  else s

/-- VHOLD below VHOLD_MIN for 10 µs, once it has reached 10.0 V since power-on. -/
def State.vholdLow (s : State) (vhold : Nat) : State :=
  if vhold < 6000 ∧ s.seq.vholdArmed ∧ s.power.state ≠ .off ∧ !(s.src 3).hw then
    ({ s with plant := { s.plant with vhold := some vhold } } : State).raiseLevel 3 0 0
  else s

/-- VHOLD reaches 10.0 V: FS3 is armed, and a waiting background erase may start (R340, R370). -/
def State.vholdCharged (s : State) : State :=
  let v := max 10000 (s.plant.vhold.getD 0)
  let s := { s with plant := { s.plant with vhold := some v } }
  (s.setSeq { s.seq with vholdArmed := true }).recStart

/-! ## Block resets (R208, R346, R457) -/

/-- No bit is skipped. -/
def skipNone (_ : Nat) : Word := 0

/-- Bits outside the listed offsets are skipped. -/
def skipBut (offs : List Nat) (off : Nat) : Word := if offs.contains off then 0 else 0xFFFFFFFF

/-- The rails block reset (R170): B0, B1, L0–L3 and every assigned EXT enable off without order, then the
settings; a supervisor that they leave disabled is out of window (R180). -/
def State.railsReset (s : State) : State :=
  let s := [4, 5, 6, 7, 8, 9].foldl (fun (t : State) k => t.slotKill k) s
  let s := (List.range 8).foldl (fun (t : State) n => if t.fb (Fd.RAILS_VMONCFG_GPIOEN n) then t.slotKill (10 + n) else t) s
  let s := s.reloadPage 0xB skipNone
  (List.range 8).foldl (fun (t : State) n =>
    if t.fb (Fd.RAILS_VMONCFG_EN n) then t else t.clrReg Reg.RAILS_STAT (bitAt (16 + n))) s

/-- A block reset of the plan engine: the plan in use is loaded again; with none, every thread is halted, takes its reset
values and leaves the ledger (R80, R109). -/
def State.planBlockReset (s : State) : State :=
  match planSrcOf (s.f Fd.SYS_STAT_PLANSRC) with
  | some src => s.loadStart src
  | none =>
    let s := (List.range 16).foldl (fun (t : State) i => t.ledgerLeave i) s
    s.setEng { s.eng with threads := [], ledgerQ := s.eng.ledgerQ.filter fun q => q.1 == .host || q.1 == .link }

/-- A block reset that a reaction has asked for. -/
def State.blockReset (s : State) (b : Block) : State :=
  match b with
  | .seq =>
    let s := s.downRun ((List.range 32).filter fun k => s.slotSt k != slOff)
    let s := (List.range 32).foldl (fun (t : State) k => t.setPend k false) s
    s.setSeq { s.seq with reload := true }
  | .rails => s.railsReset
  | .loop n => s.slotOffReq n
  | .therm => (s.reloadPage 0xF skipNone).thermBlockReset
  | .health => (s.healthBlockReset).reloadPage 0xA skipNone
  | .path => s.reloadPage 0xD fun off => if off = 0x004 then 0xFFFFFFFF else 0
  | .gauge =>
    let s := s.gaugeBlockReset
    s.reloadPage 0xE fun off =>
      if 0xE000 + off = Reg.GAUGE_RM ∨ 0xE000 + off = Reg.GAUGE_FCC then 0xFFFFFFFF else if off = 0x004 then 1 else 0
  | .link n => s.linkBlockReset n
  | .ledger => (s.reloadPage 0x3 skipNone).ledgerBlockReset
  | .plan => s.planBlockReset
  | .recordB => s.reloadPage 0x12 (skipBut [0x004, 0x048, 0x068])
  | .flash =>
    let s := s.reloadPage 0x13 (skipBut [0x004, 0x040, 0x048])
    if s.eng.load.isSome then s.setX { s.xflash with discOwed := true } else s.discBegin

/-- The rail table reloaded when the run of a SEQ block reset has ended (R208). -/
def State.seqReload (s : State) : State :=
  if s.seq.reload ∧ !s.fb Fd.SEQ_STAT_RUN then (s.setSeq { s.seq with reload := false }).reloadPage 0xC skipNone else s

end Sys2Proof.Machine
end

