-- ==== Sys2Proof/Machine/Settle.lean ====
section
/-! DEFINITION. What follows a command before the next one is taken: the resets it asked for, and the levels that other
blocks watch without a command of their own. And the clock of an idle block. -/

namespace Sys2Proof.Machine

/-! ## Resets that a command asked for (R207, R336, R343, R346) -/

/-- Resets asked for that the hold, or a die shut-down whose record is being written, takes no notice of (R335). -/
def State.resetsHeld (s : State) : Bool := s.seq.hold || s.therm.holding

/-- The resets asked for are carried out: a chip reset replaces block resets; block resets follow in the order of their
raises; a Thaw's key ends the hold. -/
def State.doResets (s : State) : State :=
  let r := s.resetReq
  let s : State := { s with resetReq := ⟨[], false, false⟩ }
  if r.thaw then s.thaw
  else if s.resetsHeld then s
  else if r.chip then s.chipReset
  else if s.portUp then r.blocks.foldl State.blockReset s
  else s

/-- Something is asked for. -/
def ResetReq.any (r : ResetReq) : Bool := !r.blocks.isEmpty || r.chip || r.thaw

/-! ## Levels between blocks -/

/-- Every block takes in what another has changed: writes held for a clock, the rail table, the ports, the ledger's totals, the health limits, the
power path, the proving run, the gauge's store, the probe, the boot flow, the mirror, the Almanac, the OTP status. -/
def State.settleBlocks (s : State) : State :=
  if s.portUp then
    let s := if s.held.isEmpty then s else s.heldApply
    let s := (s.seqSettle).seqReload
    let s := (s.pathSettle).capUpkeep
    let s := (s.linkSettle).ledgerJudge
    let s := ((s.proveRule).gStoreTake).probeWatch s.hot
    let s := ((((s.step6Judge).mirrorUpkeep).almanacSpent).recStart).archUpkeep
    (s.otpStat).otpBusy
  else s

/-- The idle count of R29 starts again while its conditions do not hold. -/
def State.settleIdle (s : State) : State := if s.idleNow then s else s.setPower { s.power with idleTicks := 0 }

/-- Resets, then levels, then the resets that those have asked for, at most `n` rounds. -/
def settleN : Nat → State → State
  | 0, s => s
  | n + 1, s =>
    let s := s.doResets.settleBlocks
    if s.resetReq.any then settleN n s else s

/-- What follows every command. -/
def State.settle (s : State) : State := (settleN 4 s).settleIdle

/-! ## Commands -/

/-- A command: with the AO domain down nothing acts (R28). -/
def act (s : State) (f : State → State) : Out := .next (if s.power.ao then (f s).settle else s)

/-- A row that changes nothing outside the engine's own reach. -/
def row (s : State) (f : State → State) : Out := .next (if s.power.ao then f s else s)

/-- The end of a row's wait: a thread made ready breaks the idle count of R29. -/
def ready (s : State) (f : State → State) : Out := .next (if s.power.ao then (f s).settleIdle else s)

/-- An event of a block that is in reset until the boot flow has passed step 5 (R202, R335). -/
def live (s : State) (f : State → State) : Out := act s fun s => if s.portUp then f s else s

/-- An event of a block that runs in every power state but OFF (R27). -/
def awake (s : State) (f : State → State) : Out := act s fun s => if s.power.state = .off then s else f s

/-- A register write by one of the writers of R8 takes effect: a host's where the page is accessible and the write is not
discarded (R64), a row's outside the ranges closed to rows (R89), a BOOT record's under R404. -/
def State.mayWrite (s : State) (w : Writer) (a : Nat) : Bool :=
  match w with
  | .host _ => s.pagesRun && s.accessible a && s.writeReason w a == 0
  | .row _ => s.pagesRun && s.portUp && !forbidden a && regionOf a != .planMem
  | .boot => s.recordable a

/-- A register write by one of the writers of R8. -/
def State.regWrite (s : State) (w : Writer) (a : Nat) (d : Word) : State := if s.mayWrite w a then s.busWrite w a d else s

/-- A command that is a register write. -/
def write (s : State) (w : Writer) (a : Nat) (d : Word) : Out := act s fun s => s.regWrite w (busWordAddr a) d

/-! ## The clock of an idle block (log entry 4) -/

/-- An AO tick edge: the sub-tick counter aligns and is valid from here in FULL (R41), the idle count, sources that enter
LULL (R347), the charger's safety timer (R231), the rails' start ramps (R173). -/
def State.tickEdge (s : State) : State :=
  let s : State := { s with ticks := s.ticks + 1, sub := 0 }
  let s := s.setPower { s.power with subValid := decide (s.power.state = .full) }
  let s := s.idleTick
  ((s.lullEdge).safetyTick).railTick

/-- SUBTICK_ALIGN: step 6 of the wake sequence is the first AO tick edge after ENG lock (R32, R41). -/
def State.subtickAlign (s : State) : State :=
  if s.power.state = .full ∧ !s.power.subValid then s.tickEdge else s

/-- One ENG cycle in FULL, else one AO tick (R26, R41). -/
def State.clock (s : State) : State :=
  if !s.power.ao then s
  else if s.power.state = .full ∧ s.sub < 6103 then { s with sub := s.sub + 1 }
  else s.tickEdge

end Sys2Proof.Machine
end

