-- ==== Sys2Proof/Machine/CmdConv.lean ====
section
/-! DEFINITION. The multiphase converter: the meaning of each of its commands. -/

namespace Sys2Proof.Machine

/-- PHASE_ASSIGN_WRITE (R112). -/
def execPhaseAssignWrite (w : Writer) (k : Fin 16) (d : Word) (s : State) : Out := write s w (Reg.PHASE_ASSIGN k) d

/-- LOOP_ON_REQUEST (R197). -/
def execLoopOnRequest (w : Writer) (n : Fin 4) (d : Word) (s : State) : Out := write s w (Reg.LOOP_CTRL n) (d ||| 1)

/-- LOOP_OFF_REQUEST (R197). -/
def execLoopOffRequest (w : Writer) (n : Fin 4) (d : Word) (s : State) : Out := write s w (Reg.LOOP_CTRL n) (d &&& ~~~1)

/-- LOOP_START_COMPLETE (R122). -/
def execLoopStartComplete (n : Fin 4) (vout : Nat) (s : State) : Out := live s fun s => s.loopStarted n vout

/-- TARGET_WRITE (R121). -/
def execTargetWrite (w : Writer) (n : Fin 4) (d : Word) (s : State) : Out := write s w (Reg.LOOP_TARGET n) d

/-- SLEW_DONE (R121). -/
def execSlewDone (n : Fin 4) (s : State) : Out := live s fun s => s.slewDone n

/-- SOFTOFF_DONE (R122). -/
def execSoftoffDone (n : Fin 4) (s : State) : Out := live s fun s => s.softoffDone n

/-- PERIOD_START (R131). -/
def execPeriodStart (n : Fin 4) (vout : Nat) (ms : List PhaseMeas) (s : State) : Out := live s fun s => s.periodBegin n vout ms

/-- SHED_COMMIT (R131). -/
def execShedCommit (k : Fin 16) (s : State) : Out := live s fun s => s.shedCommit k

/-- PHASE_ADDED (R131). -/
def execPhaseAdded (k : Fin 16) (s : State) : Out := live s fun s => s.phaseAdded k

/-- SHED_INHIBIT_END (R131). -/
def execShedInhibitEnd (n : Fin 4) (s : State) : Out := live s fun s => s.shedInhibitEnd n

/-- BURST_ENTRY (R129). -/
def execBurstEntry (n : Fin 4) (s : State) : Out := live s fun s => s.burstEntry n

/-- BURST_TICK (R129). -/
def execBurstTick (n : Fin 4) (vout : Nat) (s : State) : Out := live s fun s => s.burstTick n vout

/-- GUST_TRIP (R133). -/
def execGustTrip (n : Fin 4) (vout : Nat) (s : State) : Out := live s fun s => s.gustTrip n vout

/-- PHASE_CURRENT_LIMIT (R135). -/
def execPhaseCurrentLimit (k : Fin 16) (t : Nat) (uv : Int) (s : State) : Out := live s fun s => s.phaseLimit k t uv

/-- LOOP_OC_FAULT (R137). -/
def execLoopOcFault (n : Fin 4) (vout : Nat) (s : State) : Out := live s fun s => s.loopOc n vout

/-- NEGATIVE_CURRENT_LIMIT (R136). -/
def execNegativeCurrentLimit (k : Fin 16) (uv : Int) (s : State) : Out := live s fun s => s.negLimit k uv

/-- OV_CROWBAR (R138). -/
def execOvCrowbar (n : Fin 4) (vout : Nat) (s : State) : Out := live s fun s => s.crowbar n vout

/-- CROWBAR_RELEASE (R139). -/
def execCrowbarRelease (n : Fin 4) (vout : Nat) (s : State) : Out := live s fun s => s.crowbarRelease n vout

/-- LOOP_UV_FAULT (R140). -/
def execLoopUvFault (n : Fin 4) (vout : Nat) (s : State) : Out := live s fun s => s.loopUv n vout

/-- LOOP_PGOOD_LOST (R125). -/
def execLoopPgoodLost (n : Fin 4) (vout : Nat) (s : State) : Out := live s fun s => s.pgoodLost n vout

/-- STAGE_FAULT (R141). -/
def execStageFault (s : State) : Out := live s State.stageFault

/-- SYNC_LOCK (R127). -/
def execSyncLock (per : Nat) (s : State) : Out := live s fun s => s.syncLock per

/-- SYNC_LOSS (R127). -/
def execSyncLoss (s : State) : Out := live s State.syncLoss

/-- LOOP_PGOOD_REGAINED (R125). -/
def execLoopPgoodRegained (n : Fin 4) (vout : Nat) (s : State) : Out := live s fun s => s.pgoodRegained n vout

end Sys2Proof.Machine
end

