-- ==== Sys2Proof/Machine/CmdFault.lean ====
section
/-! DEFINITION. The fault collector and the interrupt controller: the meaning of each of its commands. -/

namespace Sys2Proof.Machine

/-- The pending word: 0 and 1 shared, 2 the private bank of the writing host or of processor A, 3 of processor B. -/
def pendAddr (i : Fin 4) : Nat :=
  match i with
  | 0 => Reg.INTC_PEND0
  | 1 => Reg.INTC_PEND1
  | 2 => Reg.INTC_PPEND 0
  | 3 => Reg.INTC_PPEND 1

/-- The configuration register of a source: 0–63 shared, 64–79 as offset 0x200, 80–95 as offset 0x300. -/
def cfgAddr (k : Nat) : Nat :=
  if k < 64 then Reg.INTC_CFG k else if k < 80 then Reg.INTC_PCFG 0 (k - 64) else Reg.INTC_PCFG 1 (k - 80)

/-- FAULT_ENDED (R347). -/
def execFaultEnded (k : Fin 48) (s : State) : Out := awake s fun s => s.faultEnded k

/-- LULL_EXPIRE (R348). -/
def execLullExpire (k : Fin 48) (s : State) : Out := awake s fun s => s.lullExpire k

/-- FAULT_CLEAR (R349). -/
def execFaultClear (w : Writer) (i : Fin 2) (d : Word) (s : State) : Out := write s w (Reg.FAULT_CLEAR i) d

/-- REACT_WRITE (R342). -/
def execReactWrite (w : Writer) (k : Fin 48) (d : Word) (s : State) : Out := write s w (Reg.FAULT_REACT k) d

/-- HISTORY_CLEAR (R351). -/
def execHistoryClear (p : Proc) (s : State) : Out := write s (.host p) Reg.FAULT_CTRL 1

/-- EXT_FAULT_IN (R354). -/
def execExtFaultIn (active : Bool) (s : State) : Out := live s fun s => s.extFault active

/-- EXTIN_WRITE (R354). -/
def execExtinWrite (w : Writer) (d : Word) (s : State) : Out := write s w Reg.FAULT_EXTIN d

/-- INTC_SOURCE_EDGE (R357). -/
def execIntcSourceEdge (i : Fin 96) (s : State) : Out := live s fun s => if s.pagesRun then s.intcEdge i else s

/-- PEND_CLEAR (R357). -/
def execPendClear (w : Writer) (i : Fin 4) (mask : Word) (s : State) : Out := write s w (pendAddr i + 0x800) mask

/-- NMIPEND_CLEAR (R359). -/
def execNmipendClear (w : Writer) (i : Fin 2) (mask : Word) (s : State) : Out := write s w (Reg.INTC_NMIPEND0 + 4 * i.val + 0x800) mask

/-- INTC_CFG_WRITE (R361). -/
def execIntcCfgWrite (w : Writer) (k : Fin 96) (d : Word) (s : State) : Out := write s w (cfgAddr k) d

/-- HOLDOFF_REOPEN (R360). -/
def execHoldoffReopen (g : Fin 8) (s : State) : Out := live s fun s => s.groupReopen g

end Sys2Proof.Machine
end

