-- ==== Sys2Proof/Machine/CmdFlash.lean ====
section
/-! DEFINITION. External flash: the meaning of each of its commands. -/

namespace Sys2Proof.Machine

/-- FLASH_HOST_READ (R388). -/
def execFlashHostRead (w : Writer) (len : BitVec 9) (s : State) : Out := write s w Reg.FLASH_HCMD (BitVec.ofNat 32 (1 * 2 ^ 28 + len.toNat))

/-- FLASH_HOST_PROGRAM (R388). -/
def execFlashHostProgram (w : Writer) (len : BitVec 9) (s : State) : Out := write s w Reg.FLASH_HCMD (BitVec.ofNat 32 (2 * 2 ^ 28 + len.toNat))

/-- FLASH_HOST_ERASE (R388). -/
def execFlashHostErase (w : Writer) (len : BitVec 9) (s : State) : Out := write s w Reg.FLASH_HCMD (BitVec.ofNat 32 (3 * 2 ^ 28 + len.toNat))

/-- FLASH_WORK_START (R387). -/
def execFlashWorkStart (s : State) : Out := live s State.flashStart

/-- FLASH_OP_DONE (R389). -/
def execFlashOpDone (cs : Fin 2) (ok : Bool) (s : State) : Out := live s fun s => s.flashOpDone cs ok

/-- FLASH_OP_TIMEOUT (R389). -/
def execFlashOpTimeout (cs : Fin 2) (s : State) : Out := live s fun s => s.flashTimeout cs

/-- FLASH_REDISCOVER (R383). -/
def execFlashRediscover (w : Writer) (d : Word) (s : State) : Out := write s w Reg.FLASH_CTRL (d ||| 4)

/-- FLASH_EN_WRITE (R383). -/
def execFlashEnWrite (w : Writer) (d : Word) (s : State) : Out := write s w Reg.FLASH_CTRL (d &&& ~~~4)

/-- FLASH_DISCOVERY_START (R383). -/
def execFlashDiscoveryStart (s : State) : Out := live s State.discStart

/-- FLASH_DISCOVERY_DONE (R384). -/
def execFlashDiscoveryDone (c0 : Option Sfdp) (c1 : Option Sfdp) (s : State) : Out := live s fun s => s.discFinish c0 c1

end Sys2Proof.Machine
end

