-- ==== Sys2Proof/Machine/CmdGauge.lean ====
section
/-! DEFINITION. The gauge: the meaning of each of its commands. -/

namespace Sys2Proof.Machine

/-- GAUGE_EN_WRITE (R241). -/
def execGaugeEnWrite (w : Writer) (d : Word) (s : State) : Out := write s w Reg.GAUGE_CTRL d

/-- AZGO (R241). -/
def execAzgo (w : Writer) (d : Word) (s : State) : Out := write s w Reg.GAUGE_CTRL (d ||| 0x2)

/-- STOREGO (R253). -/
def execStorego (w : Writer) (d : Word) (s : State) : Out := write s w Reg.GAUGE_CTRL (d ||| 0x4)

/-- RELEARN_WRITE (R245). -/
def execRelearnWrite (w : Writer) (d : Word) (s : State) : Out := write s w Reg.GAUGE_CTRL (d ||| 0x8)

/-- AUTOZERO_START (R240). -/
def execAutozeroStart (s : State) : Out := awake s fun s => s.autozeroStart

/-- AUTOZERO_DONE (R240). -/
def execAutozeroDone (meas : Int) (s : State) : Out := awake s fun s => s.autozeroDone meas

/-- GAUGE_UPDATE (R247). -/
def execGaugeUpdate (counts : Int) (ms : Nat) (s : State) : Out := awake s fun s => s.gaugeUpdate counts ms

/-- GAUGE_WAKE_ACTIVE (R241). -/
def execGaugeWakeActive (ma : Int) (counts : Int) (ms : Nat) (s : State) : Out := awake s fun s => s.gaugeWake ma counts ms

/-- GAUGE_SAMPLE (R242). -/
def execGaugeSample (uv : Nat) (temp : Int) (ms : Nat) (s : State) : Out := awake s fun s => s.gaugeSample uv temp ms

/-- IMPEDANCE_UPDATE (R246). -/
def execImpedanceUpdate (dv : Int) (di : Int) (s : State) : Out := awake s fun s => s.gaugeImpedance dv di

/-- PROVE_GO (R252). -/
def execProveGo (w : Writer) (d : Word) (s : State) : Out := write s w Reg.GAUGE_PROVE ((d ||| 0x80000000) &&& ~~~0x40000000)

/-- PROVE_ABORT (R252). -/
def execProveAbort (w : Writer) (d : Word) (s : State) : Out := write s w Reg.GAUGE_PROVE ((d ||| 0x40000000) &&& ~~~0x80000000)

/-- GAUGE_STORE_PERIODIC (R253). -/
def execGaugeStorePeriodic (s : State) : Out := awake s fun s => s.gStorePeriodic

/-- GAUGE_STORE_DONE (R253). -/
def execGaugeStoreDone (s : State) : Out := awake s State.gStoreDone

/-- GAUGE_STORE_RETRY (R253). -/
def execGaugeStoreRetry (s : State) : Out := awake s fun s => s.gStoreRetry

/-- FCC_WRITE (R258). -/
def execFccWrite (w : Writer) (d : Word) (s : State) : Out := write s w Reg.GAUGE_FCC d

/-- RM_WRITE (R258). -/
def execRmWrite (w : Writer) (d : Word) (s : State) : Out := write s w Reg.GAUGE_RM d

/-- DESIGN_MAH_WRITE (R255). -/
def execDesignMahWrite (w : Writer) (d : Word) (s : State) : Out := write s w Reg.GAUGE_DESIGN d

end Sys2Proof.Machine
end

