-- ==== Sys2Proof/Machine/CmdHealth.lean ====
section
/-! DEFINITION. Converter health: the meaning of each of its commands. -/

namespace Sys2Proof.Machine

/-- PROBE_GO (R149). -/
def execProbeGo (w : Writer) (n : Fin 4) (meas : BitVec 5) (s : State) : Out := write s w Reg.HEALTH_PROBE (BitVec.ofNat 32 (0x40000000 + 0x100 * n.val + meas.toNat))

/-- PROBE_ABORT (R152). -/
def execProbeAbort (w : Writer) (s : State) : Out := write s w Reg.HEALTH_PROBE 0x80000000

/-- PROBE_MEAS_DONE (R151). -/
def execProbeMeasDone (m : Measured) (s : State) : Out := live s fun s => s.probeMeas m

/-- REBASE (R154). -/
def execRebase (w : Writer) (d : Word) (s : State) : Out := write s w Reg.HEALTH_CTRL (d ||| 0x10)

/-- HEALTH_APPLY (R162). -/
def execHealthApply (w : Writer) (d : Word) (s : State) : Out := write s w Reg.HEALTH_APPLY d

/-- HEALTH_DUE (R165). -/
def execHealthDue (n : Fin 4) (s : State) : Out := live s fun s => s.healthDue n

end Sys2Proof.Machine
end

