-- ==== Sys2Proof/Machine/CmdHost.lean ====
section
/-! DEFINITION. The host port: the meaning of each of its commands. -/

namespace Sys2Proof.Machine

/-- REGISTER_WRITE (R8). -/
def execRegisterWrite (w : Writer) (a : Nat) (d : Word) (s : State) : Out := write s w a d

/-- READ (R50). -/
def execRead (f : Frame) (s : State) : Out := act s fun s => s.frameOf 0x03 f

/-- READ_BURST (R55). -/
def execReadBurst (f : Frame) (s : State) : Out := act s fun s => s.frameOf 0x0B f

/-- WRITE (R53). -/
def execWrite (f : Frame) (s : State) : Out := act s fun s => s.frameOf 0x02 f

/-- WRITE_BURST (R53). -/
def execWriteBurst (f : Frame) (s : State) : Out := act s fun s => s.frameOf 0x0A f

/-- BURST_WORD_APPLY (R53). -/
def execBurstWordApply (s : State) : Out := act s State.burstApply

/-- STATUS (R59). -/
def execStatus (f : Frame) (s : State) : Out := act s fun s => s.frameOf 0x05 f

/-- ID (R58). -/
def execId (f : Frame) (s : State) : Out := act s fun s => s.frameOf 0x9F f

/-- MBOX_OUT_WRITE (R63). -/
def execMboxOutWrite (p : Proc) (d : Word) (s : State) : Out := write s (.host p) 0x1060 d

/-- MBOX_IN_READ (R63). -/
def execMboxInRead (p : Proc) (s : State) : Out := live s fun s => if s.pagesRun then s.mboxIn p else s

/-- WATCHDOG_ENABLE (R72). -/
def execWatchdogEnable (p : Proc) (d : Word) (s : State) : Out := write s (.host p) 0x1050 (d ||| 0x80000000)

/-- WATCHDOG_KICK (R73). -/
def execWatchdogKick (p : Proc) (d : Word) (s : State) : Out := write s (.host p) 0x1054 d

/-- WATCHDOG_WARN (R73). -/
def execWatchdogWarn (p : Proc) (s : State) : Out := live s fun s => s.wdWarn p

/-- WATCHDOG_EXPIRE (R73). -/
def execWatchdogExpire (p : Proc) (s : State) : Out := live s fun s => s.wdTimeout p

/-- PLAN_ROW_LOWER_WRITE (R70). -/
def execPlanRowLowerWrite (p : Proc) (r : Fin 16384) (d : Word) (s : State) : Out := write s (.host p) (0x100000 + 8 * r.val) d

/-- PLAN_ROW_UPPER_WRITE (R70). -/
def execPlanRowUpperWrite (p : Proc) (r : Fin 16384) (d : Word) (s : State) : Out := write s (.host p) (0x100000 + 8 * r.val + 4) d

end Sys2Proof.Machine
end

