-- ==== Sys2Proof/Machine/CmdLedger.lean ====
section
/-! DEFINITION. The ledger: the meaning of each of its commands. -/

namespace Sys2Proof.Machine

/-- LEDGER_OP_DEQUEUE (R18). -/
def execLedgerOpDequeue (s : State) : Out := live s State.ledgerDequeue

/-- HOSTOP_LRES (R316). -/
def execHostopLres (w : Writer) (point : BitVec 9) (b : BitVec 3) (s : State) : Out := write s w Reg.LEDGER_HOSTOP (BitVec.ofNat 32 (1 * 2 ^ 28 + b.toNat * 2 ^ 16 + point.toNat))

/-- HOSTOP_LCOM (R316). -/
def execHostopLcom (w : Writer) (point : BitVec 9) (b : BitVec 3) (s : State) : Out := write s w Reg.LEDGER_HOSTOP (BitVec.ofNat 32 (2 * 2 ^ 28 + b.toNat * 2 ^ 16 + point.toNat))

/-- HOSTOP_LREL (R316). -/
def execHostopLrel (w : Writer) (point : BitVec 9) (b : BitVec 3) (s : State) : Out := write s w Reg.LEDGER_HOSTOP (BitVec.ofNat 32 (3 * 2 ^ 28 + b.toNat * 2 ^ 16 + point.toNat))

/-- HOSTOP_LSHED (R316). -/
def execHostopLshed (w : Writer) (point : BitVec 9) (b : BitVec 3) (s : State) : Out := write s w Reg.LEDGER_HOSTOP (BitVec.ofNat 32 (4 * 2 ^ 28 + b.toNat * 2 ^ 16 + point.toNat))

/-- RESERVATION_TIMEOUT (R314). -/
def execReservationTimeout (gp : Fin 512) (s : State) : Out := live s fun s => s.reservationTimeout gp

/-- FORECAST_HOLD_END (R312). -/
def execForecastHoldEnd (n : Fin 4) (s : State) : Out := live s fun s => s.forecastHoldEnd n

end Sys2Proof.Machine
end

