-- ==== Sys2Proof/Machine/CmdLink.lean ====
section
/-! DEFINITION. The point links: the meaning of each of its commands. -/

namespace Sys2Proof.Machine

/-- A reply that answers nothing (R266, R269, R282). -/
def State.badReply (s : State) (p : Nat) (bad : BadReply) : State :=
  match bad, (s.lk p).cur with
  | .invalid r, _ => s.replyInvalid p r
  | .stale, some x => if x.replies then s.replyStale p x else s
  | .unexpected, some x => if x.replies then s.replyUnexpected p x else s
  | _, none => s

/-- A write to the SET alias of a SHEDMASK (R289). -/
def State.shedWrite (s : State) (w : Writer) (p m : Nat) (mask : Word) : State :=
  if s.mayWrite w (Reg.LINK_SHEDMASK p m + 0x400) then s.shedSet p m (mask &&& ~~~s.rd (Reg.LINK_SHEDMASK p m)) else s

/-- LINK_ENABLE (R276). -/
def execLinkEnable (w : Writer) (n : Fin 8) (d : Word) (s : State) : Out := write s w (Reg.LINK_CTRL n) (d ||| 1)

/-- LINK_DISABLE (R276). -/
def execLinkDisable (w : Writer) (n : Fin 8) (d : Word) (s : State) : Out := write s w (Reg.LINK_CTRL n) (d &&& ~~~1)

/-- LINK_TRANSACTION_START (R291). -/
def execLinkTransactionStart (n : Fin 8) (s : State) : Out := live s fun s => s.linkStart n

/-- FRAME_SENT (R288). -/
def execFrameSent (n : Fin 8) (s : State) : Out := live s fun s => s.frameSent n

/-- STATUS_REPLY (R293). -/
def execStatusReply (n : Fin 8) (epoch : Fin 16) (query : Bool) (payload : List Byte) (s : State) : Out := live s fun s => s.statusReply n epoch query payload

/-- ACK_REPLY (R274). -/
def execAckReply (n : Fin 8) (epoch : Fin 16) (out : Fin 8) (s : State) : Out := live s fun s => s.ackReply n epoch out

/-- NAK_REPLY (R288). -/
def execNakReply (n : Fin 8) (epoch : Fin 16) (reason : Fin 256) (s : State) : Out := live s fun s => s.nakReply n epoch reason

/-- NAK_EPOCH_REPLY (R283). -/
def execNakEpochReply (n : Fin 8) (epoch : Fin 16) (s : State) : Out := live s fun s => s.nakEpochReply n epoch

/-- DATA_REPLY (R288). -/
def execDataReply (n : Fin 8) (epoch : Fin 16) (query : Bool) (payload : List Byte) (s : State) : Out := live s fun s => s.dataReply n epoch query payload

/-- IDENT_R_REPLY (R274). -/
def execIdentRReply (n : Fin 8) (epoch : Fin 16) (vendor : BitVec 16) (model : BitVec 16) (serial : Word) (s : State) : Out := live s fun s => s.identReply n epoch vendor.toNat model.toNat serial.toNat

/-- BAD_REPLY (R269). -/
def execBadReply (n : Fin 8) (bad : BadReply) (s : State) : Out := live s fun s => s.badReply n bad

/-- REPLY_TIMEOUT (R269). -/
def execReplyTimeout (n : Fin 8) (s : State) : Out := live s fun s => s.replyTimeout n

/-- LINE_ALERT (R278). -/
def execLineAlert (n : Fin 8) (s : State) : Out := live s fun s => s.lineAlert n

/-- ALERT_POLL_SLOTS_DONE (R278). -/
def execAlertPollSlotsDone (n : Fin 8) (lo : Word) (hi : Word) (s : State) : Out := live s fun s => s.alertSlots n lo hi

/-- LINK_COLLISION (R270). -/
def execLinkCollision (n : Fin 8) (s : State) : Out := live s fun s => s.collision n

/-- LINK_STUCK (R295). -/
def execLinkStuck (n : Fin 8) (s : State) : Out := live s fun s => s.stuck n

/-- SCAN_ROUND_START (R292). -/
def execScanRoundStart (n : Fin 8) (s : State) : Out := live s fun s => s.scanRound n

/-- SHEDMASK_SET (R289). -/
def execShedmaskSet (w : Writer) (n : Fin 8) (m : Fin 2) (mask : Word) (s : State) : Out := act s fun s => s.shedWrite w n m mask

/-- GRANT_LATCH_DUE (R290). -/
def execGrantLatchDue (n : Fin 8) (a : Fin 64) (s : State) : Out := live s fun s => s.grantDue n a

/-- HOSTPUSH (R286). -/
def execHostpush (w : Writer) (n : Fin 8) (d : Word) (s : State) : Out := write s w (Reg.LINK_HOSTPUSH n) d

/-- DESCRIPTOR_WRITE (R287). -/
def execDescriptorWrite (w : Writer) (n : Fin 8) (q : Fin 8) (i : Fin 16) (j : Fin 4) (d : Word) (s : State) : Out := write s w (descAddr n q i j) d

end Sys2Proof.Machine
end

