-- ==== Sys2Proof/Machine/CmdOtp.lean ====
section
/-! DEFINITION. OTP: the meaning of each of its commands. -/

namespace Sys2Proof.Machine

/-- A word of `OTP.CMD`. -/
def otpWord (op margin key arg : Nat) : Word := BitVec.ofNat 32 (op * 2 ^ 28 + margin * 2 ^ 26 + key * 2 ^ 16 + arg)

/-- OTP_READ (R406). -/
def execOtpRead (w : Writer) (arg : BitVec 11) (margin : BitVec 2) (s : State) : Out := write s w Reg.OTP_CMD (otpWord 1 margin.toNat 0 arg.toNat)

/-- OTP_PROGRAM (R407). -/
def execOtpProgram (w : Writer) (arg : BitVec 11) (key : BitVec 8) (s : State) : Out := write s w Reg.OTP_CMD (otpWord 2 0 key.toNat arg.toNat)

/-- OTP_LOCK (R399). -/
def execOtpLock (w : Writer) (arg : BitVec 11) (key : BitVec 8) (s : State) : Out := write s w Reg.OTP_CMD (otpWord 3 0 key.toNat arg.toNat)

/-- OTP_REPAIR (R408). -/
def execOtpRepair (w : Writer) (arg : BitVec 11) (key : BitVec 8) (s : State) : Out := write s w Reg.OTP_CMD (otpWord 4 0 key.toNat arg.toNat)

/-- OTP_CHECK (R406). -/
def execOtpCheck (w : Writer) (arg : BitVec 11) (s : State) : Out := write s w Reg.OTP_CMD (otpWord 5 0 0 arg.toNat)

/-- OTP_REAPPLY (R406). -/
def execOtpReapply (w : Writer) (s : State) : Out := write s w Reg.OTP_CMD (otpWord 6 0 0 0)

/-- OTP_CMD_COMPLETE (R406). -/
def execOtpCmdComplete (o : OtpSense) (s : State) : Out := live s fun s => s.otpDone o

/-- OTP_RLOCK_WRITE (R398). -/
def execOtpRlockWrite (w : Writer) (d : Word) (s : State) : Out := write s w Reg.OTP_RLOCK d

/-- OTP_WLOCK_WRITE (R398). -/
def execOtpWlockWrite (w : Writer) (d : Word) (s : State) : Out := write s w Reg.OTP_WLOCK d

/-- SHADOW_WRITE (R405). -/
def execShadowWrite (w : Writer) (i : Fin 320) (d : Word) (s : State) : Out := write s w (0x150300 + 4 * i.val) d

/-- OVERRIDE_CLEAR (R405). -/
def execOverrideClear (w : Writer) (s : State) : Out := write s w Reg.OTP_CTRL 1

end Sys2Proof.Machine
end

