-- ==== Sys2Proof/Machine/CmdPath.lean ====
section
/-! DEFINITION. The power path and the charger: the meaning of each of its commands. -/

namespace Sys2Proof.Machine

/-- VAC_WINDOW_CHANGE (R213). -/
def execVacWindowChange (vac : Nat) (s : State) : Out := live s fun s => s.vacChange vac

/-- VAC_QUALIFIED (R221). -/
def execVacQualified (s : State) : Out := live s State.vacQualified

/-- RECONNECT_BATDRV_OFF (R224). -/
def execReconnectBatdrvOff (s : State) : Out := live s State.batdrvOff

/-- RECONNECT_COMPLETE (R224). -/
def execReconnectComplete (s : State) : Out := live s State.reconnected

/-- DETECT_TIMEOUT (R221). -/
def execDetectTimeout (s : State) : Out := live s State.detectTimeout

/-- BRIDGE_SETTLED (R221). -/
def execBridgeSettled (vsys : Nat) (s : State) : Out := live s fun s => s.bridgeSettled vsys

/-- BYPASS_CLOSE (R225). -/
def execBypassClose (vsys : Nat) (vbat : Nat) (s : State) : Out := live s fun s => s.bypassClose vsys vbat

/-- REVERSE_CURRENT_BLOCK (R215). -/
def execReverseCurrentBlock (s : State) : Out := live s State.reverseBlock

/-- REVERSE_BLOCK_RELEASE (R215). -/
def execReverseBlockRelease (vac : Nat) (vsys : Nat) (s : State) : Out := live s fun s => s.reverseRelease vac vsys

/-- INPUT_TRIP (R216). -/
def execInputTrip (iin : Nat) (s : State) : Out := live s fun s => s.inputTrip iin

/-- SUPPLEMENT_START (R218). -/
def execSupplementStart (x : HbSample) (s : State) : Out := live s fun s => s.supplementStart x

/-- SUPPLEMENT_END (R218). -/
def execSupplementEnd (x : HbSample) (s : State) : Out := live s fun s => s.supplementEnd x

/-- INPUT_SATURATED (R218). -/
def execInputSaturated (x : HbSample) (s : State) : Out := live s fun s => s.inputSaturated x

/-- BOUNCE_CLEAR (R223). -/
def execBounceClear (s : State) : Out := live s State.bounceClear

/-- INEN_WRITE (R222). -/
def execInenWrite (w : Writer) (d : Word) (s : State) : Out := write s w Reg.PATH_CTRL d

/-- HOEN_WRITE (R222). -/
def execHoenWrite (w : Writer) (d : Word) (s : State) : Out := write s w Reg.PATH_CTRL d

/-- BATGO (R226). -/
def execBatgo (w : Writer) (d : Word) (s : State) : Out := write s w Reg.PATH_CTRL (d ||| 0x10)

/-- CHGEN_ON (R232). -/
def execChgenOn (w : Writer) (d : Word) (s : State) : Out := write s w Reg.PATH_CTRL (d ||| 0x8)

/-- CHGEN_OFF (R228). -/
def execChgenOff (w : Writer) (d : Word) (s : State) : Out := write s w Reg.PATH_CTRL (d &&& ~~~0x8)

/-- TRST (R231). -/
def execTrst (p : Proc) (d : Word) (s : State) : Out := write s (.host p) Reg.PATH_CTRL (d ||| 0x20)

/-- CHARGE_RESUME (R228). -/
def execChargeResume (vbat : Nat) (s : State) : Out := live s fun s => s.chargeResume vbat

/-- CHARGE_PHASE_ADVANCE (R228). -/
def execChargePhaseAdvance (vbat : Nat) (s : State) : Out := live s fun s => s.phaseAdvance vbat

/-- CHARGE_TERMINATED (R228). -/
def execChargeTerminated (ma : Nat) (s : State) : Out := live s fun s => if s.chargeTerminates ma then s.chargeDone.fullSync else s

/-- RECHARGE (R228). -/
def execRecharge (vbat : Nat) (s : State) : Out := live s fun s => s.recharge vbat

/-- CHARGE_TIMEOUT (R231). -/
def execChargeTimeout (s : State) : Out := live s State.chargeTimeout

/-- CHARGER_STOPPED (R228). -/
def execChargerStopped (s : State) : Out := live s State.chargerStopped

/-- CHARGER_PEND_DUE (R232). -/
def execChargerPendDue (s : State) : Out := live s State.chargerPendDue

/-- CHARGER_HW_LIMIT (R233). -/
def execChargerHwLimit (cause : Fin 6) (v : Nat) (s : State) : Out := live s fun s => s.hwLimit cause v

/-- CHARGER_LIMIT_RELEASE (R233). -/
def execChargerLimitRelease (cause : Fin 6) (v : Nat) (s : State) : Out := live s fun s => s.limRelease cause v

/-- PRESENCE_TEST_START (R234). -/
def execPresenceTestStart (s : State) : Out := live s State.testStart

/-- PRESENCE_TEST_DONE (R234). -/
def execPresenceTestDone (vbat : Nat) (s : State) : Out := live s fun s => s.testDone vbat

/-- BATTERY_PRESENT (R234). -/
def execBatteryPresent (vbat : Nat) (s : State) : Out := live s fun s => s.batteryIn vbat

/-- BATTERY_ABSENT (R234). -/
def execBatteryAbsent (vbat : Nat) (s : State) : Out := live s fun s => s.batteryGone vbat

/-- HEADROOM_CHANGE (R229). -/
def execHeadroomChange (vsys : Nat) (vbat : Nat) (s : State) : Out := live s fun s => s.headroomChange vsys vbat

end Sys2Proof.Machine
end

