-- ==== Sys2Proof/Machine/CmdPlan.lean ====
section
/-! DEFINITION. Host commands to the plan engine, and plan loads: the meaning of each of its commands. -/

namespace Sys2Proof.Machine

/-- A word of `PLAN.THCMD`. -/
def thcmdWord (action t pc : Nat) : Word := BitVec.ofNat 32 (pc * 2 ^ 16 + action * 16 + t)

/-- A host's write of `PLAN.THCMD`: each accepted one is entered in the Logbook (R100). -/
def thcmd (s : State) (p : Proc) (d : Word) : Out :=
  act s fun s => if s.mayWrite (.host p) Reg.PLAN_THCMD then (s.logbook 1 p Reg.PLAN_THCMD d).busWrite (.host p) Reg.PLAN_THCMD d else s

/-- HOST_POST_SET (R94). -/
def execHostPostSet (p : Proc) (d : Word) (s : State) : Out := write s (.host p) (Reg.PLAN_POST + 0x400) d

/-- THCMD_HALT (R100). -/
def execThcmdHalt (p : Proc) (t : Fin 16) (s : State) : Out := thcmd s p (thcmdWord 1 t 0)

/-- THCMD_START (R100). -/
def execThcmdStart (p : Proc) (t : Fin 16) (pc : BitVec 14) (s : State) : Out := thcmd s p (thcmdWord 2 t pc.toNat)

/-- THCMD_RESUME (R100). -/
def execThcmdResume (p : Proc) (t : Fin 16) (s : State) : Out := thcmd s p (thcmdWord 3 t 0)

/-- THCMD_STEP (R100). -/
def execThcmdStep (p : Proc) (t : Fin 16) (s : State) : Out := thcmd s p (thcmdWord 4 t 0)

/-- THREAD_REG_WRITE (R101). -/
def execThreadRegWrite (w : Writer) (n : Fin 16) (m : Fin 8) (d : Word) (s : State) : Out := write s w (Reg.PLAN_THW n m) d

/-- WLOCK_SET (R102). -/
def execWlockSet (w : Writer) (s : State) : Out := write s w Reg.PLAN_CTRL 1

/-- SEM_RELEASE (R98). -/
def execSemRelease (p : Proc) (d : Word) (s : State) : Out := write s (.host p) (Reg.PLAN_SEM + 0x800) d

/-- PLAN_LOAD_OTP (R107). -/
def execPlanLoadOtp (w : Writer) (s : State) : Out := write s w Reg.PLAN_LOAD 1

/-- PLAN_LOAD_PLAN_A (R107). -/
def execPlanLoadPlanA (w : Writer) (s : State) : Out := write s w Reg.PLAN_LOAD 2

/-- PLAN_LOAD_PLAN_B (R107). -/
def execPlanLoadPlanB (w : Writer) (s : State) : Out := write s w Reg.PLAN_LOAD 3

/-- LOAD_THREADS_HALTED (R107). -/
def execLoadThreadsHalted (s : State) : Out := live s State.loadHalted

/-- LOAD_HEADER_READ (R106). -/
def execLoadHeaderRead (ok : Bool) (s : State) : Out := live s fun s => s.loadHeader ok

/-- LOAD_PASS1_DONE (R106). -/
def execLoadPass1Done (ok : Bool) (o : OtpSense) (s : State) : Out := live s fun s => s.loadPass1 ok o

/-- LOAD_PASS2_DONE (R107). -/
def execLoadPass2Done (ok : Bool) (same : Bool) (s : State) : Out := live s fun s => s.loadPass2 ok same

/-- OTP_PLAN_HEADER_READ (R103). -/
def execOtpPlanHeaderRead (o : OtpSense) (s : State) : Out := live s fun s => s.otpHeader o

/-- OTP_PLAN_READ_DONE (R103). -/
def execOtpPlanReadDone (o : OtpSense) (s : State) : Out := live s fun s => s.otpPlanRead o

/-- OTP_PLAN_WRITE_DONE (R107). -/
def execOtpPlanWriteDone (s : State) : Out := live s State.otpPlanWritten

end Sys2Proof.Machine
end

