-- ==== Sys2Proof/Machine/CmdPower.lean ====
section
/-! DEFINITION. Power, clocks, resets and the boot flow: the meaning of each of its commands. -/

namespace Sys2Proof.Machine

/-- AO_POWER_ON (R28). -/
def execAoPowerOn (s : State) : Out := .next s.aoPowerOn

/-- BOOT_START (R202). -/
def execBootStart (s : State) : Out := act s State.bootStart

/-- BOOT_SUPPLIES_READY (R202). -/
def execBootSuppliesReady (s : State) : Out := act s State.bootSupplies

/-- BOOT_TRIM_READ_DONE (R401). -/
def execBootTrimReadDone (o : OtpSense) (bad : List Nat) (s : State) : Out := act s fun s => s.bootTrimDone o bad

/-- BOOT_SHADOW_LOADED (R202). -/
def execBootShadowLoaded (o : OtpSense) (s : State) : Out := act s fun s => s.bootShadowDone o

/-- RSTO_RELEASE (R203). -/
def execRstoRelease (s : State) : Out := live s State.rstoExpire

/-- FALLOW_ENTRY (R29). -/
def execFallowEntry (s : State) : Out := act s State.fallowEntry

/-- WAKE (R31). -/
def execWake (_src : WakeSource) (s : State) : Out := act s State.wakeUp

/-- ENG_LOCK (R32). -/
def execEngLock (s : State) : Out := act s State.engLock

/-- SUBTICK_ALIGN (R41). -/
def execSubtickAlign (s : State) : Out := act s State.subtickAlign

/-- PLL_LOCK_TIMEOUT (R34). -/
def execPllLockTimeout (s : State) : Out := act s State.pllTimeout

/-- PLL_LOCK_RETRY (R34). -/
def execPllLockRetry (s : State) : Out := act s State.pllRetry

/-- AO_XTAL_LOST (R38). -/
def execAoXtalLost (s : State) : Out := act s State.xtalLost

/-- XTAL_RETURN (R40). -/
def execXtalReturn (s : State) : Out := act s State.xtalReturn

/-- PWM_OSC_LOST (R38). -/
def execPwmOscLost (s : State) : Out := awake s State.pwmLost

/-- GAUGE_OSC_LOST (R250). -/
def execGaugeOscLost (s : State) : Out := awake s State.gaugeLost

/-- WAKE_OSC_FAIL (R38). -/
def execWakeOscFail (s : State) : Out := act s State.wakeFailed

/-- TIMECAP_GO (R43). -/
def execTimecapGo (w : Writer) (s : State) : Out := write s w Reg.SYS_TIMECAP 1

/-- CHIP_RESET (R207). -/
def execChipReset (w : Writer) (d : Word) (s : State) : Out := write s w Reg.SYS_CTRL (d ||| 1)

/-- RESET_PIN (R207). -/
def execResetPin (s : State) : Out := act s State.resetPin

/-- VIN_UV (R205). -/
def execVinUv (vin : Nat) (s : State) : Out := act s fun s => s.vinUv vin

/-- VIN_OV (R340). -/
def execVinOv (vin : Nat) (s : State) : Out := act s fun s => s.vinOv vin

/-- VHOLD_LOW (R340). -/
def execVholdLow (vhold : Nat) (s : State) : Out := act s fun s => s.vholdLow vhold

/-- COLLAPSE_RELEASE (R206). -/
def execCollapseRelease (vin : Nat) (s : State) : Out := act s fun s => s.collapse vin

/-- RESET_PIN_RELEASE (R207). -/
def execResetPinRelease (s : State) : Out := act s State.resetPinHigh

/-- AO_POWER_LOSS (R28). -/
def execAoPowerLoss (s : State) : Out := .next s.aoPowerLoss

/-- WAKE_STABLE (R32). -/
def execWakeStable (s : State) : Out := act s State.wakeStable

/-- WAKE_START_RETRY (R38). -/
def execWakeStartRetry (s : State) : Out := act s State.wakeRetry

/-- GAUGE_OSC_RETURN (R250). -/
def execGaugeOscReturn (s : State) : Out := awake s fun s => s.setPower { s.power with gaugeOk := true }

/-- VHOLD_CHARGED (R370). -/
def execVholdCharged (s : State) : Out := awake s State.vholdCharged

end Sys2Proof.Machine
end

