-- ==== Sys2Proof/Machine/CmdRails.lean ====
section
/-! DEFINITION. Rails, supervisors, the housekeeping ADC and GPIO: the meaning of each of its commands. -/

namespace Sys2Proof.Machine

/-- RAIL_WINDOW_CHANGE (R177). -/
def execRailWindowChange (k : Fin 6) (mv : Nat) (s : State) : Out := live s fun s => s.railWindow k mv

/-- VMON_WINDOW_CHANGE (R180). -/
def execVmonWindowChange (n : Fin 8) (mv : Nat) (s : State) : Out := live s fun s => s.vmonChange n mv

/-- REGULATOR_FAULT (R178). -/
def execRegulatorFault (k : Fin 6) (cause : Nat) (vout : Nat) (vin : Nat) (s : State) : Out := live s fun s => s.railFault k cause vout vin

/-- ADC_SCAN_START (R186). -/
def execAdcScanStart (s : State) : Out := live s State.scanStart

/-- ADC_SCAN_GO (R186). -/
def execAdcScanGo (w : Writer) (d : Word) (s : State) : Out := write s w Reg.RAILS_SCANCFG (d ||| 0x200)

/-- ADC_SCAN_DONE (R186). -/
def execAdcScanDone (xs : List AdcSample) (s : State) : Out := live s fun s => s.scanDone xs

/-- ADC_SELFTEST_DONE (R187). -/
def execAdcSelftestDone (a b : Nat × Nat) (s : State) : Out := live s fun s => s.selfTestDone a b

/-- GPIO_EDGE (R190). -/
def execGpioEdge (k : Fin 12) (level : Bool) (s : State) : Out := live s fun s => s.gpioEdge k level

end Sys2Proof.Machine
end

