-- ==== Sys2Proof/Machine/CmdRecord.lean ====
section
/-! DEFINITION. Record flash, Almanac and Logbook: the meaning of each of its commands. -/

namespace Sys2Proof.Machine

/-- RECORD_READPAGE (R373). -/
def execRecordReadpage (w : Writer) (page : BitVec 8) (s : State) : Out := write s w Reg.RECORD_CMD (BitVec.ofNat 32 (0x10000000 + page.toNat))

/-- RECORD_TAILS (R378). -/
def execRecordTails (w : Writer) (s : State) : Out := write s w Reg.RECORD_CMD 0x20000000

/-- RECORD_SDWRITE (R373). -/
def execRecordSdwrite (w : Writer) (reason : BitVec 8) (s : State) : Out := write s w Reg.RECORD_CMD (BitVec.ofNat 32 (0x30000000 + reason.toNat))

/-- RECORD_TRIG (R376). -/
def execRecordTrig (w : Writer) (s : State) : Out := write s w Reg.RECORD_CMD 0x40000000

/-- RECORD_RESUME (R376). -/
def execRecordResume (w : Writer) (s : State) : Out := write s w Reg.RECORD_CMD 0x50000000

/-- ALMANAC_FREEZE (R376). -/
def execAlmanacFreeze (s : State) : Out := live s State.almanacFreeze

/-- FREEZE_COPY_DONE (R378). -/
def execFreezeCopyDone (s : State) : Out := live s State.freezeCopyDone

/-- RECORD_PROGRAM_DONE (R369). -/
def execRecordProgramDone (ok : Bool) (s : State) : Out := act s fun s => s.recProgramDone ok

/-- RECORD_ERASE_DONE (R370). -/
def execRecordEraseDone (s : State) : Out := act s State.recEraseDone

/-- LOGBOOK_FLUSH (R381). -/
def execLogbookFlush (s : State) : Out := live s State.logbookFlush

end Sys2Proof.Machine
end

