-- ==== Sys2Proof/Machine/CmdRows.lean ====
section
/-! DEFINITION. The rows of the plan engine: the meaning of each of its commands. -/

namespace Sys2Proof.Machine

/-- NOP (R86). -/
def execNop (t : Fin 16) (ecc : Ecc) (s : State) : Out := act s fun s => rowNop s t ecc

/-- ILLEGAL_ROW (R79). -/
def execIllegalRow (t : Fin 16) (s : State) : Out := act s fun s => rowIllegal s t

/-- JMP (R86). -/
def execJmp (t : Fin 16) (s : State) : Out := row s fun s => rowJmp s t

/-- CALL (R88). -/
def execCall (t : Fin 16) (s : State) : Out := act s fun s => rowCall s t

/-- RET (R88). -/
def execRet (t : Fin 16) (s : State) : Out := act s fun s => rowRet s t

/-- DBNZ (R86). -/
def execDbnz (t : Fin 16) (s : State) : Out := row s fun s => rowDbnz s t

/-- HALT (R86). -/
def execHalt (t : Fin 16) (s : State) : Out := row s fun s => rowHalt s t

/-- START (R97). -/
def execStart (t : Fin 16) (s : State) : Out := row s fun s => rowStart s t

/-- STOP (R97). -/
def execStop (t : Fin 16) (s : State) : Out := row s fun s => rowStop s t

/-- JMPX (R87). -/
def execJmpx (t : Fin 16) (s : State) : Out := act s fun s => rowJmpx s t

/-- MOV (R86). -/
def execMov (t : Fin 16) (s : State) : Out := row s fun s => s.aluRow t 0x10 aluMov

/-- LDH (R86). -/
def execLdh (t : Fin 16) (s : State) : Out := row s fun s => s.aluRow t 0x11 aluLdh

/-- ADD (R87). -/
def execAdd (t : Fin 16) (s : State) : Out := row s fun s => s.aluRow t 0x12 aluAdd

/-- SUB (R87). -/
def execSub (t : Fin 16) (s : State) : Out := row s fun s => s.aluRow t 0x13 aluSub

/-- CMP (R87). -/
def execCmp (t : Fin 16) (s : State) : Out := row s fun s => s.aluRow t 0x14 aluCmp

/-- AND (R86). -/
def execAnd (t : Fin 16) (s : State) : Out := row s fun s => s.aluRow t 0x15 aluAnd

/-- OR (R86). -/
def execOr (t : Fin 16) (s : State) : Out := row s fun s => s.aluRow t 0x16 aluOr

/-- XOR (R86). -/
def execXor (t : Fin 16) (s : State) : Out := row s fun s => s.aluRow t 0x17 aluXor

/-- TST (R86). -/
def execTst (t : Fin 16) (s : State) : Out := row s fun s => s.aluRow t 0x18 aluTst

/-- SHL (R87). -/
def execShl (t : Fin 16) (s : State) : Out := row s fun s => s.aluRow t 0x19 aluShl

/-- SHR (R87). -/
def execShr (t : Fin 16) (s : State) : Out := row s fun s => s.aluRow t 0x1A aluShr

/-- ASR (R87). -/
def execAsr (t : Fin 16) (s : State) : Out := row s fun s => s.aluRow t 0x1B aluAsr

/-- MUL (R87). -/
def execMul (t : Fin 16) (s : State) : Out := row s fun s => s.aluRowBusy t 0x1C aluMul

/-- DIV (R87). -/
def execDiv (t : Fin 16) (s : State) : Out := row s fun s => s.aluRowBusy t 0x1D aluDiv

/-- ADDS (R87). -/
def execAdds (t : Fin 16) (s : State) : Out := row s fun s => s.aluRow t 0x1E aluAdds

/-- SUBS (R87). -/
def execSubs (t : Fin 16) (s : State) : Out := row s fun s => s.aluRow t 0x1F aluSubs

/-- MIN (R87). -/
def execMin (t : Fin 16) (s : State) : Out := row s fun s => s.aluRow t 0x20 aluMin

/-- MAX (R87). -/
def execMax (t : Fin 16) (s : State) : Out := row s fun s => s.aluRow t 0x21 aluMax

/-- LD (R89). -/
def execLd (t : Fin 16) (s : State) : Out := act s fun s => rowLd s t

/-- ST (R90). -/
def execSt (t : Fin 16) (s : State) : Out := act s fun s => rowSt s t

/-- STORE_APPLY (R90). -/
def execStoreApply (t : Fin 16) (s : State) : Out := act s fun s => s.storeApply t

/-- SYNC (R90). -/
def execSync (t : Fin 16) (s : State) : Out := row s fun s => rowSync s t

/-- ROW_COMPLETE (R81). -/
def execRowComplete (t : Fin 16) (ecc : Ecc) (s : State) : Out := act s fun s => s.rowComplete t ecc

/-- SEMGET (R98). -/
def execSemget (t : Fin 16) (s : State) : Out := row s fun s => rowSemget s t

/-- SEMPUT (R98). -/
def execSemput (t : Fin 16) (s : State) : Out := row s fun s => rowSemput s t

/-- WAIT (R92). -/
def execWait (t : Fin 16) (s : State) : Out := row s fun s => rowWait s t

/-- WAIT_EVENT_END (R92). -/
def execWaitEventEnd (t : Fin 16) (s : State) : Out := ready s fun s => waitEventEnd s t

/-- WAITP (R94). -/
def execWaitp (t : Fin 16) (s : State) : Out := row s fun s => rowWaitp s t

/-- WAITP_END (R94). -/
def execWaitpEnd (t : Fin 16) (s : State) : Out := ready s fun s => waitpEnd s t

/-- WAIT_TIMEOUT (R93). -/
def execWaitTimeout (t : Fin 16) (s : State) : Out := ready s fun s => waitTimeout s t

/-- POST (R94). -/
def execPost (t : Fin 16) (s : State) : Out := row s fun s => rowPost s t

/-- DLY (R95). -/
def execDly (t : Fin 16) (s : State) : Out := row s fun s => rowDly s t

/-- DLY_END (R95). -/
def execDlyEnd (t : Fin 16) (s : State) : Out := row s fun s => dlyEnd s t

/-- SIGNAL (R86). -/
def execSignal (t : Fin 16) (s : State) : Out := row s fun s => rowSignal s t

/-- TCAP (R43). -/
def execTcap (t : Fin 16) (s : State) : Out := row s fun s => rowTcap s t

/-- LOG (R86). -/
def execLog (t : Fin 16) (s : State) : Out := row s fun s => rowLog s t

/-- RAISE (R99). -/
def execRaise (t : Fin 16) (s : State) : Out := act s fun s => rowRaise s t

/-- LRES (R310). -/
def execLres (t : Fin 16) (s : State) : Out := act s fun s => rowLres s t

/-- LCOM (R311). -/
def execLcom (t : Fin 16) (s : State) : Out := act s fun s => rowLcom s t

/-- LREL (R313). -/
def execLrel (t : Fin 16) (s : State) : Out := act s fun s => rowLrel s t

/-- LSHED (R315). -/
def execLshed (t : Fin 16) (s : State) : Out := act s fun s => rowLshed s t

/-- LSEND (R286). -/
def execLsend (t : Fin 16) (ecc : List Ecc) (s : State) : Out := act s fun s => rowLsend s t ecc

/-- RAIL (R196). -/
def execRail (t : Fin 16) (s : State) : Out := act s fun s => rowRail s t

end Sys2Proof.Machine
end

