-- ==== Sys2Proof/Machine/CmdSeq.lean ====
section
/-! DEFINITION. The rail table: the meaning of each of its commands. -/

namespace Sys2Proof.Machine

/-- SLOT_ON_REQUEST (R196). -/
def execSlotOnRequest (w : Writer) (k : Fin 32) (s : State) : Out := write s w Reg.SEQ_REQ (BitVec.ofNat 32 (0x100 + k.val))

/-- SLOT_OFF_REQUEST (R199). -/
def execSlotOffRequest (w : Writer) (k : Fin 32) (s : State) : Out := write s w Reg.SEQ_REQ (BitVec.ofNat 32 k.val)

/-- SEQ_DOWN (R199). -/
def execSeqDown (w : Writer) (d : Word) (s : State) : Out := write s w Reg.SEQ_DOWN d

/-- SLOT_QUALIFIED (R193). -/
def execSlotQualified (k : Fin 32) (s : State) : Out := live s fun s => s.slotQualified k

/-- SLOT_START_TIMEOUT (R193). -/
def execSlotStartTimeout (k : Fin 32) (s : State) : Out := live s fun s => s.slotStartTimeout k

/-- SLOT_DISCHARGED (R193). -/
def execSlotDischarged (k : Fin 32) (mv : Nat) (s : State) : Out := live s fun s => s.slotDischarged k mv

/-- SLOT_DISCHARGE_TIMEOUT (R193). -/
def execSlotDischargeTimeout (k : Fin 32) (s : State) : Out := live s fun s => s.slotDischargeTimeout k

/-- SLOT_PEND_DUE (R198). -/
def execSlotPendDue (k : Fin 32) (s : State) : Out := live s fun s => s.slotPendDue k

/-- SLOT_DEP_WRITE (R201). -/
def execSlotDepWrite (w : Writer) (k : Fin 32) (d : Word) (s : State) : Out := write s w (Reg.SEQ_SLOTDEP k) d

/-- VSYS_COLLAPSE_WARN (R204). -/
def execVsysCollapseWarn (vsys : Nat) (s : State) : Out := live s fun s => s.vsysCollapse vsys

/-- FIRSTFAIL_REARM (R204). -/
def execFirstfailRearm (vsys : Nat) (since : Nat) (s : State) : Out := live s fun s => s.firstFailRearm vsys since

/-- FFARM_WRITE (R204). -/
def execFfarmWrite (w : Writer) (s : State) : Out := write s w Reg.SEQ_CTRL 1

end Sys2Proof.Machine
end

