-- ==== Sys2Proof/Machine/CmdTherm.lean ====
section
/-! DEFINITION. Thermal sensing: the meaning of each of its commands. -/

namespace Sys2Proof.Machine

/-- A sample, and the reflex of R334 for a die position that it finds at SHUT (R333). -/
def State.sampleAll (s : State) (die : List Int) (ends : Nat) (td : List TdReading) : State :=
  let t := s.thermalSample die ends td
  match newShut s t with
  | some k => t.dieShutdown k
  | none => t

/-- THERMAL_SAMPLE (R327). -/
def execThermalSample (die : List Int) (ends : Nat) (td : List TdReading) (s : State) : Out := awake s fun s => s.sampleAll die ends td

/-- DIE_SHUTDOWN (R334). -/
def execDieShutdown (k : Fin 8) (s : State) : Out := awake s fun s => s.dieShutdown k

/-- SHUTDOWN_RECORD_WRITTEN (R335). -/
def execShutdownRecordWritten (s : State) : Out := awake s State.holdBegin

/-- THAW_AUTO (R336). -/
def execThawAuto (s : State) : Out := awake s State.thawAuto

/-- THAW_KEY (R336). -/
def execThawKey (w : Writer) (d : Word) (s : State) : Out := write s w Reg.THERM_THAW d

/-- RECENT_THAW_EXPIRE (R336). -/
def execRecentThawExpire (s : State) : Out := act s State.recentExpire

end Sys2Proof.Machine
end

