-- ==== Sys2Proof/Machine/CmdTimers.lean ====
section
/-! DEFINITION. Timers and the CRC unit: the meaning of each of its commands. -/

namespace Sys2Proof.Machine

/-- TIMER_INCREMENT (R412). -/
def execTimerIncrement (n : Fin 4) (s : State) : Out := live s fun s => s.timerIncrement n

/-- TIMER_CAPTURE (R415). -/
def execTimerCapture (n : Fin 4) (rising : Bool) (late : Bool) (s : State) : Out := live s fun s => s.timerCapture n rising late

/-- TIMER_SNAP (R416). -/
def execTimerSnap (w : Writer) (n : Fin 4) (s : State) : Out := write s w (Reg.TIMER_CMD n) 1

/-- TIMER_POP (R416). -/
def execTimerPop (w : Writer) (n : Fin 4) (s : State) : Out := write s w (Reg.TIMER_CMD n) 2

/-- TIMER_LOAD (R416). -/
def execTimerLoad (w : Writer) (n : Fin 4) (s : State) : Out := write s w (Reg.TIMER_CMD n) 3

/-- TIMER_CLRQ (R416). -/
def execTimerClrq (w : Writer) (n : Fin 4) (s : State) : Out := write s w (Reg.TIMER_CMD n) 4

/-- CRC_INIT (R421). -/
def execCrcInit (w : Writer) (d : Word) (s : State) : Out := write s w Reg.CRC_CTRL (d ||| 0x100)

/-- CRC_DIN8 (R421). -/
def execCrcDin8 (w : Writer) (d : Word) (s : State) : Out := write s w Reg.CRC_DIN8 d

/-- CRC_DIN16 (R421). -/
def execCrcDin16 (w : Writer) (d : Word) (s : State) : Out := write s w Reg.CRC_DIN16 d

/-- CRC_DIN32 (R421). -/
def execCrcDin32 (w : Writer) (d : Word) (s : State) : Out := write s w Reg.CRC_DIN32 d

/-- CRC_QUEUE_APPLY (R421). -/
def execCrcQueueApply (s : State) : Out := live s State.crcApply

/-- CRC_OWNER_WRITE (R423). -/
def execCrcOwnerWrite (w : Writer) (d : Word) (s : State) : Out := write s w Reg.CRC_OWNER d

end Sys2Proof.Machine
end

