-- ==== Sys2Proof/Machine/Dispatch.lean ====
section
/-! DEFINITION. The meaning of a command: one arm per constructor of `Instr`. -/

namespace Sys2Proof.Machine

open Sys2Proof

/-- The effect of a command on everything but the queue. -/
def exec (i : Instr) (s : State) : Host.Outcome State Fault Refusal :=
  match i with
  | .aoPowerOn => Sys2Proof.Machine.execAoPowerOn s
  | .bootStart => Sys2Proof.Machine.execBootStart s
  | .bootSuppliesReady => Sys2Proof.Machine.execBootSuppliesReady s
  | .bootTrimReadDone o bad => Sys2Proof.Machine.execBootTrimReadDone o bad s
  | .bootShadowLoaded o => Sys2Proof.Machine.execBootShadowLoaded o s
  | .rstoRelease => Sys2Proof.Machine.execRstoRelease s
  | .fallowEntry => Sys2Proof.Machine.execFallowEntry s
  | .wake src => Sys2Proof.Machine.execWake src s
  | .engLock => Sys2Proof.Machine.execEngLock s
  | .subtickAlign => Sys2Proof.Machine.execSubtickAlign s
  | .pllLockTimeout => Sys2Proof.Machine.execPllLockTimeout s
  | .pllLockRetry => Sys2Proof.Machine.execPllLockRetry s
  | .aoXtalLost => Sys2Proof.Machine.execAoXtalLost s
  | .xtalReturn => Sys2Proof.Machine.execXtalReturn s
  | .pwmOscLost => Sys2Proof.Machine.execPwmOscLost s
  | .gaugeOscLost => Sys2Proof.Machine.execGaugeOscLost s
  | .wakeOscFail => Sys2Proof.Machine.execWakeOscFail s
  | .timecapGo w => Sys2Proof.Machine.execTimecapGo w s
  | .chipReset w d => Sys2Proof.Machine.execChipReset w d s
  | .resetPin => Sys2Proof.Machine.execResetPin s
  | .registerWrite w a d => Sys2Proof.Machine.execRegisterWrite w a d s
  | .read f => Sys2Proof.Machine.execRead f s
  | .readBurst f => Sys2Proof.Machine.execReadBurst f s
  | .write f => Sys2Proof.Machine.execWrite f s
  | .writeBurst f => Sys2Proof.Machine.execWriteBurst f s
  | .burstWordApply => Sys2Proof.Machine.execBurstWordApply s
  | .status f => Sys2Proof.Machine.execStatus f s
  | .id f => Sys2Proof.Machine.execId f s
  | .mboxOutWrite p d => Sys2Proof.Machine.execMboxOutWrite p d s
  | .mboxInRead p => Sys2Proof.Machine.execMboxInRead p s
  | .watchdogEnable p d => Sys2Proof.Machine.execWatchdogEnable p d s
  | .watchdogKick p d => Sys2Proof.Machine.execWatchdogKick p d s
  | .watchdogWarn p => Sys2Proof.Machine.execWatchdogWarn p s
  | .watchdogExpire p => Sys2Proof.Machine.execWatchdogExpire p s
  | .planRowLowerWrite p r d => Sys2Proof.Machine.execPlanRowLowerWrite p r d s
  | .planRowUpperWrite p r d => Sys2Proof.Machine.execPlanRowUpperWrite p r d s
  | .nop t ecc => Sys2Proof.Machine.execNop t ecc s
  | .illegalRow t => Sys2Proof.Machine.execIllegalRow t s
  | .jmp t => Sys2Proof.Machine.execJmp t s
  | .call t => Sys2Proof.Machine.execCall t s
  | .ret t => Sys2Proof.Machine.execRet t s
  | .dbnz t => Sys2Proof.Machine.execDbnz t s
  | .halt t => Sys2Proof.Machine.execHalt t s
  | .start t => Sys2Proof.Machine.execStart t s
  | .stop t => Sys2Proof.Machine.execStop t s
  | .jmpx t => Sys2Proof.Machine.execJmpx t s
  | .mov t => Sys2Proof.Machine.execMov t s
  | .ldh t => Sys2Proof.Machine.execLdh t s
  | .add t => Sys2Proof.Machine.execAdd t s
  | .sub t => Sys2Proof.Machine.execSub t s
  | .cmp t => Sys2Proof.Machine.execCmp t s
  | .and t => Sys2Proof.Machine.execAnd t s
  | .or t => Sys2Proof.Machine.execOr t s
  | .xor t => Sys2Proof.Machine.execXor t s
  | .tst t => Sys2Proof.Machine.execTst t s
  | .shl t => Sys2Proof.Machine.execShl t s
  | .shr t => Sys2Proof.Machine.execShr t s
  | .asr t => Sys2Proof.Machine.execAsr t s
  | .mul t => Sys2Proof.Machine.execMul t s
  | .div t => Sys2Proof.Machine.execDiv t s
  | .adds t => Sys2Proof.Machine.execAdds t s
  | .subs t => Sys2Proof.Machine.execSubs t s
  | .min t => Sys2Proof.Machine.execMin t s
  | .max t => Sys2Proof.Machine.execMax t s
  | .ld t => Sys2Proof.Machine.execLd t s
  | .st t => Sys2Proof.Machine.execSt t s
  | .storeApply t => Sys2Proof.Machine.execStoreApply t s
  | .sync t => Sys2Proof.Machine.execSync t s
  | .rowComplete t ecc => Sys2Proof.Machine.execRowComplete t ecc s
  | .semget t => Sys2Proof.Machine.execSemget t s
  | .semput t => Sys2Proof.Machine.execSemput t s
  | .wait t => Sys2Proof.Machine.execWait t s
  | .waitEventEnd t => Sys2Proof.Machine.execWaitEventEnd t s
  | .waitp t => Sys2Proof.Machine.execWaitp t s
  | .waitpEnd t => Sys2Proof.Machine.execWaitpEnd t s
  | .waitTimeout t => Sys2Proof.Machine.execWaitTimeout t s
  | .post t => Sys2Proof.Machine.execPost t s
  | .hostPostSet p d => Sys2Proof.Machine.execHostPostSet p d s
  | .dly t => Sys2Proof.Machine.execDly t s
  | .dlyEnd t => Sys2Proof.Machine.execDlyEnd t s
  | .signal t => Sys2Proof.Machine.execSignal t s
  | .tcap t => Sys2Proof.Machine.execTcap t s
  | .log t => Sys2Proof.Machine.execLog t s
  | .raise t => Sys2Proof.Machine.execRaise t s
  | .lres t => Sys2Proof.Machine.execLres t s
  | .lcom t => Sys2Proof.Machine.execLcom t s
  | .lrel t => Sys2Proof.Machine.execLrel t s
  | .lshed t => Sys2Proof.Machine.execLshed t s
  | .lsend t ecc => Sys2Proof.Machine.execLsend t ecc s
  | .rail t => Sys2Proof.Machine.execRail t s
  | .thcmdHalt p t => Sys2Proof.Machine.execThcmdHalt p t s
  | .thcmdStart p t pc => Sys2Proof.Machine.execThcmdStart p t pc s
  | .thcmdResume p t => Sys2Proof.Machine.execThcmdResume p t s
  | .thcmdStep p t => Sys2Proof.Machine.execThcmdStep p t s
  | .threadRegWrite w n m d => Sys2Proof.Machine.execThreadRegWrite w n m d s
  | .wlockSet w => Sys2Proof.Machine.execWlockSet w s
  | .semRelease p d => Sys2Proof.Machine.execSemRelease p d s
  | .planLoadOtp w => Sys2Proof.Machine.execPlanLoadOtp w s
  | .planLoadPlanA w => Sys2Proof.Machine.execPlanLoadPlanA w s
  | .planLoadPlanB w => Sys2Proof.Machine.execPlanLoadPlanB w s
  | .loadThreadsHalted => Sys2Proof.Machine.execLoadThreadsHalted s
  | .loadHeaderRead ok => Sys2Proof.Machine.execLoadHeaderRead ok s
  | .loadPass1Done ok o => Sys2Proof.Machine.execLoadPass1Done ok o s
  | .loadPass2Done ok same => Sys2Proof.Machine.execLoadPass2Done ok same s
  | .otpPlanHeaderRead o => Sys2Proof.Machine.execOtpPlanHeaderRead o s
  | .otpPlanReadDone o => Sys2Proof.Machine.execOtpPlanReadDone o s
  | .otpPlanWriteDone => Sys2Proof.Machine.execOtpPlanWriteDone s
  | .phaseAssignWrite w k d => Sys2Proof.Machine.execPhaseAssignWrite w k d s
  | .loopOnRequest w n d => Sys2Proof.Machine.execLoopOnRequest w n d s
  | .loopOffRequest w n d => Sys2Proof.Machine.execLoopOffRequest w n d s
  | .loopStartComplete n vout => Sys2Proof.Machine.execLoopStartComplete n vout s
  | .targetWrite w n d => Sys2Proof.Machine.execTargetWrite w n d s
  | .slewDone n => Sys2Proof.Machine.execSlewDone n s
  | .softoffDone n => Sys2Proof.Machine.execSoftoffDone n s
  | .periodStart n vout ms => Sys2Proof.Machine.execPeriodStart n vout ms s
  | .shedCommit k => Sys2Proof.Machine.execShedCommit k s
  | .phaseAdded k => Sys2Proof.Machine.execPhaseAdded k s
  | .shedInhibitEnd n => Sys2Proof.Machine.execShedInhibitEnd n s
  | .burstEntry n => Sys2Proof.Machine.execBurstEntry n s
  | .burstTick n vout => Sys2Proof.Machine.execBurstTick n vout s
  | .gustTrip n vout => Sys2Proof.Machine.execGustTrip n vout s
  | .phaseCurrentLimit k t uv => Sys2Proof.Machine.execPhaseCurrentLimit k t uv s
  | .loopOcFault n vout => Sys2Proof.Machine.execLoopOcFault n vout s
  | .negativeCurrentLimit k uv => Sys2Proof.Machine.execNegativeCurrentLimit k uv s
  | .ovCrowbar n vout => Sys2Proof.Machine.execOvCrowbar n vout s
  | .crowbarRelease n vout => Sys2Proof.Machine.execCrowbarRelease n vout s
  | .loopUvFault n vout => Sys2Proof.Machine.execLoopUvFault n vout s
  | .loopPgoodLost n vout => Sys2Proof.Machine.execLoopPgoodLost n vout s
  | .stageFault => Sys2Proof.Machine.execStageFault s
  | .syncLock per => Sys2Proof.Machine.execSyncLock per s
  | .syncLoss => Sys2Proof.Machine.execSyncLoss s
  | .probeGo w n meas => Sys2Proof.Machine.execProbeGo w n meas s
  | .probeAbort w => Sys2Proof.Machine.execProbeAbort w s
  | .probeMeasDone m => Sys2Proof.Machine.execProbeMeasDone m s
  | .rebase w d => Sys2Proof.Machine.execRebase w d s
  | .healthApply w d => Sys2Proof.Machine.execHealthApply w d s
  | .healthDue n => Sys2Proof.Machine.execHealthDue n s
  | .railWindowChange k mv => Sys2Proof.Machine.execRailWindowChange k mv s
  | .vmonWindowChange n mv => Sys2Proof.Machine.execVmonWindowChange n mv s
  | .regulatorFault k cause vout vin => Sys2Proof.Machine.execRegulatorFault k cause vout vin s
  | .adcScanStart => Sys2Proof.Machine.execAdcScanStart s
  | .adcScanGo w d => Sys2Proof.Machine.execAdcScanGo w d s
  | .adcScanDone xs => Sys2Proof.Machine.execAdcScanDone xs s
  | .adcSelftestDone a b => Sys2Proof.Machine.execAdcSelftestDone a b s
  | .gpioEdge k level => Sys2Proof.Machine.execGpioEdge k level s
  | .slotOnRequest w k => Sys2Proof.Machine.execSlotOnRequest w k s
  | .slotOffRequest w k => Sys2Proof.Machine.execSlotOffRequest w k s
  | .seqDown w d => Sys2Proof.Machine.execSeqDown w d s
  | .slotQualified k => Sys2Proof.Machine.execSlotQualified k s
  | .slotStartTimeout k => Sys2Proof.Machine.execSlotStartTimeout k s
  | .slotDischarged k mv => Sys2Proof.Machine.execSlotDischarged k mv s
  | .slotDischargeTimeout k => Sys2Proof.Machine.execSlotDischargeTimeout k s
  | .slotPendDue k => Sys2Proof.Machine.execSlotPendDue k s
  | .slotDepWrite w k d => Sys2Proof.Machine.execSlotDepWrite w k d s
  | .vsysCollapseWarn vsys => Sys2Proof.Machine.execVsysCollapseWarn vsys s
  | .firstfailRearm vsys since => Sys2Proof.Machine.execFirstfailRearm vsys since s
  | .ffarmWrite w => Sys2Proof.Machine.execFfarmWrite w s
  | .vinUv vin => Sys2Proof.Machine.execVinUv vin s
  | .vinOv vin => Sys2Proof.Machine.execVinOv vin s
  | .vholdLow vhold => Sys2Proof.Machine.execVholdLow vhold s
  | .collapseRelease vin => Sys2Proof.Machine.execCollapseRelease vin s
  | .vacWindowChange vac => Sys2Proof.Machine.execVacWindowChange vac s
  | .vacQualified => Sys2Proof.Machine.execVacQualified s
  | .reconnectBatdrvOff => Sys2Proof.Machine.execReconnectBatdrvOff s
  | .reconnectComplete => Sys2Proof.Machine.execReconnectComplete s
  | .detectTimeout => Sys2Proof.Machine.execDetectTimeout s
  | .bridgeSettled vsys => Sys2Proof.Machine.execBridgeSettled vsys s
  | .bypassClose vsys vbat => Sys2Proof.Machine.execBypassClose vsys vbat s
  | .reverseCurrentBlock => Sys2Proof.Machine.execReverseCurrentBlock s
  | .reverseBlockRelease vac vsys => Sys2Proof.Machine.execReverseBlockRelease vac vsys s
  | .inputTrip iin => Sys2Proof.Machine.execInputTrip iin s
  | .supplementStart x => Sys2Proof.Machine.execSupplementStart x s
  | .supplementEnd x => Sys2Proof.Machine.execSupplementEnd x s
  | .inputSaturated x => Sys2Proof.Machine.execInputSaturated x s
  | .bounceClear => Sys2Proof.Machine.execBounceClear s
  | .inenWrite w d => Sys2Proof.Machine.execInenWrite w d s
  | .hoenWrite w d => Sys2Proof.Machine.execHoenWrite w d s
  | .batgo w d => Sys2Proof.Machine.execBatgo w d s
  | .chgenOn w d => Sys2Proof.Machine.execChgenOn w d s
  | .chgenOff w d => Sys2Proof.Machine.execChgenOff w d s
  | .trst p d => Sys2Proof.Machine.execTrst p d s
  | .chargeResume vbat => Sys2Proof.Machine.execChargeResume vbat s
  | .chargePhaseAdvance vbat => Sys2Proof.Machine.execChargePhaseAdvance vbat s
  | .chargeTerminated ma => Sys2Proof.Machine.execChargeTerminated ma s
  | .recharge vbat => Sys2Proof.Machine.execRecharge vbat s
  | .chargeTimeout => Sys2Proof.Machine.execChargeTimeout s
  | .chargerStopped => Sys2Proof.Machine.execChargerStopped s
  | .chargerPendDue => Sys2Proof.Machine.execChargerPendDue s
  | .chargerHwLimit cause v => Sys2Proof.Machine.execChargerHwLimit cause v s
  | .chargerLimitRelease cause v => Sys2Proof.Machine.execChargerLimitRelease cause v s
  | .presenceTestStart => Sys2Proof.Machine.execPresenceTestStart s
  | .presenceTestDone vbat => Sys2Proof.Machine.execPresenceTestDone vbat s
  | .batteryPresent vbat => Sys2Proof.Machine.execBatteryPresent vbat s
  | .batteryAbsent vbat => Sys2Proof.Machine.execBatteryAbsent vbat s
  | .gaugeEnWrite w d => Sys2Proof.Machine.execGaugeEnWrite w d s
  | .azgo w d => Sys2Proof.Machine.execAzgo w d s
  | .storego w d => Sys2Proof.Machine.execStorego w d s
  | .relearnWrite w d => Sys2Proof.Machine.execRelearnWrite w d s
  | .autozeroStart => Sys2Proof.Machine.execAutozeroStart s
  | .autozeroDone meas => Sys2Proof.Machine.execAutozeroDone meas s
  | .gaugeUpdate counts ms => Sys2Proof.Machine.execGaugeUpdate counts ms s
  | .gaugeWakeActive ma counts ms => Sys2Proof.Machine.execGaugeWakeActive ma counts ms s
  | .gaugeSample uv temp ms => Sys2Proof.Machine.execGaugeSample uv temp ms s
  | .impedanceUpdate dv di => Sys2Proof.Machine.execImpedanceUpdate dv di s
  | .proveGo w d => Sys2Proof.Machine.execProveGo w d s
  | .proveAbort w d => Sys2Proof.Machine.execProveAbort w d s
  | .gaugeStorePeriodic => Sys2Proof.Machine.execGaugeStorePeriodic s
  | .gaugeStoreDone => Sys2Proof.Machine.execGaugeStoreDone s
  | .gaugeStoreRetry => Sys2Proof.Machine.execGaugeStoreRetry s
  | .fccWrite w d => Sys2Proof.Machine.execFccWrite w d s
  | .rmWrite w d => Sys2Proof.Machine.execRmWrite w d s
  | .designMahWrite w d => Sys2Proof.Machine.execDesignMahWrite w d s
  | .linkEnable w n d => Sys2Proof.Machine.execLinkEnable w n d s
  | .linkDisable w n d => Sys2Proof.Machine.execLinkDisable w n d s
  | .linkTransactionStart n => Sys2Proof.Machine.execLinkTransactionStart n s
  | .frameSent n => Sys2Proof.Machine.execFrameSent n s
  | .statusReply n epoch query payload => Sys2Proof.Machine.execStatusReply n epoch query payload s
  | .ackReply n epoch out => Sys2Proof.Machine.execAckReply n epoch out s
  | .nakReply n epoch reason => Sys2Proof.Machine.execNakReply n epoch reason s
  | .nakEpochReply n epoch => Sys2Proof.Machine.execNakEpochReply n epoch s
  | .dataReply n epoch query payload => Sys2Proof.Machine.execDataReply n epoch query payload s
  | .identRReply n epoch vendor model serial => Sys2Proof.Machine.execIdentRReply n epoch vendor model serial s
  | .badReply n bad => Sys2Proof.Machine.execBadReply n bad s
  | .replyTimeout n => Sys2Proof.Machine.execReplyTimeout n s
  | .lineAlert n => Sys2Proof.Machine.execLineAlert n s
  | .alertPollSlotsDone n lo hi => Sys2Proof.Machine.execAlertPollSlotsDone n lo hi s
  | .linkCollision n => Sys2Proof.Machine.execLinkCollision n s
  | .linkStuck n => Sys2Proof.Machine.execLinkStuck n s
  | .scanRoundStart n => Sys2Proof.Machine.execScanRoundStart n s
  | .shedmaskSet w n m mask => Sys2Proof.Machine.execShedmaskSet w n m mask s
  | .grantLatchDue n a => Sys2Proof.Machine.execGrantLatchDue n a s
  | .hostpush w n d => Sys2Proof.Machine.execHostpush w n d s
  | .descriptorWrite w n q ix j d => Sys2Proof.Machine.execDescriptorWrite w n q ix j d s
  | .ledgerOpDequeue => Sys2Proof.Machine.execLedgerOpDequeue s
  | .hostopLres w point b => Sys2Proof.Machine.execHostopLres w point b s
  | .hostopLcom w point b => Sys2Proof.Machine.execHostopLcom w point b s
  | .hostopLrel w point b => Sys2Proof.Machine.execHostopLrel w point b s
  | .hostopLshed w point b => Sys2Proof.Machine.execHostopLshed w point b s
  | .reservationTimeout gp => Sys2Proof.Machine.execReservationTimeout gp s
  | .forecastHoldEnd n => Sys2Proof.Machine.execForecastHoldEnd n s
  | .thermalSample die ends td => Sys2Proof.Machine.execThermalSample die ends td s
  | .dieShutdown k => Sys2Proof.Machine.execDieShutdown k s
  | .shutdownRecordWritten => Sys2Proof.Machine.execShutdownRecordWritten s
  | .thawAuto => Sys2Proof.Machine.execThawAuto s
  | .thawKey w d => Sys2Proof.Machine.execThawKey w d s
  | .recentThawExpire => Sys2Proof.Machine.execRecentThawExpire s
  | .faultEnded k => Sys2Proof.Machine.execFaultEnded k s
  | .lullExpire k => Sys2Proof.Machine.execLullExpire k s
  | .faultClear w ix d => Sys2Proof.Machine.execFaultClear w ix d s
  | .reactWrite w k d => Sys2Proof.Machine.execReactWrite w k d s
  | .historyClear p => Sys2Proof.Machine.execHistoryClear p s
  | .extFaultIn active => Sys2Proof.Machine.execExtFaultIn active s
  | .extinWrite w d => Sys2Proof.Machine.execExtinWrite w d s
  | .intcSourceEdge ix => Sys2Proof.Machine.execIntcSourceEdge ix s
  | .pendClear w ix mask => Sys2Proof.Machine.execPendClear w ix mask s
  | .nmipendClear w ix mask => Sys2Proof.Machine.execNmipendClear w ix mask s
  | .intcCfgWrite w k d => Sys2Proof.Machine.execIntcCfgWrite w k d s
  | .holdoffReopen g => Sys2Proof.Machine.execHoldoffReopen g s
  | .recordReadpage w page => Sys2Proof.Machine.execRecordReadpage w page s
  | .recordTails w => Sys2Proof.Machine.execRecordTails w s
  | .recordSdwrite w reason => Sys2Proof.Machine.execRecordSdwrite w reason s
  | .recordTrig w => Sys2Proof.Machine.execRecordTrig w s
  | .recordResume w => Sys2Proof.Machine.execRecordResume w s
  | .almanacFreeze => Sys2Proof.Machine.execAlmanacFreeze s
  | .freezeCopyDone => Sys2Proof.Machine.execFreezeCopyDone s
  | .recordProgramDone ok => Sys2Proof.Machine.execRecordProgramDone ok s
  | .recordEraseDone => Sys2Proof.Machine.execRecordEraseDone s
  | .logbookFlush => Sys2Proof.Machine.execLogbookFlush s
  | .flashHostRead w len => Sys2Proof.Machine.execFlashHostRead w len s
  | .flashHostProgram w len => Sys2Proof.Machine.execFlashHostProgram w len s
  | .flashHostErase w len => Sys2Proof.Machine.execFlashHostErase w len s
  | .flashWorkStart => Sys2Proof.Machine.execFlashWorkStart s
  | .flashOpDone cs ok => Sys2Proof.Machine.execFlashOpDone cs ok s
  | .flashOpTimeout cs => Sys2Proof.Machine.execFlashOpTimeout cs s
  | .flashRediscover w d => Sys2Proof.Machine.execFlashRediscover w d s
  | .flashEnWrite w d => Sys2Proof.Machine.execFlashEnWrite w d s
  | .flashDiscoveryStart => Sys2Proof.Machine.execFlashDiscoveryStart s
  | .flashDiscoveryDone c0 c1 => Sys2Proof.Machine.execFlashDiscoveryDone c0 c1 s
  | .otpRead w arg margin => Sys2Proof.Machine.execOtpRead w arg margin s
  | .otpProgram w arg key => Sys2Proof.Machine.execOtpProgram w arg key s
  | .otpLock w arg key => Sys2Proof.Machine.execOtpLock w arg key s
  | .otpRepair w arg key => Sys2Proof.Machine.execOtpRepair w arg key s
  | .otpCheck w arg => Sys2Proof.Machine.execOtpCheck w arg s
  | .otpReapply w => Sys2Proof.Machine.execOtpReapply w s
  | .otpCmdComplete o => Sys2Proof.Machine.execOtpCmdComplete o s
  | .otpRlockWrite w d => Sys2Proof.Machine.execOtpRlockWrite w d s
  | .otpWlockWrite w d => Sys2Proof.Machine.execOtpWlockWrite w d s
  | .shadowWrite w ix d => Sys2Proof.Machine.execShadowWrite w ix d s
  | .overrideClear w => Sys2Proof.Machine.execOverrideClear w s
  | .timerIncrement n => Sys2Proof.Machine.execTimerIncrement n s
  | .timerCapture n rising late => Sys2Proof.Machine.execTimerCapture n rising late s
  | .timerSnap w n => Sys2Proof.Machine.execTimerSnap w n s
  | .timerPop w n => Sys2Proof.Machine.execTimerPop w n s
  | .timerLoad w n => Sys2Proof.Machine.execTimerLoad w n s
  | .timerClrq w n => Sys2Proof.Machine.execTimerClrq w n s
  | .crcInit w d => Sys2Proof.Machine.execCrcInit w d s
  | .crcDin8 w d => Sys2Proof.Machine.execCrcDin8 w d s
  | .crcDin16 w d => Sys2Proof.Machine.execCrcDin16 w d s
  | .crcDin32 w d => Sys2Proof.Machine.execCrcDin32 w d s
  | .crcQueueApply => Sys2Proof.Machine.execCrcQueueApply s
  | .crcOwnerWrite w d => Sys2Proof.Machine.execCrcOwnerWrite w d s
  | .resetPinRelease => Sys2Proof.Machine.execResetPinRelease s
  | .aoPowerLoss => Sys2Proof.Machine.execAoPowerLoss s
  | .wakeStable => Sys2Proof.Machine.execWakeStable s
  | .wakeStartRetry => Sys2Proof.Machine.execWakeStartRetry s
  | .gaugeOscReturn => Sys2Proof.Machine.execGaugeOscReturn s
  | .loopPgoodRegained n vout => Sys2Proof.Machine.execLoopPgoodRegained n vout s
  | .headroomChange vsys vbat => Sys2Proof.Machine.execHeadroomChange vsys vbat s
  | .vholdCharged => Sys2Proof.Machine.execVholdCharged s

end Sys2Proof.Machine
end

