-- ==== Sys2Proof/Safety.lean ====
section
/-! DEFINITION. What counts as a safe run, in the terms the statements use. -/

namespace Sys2Proof

open Sys2Proof.Machine

/-- A run of `n` steps neither faults nor is refused. -/
def RunsOn (n : Nat) (s : State) : Prop := ∃ t, core.run n s = .next t

/-- The register table and the SRAM windows are in their canonical form. -/
def Machine.State.wf (s : State) : Bool := twf resetWord s.regs && twf memDefault s.mem

/-! ## Rows -/

/-- A row of thread `t` that is taken: R82 lets `t` issue, the row `r` at its PC is a legal row of opcode `op` (R79), and
its condition holds (R85). -/
def Machine.State.Takes (s : State) (t : Fin 16) (op : Nat) (r : Row) : Prop :=
  s.power.ao = true ∧ s.canIssue t = true ∧ s.rowAt t = r ∧ rowCause r = 0 ∧ r.op = op ∧ condHolds r.cc (s.th t).flags = true

/-- The state in which thread `t` has issued its row (R82); the engine has work, so the idle count starts again (R29). -/
def Machine.State.issued (s : State) (t : Fin 16) : State :=
  { s with eng := { s.eng with lastIssued := t }, power := { s.power with idleTicks := 0 } }

/-- Thread `t` moves past a row that has completed: PC goes to `pc`, and a pending halt or a step halts it (R97, R100). -/
def Machine.Thread.past (x : Thread) (pc : BitVec 14) : Thread := ({ x with pc := pc, busy := none } : Thread).boundary

/-- Thread `t` in FAULT with a CAUSE (R79): its PC stays, THFAULT is reported and FS33 is raised with CAUSE and thread. -/
def Machine.State.faulted (s : State) (t : Fin 16) (cause : Nat) : State :=
  (((s.setTh t { s.th t with st := .fault, cause := cause, busy := none, waiting := none, waitDue := none, haltReq := false,
                             step := false }).evBit Fd.PLAN_EVRAW_THFAULT t).raise 33 cause t)

/-- A wait ends (R92): W7 and C, Z and N from W7, and the thread runs. -/
def Machine.Thread.woken (x : Thread) (w7 : Word) (timedOut : Bool) : Thread :=
  ({ x with st := .run, waiting := none, waitDue := none, flags := { (x.flags.zn w7) with c := timedOut } } : Thread).setReg 7 w7

/-- Command `c` is a ledger row of thread `t` that asks for operation `op`, its operands in range (R310–R315). -/
def Machine.State.LedgerRow (s : State) (t : Fin 16) (r : Row) (c : Instr) (op : LedgerOp) : Prop :=
  (s.Takes t 0x38 r ∧ c = .lres t ∧
    ∃ gp, (s.th t).inRange r.a 0 511 = some gp ∧ op = .lres gp ((s.th t).val r.b).toNat) ∨
  (s.Takes t 0x39 r ∧ c = .lcom t ∧
    ∃ gp b, (s.th t).inRange r.a 0 511 = some gp ∧ (s.th t).inRange r.b 0 4 = some b ∧ op = .lcom gp b) ∨
  (s.Takes t 0x3A r ∧ c = .lrel t ∧ ∃ gp, (s.th t).inRange r.a 0 511 = some gp ∧ op = .lrel gp) ∨
  (s.Takes t 0x3B r ∧ c = .lshed t ∧
    ∃ b, (s.th t).inRange r.b 0 6 = some b ∧ op = .lshed ((s.th t).val r.a).toNat b)

/-- The commands that are rows, with their opcodes (R86). -/
def rowCommands : List ((Fin 16 → Instr) × Nat) :=
  [(fun t => .nop t .clean, 0x01), (.jmp, 0x02), (.call, 0x03), (.ret, 0x04), (.dbnz, 0x05), (.halt, 0x06), (.start, 0x07),
   (.stop, 0x08), (.jmpx, 0x09), (.mov, 0x10), (.ldh, 0x11), (.add, 0x12), (.sub, 0x13), (.cmp, 0x14), (.and, 0x15),
   (.or, 0x16), (.xor, 0x17), (.tst, 0x18), (.shl, 0x19), (.shr, 0x1A), (.asr, 0x1B), (.mul, 0x1C), (.div, 0x1D),
   (.adds, 0x1E), (.subs, 0x1F), (.min, 0x20), (.max, 0x21), (.ld, 0x28), (.st, 0x29), (.sync, 0x2A), (.semget, 0x2B),
   (.semput, 0x2C), (.wait, 0x30), (.waitp, 0x31), (.post, 0x32), (.dly, 0x33), (.signal, 0x34), (.tcap, 0x35),
   (.log, 0x36), (.raise, 0x37), (.lres, 0x38), (.lcom, 0x39), (.lrel, 0x3A), (.lshed, 0x3B), ((fun t => .lsend t []), 0x3C),
   (.rail, 0x3D)]

/-! ## Power -/

/-- What the AO power-on reset leaves after state `s` (R28, R208). -/
def Machine.State.After (u s : State) : Prop :=
  u.power.state = .off ∧ u.regs = [] ∧ u.mem = [] ∧ u.ticks = 0 ∧ u.faults = [] ∧ u.eng = State.reset.eng ∧
    u.almanac = State.reset.almanac ∧ u.seq = State.reset.seq ∧ u.pending = s.pending ∧
    (s.otp.cmd = none → u.otp.words = s.otp.words ∧ u.otp.spare = s.otp.spare ∧ u.otp.copies = s.otp.copies ∧
      u.otp.fuses = s.otp.fuses) ∧
    (s.rflash.busy = none → u.rflash.cells = s.rflash.cells)

/-! ## Host port -/

/-- The device when a chip select falls (R31): awake, its idle count at 0. -/
def Machine.State.selected (s : State) : State := { s.wakeUp with power := { s.wakeUp.power with idleTicks := 0 } }

/-- The commands that are frames, with their command bytes (R50). -/
def frameCommands : List ((Frame → Instr) × Nat) :=
  [(.read, 0x03), (.readBurst, 0x0B), (.write, 0x02), (.writeBurst, 0x0A), (.status, 0x05), (.id, 0x9F)]

/-! ## Plan loads -/

/-- A load has begun (R107, step 1): LOADING, BUSY and the source are reported, and every thread halts at its next row
boundary. -/
def Machine.State.loadBegun (s : State) (src : PlanSrc) : State :=
  ((((s.setF Fd.PLAN_STAT_LOADING 1).setF Fd.PLAN_LOADSTAT_BUSY 1).setF Fd.PLAN_LOADSTAT_SRC src.code).haltAll).setStage
    ⟨src, .halting, s.eng.threads, 0, 0, 0, 0, false, [], false⟩

/-- The word that a write of `d` at the base offset of register `k` with row `r` leaves before the register's own action
(R8, R67): RW bits take `d` as stored, W1C bits are cleared by ones of `d`, and every other bit stays. -/
def Machine.State.writtenWord (s : State) (k : Nat) (r : RegRow) (d : Word) : Word :=
  (s.rd k &&& ~~~ (r.rw ||| r.w1c)) ||| (normWord (k / 0x1000) (k % 0x1000) d &&& r.rw) ||| (s.rd k &&& r.w1c &&& ~~~ d)

/-! ## The ledger -/

/-- The host's ledger commands with the operation each issues (R316), B within its range. -/
inductive Machine.State.HostOp (s : State) : Instr → Nat → LedgerOp → Prop
  | lres (w : Writer) (p : BitVec 9) (b : BitVec 3) (m : s.mayWrite w Reg.LEDGER_HOSTOP = true) :
      s.HostOp (.hostopLres w p b) 1 (.lres p.toNat (s.rd Reg.LEDGER_HOSTARG).toNat)
  | lcom (w : Writer) (p : BitVec 9) (b : BitVec 3) (h : b.toNat ≤ 4) (m : s.mayWrite w Reg.LEDGER_HOSTOP = true) :
      s.HostOp (.hostopLcom w p b) 2 (.lcom p.toNat b.toNat)
  | lrel (w : Writer) (p : BitVec 9) (b : BitVec 3) (m : s.mayWrite w Reg.LEDGER_HOSTOP = true) :
      s.HostOp (.hostopLrel w p b) 3 (.lrel p.toNat)
  | lshed (w : Writer) (p : BitVec 9) (b : BitVec 3) (h : b.toNat ≤ 6) (m : s.mayWrite w Reg.LEDGER_HOSTOP = true) :
      s.HostOp (.hostopLshed w p b) 4 (.lshed (s.rd Reg.LEDGER_HOSTARG).toNat b.toNat)

/-- The state after a host's operation that answered `a` in state `t` (R316). -/
def Machine.State.hostAnswered (t : State) (a : LedgerRes) : State :=
  ((((t.wr Reg.LEDGER_HOSTRES a.w7).wr Reg.LEDGER_HOSTRESX 0).setFb Fd.LEDGER_HOSTRESX_C a.c).setF Fd.LEDGER_HOSTRESX_COUNT
    (a.w6.getD 0).toNat).setF Fd.LEDGER_HOSTRESX_DONE 1

/-! ## OTP -/

/-- The commands of `OTP.CMD` (R406): a command, its writer, OP, MARGIN, KEY and ARG. -/
inductive OtpCommand : Instr → Writer → Nat → Nat → Nat → Nat → Prop
  | read (w : Writer) (a : BitVec 11) (m : BitVec 2) : OtpCommand (.otpRead w a m) w 1 m.toNat 0 a.toNat
  | program (w : Writer) (a : BitVec 11) (k : BitVec 8) : OtpCommand (.otpProgram w a k) w 2 0 k.toNat a.toNat
  | lock (w : Writer) (a : BitVec 11) (k : BitVec 8) : OtpCommand (.otpLock w a k) w 3 0 k.toNat a.toNat
  | repair (w : Writer) (a : BitVec 11) (k : BitVec 8) : OtpCommand (.otpRepair w a k) w 4 0 k.toNat a.toNat
  | check (w : Writer) (a : BitVec 11) : OtpCommand (.otpCheck w a) w 5 0 0 a.toNat
  | reapply (w : Writer) : OtpCommand (.otpReapply w) w 6 0 0 0

end Sys2Proof
end

