-- ==== Sys2Proof/Certificates/Slice0/Obligations.lean ====
section
/-! DEFINITION. The statements about the model. -/

open Sys2Proof Sys2Proof.Machine

/-! ## Rows of the engine -/

/-- A one-cycle arithmetic row: the result and flags that `P` relates to the operands and the old flags. Everything but the
thread's destination register, its flags and its PC stays. -/
def AluRow (c : Fin 16 → Instr) (op : Nat) (P : Word → Word → Flags → Option Word → Flags → Prop) : Prop :=
  ∀ (s : State) (t : Fin 16) (r : Row), s.Takes t op r →
    ∃ res f, P ((s.th t).reg (regOf r.a)) ((s.th t).val r.b) (s.th t).flags res f ∧
      exec (c t) s = .next ((s.issued t).setTh t
        ({ (match res with
            | some v => (s.th t).setReg (regOf r.a) v
            | none => s.th t) with flags := f }.past ((s.th t).pc + 1)))

/-- R86: the moves and the logic rows set Z and N from the result; C and V stay. -/
def Obligations.LogicRows : Prop :=
  AluRow .mov 0x10 (fun _ b f res g => res = some b ∧ g = ⟨b == 0, b.msb, f.c, f.v⟩) ∧
  AluRow .ldh 0x11 (fun a b f res g => ∃ v : Word, res = some v ∧ v.toNat = b.toNat % 2 ^ 16 * 2 ^ 16 + a.toNat % 2 ^ 16 ∧
    g = ⟨v == 0, v.msb, f.c, f.v⟩) ∧
  AluRow .and 0x15 (fun a b f res g => res = some (a &&& b) ∧ g = ⟨a &&& b == 0, (a &&& b).msb, f.c, f.v⟩) ∧
  AluRow .or 0x16 (fun a b f res g => res = some (a ||| b) ∧ g = ⟨a ||| b == 0, (a ||| b).msb, f.c, f.v⟩) ∧
  AluRow .xor 0x17 (fun a b f res g => res = some (a ^^^ b) ∧ g = ⟨a ^^^ b == 0, (a ^^^ b).msb, f.c, f.v⟩) ∧
  AluRow .tst 0x18 (fun a b f res g => res = none ∧ g = ⟨a &&& b == 0, (a &&& b).msb, f.c, f.v⟩)

/-- R86: ADD, SUB and CMP, with C the carry or borrow of the unsigned numbers and V the overflow of the signed ones; ADDS
and SUBS saturate, with C when they do and V cleared; MIN and MAX take B by unsigned comparison, with C when they do. -/
def Obligations.AddSubRows : Prop :=
  AluRow .add 0x12 (fun a b _ res g => res = some (a + b) ∧
    g = ⟨a + b == 0, (a + b).msb, decide (2 ^ 32 ≤ a.toNat + b.toNat), decide ((a + b).toInt ≠ a.toInt + b.toInt)⟩) ∧
  AluRow .sub 0x13 (fun a b _ res g => res = some (a - b) ∧
    g = ⟨a - b == 0, (a - b).msb, decide (a.toNat < b.toNat), decide ((a - b).toInt ≠ a.toInt - b.toInt)⟩) ∧
  AluRow .cmp 0x14 (fun a b _ res g => res = none ∧
    g = ⟨a - b == 0, (a - b).msb, decide (a.toNat < b.toNat), decide ((a - b).toInt ≠ a.toInt - b.toInt)⟩) ∧
  AluRow .adds 0x1E (fun a b _ res g => ∃ v : Word, res = some v ∧ v.toNat = min (2 ^ 32 - 1) (a.toNat + b.toNat) ∧
    g = ⟨v == 0, v.msb, decide (2 ^ 32 ≤ a.toNat + b.toNat), false⟩) ∧
  AluRow .subs 0x1F (fun a b _ res g => ∃ v : Word, res = some v ∧ v.toNat = a.toNat - b.toNat ∧
    g = ⟨v == 0, v.msb, decide (a.toNat < b.toNat), false⟩) ∧
  AluRow .min 0x20 (fun a b f res g => ∃ v : Word, res = some v ∧ v.toNat = min a.toNat b.toNat ∧
    g = ⟨v == 0, v.msb, decide (b.toNat < a.toNat), f.v⟩) ∧
  AluRow .max 0x21 (fun a b f res g => ∃ v : Word, res = some v ∧ v.toNat = max a.toNat b.toNat ∧
    g = ⟨v == 0, v.msb, decide (a.toNat < b.toNat), f.v⟩)

/-- R86: the shift rows use B modulo 32; C is the last bit shifted out and is cleared by a count of 0. -/
def Obligations.ShiftRows : Prop :=
  AluRow .shl 0x19 (fun a b f res g => ∃ v : Word, res = some v ∧ v.toNat = a.toNat * 2 ^ (b.toNat % 32) % 2 ^ 32 ∧
    g = ⟨v == 0, v.msb, (a.toNat * 2 ^ (b.toNat % 32)).testBit 32, f.v⟩) ∧
  AluRow .shr 0x1A (fun a b f res g => ∃ v : Word, res = some v ∧ v.toNat = a.toNat / 2 ^ (b.toNat % 32) ∧
    g = ⟨v == 0, v.msb, (2 * a.toNat / 2 ^ (b.toNat % 32)).testBit 0, f.v⟩) ∧
  AluRow .asr 0x1B (fun a b f res g => ∃ v : Word, res = some v ∧ v.toInt = a.toInt / 2 ^ (b.toNat % 32) ∧
    g = ⟨v == 0, v.msb, (2 * a.toNat / 2 ^ (b.toNat % 32)).testBit 0, f.v⟩)

/-- R86, R87: MUL and DIV keep the thread busy; the result lands when the row completes. The product saturates with V; the
quotient of a divisor of 0 is 0xFFFF_FFFF with V. ROW_COMPLETE ends such a row: its registers and flags are written and the
PC advances. -/
def Obligations.MulDivRows : Prop :=
  (∀ (s : State) (t : Fin 16) (r : Row), s.Takes t 0x1C r →
    ∃ v : Word, v.toNat = min (2 ^ 32 - 1) (((s.th t).reg (regOf r.a)).toNat * ((s.th t).val r.b).toNat) ∧
      exec (.mul t) s = .next ((s.issued t).setTh t { s.th t with busy := some (.result [(regOf r.a, v)]
        ⟨v == 0, v.msb, (s.th t).flags.c,
          decide (2 ^ 32 ≤ ((s.th t).reg (regOf r.a)).toNat * ((s.th t).val r.b).toNat)⟩) })) ∧
  (∀ (s : State) (t : Fin 16) (r : Row), s.Takes t 0x1D r →
    ∃ v : Word, (v.toNat = if (s.th t).val r.b = 0 then 2 ^ 32 - 1
        else ((s.th t).reg (regOf r.a)).toNat / ((s.th t).val r.b).toNat) ∧
      exec (.div t) s = .next ((s.issued t).setTh t { s.th t with busy := some (.result [(regOf r.a, v)]
        ⟨v == 0, v.msb, (s.th t).flags.c, (s.th t).val r.b == 0⟩) })) ∧
  (∀ (s : State) (t : Fin 16) (ecc : Ecc) (a : Nat) (v : Word) (f : Flags), s.power.ao = true → s.engineRuns = true →
    s.eng.ledgerBusy ≠ some (.row t) → (s.th t).busy = some (.result [(a, v)] f) →
      exec (.rowComplete t ecc) s =
        .next (s.setTh t (({ (s.th t).setReg a v with flags := f } : Thread).past ((s.th t).pc + 1))).settle)

/-- R86–R88: the rows that move the PC. NOP goes to the next row; JMP to TGT; DBNZ counts its register down and goes to TGT
until it reaches 0; CALL pushes the next row and RET pops it, at most four deep; HALT halts past its row; JMPX adds its
register to TGT. -/
def Obligations.FlowRows : Prop :=
  (∀ (s : State) (t : Fin 16) (r : Row), s.Takes t 0x01 r →
    exec (.nop t .clean) s = .next ((s.issued t).setTh t ((s.th t).past ((s.th t).pc + 1))).settle) ∧
  (∀ (s : State) (t : Fin 16) (r : Row), s.Takes t 0x02 r →
    exec (.jmp t) s = .next ((s.issued t).setTh t ((s.th t).past r.tgt))) ∧
  (∀ (s : State) (t : Fin 16) (r : Row), s.Takes t 0x03 r → (s.th t).stack.length < 4 →
    exec (.call t) s = .next ((s.issued t).setTh t
      (({ s.th t with stack := ((s.th t).pc + 1) :: (s.th t).stack } : Thread).past r.tgt)).settle) ∧
  (∀ (s : State) (t : Fin 16) (r : Row) (pc : BitVec 14) (rest : List (BitVec 14)), s.Takes t 0x04 r →
    (s.th t).stack = pc :: rest →
      exec (.ret t) s = .next ((s.issued t).setTh t (({ s.th t with stack := rest } : Thread).past pc)).settle) ∧
  (∀ (s : State) (t : Fin 16) (r : Row), s.Takes t 0x05 r →
    exec (.dbnz t) s = .next ((s.issued t).setTh t
      (({ (s.th t).setReg (regOf r.a) ((s.th t).reg (regOf r.a) - 1) with
            flags := { (s.th t).flags with z := (s.th t).reg (regOf r.a) == 1 } } : Thread).past
        (if (s.th t).reg (regOf r.a) = 1 then (s.th t).pc + 1 else r.tgt)))) ∧
  (∀ (s : State) (t : Fin 16) (r : Row), s.Takes t 0x06 r →
    exec (.halt t) s = .next ((s.issued t).setTh t
      { s.th t with pc := (s.th t).pc + 1, st := .halted, haltReq := false, step := false })) ∧
  (∀ (s : State) (t : Fin 16) (r : Row), s.Takes t 0x09 r → r.tgt.toNat + ((s.th t).reg (regOf r.a)).toNat ≤ 16383 →
    exec (.jmpx t) s = .next ((s.issued t).setTh t
      ((s.th t).past (BitVec.ofNat 14 (r.tgt.toNat + ((s.th t).reg (regOf r.a)).toNat)))).settle)

/-- R79, R85, R86, R88: the rows that fault their thread: an illegal row, CALL on a full stack, RET on an empty one, JMPX beyond the
last row. The PC stays on the row, CAUSE is set, THFAULT is reported and FS33 is raised. R85, R86: a row whose condition is
false only goes to the next row. -/
def Obligations.RowFaults : Prop :=
  (∀ (s : State) (t : Fin 16), s.power.ao = true → s.canIssue t = true →
     (rowCause (s.rowAt t) ≠ 0 →
       exec (.illegalRow t) s =
         .next (({ s with eng := { s.eng with lastIssued := t } } : State).faulted t (rowCause (s.rowAt t))).settle) ∧
     (∀ r, s.Takes t 0x03 r → 4 ≤ (s.th t).stack.length → exec (.call t) s = .next ((s.issued t).faulted t 5).settle) ∧
     (∀ r, s.Takes t 0x04 r → (s.th t).stack = [] → exec (.ret t) s = .next ((s.issued t).faulted t 6).settle) ∧
     (∀ r, s.Takes t 0x09 r → 16383 < r.tgt.toNat + ((s.th t).reg (regOf r.a)).toNat →
       exec (.jmpx t) s = .next ((s.issued t).faulted t 8).settle)) ∧
  (∀ (s : State) (t : Fin 16) (c : Fin 16 → Instr) (op : Nat) (r : Row),
     ((c, op) ∈ rowCommands ∨ op = 0x3C ∧ ∃ ecc, c = fun t => .lsend t ecc) →
     s.power.ao = true → s.canIssue t = true → s.rowAt t = r → rowCause r = 0 → r.op = op →
     condHolds r.cc (s.th t).flags = false →
       exec (c t) s = .next ((s.issued t).setTh t ((s.th t).past ((s.th t).pc + 1))) ∨
       exec (c t) s = .next ((s.issued t).setTh t ((s.th t).past ((s.th t).pc + 1))).settle)

/-- R96, R97: START sets a halted or faulted thread running at TGT with an empty stack and CAUSE 0, its registers and flags
as they were, and clears C; otherwise it only sets C. STOP halts the thread at its next row boundary, a busy row completing
first, and clears C; it only sets C when the thread is halted or faulted already. A thread that stops itself halts past the
row. -/
def Obligations.ThreadRows : Prop :=
  ∀ (s : State) (t u : Fin 16) (r : Row), s.threadArg t r.a = some u.val →
    (s.Takes t 0x07 r → (s.th u).startable = true → u ≠ t →
      exec (.start t) s = .next (((s.issued t).setTh u { s.th u with
          pc := r.tgt, stack := [], cause := 0, st := .run, busy := none, waiting := none, waitDue := none, haltReq := false,
          step := false }).setTh t
        (({ s.th t with flags := { (s.th t).flags with c := false } } : Thread).past ((s.th t).pc + 1)))) ∧
    (s.Takes t 0x07 r → (s.th u).startable = false →
      exec (.start t) s = .next ((s.issued t).setTh t
        (({ s.th t with flags := { (s.th t).flags with c := true } } : Thread).past ((s.th t).pc + 1)))) ∧
    (s.Takes t 0x08 r → u = t →
      exec (.stop t) s = .next ((s.issued t).setTh t { s.th t with
        pc := (s.th t).pc + 1, st := .halted, haltReq := false, step := false,
        flags := { (s.th t).flags with c := false } })) ∧
    (s.Takes t 0x08 r → (s.th u).startable = true → u ≠ t →
      exec (.stop t) s = .next ((s.issued t).setTh t
        (({ s.th t with flags := { (s.th t).flags with c := true } } : Thread).past ((s.th t).pc + 1)))) ∧
    (s.Takes t 0x08 r → (s.th u).st = .run → (s.th u).busy = none → u ≠ t →
      exec (.stop t) s = .next (((s.issued t).setTh u { s.th u with st := .halted, haltReq := false, step := false }).setTh t
        (({ s.th t with flags := { (s.th t).flags with c := false } } : Thread).past ((s.th t).pc + 1)))) ∧
    (s.Takes t 0x08 r → (s.th u).st = .run → (∃ b, (s.th u).busy = some b ∧ b ≠ .dly) → u ≠ t →
      exec (.stop t) s = .next (((s.issued t).setTh u { s.th u with haltReq := true }).setTh t
        (({ s.th t with flags := { (s.th t).flags with c := false } } : Thread).past ((s.th t).pc + 1)))) ∧
    (s.Takes t 0x08 r → (s.th u).st = .run → (s.th u).busy = some .dly → u ≠ t →
      exec (.stop t) s = .next (((s.issued t).setTh u { s.th u with
          st := .halted, busy := none, haltReq := false, step := false }).setTh t
        (({ s.th t with flags := { (s.th t).flags with c := false } } : Thread).past ((s.th t).pc + 1)))) ∧
    (s.Takes t 0x08 r → (s.th u).st = .wait → u ≠ t →
      exec (.stop t) s = .next (((s.issued t).setTh u { s.th u with
          st := .halted, waiting := none, waitDue := none, haltReq := false, step := false }).setTh t
        (({ s.th t with flags := { (s.th t).flags with c := false } } : Thread).past ((s.th t).pc + 1))))

/-- R86, R94, R98: SEMGET takes a free semaphore with C = 0 and reports a held one with C = 1; SEMPUT releases only for its
holder; POST sets the flags that its operand names; SIGNAL writes `PLAN.SIGDATAn` and makes source 48 + n pending. -/
def Obligations.SemaphoreRows : Prop :=
  (∀ (s : State) (t : Fin 16) (r : Row) (k : Nat), s.threadArg t r.a = some k →
     (s.Takes t 0x2B r → bit (s.rd Reg.PLAN_SEM) k = false →
       ∃ u, exec (.semget t) s = .next (u.setTh t
           (({ s.th t with flags := { (s.th t).flags with c := false } } : Thread).past ((s.th t).pc + 1))) ∧
         u = { ((s.issued t).wr Reg.PLAN_SEM (s.rd Reg.PLAN_SEM ||| bitAt k)) with
           eng := { (s.issued t).eng with semOwner := tset (fun _ => none) s.eng.semOwner k (some t.val) } }) ∧
     (s.Takes t 0x2B r → bit (s.rd Reg.PLAN_SEM) k = true →
       exec (.semget t) s = .next ((s.issued t).setTh t
         (({ s.th t with flags := { (s.th t).flags with c := true } } : Thread).past ((s.th t).pc + 1)))) ∧
     (s.Takes t 0x2C r → bit (s.rd Reg.PLAN_SEM) k = true → tget (fun _ => none) s.eng.semOwner k = some t.val →
       ∃ u, exec (.semput t) s = .next (u.setTh t
           (({ s.th t with flags := { (s.th t).flags with c := false } } : Thread).past ((s.th t).pc + 1))) ∧
         u = { ((s.issued t).wr Reg.PLAN_SEM (s.rd Reg.PLAN_SEM &&& ~~~ bitAt k)) with
           eng := { (s.issued t).eng with semOwner := tset (fun _ => none) s.eng.semOwner k none } }) ∧
     (s.Takes t 0x2C r → bit (s.rd Reg.PLAN_SEM) k = true → tget (fun _ => none) s.eng.semOwner k ≠ some t.val →
       exec (.semput t) s = .next ((s.issued t).setTh t
         (({ s.th t with flags := { (s.th t).flags with c := true } } : Thread).past ((s.th t).pc + 1))))) ∧
  (∀ (s : State) (t : Fin 16) (r : Row),
     (s.Takes t 0x32 r →
       exec (.post t) s = .next (((s.issued t).wr Reg.PLAN_POST
           (s.rd Reg.PLAN_POST ||| ((s.th t).val r.a &&& 0xFFFF))).setTh t ((s.th t).past ((s.th t).pc + 1)))) ∧
     (∀ n : Nat, s.Takes t 0x34 r → (s.th t).inRange r.a 0 7 = some n →
       exec (.signal t) s = .next ((State.noteOutputs ((s.issued t).wr (Reg.PLAN_SIGDATA n) ((s.th t).val r.b))
           (((s.issued t).wr (Reg.PLAN_SIGDATA n) ((s.th t).val r.b)).wr Reg.INTC_PEND1
             (s.rd Reg.INTC_PEND1 ||| bitAt (16 + n)))).setTh t ((s.th t).past ((s.th t).pc + 1)))))

/-- R92–R95: WAIT and WAITP end at once when a selected event or flag is present, W7 telling which, and otherwise enter
WAIT with their timeout; the end of a wait by its event, by its flags, which are taken, or by its timeout, with C = 1; DLY
stays busy until DLY_END. -/
def Obligations.WaitRows : Prop :=
  ∀ (s : State) (t : Fin 16) (r : Row),
    (s.Takes t 0x30 r → s.eventsIn (waitMask (s.th t) r.a) ≠ 0 →
      exec (.wait t) s = .next ((s.issued t).setTh t
        (((s.th t).woken (s.eventsIn (waitMask (s.th t) r.a)) false).past ((s.th t).pc + 1)))) ∧
    (s.Takes t 0x30 r → s.eventsIn (waitMask (s.th t) r.a) = 0 →
      exec (.wait t) s = .next ((s.issued t).setTh t { s.th t with
        st := .wait, waiting := some (.events (waitMask (s.th t) r.a)),
        waitDue := if (s.th t).val r.b = 0 then none else some (s.ticks + ((s.th t).val r.b).toNat) })) ∧
    (s.Takes t 0x31 r → s.postsIn (((s.th t).val r.a).toNat % 2 ^ 16) ≠ 0 →
      ∃ got, got = BitVec.ofNat 32 (s.postsIn (((s.th t).val r.a).toNat % 2 ^ 16)) ∧
        exec (.waitp t) s = .next (((s.issued t).wr Reg.PLAN_POST (s.rd Reg.PLAN_POST &&& ~~~ got)).setTh t
          (((s.th t).woken got false).past ((s.th t).pc + 1)))) ∧
    (s.Takes t 0x31 r → s.postsIn (((s.th t).val r.a).toNat % 2 ^ 16) = 0 →
      exec (.waitp t) s = .next ((s.issued t).setTh t { s.th t with
        st := .wait, waiting := some (.posts (((s.th t).val r.a).toNat % 2 ^ 16)),
        waitDue := if (s.th t).val r.b = 0 then none else some (s.ticks + ((s.th t).val r.b).toNat) })) ∧
    (∀ m, s.power.ao = true → s.engineRuns = true → (s.th t).st = .wait → (s.th t).waiting = some (.events m) →
      s.eventsIn m ≠ 0 →
        exec (.waitEventEnd t) s =
          .next (s.setTh t (((s.th t).woken (s.eventsIn m) false).past ((s.th t).pc + 1))).settleIdle) ∧
    (∀ m, s.power.ao = true → s.engineRuns = true → (s.th t).waiting = some (.posts m) → s.postTaker = some t.val →
      ∃ got, got = BitVec.ofNat 32 (s.postsIn m) ∧
        exec (.waitpEnd t) s = .next ((s.wr Reg.PLAN_POST (s.rd Reg.PLAN_POST &&& ~~~ got)).setTh t
          (((s.th t).woken got false).past ((s.th t).pc + 1))).settleIdle) ∧
    (∀ m due, s.power.ao = true → (s.th t).st = .wait → (s.th t).waiting = some (.events m) → s.eventsIn m = 0 →
      (s.th t).waitDue = some due → due ≤ s.ticks →
        exec (.waitTimeout t) s =
          .next (s.wakeUp.setTh t (((s.th t).woken 0 true).past ((s.th t).pc + 1))).settleIdle) ∧
    (∀ n, s.Takes t 0x33 r → (s.th t).inRange r.a 1 (2 ^ 32 - 1) = some n →
      exec (.dly t) s = .next ((s.issued t).setTh t { s.th t with busy := some .dly })) ∧
    (s.power.ao = true → s.engineRuns = true → (s.th t).st = .run → (s.th t).busy = some .dly →
      exec (.dlyEnd t) s = .next (s.setTh t ((s.th t).past ((s.th t).pc + 1))))

/-- R89, R90: LD stays busy until its word arrives; ST posts its store and goes on; a forbidden address faults the thread
with CAUSE 4; SYNC ends at once only when the thread has no store waiting; a posted store reaches its register as a write
by the row's thread; an LD that ends puts the word in its register, with Z and N, and clears what a read clears. R25: a
word read with a double-bit error raises FS35 with its region and is what the array gave; a corrected word of plan memory is
counted. -/
def Obligations.MemoryRows : Prop :=
  ∀ (s : State) (t : Fin 16) (r : Row),
    (s.Takes t 0x28 r → forbidden ((s.th t).addrOf r.b) = false →
      exec (.ld t) s =
        .next ((s.issued t).setTh t { s.th t with busy := some (.load (regOf r.a) ((s.th t).addrOf r.b)) }).settle) ∧
    (s.Takes t 0x28 r → forbidden ((s.th t).addrOf r.b) = true →
      exec (.ld t) s = .next ((s.issued t).faulted t 4).settle) ∧
    (s.Takes t 0x29 r → forbidden ((s.th t).addrOf r.a) = false → regionOf ((s.th t).addrOf r.a) ≠ .planMem →
      exec (.st t) s = .next (({ (s.issued t) with eng := { (s.issued t).eng with
          stores := s.eng.stores ++ [(⟨t, (s.th t).addrOf r.a, (s.th t).val r.b⟩ : PostedStore)] } } : State).setTh t
        ((s.th t).past ((s.th t).pc + 1))).settle) ∧
    (s.Takes t 0x29 r → forbidden ((s.th t).addrOf r.a) = true ∨ regionOf ((s.th t).addrOf r.a) = .planMem →
      exec (.st t) s = .next ((s.issued t).faulted t 4).settle) ∧
    (s.Takes t 0x2A r → (∀ x ∈ s.eng.stores, x.t ≠ t) →
      exec (.sync t) s = .next ((s.issued t).setTh t ((s.th t).past ((s.th t).pc + 1)))) ∧
    (s.Takes t 0x2A r → (∃ x ∈ s.eng.stores, x.t = t) →
      exec (.sync t) s = .next ((s.issued t).setTh t { s.th t with busy := some .sync })) ∧
    (∀ x, s.power.ao = true → s.engineRuns = true → nextStore t s.eng.stores = some x →
      exec (.storeApply t) s = .next ((({ s with eng := { s.eng with stores := dropStore t s.eng.stores } } : State).busWrite
        (.row t) x.addr x.data)).settle) ∧
    (∀ a addr ecc u v w, s.power.ao = true → s.engineRuns = true → (s.th t).busy = some (.load a addr) →
      (∀ x ∈ s.eng.stores, x.t = t → domainOf x.addr ≠ domainOf addr) →
      s.eccFetch addr t ecc = (u, v) → w = v.getD (s.busRead (.row t) addr) →
        exec (.rowComplete t ecc) s =
          .next ((u.rocClear (.row t) addr).finishRow t [(a, w)] ((u.th t).flags.zn w)).settle) ∧
    (∀ a, s.eccFetch a t .clean = (s, none) ∧
      (∀ d, sramRegion a = some d → s.eccFetch a t .double = ((s.nextFree).raise 35 0 d, some (BitVec.ofNat 32 s.free))) ∧
      (regionOf a = .planMem → s.eccFetch a t .corrected = (s.incF Fd.PLAN_ECC_CORR, none)))

/-- R43, R86, R99, R196: TCAP captures chip time into the plan bank and delivers it in two registers; LOG writes an
Almanac entry of type 2 with the thread; RAISE raises its fault source with the thread as origin and clears C; RAIL turns
a slot on or off, or only asks, and delivers the slot's status in W7. -/
def Obligations.DeviceRows : Prop :=
  ∀ (s : State) (t : Fin 16) (r : Row),
    (s.Takes t 0x35 r →
      exec (.tcap t) s = .next (({ (s.issued t) with eng := { (s.issued t).eng with planBank := s.chipTime } } : State).setTh t
        { s.th t with busy := some (.result [(regOf r.a, BitVec.ofNat 32 s.chipTime),
            (regOf r.a + 1, BitVec.ofNat 32 (s.chipTime / 2 ^ 32))] (s.th t).flags) })) ∧
    (s.Takes t 0x36 r →
      exec (.log t) s = .next (((s.issued t).almanacAdd 2 t (((s.th t).val r.a).toNat % 2 ^ 16) ((s.th t).val r.b).toNat 0 0).endRow t)) ∧
    (∀ k, s.Takes t 0x37 r → (s.th t).inRange r.a 0 47 = some k →
      ∃ u, u = (s.issued t).raiseFrom k 0 0 false (some t.val) ∧
        exec (.raise t) s =
          .next (u.setTh t { u.th t with busy := some (.result [] { (u.th t).flags with c := false }) }).settle) ∧
    (∀ k, s.Takes t 0x3D r → (s.th t).inRange r.a 0 31 = some k → (s.th t).inRange r.b 0 2 = some 2 →
      exec (.rail t) s = .next ((s.issued t).setTh t { s.th t with busy := some (.result [(7, s.rd (Reg.SEQ_SLOTSTAT k))]
        { ((s.th t).flags.zn (s.rd (Reg.SEQ_SLOTSTAT k))) with c := false }) }).settle) ∧
    (∀ k u, s.Takes t 0x3D r → (s.th t).inRange r.a 0 31 = some k → (s.th t).inRange r.b 0 2 = some 0 →
      u = (s.issued t).slotOffReq k →
        exec (.rail t) s = .next (u.setTh t { u.th t with busy := some (.result [(7, u.rd (Reg.SEQ_SLOTSTAT k))]
          { ((u.th t).flags.zn (u.rd (Reg.SEQ_SLOTSTAT k))) with c := false }) }).settle) ∧
    (∀ k u c, s.Takes t 0x3D r → (s.th t).inRange r.a 0 31 = some k → (s.th t).inRange r.b 0 2 = some 1 →
      (s.issued t).slotOn k = (u, c) →
        exec (.rail t) s = .next (u.setTh t { u.th t with busy := some (.result [(7, u.rd (Reg.SEQ_SLOTSTAT k))]
          { ((u.th t).flags.zn (u.rd (Reg.SEQ_SLOTSTAT k))) with c := c }) }).settle)

/-- R286, R310–R317: LRES, LCOM, LREL and LSHED run their operation at once on a free ledger, W6, W7 and the flags telling
its answer, and wait in the queue otherwise; LSEND queues the descriptor image at its address for a point, W7 and C telling
the slot or the refusal. -/
def Obligations.LedgerRows : Prop :=
  (∀ (s : State) (t : Fin 16) (r : Row) (c : Instr) (op : LedgerOp), s.LedgerRow t r c op →
     (s.eng.ledgerBusy = none → s.eng.ledgerQ = [] →
       ∃ u a, (s.issued t).ledgerRun op = (u, a) ∧
         exec c s = .next ((u.setLedgerBusy (some (.row t))).setTh t { u.th t with busy := some (.result
           ((match a.w6 with
             | some w => [(6, w)]
             | none => []) ++ [(7, a.w7)]) { ((u.th t).flags.zn a.w7) with c := a.c }) }).settle) ∧
     (s.eng.ledgerBusy ≠ none →
       exec c s = .next (({ (s.issued t) with eng := { (s.issued t).eng with
           ledgerQ := s.eng.ledgerQ ++ [(.row t, op)] } } : State).setTh t { s.th t with busy := some .ledger }).settle)) ∧
  (∀ (s v u : State) (t : Fin 16) (r : Row) (ecc : List Ecc) (gp : Nat) (ws : List Word) (w7 : Word),
     s.Takes t 0x3C r → (s.th t).inRange r.a 0 511 = some gp →
     (∀ i : Fin 4, forbidden (busWordAddr ((s.th t).addrOf r.b + 4 * i.val)) = false) →
     fetchWords (.row t) t ecc ((List.range 4).map fun i => busWordAddr ((s.th t).addrOf r.b + 4 * i)) (s.issued t) = (v, ws) →
     v.push (gp / 64) (gp % 64) (ws.getD 0 0) (ws.getD 1 0) (ws.getD 2 0) (ws.getD 3 0) (bit (ws.getD 0 0) 24) = (u, w7) →
       exec (.lsend t ecc) s = .next (u.setTh t { u.th t with
         busy := some (.result [(7, w7)] { ((u.th t).flags.zn w7) with c := w7.msb }) }).settle)

/-! ## Power, clocks and resets -/

/-- R29, R30, R32, R34, R38: the wake sequence. A trigger in FALLOW gives AWAKE with nothing clocked; WAKE stable starts the
PLL and takes in what waited; ENG lock gives FULL without a sub-tick until the next AO tick edge; a lock that fails, or is
lost in FULL (log entry 94), sets PLLFAIL, raises FS40 and is retried; the idle count that reaches IDLE gives FALLOW at a
tick edge with the threads as they stand; a WAKE that fails falls back and is retried an AO tick later. -/
def Obligations.WakeSequence : Prop :=
  ∀ s : State, s.power.ao = true →
    (∀ src, s.power.state = .fallow →
      exec (.wake src) s = .next (State.settle { s with power := { s.power with
        state := .awake, wakeRuns := false, pll := .off, subValid := false, idleTicks := 0 } })) ∧
    (s.power.state = .awake → s.power.wakeRuns = false →
      exec .wakeStable s = .next (State.settle (State.wakeTakeIn { s with power := { s.power with
        wakeRuns := true, wakeFail := false, pll := .locking } }))) ∧
    (s.power.state = .awake → s.power.wakeRuns = true → s.power.pll = .locking →
      exec .engLock s = .next (State.settle { s with
        sub := 0, power := { s.power with state := .full, pll := .locked, subValid := false } })) ∧
    (s.power.state = .full → s.power.subValid = false →
      exec .subtickAlign s = .next s.tickEdge.settle) ∧
    ((s.power.state = .awake ∧ s.power.pll = .locking) ∨ s.power.state = .full →
      exec .pllLockTimeout s = .next (State.settle (State.clockLost { s with power := { s.power with
        state := .awake, pll := .failed, subValid := false, retryTick := s.ticks + s.f Fd.SYS_PWRCTRL_IDLE } } 4))) ∧
    (s.power.state = .awake → s.power.pll = .failed → s.power.retryTick ≤ s.ticks →
      exec .pllLockRetry s = .next (State.settle { s with power := { s.power with pll := .locking } })) ∧
    (s.power.state = .full ∨ s.power.state = .awake → s.atEdge = true → s.idleNow = true → s.f Fd.SYS_PWRCTRL_IDLE ≤ s.power.idleTicks →
      exec .fallowEntry s = .next (State.settle { s with power := { s.power with
        state := .fallow, wakeRuns := false, pll := .off, subValid := false, idleTicks := 0 } })) ∧
    (s.power.state = .awake → s.power.wakeRuns = false →
      ∃ u : State, u = s.clockLost 5 ∧ exec .wakeOscFail s = .next (State.settle { u with power := { u.power with
        state := .fallow, wakeRuns := false, pll := .off, wakeFail := true, retryTick := u.ticks + 1 } })) ∧
    (s.power.state = .fallow → s.power.wakeFail = true → s.power.retryTick ≤ s.ticks →
      exec .wakeStartRetry s = .next (State.settle { s with power := { s.power with
        state := .awake, wakeRuns := false, wakeFail := false, pll := .off, subValid := false, idleTicks := 0 } }))

/-- R38, R40, R250: a lost domain sets its bit of PWRSTAT, reports EVRAW.CLOCK when that bit was 0, and raises FS40 with
the bit as cause; the crystal's loss switches AO to the RC and its return back at a tick edge, XTALLOST staying; the PWM oscillator's loss
faults every loop that is not OFF and takes its outputs to mid-level; the GAUGE oscillator's loss marks the count invalid. -/
def Obligations.ClockLosses : Prop :=
  (∀ (s : State) (b : Nat), bit (s.rd Reg.SYS_PWRSTAT) b = false →
    s.clockLost b = ((s.wr Reg.SYS_PWRSTAT (s.rd Reg.SYS_PWRSTAT ||| bitAt b)).ev Fd.SYS_EVRAW_CLOCK).raise 40 b 0) ∧
  (∀ (s : State) (b : Nat), bit (s.rd Reg.SYS_PWRSTAT) b = true →
    s.clockLost b = (s.wr Reg.SYS_PWRSTAT (s.rd Reg.SYS_PWRSTAT ||| bitAt b)).raise 40 b 0) ∧
  ∀ s : State, s.power.ao = true →
    (s.f Fd.SYS_PWRSTAT_AOSRC = 0 →
      exec .aoXtalLost s = .next ((s.setF Fd.SYS_PWRSTAT_AOSRC 1).clockLost 3).settle) ∧
    (s.fb Fd.SYS_PWRCTRL_XTALRET = true → s.atEdge = true →
      exec .xtalReturn s = .next (s.setF Fd.SYS_PWRSTAT_AOSRC 0).settle) ∧
    (s.power.state ≠ .off → exec .pwmOscLost s = .next (List.foldl (fun (u : State) n =>
        if u.lstate n = lpOff then u
        else State.respread ((u.loopFault n 4 (u.f (Fd.LOOP_MEAS_VOUT n))).setPhases
          ((u.loopFault n 4 (u.f (Fd.LOOP_MEAS_VOUT n))).phasesOf n fun _ => true) phOff) n) (s.clockLost 6) [0, 1, 2, 3]).settle) ∧
    (s.power.state ≠ .off → s.power.gaugeOk = true →
      ∃ u : State, u = State.clockLost { s with power := { s.power with gaugeOk := false } } 7 ∧
        exec .gaugeOscLost s = .next ((((u.setF Fd.GAUGE_STAT_CNTINV 1).setAnchor none).setQPass 0).gev Fd.GAUGE_EVRAW_CNTINV).settle) ∧
    (s.power.state ≠ .off →
      exec .gaugeOscReturn s = .next (State.settle { s with power := { s.power with gaugeOk := true } }))

/-- R206, R207, R335: the reset pin and the reset command ask for a chip reset, whose cause RSTCAUSE keeps, and the pin's
release lets the boot flow go on; a collapse release, boot step 1 included, leaves the device held in OFF with its outputs off, and the boot flow
at step 1 when VIN is back at 8.0 V; TIMECAP captures chip time into the writer's bank. -/
def Obligations.ResetCommands : Prop :=
  ∀ s : State, s.power.ao = true →
    (s.seq.resetPin = false → s.power.state ≠ .off →
      exec .resetPin s = .next (State.settle (State.orReg { s with
        seq := { s.seq with resetPin := true }, resetReq := { s.resetReq with chip := true } } Reg.SEQ_RSTCAUSE 2))) ∧
    (s.seq.resetPin = false → s.power.state = .off →
      exec .resetPin s = .next (State.settle { s with seq := { s.seq with resetPin := true } })) ∧
    exec .resetPinRelease s = .next (State.settle { s with seq := { s.seq with resetPin := false } }) ∧
    (∀ w d, s.mayWrite w Reg.SYS_CTRL = true → getBits d 16 16 = 0x5AFE →
      exec (.chipReset w d) s = .next (State.settle (State.orReg { s with
        resetReq := { s.resetReq with chip := true } } Reg.SEQ_RSTCAUSE 4))) ∧
    (∀ p, s.mayWrite (.host p) Reg.SYS_TIMECAP = true →
      exec (.timecapGo (.host p)) s = .next (State.settle (s.setPort p { s.port p with bank := s.chipTime }))) ∧
    (∀ t, s.mayWrite (.row t) Reg.SYS_TIMECAP = true →
      exec (.timecapGo (.row t)) s = .next (State.settle { s with eng := { s.eng with planBank := s.chipTime } })) ∧
    (∀ vin, s.seq.stage ≠ .waitVin → ∃ u : State, exec (.collapseRelease vin) s = .next u.settle ∧ u.power.state = .off ∧
      u.power.wakeRuns = false ∧ u.seq.rsto = false ∧ u.eng.threads = [] ∧ u.links = [] ∧ u.loops = [] ∧
      u.plant.vin = some vin ∧ u.seq.stage = (if 8000 ≤ vin then .step1 else .waitVin) ∧
      u.rflash.queue = [] ∧ u.xflash.queue = [])

/-- R28, R208: the AO domain's power-on and its loss leave every register at its reset word, every SRAM window cleared,
chip time 0 and the device in OFF; OTP keeps its cells, and record flash does unless a write was under way. -/
def Obligations.AoPower : Prop :=
  ∀ s : State,
    (s.power.ao = false → ∃ u : State, exec .aoPowerOn s = .next u ∧ u.power.ao = true ∧ u.After s) ∧
    (s.power.ao = true → ∃ u : State, exec .aoPowerLoss s = .next u ∧ u.power.ao = false ∧ u.After s)

/-- R204, R205, R340, R370: the input supervisors raise their level sources while their conditions hold, FS3 only once
VHOLD has reached 10.0 V since power-on. -/
def Obligations.Supervisors : Prop :=
  ∀ s : State, s.power.ao = true → s.power.state ≠ .off →
    (∀ vin, vin < 7500 → (s.src 0).hw = false → exec (.vinUv vin) s =
      .next (State.raiseLevel { s with plant := { s.plant with vin := some vin } } 0 0 0).settle) ∧
    (∀ vin, 38000 < vin → (s.src 1).hw = false → exec (.vinOv vin) s =
      .next (State.raiseLevel { s with plant := { s.plant with vin := some vin } } 1 0 0).settle) ∧
    (∀ v, v < 6000 → s.seq.vholdArmed = true → (s.src 3).hw = false → exec (.vholdLow v) s =
      .next (State.raiseLevel { s with plant := { s.plant with vhold := some v } } 3 0 0).settle) ∧
    (∀ v, s.seq.vholdArmed = false → exec (.vholdLow v) s = .next s.settle) ∧
    exec .vholdCharged s = .next (State.recStart { s with
      plant := { s.plant with vhold := some (max 10000 (s.plant.vhold.getD 0)) },
      seq := { s.seq with vholdArmed := true } }).settle

/-- R202, R203: the boot flow. VIN at 8.0 V begins it; the supplies start the clocks; TRIM and IDENT are read unless the
device is held in reset; then the shadow's records are applied, BOOTON's slots asked for, the Almanac marked, the blocks
restored and the boot plan's load begun; RSTO# is released when its delay has passed. -/
def Obligations.BootFlow : Prop :=
  ∀ s : State, s.power.ao = true →
    (s.seq.stage = .waitVin → exec .bootStart s = .next (State.settle { s with seq := { s.seq with stage := .step1 } })) ∧
    (s.seq.stage = .step1 →
      ∃ u : State, u = State.almanacCatchUp { s with
        power := { s.power with state := .awake, wakeRuns := true, wakeFail := false, pll := .locking, subValid := false,
                                idleTicks := 0 } } ∧
        exec .bootSuppliesReady s = .next (State.settle { u with seq := { s.seq with stage := .step2 } })) ∧
    (∀ o bad, s.seq.stage = .step2 → s.heldInReset = false →
      ∃ u : State, u = s.bootTrim o bad ∧
        exec (.bootTrimReadDone o bad) s = .next (State.settle { u with seq := { u.seq with stage := .step4 } })) ∧
    (∀ o bad, s.heldInReset = true → exec (.bootTrimReadDone o bad) s = .next s.settle) ∧
    (∀ o, s.seq.stage = .step4 → s.heldInReset = false →
      exec (.bootShadowLoaded o) s = .next (((((s.bootApply o).bootRestore s.seq.cold).bootThawed).loadStart .otp).recStart).settle) ∧
    (∀ o, s.seq.cold = false → ∃ b c u : State,
      b = (s.bootShadow o).setF Fd.SYS_CONFIG_CLASS (getBits ((s.bootShadow o).shadow 192) 0 1) ∧
      c = { b with seq := { b.seq with stage := .running, cold := false } } ∧ u = c.applyRecords c.bootRecords ∧
      s.bootApply o = List.foldl (fun (t : State) k => (t.slotOn k).1) u (bitList 32 (u.rd Reg.SEQ_BOOTON).toNat)) ∧
    s.bootRestore false = (((s.almanacMark 1 (s.f Fd.RECORD_BOOTNO_BOOTNO) (s.rd Reg.SEQ_RSTCAUSE).toNat).healthRestore).intcBoot).refreeze ∧
    (∀ due, s.portUp = true → s.seq.rstoDue = some due → due ≤ s.ticks →
      exec .rstoRelease s = .next (((State.setF { s with seq := { s.seq with rsto := true, rstoDue := none } }
        Fd.SYS_STAT_READY 1).ev Fd.SYS_EVRAW_READY).ffArm).settle)

/-! ## Host port -/

/-- R50, R53, R54, R57–R60, R62, R64: a frame wakes the device and starts the idle count again. An accepted READ or
READ_BURST is answered, counted, and clears what a read clears, after the last word of a burst that is still being applied;
an accepted WRITE or WRITE_BURST is counted, entered in the Logbook and applied, a burst's later words one by one, once the
clock of the word's block runs; STATUS and ID are answered and change nothing else; a discarded frame is counted with its
reason, on both chip selects when both were low. -/
def Obligations.HostFrames : Prop :=
  ∀ (s v : State) (f : Frame), s.power.ao = true → s.power.state ≠ .off → v = s.selected →
    (frameCmd f = some 0x03 → v.frameReason f = 0 → v.burst = none →
      exec (.read f) s = .next (v.readFrame f 0x03 (frameAddr f) (min 1 f.words) 1).settle) ∧
    (frameCmd f = some 0x0B → v.frameReason f = 0 → v.burst = none →
      exec (.readBurst f) s = .next (v.readFrame f 0x0B (frameAddr f) (min f.words ((0x1000 - frameAddr f % 0x1000) / 4))
        (min (f.words + 1) ((0x1000 - frameAddr f % 0x1000) / 4))).settle) ∧
    (∀ c k, (c, k) ∈ frameCommands → hasAddr k = true → isWrite k = false → frameCmd f = some k → v.frameReason f = 0 →
      v.burst ≠ none → exec (c f) s = .next (State.settle (if f.words = 0 then (v.silent f.p f).countFrame f.p
        else { v with reads := v.reads ++ [f] }))) ∧
    (∀ d, frameCmd f = some 0x02 → v.frameReason f = 0 → frameWords v f = [d] →
      ∃ u : State, u = ((v.silent f.p f).countFrame f.p).logbook 1 f.p (frameAddr f) d ∧
        exec (.write f) s = .next (State.settle (if u.clocked (frameAddr f) then u.busWrite (.host f.p) (frameAddr f) d
          else { u with held := u.held ++ [⟨f.p, frameAddr f, d⟩] }))) ∧
    (∀ d rest, frameCmd f = some 0x0A → v.frameReason f = 0 → frameWords v f = d :: rest →
      ∃ t u : State, t = (v.silent f.p f).countFrame f.p ∧
        u = (t.logbookAt 2 f.p (frameAddr f) d t.chipTime).busWrite (.host f.p) (frameAddr f) d ∧
        exec (.writeBurst f) s = .next (State.settle (
          if t.clocked (frameAddr f) then { u with burst := if rest = [] then u.burst else some ⟨f.p, frameAddr f + 4, rest, t.chipTime⟩ }
          else { t with burst := some ⟨f.p, frameAddr f, d :: rest, t.chipTime⟩ }))) ∧
    (frameCmd f = some 0x05 → v.frameReason f = 0 →
      exec (.status f) s = .next (v.answer f 0x05 1 [v.statusWord f.p]).settle) ∧
    (frameCmd f = some 0x9F → v.frameReason f = 0 →
      exec (.id f) s = .next (v.answer f 0x9F 1 [v.rd Reg.SYS_ID]).settle) ∧
    (∀ c k r, (c, k) ∈ frameCommands → (frameCmd f = some k ∨ frameCmd f = none) → v.frameReason f = r → r ≠ 0 → r ≠ 6 →
      exec (c f) s = .next (v.discardOn f.p r f).settle) ∧
    (∀ c k, (c, k) ∈ frameCommands → (frameCmd f = some k ∨ frameCmd f = none) → f.both = true →
      exec (c f) s = .next ((v.discardOn f.p 6 f).discardOn (Proc.other f.p) 6 f).settle) ∧
    (∀ b d rest, s.burst = some b → s.clocked b.addr = true → b.words = d :: rest →
      exec .burstWordApply s = .next ((State.logbookAt { s with
        burst := if rest = [] then none else some { b with addr := b.addr + 4, words := rest } } 2 b.p b.addr d b.time).busWrite
          (.host b.p) b.addr d).serveReads.settle)

/-- R59, R60, R64: fields of the status word; ACCEPT and LASTOK after an accepted frame, whose count leaves every other
register; the discard reasons BOTHCS, BUSY, COMMAND and LENGTH where they apply first. -/
def Obligations.HostStatus : Prop :=
  ∀ (s : State) (p : Proc) (f : Frame),
    getBits (s.statusWord p) 16 16 = s.f (Fd.HOSTIF_ACCEPT_COUNT (procIx p)) % 2 ^ 16 ∧
    getBits (s.statusWord p) 8 8 = s.f (Fd.HOSTIF_DISCARD_COUNT (procIx p)) % 2 ^ 8 ∧
    getBits (s.statusWord p) 7 1 = b2n s.faultPin ∧ getBits (s.statusWord p) 6 1 = b2n (s.irqOut p) ∧
    getBits (s.statusWord p) 5 1 = b2n (s.nmiOut p) ∧
    getBits (s.statusWord p) 3 1 = b2n s.portUp ∧ getBits (s.statusWord p) 0 2 = s.power.state.code ∧
    (s.countFrame p).f (Fd.HOSTIF_ACCEPT_COUNT (procIx p)) = (s.f (Fd.HOSTIF_ACCEPT_COUNT (procIx p)) + 1) % 2 ^ 32 ∧
    (s.countFrame p).f (Fd.HOSTIF_STAT_LASTOK (procIx p)) = 1 ∧
    (∀ a, a ≠ Reg.HOSTIF_ACCEPT (procIx p) → a ≠ Reg.HOSTIF_STAT (procIx p) → (s.countFrame p).rd a = s.rd a) ∧
    (f.both = true → s.frameReason f = 6) ∧
    (∀ c, f.both = false → frameCmd f = some c → hasAddr c = true → s.burst ≠ none → isWrite c = true ∨ f.waits = none →
      s.frameReason f = 7) ∧
    (∀ c, f.both = false → frameCmd f = some c → isCmd c = false → s.frameReason f = 3) ∧
    (∀ c, f.both = false → frameCmd f = some c → isCmd c = true → hasAddr c = false → lengthOk s f c = false →
      s.frameReason f = 1)

/-- R63, R72, R73: the mailbox and the watchdogs. A write of MBOX_OUT reaches the other processor and sets MBFULL, and MBOVR
if MBFULL was set; the read of MBOX_IN clears both; EN starts a watchdog, 0x5A5A restarts it with the PERIOD now written,
another key or the period's end is an expiry, and at WARNPCT the warning is given once. -/
def Obligations.MailboxWatchdog : Prop :=
  ∀ (s : State) (p : Proc) (i : Nat), s.power.ao = true → i = procIx p →
    (∀ d, s.mayWrite (.host p) 0x1060 = true → s.fb (Fd.HOSTIF_STAT_MBFULL i) = false →
      exec (.mboxOutWrite p d) s = .next (((((s.wr (Reg.HOSTIF_MBOX_OUT i) d).wr (Reg.HOSTIF_MBOX_IN (1 - i)) d).setF
        (Fd.HOSTIF_STAT_MBFULL i) 1).pulse (if i = 0 then 80 else 64))).settle) ∧
    (∀ d, s.mayWrite (.host p) 0x1060 = true → s.fb (Fd.HOSTIF_STAT_MBFULL i) = true →
      exec (.mboxOutWrite p d) s = .next (((((s.setF (Fd.HOSTIF_STAT_MBOVR i) 1).wr (Reg.HOSTIF_MBOX_OUT i) d).wr
        (Reg.HOSTIF_MBOX_IN (1 - i)) d).setF (Fd.HOSTIF_STAT_MBFULL i) 1).pulse (if i = 0 then 80 else 64)).settle) ∧
    (s.portUp = true → s.pagesRun = true →
      exec (.mboxInRead p) s = .next ((s.wr (Reg.HOSTIF_MBOX_IN i) 0).setF (Fd.HOSTIF_STAT_MBFULL (1 - i)) 0).settle) ∧
    (∀ d, s.mayWrite (.host p) 0x1050 = true → s.fb (Fd.HOSTIF_WDCTRL_EN i) = false →
      ∃ w : Word, bit w 31 = true ∧ getBits w 0 16 = max 1 (min 60000 (getBits d 0 16)) ∧
        getBits w 16 8 = min 99 (getBits d 16 8) ∧
        exec (.watchdogEnable p d) s = .next ((s.wr (Reg.HOSTIF_WDCTRL i) w).setPort p { s.port p with
          wdStart := s.ticks, wdPeriod := msTicks (getBits w 0 16), wdWarned := false }).settle) ∧
    (∀ d, s.mayWrite (.host p) 0x1054 = true → s.fb (Fd.HOSTIF_WDCTRL_EN i) = true → getBits d 0 16 = 0x5A5A →
      exec (.watchdogKick p d) s = .next (s.setPort p { s.port p with
        wdStart := s.ticks, wdPeriod := msTicks (s.f (Fd.HOSTIF_WDCTRL_PERIOD i)), wdWarned := false }).settle) ∧
    (∀ d, s.mayWrite (.host p) 0x1054 = true → s.fb (Fd.HOSTIF_WDCTRL_EN i) = true → getBits d 0 16 ≠ 0x5A5A →
      exec (.watchdogKick p d) s = .next (s.wdExpire p).settle) ∧
    (∀ d, s.mayWrite (.host p) 0x1054 = true → s.fb (Fd.HOSTIF_WDCTRL_EN i) = false →
      exec (.watchdogKick p d) s = .next s.settle) ∧
    (s.portUp = true → s.fb (Fd.HOSTIF_WDCTRL_EN i) = true → (s.port p).wdStart + (s.port p).wdPeriod ≤ s.ticks →
      exec (.watchdogExpire p) s = .next (s.wdExpire p).settle) ∧
    (∃ u : State, u = (s.setF (Fd.HOSTIF_WDSTAT_EXPIRED i) 1).incF (Fd.HOSTIF_WDSTAT_EXPCNT i) ∧
      s.wdExpire p = (u.raise (41 + i) 0 (u.f (Fd.HOSTIF_WDSTAT_EXPCNT i))).wdRestart p (s.port p).wdPeriod) ∧
    (∀ n, s.portUp = true → s.wdWarnAt p = some n → s.fb (Fd.HOSTIF_WDCTRL_EN i) = true → (s.port p).wdWarned = false →
      (s.port p).wdStart + n ≤ s.ticks →
        exec (.watchdogWarn p) s = .next (((s.setPort p { s.port p with wdWarned := true }).setF
          (Fd.HOSTIF_WDSTAT_WARN i) 1).pulse (66 + 16 * i)).settle)

/-- R8–R10, R70, R102: a register write that its sender's checks let through reaches the bus and one that they do not
changes nothing; SET and CLR aliases set and clear the bits written; the lower word of a plan row is staged with its row and
the upper word stores the whole row, the staged word its lower half when it is for that row. -/
def Obligations.RegisterWrites : Prop :=
  ∀ (s : State) (w : Writer) (a : Nat) (d : Word), s.power.ao = true →
    (s.mayWrite w (busWordAddr a) = true →
      exec (.registerWrite w a d) s = .next (s.busWrite w (busWordAddr a) d).settle) ∧
    (s.mayWrite w (busWordAddr a) = false → exec (.registerWrite w a d) s = .next s.settle) ∧
    (∀ pg k r, regionOf a = .page pg → accessOf w a = some (k, r, 1) → r.sc ≠ 0 → k ≠ Reg.PLAN_SEM →
      s.busWrite w a d = s.scWrite k (s.rd k ||| (d &&& r.sc))) ∧
    (∀ pg k r, regionOf a = .page pg → accessOf w a = some (k, r, 2) → r.sc ≠ 0 → k ≠ Reg.PLAN_SEM →
      s.busWrite w a d = s.scWrite k (s.rd k &&& ~~~ (d &&& r.sc))) ∧
    (∀ pg k r, regionOf a = .page pg → accessOf w a = some (k, r, 0) → r.sc = 0 → r.writable = false →
      s.busWrite w a d = s) ∧
    (∀ p (r : Fin 16384), s.mayWrite (.host p) (0x100000 + 8 * r.val) = true → s.planLocked = false →
      exec (.planRowLowerWrite p r d) s =
        .next ((s.setPort p { s.port p with staged := some (r.val, d) }).setF Fd.PLAN_STAT_PATCHED 1).settle) ∧
    (∀ p (r : Fin 16384) l, s.mayWrite (.host p) (0x100000 + 8 * r.val + 4) = true → s.planLocked = false →
      (s.port p).staged = some (r.val, l) →
      exec (.planRowUpperWrite p r d) s =
        .next (((s.setPort p { s.port p with staged := none }).setRow r.val l d).setF Fd.PLAN_STAT_PATCHED 1).settle) ∧
    (∀ p (r : Fin 16384), s.mayWrite (.host p) (0x100000 + 8 * r.val + 4) = true → s.planLocked = false →
      (∀ l, (s.port p).staged ≠ some (r.val, l)) →
      exec (.planRowUpperWrite p r d) s = .next (((s.setPort p { s.port p with staged := none }).setRow r.val
        (s.memWord (rowAddr r.val)) d).setF Fd.PLAN_STAT_PATCHED 1).settle)

/-! ## Host commands to the plan engine, and plan loads -/

/-- R94, R98, R100–R102: a host's thread commands, its writes of a thread's registers, post flags and semaphores, and WLOCK.
START, RESUME and STEP act on a halted or faulted thread, and START does nothing to another; HALT acts on a waiting thread and
on a running one, whose busy row completes first; each accepted write is entered in the Logbook; a thread's register takes a word only while it is halted or faulted. -/
def Obligations.ThreadCommands : Prop :=
  ∀ (s : State) (p : Proc) (t : Fin 16), s.power.ao = true →
    (∀ v : Word → State, v = (fun d => s.logbook 1 p Reg.PLAN_THCMD d) → s.mayWrite (.host p) Reg.PLAN_THCMD = true →
      (∀ pc, (s.th t).startable = true → exec (.thcmdStart p t pc) s = .next ((v (thcmdWord 2 t pc.toNat)).setTh t { s.th t with
        pc := pc, stack := [], cause := 0, st := .run, busy := none, waiting := none, waitDue := none, haltReq := false,
        step := false }).settle) ∧
      (∀ pc, (s.th t).startable = false → exec (.thcmdStart p t pc) s = .next (v (thcmdWord 2 t pc.toNat)).settle) ∧
      ((s.th t).startable = true → exec (.thcmdResume p t) s = .next ((v (thcmdWord 3 t 0)).setTh t { s.th t with
        cause := 0, st := .run, busy := none, waiting := none, waitDue := none, haltReq := false, step := false }).settle) ∧
      ((s.th t).startable = true → exec (.thcmdStep p t) s = .next ((v (thcmdWord 4 t 0)).setTh t { s.th t with
        cause := 0, st := .run, busy := none, waiting := none, waitDue := none, haltReq := false, step := true }).settle) ∧
      ((s.th t).st = .wait → exec (.thcmdHalt p t) s = .next ((v (thcmdWord 1 t 0)).setTh t { s.th t with
        st := .halted, waiting := none, waitDue := none, haltReq := false, step := false }).settle) ∧
      ((s.th t).st = .run → (s.th t).busy = none → exec (.thcmdHalt p t) s = .next ((v (thcmdWord 1 t 0)).setTh t { s.th t with
        st := .halted, haltReq := false, step := false }).settle) ∧
      ((s.th t).st = .run → (∃ b, (s.th t).busy = some b ∧ b ≠ .dly) →
        exec (.thcmdHalt p t) s = .next ((v (thcmdWord 1 t 0)).setTh t { s.th t with haltReq := true }).settle)) ∧
    (∀ w (m : Fin 8) d, s.mayWrite w (Reg.PLAN_THW t m) = true → (s.th t).startable = true →
      exec (.threadRegWrite w t m d) s = .next (s.setTh t ((s.th t).setReg m d)).settle) ∧
    (∀ w (m : Fin 8) d, s.mayWrite w (Reg.PLAN_THW t m) = true → (s.th t).startable = false →
      exec (.threadRegWrite w t m d) s = .next s.settle) ∧
    (∀ d, s.mayWrite (.host p) (Reg.PLAN_POST + 0x400) = true →
      exec (.hostPostSet p d) s = .next (s.wr Reg.PLAN_POST (s.rd Reg.PLAN_POST ||| (d &&& 0xFFFF))).settle) ∧
    (∀ d, s.mayWrite (.host p) (Reg.PLAN_SEM + 0x800) = true →
      exec (.semRelease p d) s = .next (List.foldl State.freeSem s (bitList 16 (d &&& s.rd Reg.PLAN_SEM).toNat)).settle) ∧
    (∀ w, s.mayWrite w Reg.PLAN_CTRL = true →
      exec (.wlockSet w) s = .next (s.wr Reg.PLAN_CTRL (s.rd Reg.PLAN_CTRL ||| 1)).settle)

/-- R103, R106–R108: a load in its steps. It begins by halting every thread, once no other load runs; the header is read
when they have halted and no program or erase is under way on its chip; an image is accepted by its header, its BCRC, class and the IMAGE entries, then streamed into plan
memory; the OTP plan is staged first. A load that ends well leaves every thread at its reset values but thread 0, which runs
at row 0; one that fails gives its result. -/
def Obligations.PlanLoads : Prop :=
  ∀ (s : State), s.power.ao = true →
    (∀ w, s.mayWrite w Reg.PLAN_LOAD = true → s.eng.load = none →
      exec (.planLoadOtp w) s = .next (s.loadBegun .otp).settle ∧
      (s.f Fd.FLASH_CTRL_EN ≠ 0 → exec (.planLoadPlanA w) s = .next (s.loadBegun .planA).settle ∧
        exec (.planLoadPlanB w) s = .next (s.loadBegun .planB).settle) ∧
      (s.f Fd.FLASH_CTRL_EN = 0 →
        exec (.planLoadPlanA w) s = .next (((s.setF Fd.PLAN_LOADSTAT_SRC 2).setF Fd.PLAN_LOADSTAT_RESULT 2).flashFail 1).settle ∧
        exec (.planLoadPlanB w) s = .next (((s.setF Fd.PLAN_LOADSTAT_SRC 3).setF Fd.PLAN_LOADSTAT_RESULT 2).flashFail 1).settle)) ∧
    (∀ w l, s.mayWrite w Reg.PLAN_LOAD = true → s.eng.load = some l → exec (.planLoadOtp w) s = .next s.settle) ∧
    ∀ l, s.portUp = true → s.eng.load = some l →
      (l.stage = .halting → (∀ t : Fin 16, (s.th t).st = .halted ∨ (s.th t).st = .fault) →
        exec .loadThreadsHalted s = .next (s.setStage { l with stage := .header }).settle) ∧
      (∀ h, l.stage = .header → l.src ≠ .otp → s.imageWaits l.src = false → s.imageBytes l.src 0 0x40 = some h → headerGood h = true →
        exec (.loadHeaderRead true) s = .next (s.setStage { l with
          stage := .pass1, rows := recField h 8 4, planid := BitVec.ofNat 32 (recField h 0xC 4),
          version := BitVec.ofNat 32 (recField h 0x10 4) }).settle) ∧
      (∀ h, l.stage = .header → l.src ≠ .otp → s.imageWaits l.src = false → s.imageBytes l.src 0 0x40 = some h → headerGood h = false →
        exec (.loadHeaderRead true) s = .next (s.loadFail l 3).settle) ∧
      (l.stage = .header → l.src ≠ .otp → s.imageWaits l.src = false → exec (.loadHeaderRead false) s = .next (s.loadFail l 2).settle) ∧
      (l.stage = .header → s.imageWaits l.src = true → ∀ ok, exec (.loadHeaderRead ok) s = .next s.settle) ∧
      (∀ h body c o u ws w, l.stage = .pass1 → s.imageBytes l.src 0 0x40 = some h →
        s.imageBytes l.src 0x40 (8 * l.rows) = some body → s.imageBytes l.src (0x40 + 8 * l.rows) 4 = some c →
        crc32c body = natBE c → recField h 6 1 = 0xFF ∨ recField h 6 1 = s.f Fd.SYS_CONFIG_CLASS →
        s.otpReads o (otpWords 4) = (u, ws) →
        imageCheck (u.otp.locked 4) ws l.planid l.version (recField h 6 1) l.rows (crc32c body) = (1, w) →
          exec (.loadPass1Done true o) s =
            .next (u.setStage { l with stage := .pass2, bcrc := crc32c body, unsealed := w }).settle) ∧
      (∀ body, l.stage = .pass2 → s.imageBytes l.src 0x40 (8 * l.rows) = some body → crc32c body = l.bcrc →
        exec (.loadPass2Done true true) s = .next ((s.fillPlan (State.loadPass2.planOrder body)).loadDone l l.planid).settle) ∧
      (∀ body, l.stage = .pass2 → s.imageBytes l.src 0x40 (8 * l.rows) = some body →
        exec (.loadPass2Done true false) s = .next ((s.fillPlan (State.loadPass2.planOrder body)).loadFail l 8).settle) ∧
      (∀ o u w, l.stage = .header → l.src = .otp → s.otpRead o 1534 = (u, some w) → w ≠ 0 → 1 ≤ getBits w 0 16 →
        getBits w 0 16 ≤ 511 → exec (.otpPlanHeaderRead o) s = .next (u.setStage { l with
          stage := .otpRead, rows := getBits w 0 16, version := BitVec.ofNat 32 (getBits w 16 16) }).settle) ∧
      (∀ o u, l.stage = .header → l.src = .otp → s.otpRead o 1534 = (u, some 0) →
        exec (.otpPlanHeaderRead o) s = .next (u.loadFail l 9).settle) ∧
      (∀ o u ws vs, l.stage = .otpRead → s.otpReads o (otpWords 3) = (u, ws) → ws.mapM id = some vs → closingGood vs = true →
        exec (.otpPlanReadDone o) s = .next (u.setStage { l with stage := .otpWrite, staging := vs }).settle) ∧
      (l.stage = .otpWrite → exec .otpPlanWriteDone s = .next ((s.fillPlan ((l.staging.take (2 * l.rows)).flatMap fun w =>
        bytesBE 4 w.toNat)).loadDone l 0).settle)

/-- R20, R107: what a load that ends well leaves: thread 0 in RUN at row 0 with its reset values, every other thread at its
reset values, no semaphore held, no post flag set, and the plan's identity, version, source and row count in their
registers. -/
def Obligations.LoadDone : Prop :=
  ∀ (s : State) (l : Load) (id : Word), ∃ u : State, u = s.loadDone l id ∧
    u.th 0 = { Thread.init with st := .run } ∧ (∀ t, t ≠ 0 → u.th t = Thread.init) ∧ u.eng.semOwner = [] ∧ u.eng.load = none ∧
    (s.xflash.discOwed = false →
      u.rd Reg.PLAN_SEM = 0 ∧ u.rd Reg.PLAN_POST = 0 ∧ u.rd Reg.PLAN_PLANID = id ∧ u.rd Reg.PLAN_PLANVER = l.version ∧
      u.f Fd.SYS_STAT_PLANSRC = l.src.code ∧ u.f Fd.PLAN_LOADSTAT_ROWS = l.rows % 2 ^ Fd.PLAN_LOADSTAT_ROWS.width ∧
      u.f Fd.PLAN_LOADSTAT_RESULT = 1 ∧ u.f Fd.PLAN_LOADSTAT_BUSY = 0 ∧ u.f Fd.PLAN_STAT_LOADING = 0 ∧
      u.f Fd.PLAN_STAT_PATCHED = 0 ∧ u.f Fd.PLAN_STAT_UNSEALED = b2n l.unsealed)

/-! ## Multiphase converter -/

/-- R112, R113, R119–R124, R197: a role and loop are taken by a phase, or refused with a reason and nothing else; a write of
CTRL copies the bank and asks for its slot to go on or off; a target latches its rate and code; a start ends in RUN with PGOOD
once VOUT stands in its window at the target; a movement ends at the target; a soft stop ends in OFF. EN = 1 in SOFTOFF or CROWBAR sets PEND (log entry 85). Each such write ends a
probe of its loop. -/
def Obligations.LoopReference : Prop :=
  ∀ (s : State), s.power.ao = true →
    (∀ w (k : Fin 16) d, s.mayWrite w (Reg.PHASE_ASSIGN k) = true → s.assignReason k (getBits d 4 2) (getBits d 0 2) = 0 →
      ∃ u v : State, u = (s.setRole k (getBits d 4 2)).setF (Fd.PHASE_ASSIGN_LOOP k) (getBits d 0 2) ∧
        v = u.setF (Fd.LOOP_STAT_NACT (getBits d 0 2)) (u.activeOf (getBits d 0 2)).length ∧
        exec (.phaseAssignWrite w k d) s = .next (v.probeAbort (s.f (Fd.PHASE_ASSIGN_LOOP k)) 9).settle) ∧
    (∀ w (k : Fin 16) d r, s.mayWrite w (Reg.PHASE_ASSIGN k) = true → s.assignReason k (getBits d 4 2) (getBits d 0 2) = r → r ≠ 0 →
      exec (.phaseAssignWrite w k d) s = .next ((((s.setF Fd.CONV_REFUSE_REASON r).setF Fd.CONV_REFUSE_LOOP (getBits d 0 2)).setF
        Fd.CONV_REFUSE_PHASE k).ev Fd.CONV_EVRAW_REFUSED).settle) ∧
    ∀ (n : Fin 4) (vout : Nat),
      (∀ w d u r, s.mayWrite w (Reg.LOOP_CTRL n) = true → (s.loopCtrlWrite n (d ||| 1)).slotOn n = (u, r) →
        (s.lstate n = lpSoftoff ∨ s.lstate n = lpCrowbar →
          exec (.loopOnRequest w n d) s = .next ((u.setPend n true).probeAbort n 9).settle) ∧
        (s.lstate n ≠ lpSoftoff → s.lstate n ≠ lpCrowbar → r = false ∨ u.f (Fd.SEQ_SLOTSTAT_RREASON n) ≠ 4 →
          exec (.loopOnRequest w n d) s = .next (u.probeAbort n 9).settle) ∧
        (s.lstate n ≠ lpSoftoff → s.lstate n ≠ lpCrowbar → r = true → u.f (Fd.SEQ_SLOTSTAT_RREASON n) = 4 →
          exec (.loopOnRequest w n d) s = .next ((s.slotOn n).1.probeAbort n 9).settle)) ∧
      (∀ w d u, s.mayWrite w (Reg.LOOP_CTRL n) = true → u = (s.loopCtrlWrite n (d &&& ~~~1)).slotOffReq n → u.lstate n ≠ lpCrowbar →
        exec (.loopOffRequest w n d) s = .next (u.probeAbort n 9).settle) ∧
      (∀ w d, s.mayWrite w (Reg.LOOP_TARGET n) = true →
        exec (.targetWrite w n d) s = .next ((((s.setF (Fd.LOOP_TARGET_MV n) (getBits d 0 16)).setF (Fd.LOOP_TARGET_CODE n)
          (dacCode (s.loopDen n) (getBits d 0 16))).setLoop n { s.loop n with
            rate := s.f (Fd.LOOP_SLEW_RATE n), moving := true, ovDue := none,
            ovBase := if s.refMoves n = true ∧ getBits d 0 16 < s.f (Fd.LOOP_REFNOW_MV n) then s.f (Fd.LOOP_REFNOW_MV n)
              else s.ovHeld n }).probeAbort n 9).settle) ∧
      (s.portUp = true → s.refMoves n = true → (s.loop n).moving = true →
        ∃ u : State, u = (s.setF (Fd.LOOP_REFNOW_MV n) (dacMv (s.loopDen n) (s.f (Fd.LOOP_TARGET_CODE n)))).setLoop n
            { s.loop n with refFine := dacFine (s.loopDen n) (s.f (Fd.LOOP_TARGET_CODE n)) } ∧
          exec (.slewDone n) s = .next ((u.setLoop n { u.loop n with moving := false, ovDue := some (u.ticks + 4) }).ev
            (Fd.LOOP_EVRAW_SLEWDONE n)).settle) ∧
      (s.portUp = true → s.lstate n = lpStart → (s.loop n).moving = true →
        s.pgWindow n vout (dacMv (s.loopDen n) (s.f (Fd.LOOP_TARGET_CODE n))) = true →
        ∃ u v w : State, u = s.setF (Fd.LOOP_MEAS_VOUT n) vout ∧
          v = (((u.setF (Fd.LOOP_REFNOW_MV n) (dacMv (u.loopDen n) (u.f (Fd.LOOP_TARGET_CODE n)))).setLoop n
            { u.loop n with refFine := dacFine (u.loopDen n) (u.f (Fd.LOOP_TARGET_CODE n)) }).setF
            (Fd.LOOP_STAT_STATE n) lpRun).ev (Fd.LOOP_EVRAW_SLEWDONE n) ∧
          w = v.setLoop n { v.loop n with
            moving := false, rampDue := false, lowOk := true, ran := true, ovDue := some (v.ticks + 4) } ∧
          exec (.loopStartComplete n vout) s = .next ((w.setF (Fd.LOOP_STAT_PGOOD n) 1).ev (Fd.LOOP_EVRAW_PGOOD n)).settle) ∧
      (s.portUp = true → s.lstate n = lpSoftoff → exec (.softoffDone n) s = .next (s.loopOff n).settle)

/-- R112, R119, R126, R129–R133, R135: periods, add and shed, burst and Gust. A period start takes the measurements in, moves
the reference, lets the bank's copy act, evaluates the limit and takes role changes and offsets in; in RUN the add and shed
machine decides, adding phases where the current with the forecast exceeds ADD for each phase on and shedding the highest one
after the dwell; in BURST the pulses are counted. A shed commits and an added phase joins at its slot; burst entry leaves the
lead phase; a burst tick or a Gust brings phases back. -/
def Obligations.LoopPhases : Prop :=
  ∀ (s : State), s.power.ao = true → s.portUp = true →
    (∀ (n : Fin 4) vout ms, s.lstate n = lpOff → exec (.periodStart n vout ms) s = .next s.settle) ∧
    (∀ (n : Fin 4) vout ms, s.lstate n ≠ lpOff → ∃ t u v : State, t = s.takeItems n ∧
      u = (((t.takePeriod n vout ms).refPeriod n vout).nextPeriod n vout).injectPeriod n ∧
      v = (if t.lstate n = lpCrowbar then u.adoptLow n else u.adoptRoles n) ∧
      (t.lstate n = lpRun → exec (.periodStart n vout ms) s =
        .next ((if v.fb (Fd.LOOP_CTRL_ADDSHEDEN n) then v.addShed n else v).placeSlots n).settle) ∧
      (t.lstate n = lpBurst → exec (.periodStart n vout ms) s = .next ((v.burstPeriod n vout).placeSlots n).settle) ∧
      (t.lstate n = lpStart ∨ t.lstate n = lpSoftoff ∨ t.lstate n = lpCrowbar →
        exec (.periodStart n vout ms) s = .next (v.placeSlots n).settle)) ∧
    (∀ (n : Fin 4) vout, (s.nextPeriod n vout).loop n = { s.loop n with
      bank := (s.loop n).bankNext.getD (s.loop n).bank, bankNext := none, ilim := s.ilim n vout, limited := 0, midLevel := 0,
      ocRun := if (s.loop n).limited = 0 then 0 else (s.loop n).ocRun,
      burstLow := if s.f (Fd.LOOP_MEAS_ITOT n) < 10 * s.f (Fd.LOOP_BURST_ENTER n) then (s.loop n).burstLow + 1 else 0 }) ∧
    (∀ (n : Fin 4), (s.onOf n).length * (10 * s.f (Fd.LOOP_ADDSHED_ADD n)) < s.addCurrent n → ∃ u : State,
      u = s.setLoop n { s.loop n with below := 0 } ∧ s.addShed n = (u.abortShed n false).addPhases n (u.addWant n)) ∧
    (∀ (n : Fin 4) k l, s.addCurrent n ≤ (s.onOf n).length * (10 * s.f (Fd.LOOP_ADDSHED_ADD n)) →
      s.f (Fd.LOOP_MEAS_ITOT n) < ((s.onOf n).length - 1) * (10 * s.f (Fd.LOOP_ADDSHED_SHED n)) →
      s.f (Fd.LOOP_SHEDCFG_DWELL n) * 8 ≤ (s.loop n).below + 1 → s.f (Fd.LOOP_ADDSHED_MINPH n) < (s.onOf n).length →
      (s.phasesOf n fun k => s.phState k == phShedPend) = [] → s.f (Fd.LOOP_STAT_FCAST n) = 0 → s.f (Fd.LOOP_STAT_INHIBIT n) = 0 →
      (s.phasesOf n fun k => s.phState k == phOn) = l ++ [k] → ∃ u : State,
        u = (s.setLoop n { s.loop n with below := (s.loop n).below + 1 }).setPh k phShedPend ∧
        s.addShed n = u.setLoop n { u.loop n with below := 0 }) ∧
    (∀ k : Fin 16, s.phState k = phShedPend → exec (.shedCommit k) s =
      .next (((s.wakeUp.setPh k phShed).respread (s.f (Fd.PHASE_ASSIGN_LOOP k))).ev (Fd.LOOP_EVRAW_SHED (s.f (Fd.PHASE_ASSIGN_LOOP k)))).settle) ∧
    (∀ k : Fin 16, s.phState k = phAddPend → exec (.phaseAdded k) s =
      .next (((s.wakeUp.setPh k phOn).respread (s.f (Fd.PHASE_ASSIGN_LOOP k))).ev (Fd.LOOP_EVRAW_ADD (s.f (Fd.PHASE_ASSIGN_LOOP k)))).settle) ∧
    ∀ (n : Fin 4),
      (s.fb (Fd.LOOP_STAT_INHIBIT n) = true → exec (.shedInhibitEnd n) s =
        .next (State.settle ((s.setF (Fd.LOOP_STAT_INHIBIT n) 0).setLoop n { s.loop n with below := 0 }))) ∧
      (s.burstReady n = true → 64 ≤ (s.loop n).burstLow → ∃ u : State, u = (s.wakeUp.leadOnly n).respread n ∧
        exec (.burstEntry n) s = .next (((u.setLoop n { u.loop n with
          burstLow := 0, pulsing := false, tickPer := 0, tickPul := 0 }).setF (Fd.LOOP_STAT_STATE n) lpBurst).ev
            (Fd.LOOP_EVRAW_BURSTIN n)).settle) ∧
      (s.burstReady n = false → exec (.burstEntry n) s = .next s.settle) ∧
      (∀ vout, s.lstate n = lpBurst → ∃ u : State, u = s.setF (Fd.LOOP_MEAS_VOUT n) vout ∧
        ((u.fb (Fd.LOOP_CTRL_GUSTEN n) && u.gustBelow n vout) = true →
          exec (.burstTick n vout) s = .next (u.gust n).settle) ∧
        ((u.fb (Fd.LOOP_CTRL_GUSTEN n) && u.gustBelow n vout) = false → (u.loop n).tickPer < 2 * (u.loop n).tickPul →
          exec (.burstTick n vout) s = .next (u.burstExit n (u.f (Fd.LOOP_ADDSHED_MINPH n))).settle) ∧
        ((u.fb (Fd.LOOP_CTRL_GUSTEN n) && u.gustBelow n vout) = false → 2 * (u.loop n).tickPul ≤ (u.loop n).tickPer →
          exec (.burstTick n vout) s = .next (u.setLoop n { u.loop n with
            pulsing := decide (vout < u.f (Fd.LOOP_REFNOW_MV n)), tickPer := 0, tickPul := 0 }).settle)) ∧
      (∀ vout, s.lstate n = lpRun → s.gustBelow n vout = true →
        exec (.gustTrip n vout) s = .next (State.gust (s.setF (Fd.LOOP_MEAS_VOUT n) vout) n).settle) ∧
      (s.lstate n = lpRun → s.fb (Fd.LOOP_CTRL_GUSTEN n) = true → ∃ u : State,
        u = (s.wakeUp.ev (Fd.LOOP_EVRAW_GUST n)).probeAbort n 1 ∧
        ((u.phasesOf n fun k => u.phState k == phShed) = [] → s.gust n = u.abortShed n true) ∧
        ((u.phasesOf n fun k => u.phState k == phShed) ≠ [] →
          s.gust n = ((u.abortShed n true).addPhases n 16).setF (Fd.LOOP_STAT_INHIBIT n) 1))

/-- R125, R127, R135–R143: limits and faults of a loop. A phase at its limit is counted and ends the loop's probe; OCCYC
limited periods give the fault with cause 3; an output above the threshold gives the crowbar with cause 1, every ACTIVE and
SPARE phase low, released when EN has been 0 and VOUT is below a tenth of the target; an output too low gives cause 2 and every
shed phase back; PGOOD follows its window; SFLT# captures every enabled loop and raises FS14; SYNCI's lock is reported. -/
def Obligations.LoopFaults : Prop :=
  ∀ (s : State), s.power.ao = true → s.portUp = true →
    (∀ (k : Fin 16) t (uv : Int) n, n = s.f (Fd.PHASE_ASSIGN_LOOP k) → s.phState k = phOn → 768 ≤ t → t ≤ s.maxOn n →
      ((10 * (s.loop n).ilim : Nat) : Int) ≤ s.senseCur n uv →
      ∃ u : State, u = (((s.orReg Reg.PHASE_EVRAW (bitAt k)).incF (Fd.PHASE_ILIMCNT_COUNT k)).probeAbort n 6).setOnTime n k t ∧
        exec (.phaseCurrentLimit k t uv) s = .next (u.setLoop n { u.loop n with
          limited := (u.loop n).limited ||| 2 ^ k.val,
          ocRun := if (u.loop n).limited = 0 then (u.loop n).ocRun + 1 else (u.loop n).ocRun }).settle) ∧
    (∀ (k : Fin 16) (uv : Int) n, n = s.f (Fd.PHASE_ASSIGN_LOOP k) → s.phState k = phOn → s.lstate n ≠ lpCrowbar →
      s.senseCur n uv < -((10 * s.f (Fd.LOOP_ILIMNEG_NEG n) : Nat) : Int) →
      exec (.negativeCurrentLimit k uv) s = .next (s.setLoop n { s.loop n with midLevel := (s.loop n).midLevel ||| 2 ^ k.val }).settle) ∧
    (∀ (n : Fin 4) (vout : Nat),
      (s.f (Fd.LOOP_ILIMNEG_OCCYC n) ≠ 0 → s.f (Fd.LOOP_ILIMNEG_OCCYC n) ≤ (s.loop n).ocRun → s.lstate n ≠ lpOff →
        exec (.loopOcFault n vout) s = .next ((s.setLoop n { s.loop n with ocRun := 0 }).loopFault n 3 vout).settle) ∧
      (s.f (Fd.LOOP_ILIMNEG_OCCYC n) = 0 → exec (.loopOcFault n vout) s = .next s.settle) ∧
      (s.lstate n ≠ lpOff → (100 + s.f (Fd.LOOP_PROT_OV n)) * s.ovBase n < 100 * vout →
        ∃ u v : State, u = (((s.setF (Fd.LOOP_MEAS_VOUT n) vout).loopFault n 1 vout).pgoodDrop n).setF (Fd.LOOP_STAT_STATE n) lpCrowbar ∧
          v = u.setLoop n { u.loop n with enZero := false } ∧
          exec (.ovCrowbar n vout) s = .next ((v.setPhases (v.phasesOf n fun k =>
            v.f (Fd.PHASE_ASSIGN_ROLE k) == roleActive || v.f (Fd.PHASE_ASSIGN_ROLE k) == roleSpare) phLow).respread n).settle) ∧
      (s.lstate n = lpCrowbar → (s.loop n).enZero = true → 10 * vout < s.f (Fd.LOOP_TARGET_MV n) →
        exec (.crowbarRelease n vout) s = .next ((s.setF (Fd.LOOP_MEAS_VOUT n) vout).loopOff n).settle) ∧
      (s.lstate n = lpCrowbar → (s.loop n).enZero = false → exec (.crowbarRelease n vout) s = .next s.settle) ∧
      (s.lstate n = lpRun ∨ s.lstate n = lpBurst → 100 * vout < (100 - s.f (Fd.LOOP_PROT_UV n)) * s.f (Fd.LOOP_REFNOW_MV n) →
        ∃ u v : State, u = (s.setF (Fd.LOOP_MEAS_VOUT n) vout).loopFault n 2 vout ∧
          v = ((u.burstExit n 16).abortShed n true).addPhases n 16 ∧
          exec (.loopUvFault n vout) s = .next (if u.phasesOf n (fun k => u.phState k == phShed) = [] then v
            else v.setF (Fd.LOOP_STAT_INHIBIT n) 1).settle) ∧
      (s.fb (Fd.LOOP_STAT_PGOOD n) = true → s.pgWindow n vout (s.f (Fd.LOOP_REFNOW_MV n)) = false →
        exec (.loopPgoodLost n vout) s = .next ((s.setF (Fd.LOOP_MEAS_VOUT n) vout).pgoodDrop n).settle) ∧
      (s.lstate n = lpRun ∨ s.lstate n = lpBurst → s.f (Fd.LOOP_STAT_PGOOD n) = 0 →
        s.pgWindow n vout (s.f (Fd.LOOP_REFNOW_MV n)) = true →
        exec (.loopPgoodRegained n vout) s = .next (((s.setF (Fd.LOOP_MEAS_VOUT n) vout).setF (Fd.LOOP_STAT_PGOOD n) 1).ev
          (Fd.LOOP_EVRAW_PGOOD n)).settle)) ∧
    (s.fb Fd.CONV_CTRL_SFLTEN = true → ∃ u : State, u = (s.setF Fd.CONV_STAT_SFLT 1).ev Fd.CONV_EVRAW_SFLT ∧
      exec .stageFault s = .next ((List.foldl (fun (v : State) n =>
        if v.loopEnabled n then v.loopCapture n 5 (v.f (Fd.LOOP_MEAS_VOUT n)) else v) u [0, 1, 2, 3]).raiseLevel 14 0 0).settle) ∧
    (s.fb Fd.CONV_CTRL_SFLTEN = false → exec .stageFault s = .next (s.wakeUp.setF Fd.CONV_STAT_SFLT 1).settle) ∧
    (∀ per, s.fb Fd.CONV_CTRL_SYNCIEN = true → s.syncInRange per = true → ∃ t : State,
      t = { s with trim := ⟨per, s.f (Fd.LOOP_FSW_PERIOD (s.f Fd.CONV_SYNC_REFLOOP))⟩ } ∧
      (s.fb Fd.CONV_STAT_SYNCLOCK = true → exec (.syncLock per) s = .next t.settle) ∧
      (s.fb Fd.CONV_STAT_SYNCLOCK = false →
        exec (.syncLock per) s = .next ((t.setF Fd.CONV_STAT_SYNCLOCK 1).ev Fd.CONV_EVRAW_SYNCLOCK).settle)) ∧
    (s.fb Fd.CONV_CTRL_SYNCIEN = true →
      exec .syncLoss s = .next ((s.setF Fd.CONV_STAT_SYNCLOCK 0).ev Fd.CONV_EVRAW_SYNCLOSS).settle)

/-! ## Converter health, rails and the rail table -/

/-- R149–R153, R155: a probe starts with its quantities in order unless R149 gives a reason; each measurement is taken in
its turn, skipped where the condition of R151 does not hold; one outside its range aborts the probe with cause 12, and the last one ends it; ABORT ends it with cause 11; a
score is at most 100. -/
def Obligations.HealthProbe : Prop :=
  ∀ (s : State), s.power.ao = true →
    (∀ w (n : Fin 4) (meas : BitVec 5), s.mayWrite w Reg.HEALTH_PROBE = true → s.probeReason n = 0 → meas ≠ 0 →
      ∃ u : State, u = ((((s.wr Reg.HEALTH_PROBERES 0).setF Fd.HEALTH_PROBERES_LOOP n).setF Fd.HEALTH_STAT_PLOOP n).clrReg
        Reg.HEALTH_DUE (bitAt n)).setF Fd.HEALTH_STAT_BUSY 1 ∧
        exec (.probeGo w n meas) s = .next (State.settle { u with health := { u.health with
          probe := some ⟨n, bitList 5 meas.toNat, [], s.plant.vsys, s.f Fd.PATH_STAT_HOSTATE, s.f (Fd.LOOP_MEAS_ITOT n)⟩ } })) ∧
    (∀ w (n : Fin 4) meas r, s.mayWrite w Reg.HEALTH_PROBE = true → s.probeReason n = r → r ≠ 0 →
      exec (.probeGo w n meas) s = .next (s.setF Fd.HEALTH_PROBERES_RESULT r).settle) ∧
    (∀ w p, s.mayWrite w Reg.HEALTH_PROBE = true → s.health.probe = some p →
      exec (.probeAbort w) s = .next (s.probeAbort p.loop 11).settle) ∧
    (∀ w, s.mayWrite w Reg.HEALTH_PROBE = true → s.health.probe = none → exec (.probeAbort w) s = .next s.settle) ∧
    (∀ m p q rest, s.portUp = true → s.health.probe = some p → p.left = q :: rest → rest ≠ [] → measKind m = some q →
      s.measCond p.loop q = true → measInRange m = true → ∃ u : State, u = s.setF Fd.HEALTH_PROBERES_DONE (s.f Fd.HEALTH_PROBERES_DONE ||| 2 ^ q) ∧
        exec (.probeMeasDone m) s = .next (State.settle { u with health := { u.health with
          probe := some { p with left := rest, got := p.got ++ [m], itot := u.f (Fd.LOOP_MEAS_ITOT p.loop) } } })) ∧
    (∀ m p q rest, s.portUp = true → s.health.probe = some p → p.left = q :: rest → rest ≠ [] → s.measCond p.loop q = false →
      ∃ u : State, u = s.setF Fd.HEALTH_PROBERES_SKIP (s.f Fd.HEALTH_PROBERES_SKIP ||| 2 ^ q) ∧
        exec (.probeMeasDone m) s = .next (State.settle { u with health := { u.health with
          probe := some { p with left := rest, itot := u.f (Fd.LOOP_MEAS_ITOT p.loop) } } })) ∧
    (∀ m p q, s.portUp = true → s.health.probe = some p → p.left = [q] → measKind m = some q → s.measCond p.loop q = true →
      measInRange m = true →
      ∃ u : State, ∃ p' : Probe, u = s.setF Fd.HEALTH_PROBERES_DONE (s.f Fd.HEALTH_PROBERES_DONE ||| 2 ^ q) ∧
        p' = { p with left := [], got := p.got ++ [m], itot := u.f (Fd.LOOP_MEAS_ITOT p.loop) } ∧
        exec (.probeMeasDone m) s =
          .next (State.probeEnd { u with health := { u.health with probe := some p' } } p').settle) ∧
    (∀ m p q rest, s.portUp = true → s.health.probe = some p → p.left = q :: rest → measKind m = some q →
      s.measCond p.loop q = true → measInRange m = false → exec (.probeMeasDone m) s = .next (s.probeAbort p.loop 12).settle) ∧
    (∀ k o, s.scoreOf k o ≤ 100)

/-- R154, R161, R162, R165: a rebase drops the loop's proposal, its low counts and its REVERTED bit; a proposal is applied
once, its items written and the proposal dropped, and refused with the reason when there is none, its SEQ is not the
proposal's, or the loop is being probed; the schedule sets DUE. -/
def Obligations.HealthApply : Prop :=
  ∀ (s : State), s.power.ao = true →
    (∀ (n : Fin 4) t, s.portUp = true → s.f Fd.HEALTH_SCHED_PERIOD ≠ 0 → (s.hl n).lastOk = some t →
      t + secTicks (3600 * s.f Fd.HEALTH_SCHED_PERIOD) ≤ s.ticks → (s.hl n).confirm = none →
      exec (.healthDue n) s = .next (((s.setHl n { s.hl n with lastOk := none, confirm := none }).orReg Reg.HEALTH_DUE
        (bitAt n)).ev Fd.HEALTH_EVRAW_DUE).settle) ∧
    (∀ (n : Fin 4), s.portUp = true → s.f Fd.HEALTH_SCHED_PERIOD = 0 → exec (.healthDue n) s = .next s.settle) ∧
    (∀ w d r, s.mayWrite w Reg.HEALTH_CTRL = true → findRow 0xA 0x04 = some r → ∃ u : State,
      u = s.wr Reg.HEALTH_CTRL (s.writtenWord Reg.HEALTH_CTRL r (d ||| 0x10) &&& 0x7) ∧
        exec (.rebase w d) s = .next (u.rebase (getBits d 8 2)).settle) ∧
    (∀ n, ∃ u v : State, u = (s.dropProposal n).clrReg Reg.HEALTH_STAT (bitAt (16 + n)) ∧
      v = List.foldl (fun (t : State) k => t.setF (Fd.HEALTH_PSCORE_LOWCNT k) 0) u (u.phasesOf n fun _ => true) ∧
      s.rebase n = v.setHl n { v.hl n with baseDue := true }) ∧
    ∀ w d n u, s.mayWrite w Reg.HEALTH_APPLY = true → n = getBits d 0 2 →
      u = ((s.wr Reg.HEALTH_APPLYRES 0).setF Fd.HEALTH_APPLYRES_LOOP n).setF Fd.HEALTH_APPLYRES_SEQ (getBits d 16 8) →
      (u.fb (Fd.HEALTH_LPROP0_VALID n) = false →
        exec (.healthApply w d) s = .next (u.setF Fd.HEALTH_APPLYRES_RESULT 2).settle) ∧
      (u.fb (Fd.HEALTH_LPROP0_VALID n) = true → getBits d 16 8 ≠ u.f (Fd.HEALTH_LPROP0_SEQ n) →
        exec (.healthApply w d) s = .next (u.setF Fd.HEALTH_APPLYRES_RESULT 3).settle) ∧
      (u.fb (Fd.HEALTH_LPROP0_VALID n) = true → getBits d 16 8 = u.f (Fd.HEALTH_LPROP0_SEQ n) →
        (s.itemsNow n).mask.testBit 0 = false → (s.itemsNow n).mask.testBit 1 = false → u.probing n = true →
        exec (.healthApply w d) s = .next (u.setF Fd.HEALTH_APPLYRES_RESULT 6).settle) ∧
      (u.fb (Fd.HEALTH_LPROP0_VALID n) = true → getBits d 16 8 = u.f (Fd.HEALTH_LPROP0_SEQ n) →
        (s.itemsNow n).mask.testBit 0 = false → (s.itemsNow n).mask.testBit 1 = false → u.probing n = false →
        u.loopEnabled n = false → exec (.healthApply w d) s =
          .next (((u.applyItems n (s.itemsNow n).mask).dropProposal n).setF Fd.HEALTH_APPLYRES_RESULT 1).settle)

/-- R177–R181, R190, R340: an integrated rail and a supervisor input follow their windows, with the event, the wake, and
FS19 for a GOOD slot outside a run; a rail's fault sets its cause and raises FS16–FS18; a GPIO takes its level, and an edge
that matches WAKE is reported. -/
def Obligations.RailEvents : Prop :=
  ∀ (s : State), s.power.ao = true → s.portUp = true →
    (∀ (k : Fin 6) mv, ∃ u : State, u = (s.railSeen k mv).railUp k ∧
      (u.f (railState k) = 2 → (100 - u.railPgwin k) * u.railRef k ≤ 100 * mv → 100 * mv ≤ (100 + u.railPgwin k) * u.railRef k →
        exec (.railWindowChange k mv) s = .next ((u.setF (railGood k) 1).orReg Reg.RAILS_STAT (bitAt (8 + k))).settle) ∧
      (u.f (railState k) = 2 → 100 * mv < (100 - u.railPgwin k) * u.railRef k ∨ (100 + u.railPgwin k) * u.railRef k < 100 * mv →
        exec (.railWindowChange k mv) s = .next (u.railExit k).settle) ∧
      (u.f (railState k) ≠ 2 → exec (.railWindowChange k mv) s = .next u.settle)) ∧
    (∀ k : Fin 6, s.fb (railGood k) = true → s.railExit k =
      ((((s.setF (railGood k) 0).clrReg Reg.RAILS_STAT (bitAt (8 + k))).evBit Fd.RAILS_EVRAW_RAILEXIT k)).wakeUp) ∧
    (∀ (n : Fin 8) mv, s.f (Fd.RAILS_VMONCFG_EN n) = 0 → exec (.vmonWindowChange n mv) s = .next s.settle) ∧
    (∀ (n : Fin 8) mv, s.f (Fd.RAILS_VMONCFG_EN n) ≠ 0 → s.vmonIn n = true → (s.slot (10 + n)).ovSeen = false →
      2 * mv + 12 * s.f (Fd.RAILS_VMONCFG_HYST n) < 3 * s.f (Fd.RAILS_VMONTH_UV n) → 2 * mv ≤ 3 * s.f (Fd.RAILS_VMONTH_OV n) →
      ∃ u : State, u = ((s.clrReg Reg.RAILS_STAT (bitAt (16 + n))).evBit Fd.RAILS_EVRAW_VMONEXIT n).wakeUp ∧
        (u.slotSt (10 + n) = slGood → (u.slot (10 + n)).inRun = false → (u.raise 19 1 n |>.slot (10 + n)).ovSeen = false →
          exec (.vmonWindowChange n mv) s = .next (u.raise 19 1 n).settle) ∧
        (u.slotSt (10 + n) ≠ slGood → exec (.vmonWindowChange n mv) s = .next u.settle)) ∧
    (∀ (n : Fin 8) mv, s.f (Fd.RAILS_VMONCFG_EN n) ≠ 0 → s.vmonIn n = false → (s.slot (10 + n)).ovSeen = false →
      3 * s.f (Fd.RAILS_VMONTH_UV n) < 2 * mv → 2 * mv < 3 * s.f (Fd.RAILS_VMONTH_OV n) →
      exec (.vmonWindowChange n mv) s =
        .next (((s.orReg Reg.RAILS_STAT (bitAt (16 + n))).evBit Fd.RAILS_EVRAW_VMONENTER n).wakeUp).settle) ∧
    (∀ (k : Fin 6) vout vin u, u = (s.railSeen k vout).railUp k →
      u.f (railState k) = 2 → 100 * vout < (100 - u.railPgwin k) * u.railRef k →
      (k.val < 2 → exec (.regulatorFault k 2 vout vin) s =
        .next ((((u.setF (railCause k) 2).ev Fd.RAILS_EVRAW_BFAULT).buckCapture k 2 vout vin).raise (16 + k) 2 0).settle) ∧
      (2 ≤ k.val → exec (.regulatorFault k 2 vout vin) s =
        .next (((u.setF (railCause k) 2).ev Fd.RAILS_EVRAW_LFAULT).raise 18 2 (k - 2)).settle)) ∧
    (∀ (k : Fin 6) vout vin, 2 ≤ k.val → vin < 2500 → exec (.regulatorFault k 4 vout vin) s =
      .next (List.foldl (fun (t : State) j => if t.f (railState j) = 1 ∨ t.f (railState j) = 2
        then ((t.setF (railCause j) 4).ev Fd.RAILS_EVRAW_LFAULT).raise 18 4 (j - 2) else t)
          ((s.railSeen k vout).railUp k) [2, 3, 4, 5]).settle) ∧
    (∀ (k : Fin 12), s.fb (Fd.GPIO_PIN_IN k) = false → s.f (Fd.GPIO_PIN_WAKE k) = 1 ∨ s.f (Fd.GPIO_PIN_WAKE k) = 3 →
      (s.setFb (Fd.GPIO_PIN_IN k) true).f (Fd.GPIO_PIN_WAKE k) = s.f (Fd.GPIO_PIN_WAKE k) →
      exec (.gpioEdge k true) s = .next (((s.setFb (Fd.GPIO_PIN_IN k) true).orReg Reg.GPIO_EVRAW (bitAt k)).wakeUp).settle) ∧
    (∀ (k : Fin 12) l, s.fb (Fd.GPIO_PIN_IN k) = l → exec (.gpioEdge k l) s = .next s.settle)

/-- R186–R188: a scan starts at its period, which wakes the device, or on GO; its end stores the scanned channels and, with
both converters, compares them, the counts of channels not compared starting again; a self-test that only one converter passes
leaves that one alone. -/
def Obligations.AdcScan : Prop :=
  ∀ (s : State), s.power.ao = true →
    (s.portUp = true → s.fb Fd.RAILS_SCANCFG_SCANEN = true → s.f Fd.RAILS_SCANCFG_PERIOD ≠ 0 → s.adc.scanDue ≤ s.ticks →
      exec .adcScanStart s = .next ((State.wakeUp { s with
        adc := { s.adc with scanDue := s.ticks + s.f Fd.RAILS_SCANCFG_PERIOD } }).scanBegin).settle) ∧
    (s.portUp = true → s.fb Fd.RAILS_SCANCFG_SCANEN = false → exec .adcScanStart s = .next s.settle) ∧
    (s.fb Fd.RAILS_SCANCFG_SCANEN = true → s.f Fd.RAILS_STAT_SCANBUSY = 0 → s.f Fd.RAILS_STAT_ADCSEL ≠ 3 →
      s.scanBegin = s.setF Fd.RAILS_STAT_SCANBUSY 1) ∧
    (∀ w d r, s.mayWrite w Reg.RAILS_SCANCFG = true → findRow 0xB 0xC8 = some r → ∃ u v : State,
      u = s.wr Reg.RAILS_SCANCFG (s.writtenWord Reg.RAILS_SCANCFG r (d ||| 0x200) &&& ~~~ 0x200) ∧
      v = { u with adc := { u.adc with scanDue := u.ticks + u.f Fd.RAILS_SCANCFG_PERIOD } } ∧
      exec (.adcScanGo w d) s = .next v.scanBegin.settle) ∧
    (∀ xs ys u, s.portUp = true → s.fb Fd.RAILS_STAT_SCANBUSY = true → s.scanOf xs = some ys →
      u = ys.foldl State.storeSample s → u.f Fd.RAILS_STAT_ADCSEL = 0 →
        (u.fb Fd.RAILS_CTRL_XCHKEN = true → exec (.adcScanDone xs) s = .next (((ys.foldl State.crossCheck { u with
          adc := { u.adc with dis := u.adc.dis.filter fun p => ys.any fun x => x.ch == p.1 } }).setF Fd.RAILS_STAT_SCANBUSY 0).ev
            Fd.RAILS_EVRAW_SCANDONE).settle) ∧
        (u.fb Fd.RAILS_CTRL_XCHKEN = false → exec (.adcScanDone xs) s = .next ((State.setF { u with
          adc := { u.adc with dis := [] } } Fd.RAILS_STAT_SCANBUSY 0).ev Fd.RAILS_EVRAW_SCANDONE).settle)) ∧
    (∀ x r v, s.f Fd.RAILS_STAT_ADCSEL = 0 → r = meanCode x.a → v = adcValueOf x.ch r x.value →
      s.storeSample x = ((((s.setF (Fd.RAILS_ADC_VALUE x.ch) v).setF (Fd.RAILS_ADC_VALID x.ch) 1).setFb
        (Fd.RAILS_ADC_SRC x.ch) false).setF (Fd.RAILS_ADC_RAW x.ch) r).noteSample x.ch v) ∧
    (∀ a b, s.portUp = true → s.adc.selfTest = true → ∃ u : State, u = { s with adc := { s.adc with selfTest := false } } ∧
      (s.f Fd.RAILS_STAT_ADCSEL = 0 →
        (s.adcPasses 0 a = true → s.adcPasses 1 b = true → exec (.adcSelftestDone a b) s = .next u.settle) ∧
        (s.adcPasses 0 a = false → s.adcPasses 1 b = true → exec (.adcSelftestDone a b) s =
          .next ((((u.setF Fd.RAILS_STAT_ADCSEL 2).setF Fd.HEALTH_SPARESTAT_ADCSOLE 1).ev Fd.RAILS_EVRAW_ADCSUB).spareUsed).settle) ∧
        (s.adcPasses 0 a = true → s.adcPasses 1 b = false → exec (.adcSelftestDone a b) s =
          .next (((u.setF Fd.RAILS_STAT_ADCSEL 1).setF Fd.HEALTH_SPARESTAT_ADCSOLE 1).ev Fd.RAILS_EVRAW_ADCSUB).settle) ∧
        (s.adcPasses 0 a = false → s.adcPasses 1 b = false → exec (.adcSelftestDone a b) s = .next u.adcGone.settle)) ∧
      (s.f Fd.RAILS_STAT_ADCSEL = 1 →
        exec (.adcSelftestDone a b) s = .next (if s.adcPasses 0 a then u else u.adcGone).settle) ∧
      (s.f Fd.RAILS_STAT_ADCSEL = 2 →
        exec (.adcSelftestDone a b) s = .next (if s.adcPasses 1 b then u else u.adcGone).settle))

/-- R196–R201: requests to the rail table. An unused or failed slot is refused, and one whose dependency can never be GOOD;
between a die shut-down's trip and the hold a request is only latched; a slot whose dependencies are GOOD starts, one that waits for them waits, and one within MINOFF is pending; an off request
cancels a wait or begins a power-down run; a mask of dependencies is taken only in OFF and only without a cycle. -/
def Obligations.SlotRequests : Prop :=
  ∀ (s : State) (w : Writer) (k : Fin 32), s.power.ao = true →
    (s.mayWrite w Reg.SEQ_REQ = true →
      (s.slotUse k = false → exec (.slotOnRequest w k) s = .next (s.slotRefuse k 1).settle) ∧
      (s.slotUse k = true → s.therm.holding = true → exec (.slotOnRequest w k) s = .next (s.setPend k true).settle) ∧
      (s.slotUse k = true → s.therm.holding = false → s.slotSt k = slFailed →
        exec (.slotOnRequest w k) s = .next (s.slotRefuse k 2).settle) ∧
      (s.slotUse k = true → s.therm.holding = false → s.slotSt k = slOff → (∃ j ∈ s.deps k, s.depLost j = true) →
        exec (.slotOnRequest w k) s = .next (s.slotRefuse k 3).settle) ∧
      (s.slotUse k = true → s.therm.holding = false → s.slotSt k = slOff → (∀ j ∈ s.deps k, s.depLost j = false) → 4 ≤ k.val →
        (s.ticks < (s.slot k).minoffDue → exec (.slotOnRequest w k) s = .next (s.setPend k true).settle) ∧
        ((s.slot k).minoffDue ≤ s.ticks → (∀ j ∈ s.deps k, s.slotSt j = slGood) →
          exec (.slotOnRequest w k) s = .next (s.slotStart k).settle) ∧
        ((s.slot k).minoffDue ≤ s.ticks → (∃ j ∈ s.deps k, s.slotSt j ≠ slGood) →
          exec (.slotOnRequest w k) s = .next (s.setSlotSt k slWaitdep).settle)) ∧
      ((s.setPend k false).slotSt k = slWaitdep →
        exec (.slotOffRequest w k) s = .next ((s.setPend k false).setSlotSt k slOff).settle) ∧
      ((s.setPend k false).slotSt k = slStart ∨ (s.setPend k false).slotSt k = slGood ∨ (s.setPend k false).slotSt k = slFailed →
        exec (.slotOffRequest w k) s = .next ((s.setPend k false).downRun [k]).settle) ∧
      ((s.setPend k false).slotSt k = slOff → exec (.slotOffRequest w k) s = .next (s.setPend k false).settle)) ∧
    (∀ d, s.mayWrite w Reg.SEQ_DOWN = true →
      exec (.seqDown w d) s = .next (if d = 0 then s else s.downRun (bitList 32 d.toNat)).settle) ∧
    (∀ d, s.mayWrite w (Reg.SEQ_SLOTDEP k) = true → s.slotSt k ≠ slOff →
      exec (.slotDepWrite w k d) s = .next (s.slotRefuse k 6).settle) ∧
    (∀ d, s.mayWrite w (Reg.SEQ_SLOTDEP k) = true → s.slotSt k = slOff → s.makesCycle k (d &&& ~~~ bitAt k) = true →
      exec (.slotDepWrite w k d) s = .next (s.slotRefuse k 5).settle) ∧
    (∀ d, s.mayWrite w (Reg.SEQ_SLOTDEP k) = true → s.slotSt k = slOff → s.makesCycle k (d &&& ~~~ bitAt k) = false →
      exec (.slotDepWrite w k d) s = .next (s.wr (Reg.SEQ_SLOTDEP k) (d &&& ~~~ bitAt k)).settle) ∧
    (s.slotSt k = slOff → s.slotUse k = s.fb (Fd.SEQ_SLOTCFG_USE k)) ∧
    (∃ u : State, u = s.setF (Fd.SEQ_SLOTSTAT_RREASON k) 3 ∧ s.slotRefuse k 3 =
      ((u.setF Fd.SEQ_REFUSE_REASON 3).setF Fd.SEQ_REFUSE_SLOT k).ev Fd.SEQ_EVRAW_REFUSED)

/-- R193–R195, R198, R204: events of the rail table. A window held for QUAL makes a slot GOOD; TSTART fails it with cause 1, and in a run only reports it;
its output below the threshold ends a stop, and TDIS ends it by force with FS21; MINOFF's end acts on a pending request; the
collapse warning fires the armed capture and raises FS2; the capture is armed again by the recovered input or by a write. -/
def Obligations.SlotEvents : Prop :=
  ∀ (s : State) (k : Fin 32), s.power.ao = true →
    (s.portUp = true → s.slotSt k = slStart → (s.slot k).inWin = true →
      getBits (s.slot k).time 0 12 ≤ s.ticks - (s.slot k).qualFrom →
      exec (.slotQualified k) s =
        .next (((s.setSlotSt k slGood).setF (Fd.SEQ_SLOTSTAT_CHAT k) 0).ev Fd.SEQ_EVRAW_GOOD).settle) ∧
    (∀ due, s.portUp = true → s.slotSt k = slStart → (s.slot k).startDue = some due → due ≤ s.ticks →
      ((s.slot k).inRun = false → exec (.slotStartTimeout k) s = .next (s.slotFail k 1).settle) ∧
      ((s.slot k).inRun = true → exec (.slotStartTimeout k) s = .next (((s.setSlot k { s.slot k with startDue := none }).ev
        Fd.SEQ_EVRAW_RUNFAULT).almanacBlock 12 6 k 0).settle)) ∧
    (∀ mv, s.portUp = true → s.slotSt k = slStop → 4 ≤ k.val → k.val < 18 → mv < 20 * getBits (s.slot k).cfg 12 8 →
      exec (.slotDischarged k mv) s = .next ((if k.val < 10 then s.railSeen (k - 4) mv else s).slotReachOff k).settle) ∧
    (∀ mv, s.portUp = true → s.slotSt k = slStop → k.val < 4 → mv < 20 * getBits (s.slot k).cfg 12 8 →
      exec (.slotDischarged k mv) s = .next ((s.setF (Fd.LOOP_MEAS_VOUT k) mv).slotReachOff k).settle) ∧
    (∀ mv, s.portUp = true → s.slotSt k = slStop → 18 ≤ k.val → s.groupCommit (k - 18) = 0 →
      exec (.slotDischarged k mv) s = .next (s.slotReachOff k).settle) ∧
    (s.portUp = true → s.slotSt k = slStop → (s.slot k).disDue ≤ s.ticks →
      exec (.slotDischargeTimeout k) s = .next (((((s.slotReachOff k).setFb (Fd.SEQ_SLOTSTAT_FORCED k)
        (decide (k.val < 18))).ev Fd.SEQ_EVRAW_DTIMEOUT).almanacBlock 12 4 k 0).raise 21 0 k).settle) ∧
    (s.portUp = true → s.fb (Fd.SEQ_SLOTSTAT_PEND k) = true → s.slotSt k = slOff → (s.slot k).minoffDue ≤ s.ticks →
      exec (.slotPendDue k) s = .next ((s.setPend k false).slotOn k).1.settle) ∧
    (∀ v, s.portUp = true → v < 100 * s.f Fd.SEQ_COLLAPSE_VCW → ∃ a u : State,
      a = { s with plant := { s.plant with vsys := some v } } ∧
      u = { a with seq := { a.seq with lastLoss := s.ticks } } ∧ u.vcwLow = true ∧
      exec (.vsysCollapseWarn v) s = .next (((u.ev Fd.SEQ_EVRAW_VCW).firstFail 0x40).raise 2 0 0).gaugeOwe.settle) ∧
    (∀ v since, s.portUp = true → 100 * (s.f Fd.SEQ_COLLAPSE_VCW + s.f Fd.SEQ_COLLAPSE_HYST) < v →
      since + msTicks (s.f Fd.SEQ_COLLAPSE_REARM) ≤ s.ticks → s.seq.lastLoss + msTicks (s.f Fd.SEQ_COLLAPSE_REARM) ≤ s.ticks →
      s.seq.rsto = true → exec (.firstfailRearm v since) s = .next (State.setF { s with
        plant := { s.plant with vsys := some v } } Fd.SEQ_STAT_FFARMED 1).settle) ∧
    (∀ w, s.mayWrite w Reg.SEQ_CTRL = true → exec (.ffarmWrite w) s = .next (s.setF Fd.SEQ_STAT_FFARMED 1).settle) ∧
    (s.fb Fd.SEQ_STAT_FFARMED = false → ∀ t, s.firstFail t = s) ∧
    (∃ u : State, u = ((s.setSlotSt k slFailed).setF (Fd.SEQ_SLOTSTAT_CAUSE k) 1 |>.ev Fd.SEQ_EVRAW_FAILED).raise 20 1 k ∧
      (u.seq.rsto = true → s.slotFail k 1 = u))

/-! ## The power path and the charger -/

/-- R213, R221, R222, R224, R225: the hand-over. In SOURCE, VAC above the window enters DETECT as an over-voltage and VAC below
it as a loss; a loss whose VAC returns is a glitch, and 50 µs in DETECT end it with FS22, towards BRIDGE with a usable
battery, else QUALIFY, or OFF without INEN; qualification enters RECONNECT, whose ramp ends in SOURCE and which VAC leaving
its window ends; BRIDGE becomes ON_BATTERY when VSYS has settled or the bypass closes. -/
def Obligations.HandOver : Prop :=
  ∀ (s : State), s.power.ao = true → s.portUp = true →
    (∀ vac, ∃ a : State, a = { s with plant := { s.plant with vac := some vac } } ∧
      (s.ho = hoSource → 100 * s.f Fd.PATH_VACWIN_HI < vac →
        exec (.vacWindowChange vac) s = .next (a.toDetect 2).settle) ∧
      (s.ho = hoSource → vac ≤ 100 * s.f Fd.PATH_VACWIN_HI → vac < 100 * s.f Fd.PATH_VACWIN_LO →
        exec (.vacWindowChange vac) s = .next (a.toDetect 1).settle) ∧
      (s.ho = hoSource → vac ≤ 100 * s.f Fd.PATH_VACWIN_HI → 100 * s.f Fd.PATH_VACWIN_LO ≤ vac →
        exec (.vacWindowChange vac) s = .next a.settle) ∧
      (s.ho = hoDetect → s.path.det = 1 → vac ≤ 100 * s.f Fd.PATH_VACWIN_HI → 100 * s.f Fd.PATH_VACWIN_LO ≤ vac →
        exec (.vacWindowChange vac) s = .next a.glitch.settle) ∧
      (s.ho = hoReconnect → vac < 100 * s.f Fd.PATH_VACWIN_LO →
        exec (.vacWindowChange vac) s = .next (a.reconnectBack true).settle) ∧
      (s.ho = hoQualify → exec (.vacWindowChange vac) s = .next a.qualJudge.settle)) ∧
    (s.path.qual = true → ∃ u : State, u = (s.toHo hoReconnect).setPath { (s.toHo hoReconnect).path with
        came := s.ho, reverse := false, bypassed := s.fb Fd.PATH_STAT_BYPASS } ∧
      (s.fb Fd.PATH_STAT_BYPASS = false → exec .vacQualified s = .next (u.setF Fd.PATH_STAT_ACON 1).settle) ∧
      (s.fb Fd.PATH_STAT_BYPASS = true → exec .vacQualified s = .next u.settle)) ∧
    (s.ho = hoReconnect → s.path.bypassed = true → exec .reconnectBatdrvOff s =
      .next (((s.setPath { s.path with bypassed := false }).setF Fd.PATH_STAT_BYPASS 0).setF Fd.PATH_STAT_ACON 1).settle) ∧
    (s.ho = hoReconnect → s.fb Fd.PATH_STAT_ACON = true → s.inWindow = true →
      exec .reconnectComplete s = .next ((s.toHo hoSource).ev Fd.PATH_EVRAW_SOURCE).settle) ∧
    (s.ho = hoDetect → s.path.settled = true → ∃ u : State, u = (s.hoenActs.setF Fd.PATH_STAT_ACON 0).incF Fd.PATH_HOCOUNT_LOSSES ∧
      (u.batteryUsable = true → ∃ t : State, t = ((u.toHo hoBridge).ev Fd.PATH_EVRAW_BRIDGE).gaugeOwe ∧ exec .detectTimeout s =
        .next (((t.setPath { t.path with reverse := false }).setF Fd.PATH_FCAUSE_INCAUSE s.path.det).raise 22 s.path.det 0).settle) ∧
      (u.batteryUsable = false → u.fb Fd.PATH_CTRL_INEN = true → ∃ t : State, t = u.toHo hoQualify ∧ exec .detectTimeout s =
        .next (((t.setPath { t.path with reverse := false }).setF Fd.PATH_FCAUSE_INCAUSE s.path.det).raise 22 s.path.det 0).settle) ∧
      (u.batteryUsable = false → u.fb Fd.PATH_CTRL_INEN = false → ∃ t : State, t = u.toHo hoOff ∧ exec .detectTimeout s =
        .next (((t.setPath { t.path with reverse := false }).setF Fd.PATH_FCAUSE_INCAUSE s.path.det).raise 22 s.path.det 0).settle)) ∧
    (∀ vsys, s.ho = hoBridge → 98 * s.f Fd.PATH_SUP_VSYSHOLD ≤ vsys → vsys ≤ 102 * s.f Fd.PATH_SUP_VSYSHOLD →
      exec (.bridgeSettled vsys) s = .next ((State.setPath (s.setF Fd.PATH_STAT_HOSTATE hoBattery)
        { s.path with qual := s.path.qual }).ev Fd.PATH_EVRAW_ONBATT).settle) ∧
    (∀ vsys vbat, s.ho = hoBattery → s.f Fd.PATH_STAT_BYPASS = 0 → vsys + 200 < vbat → exec (.bypassClose vsys vbat) s =
      .next ((State.setF { s with plant := { s.plant with vsys := some vsys, vbat := some vbat } } Fd.PATH_STAT_BYPASS 1).ev
        Fd.PATH_EVRAW_BYPASS).settle) ∧
    (∀ st, st ≤ 6 → (s.toHo st).ho = st ∧ ((s.toHo st).path.qual = true → (st = hoQualify ∨ st = hoBridge ∨ st = hoBattery) ∧
      s.fb Fd.PATH_CTRL_INEN = true ∧ s.inBand = true))

/-- R215, R216, R218, R223: input protection. A reverse current turns ACDRV off and raises FS22 in SOURCE, and the input's
return turns it on again; a trip enters DETECT; in SOURCE u follows the law of R218 within its bounds, a deficit at the input starts supplement or keeps
INREG set, which sets INSAT, and u above 0 ends it;
1 s in SOURCE clears BOUNCE; a bounce is counted, and BOUNCEMAX of them raise FS23. -/
def Obligations.InputProtection : Prop :=
  ∀ (s : State), s.power.ao = true → s.portUp = true →
    (s.fb Fd.PATH_STAT_ACON = true → ∃ u : State, u = ((s.setF Fd.PATH_STAT_ACON 0).ev Fd.PATH_EVRAW_REVERSE).setPath
        { s.path with reverse := true, revDet := s.ho == hoDetect } ∧
      (u.ho = hoSource → exec .reverseCurrentBlock s = .next ((u.setF Fd.PATH_FCAUSE_INCAUSE 4).raise 22 4 0).settle) ∧
      (u.ho ≠ hoSource → exec .reverseCurrentBlock s = .next u.settle)) ∧
    (s.fb Fd.PATH_STAT_ACON = false → exec .reverseCurrentBlock s = .next s.settle) ∧
    (∀ vac vsys, s.path.reverse = true → s.ho = hoSource → vsys + 100 < vac → vac ≤ 100 * s.f Fd.PATH_VACWIN_HI → exec (.reverseBlockRelease vac vsys) s =
      .next (State.setF { s with plant := { s.plant with vac := some vac, vsys := some vsys }, path := { s.path with
        reverse := false } } Fd.PATH_STAT_ACON 1).settle) ∧
    (∀ iin, s.f Fd.PATH_INLIM_TRIP ≠ 0 → s.f Fd.PATH_INLIM_TRIP * s.f Fd.PATH_INLIM_MA < 100 * iin →
      s.fb Fd.PATH_STAT_ACON = true → s.ho = hoSource ∨ s.ho = hoReconnect →
      exec (.inputTrip iin) s = .next ((s.setF Fd.PATH_MEAS_IIN (min 0xFFFF (iin / 10))).toDetect 3).settle) ∧
    (∀ iin, s.f Fd.PATH_INLIM_TRIP = 0 → exec (.inputTrip iin) s = .next s.settle) ∧
    (∀ (x : HbSample) (p u : Int), p = (s.f Fd.PATH_INLIM_MA : Int) - (x.iin : Int) →
      u = max s.uLow (min s.uHigh (p + s.path.integ + x.acc)) →
      s.hbSample x = ((s.setF Fd.PATH_MEAS_IIN (min 0xFFFF (x.iin / 10))).setPath { s.path with u := u, integ := u - p }).setFb
        Fd.PATH_STAT_INREG (decide (u < 0) && !s.path.supp)) ∧
    (∀ (x : HbSample) (u v : State), s.ho = hoSource → u = s.hbSample x → v = u.testCut →
      (u.path.u < -200 → v.fb Fd.PATH_CTRL_SUPEN = true → v.dischargeFree = true → exec (.supplementStart x) s =
        .next ((v.setPath { v.path with supp := true }).setF Fd.PATH_STAT_INREG 0).settle) ∧
      (u.path.u < -200 → v.fb Fd.PATH_CTRL_SUPEN = false ∨ v.dischargeFree = false →
        exec (.supplementStart x) s = .next v.settle) ∧
      (-200 ≤ u.path.u → exec (.supplementStart x) s = .next u.settle) ∧
      (0 < u.path.u → exec (.supplementEnd x) s = .next (u.setPath { u.path with supp := false }).settle) ∧
      (u.path.u ≤ 0 → exec (.supplementEnd x) s = .next u.settle) ∧
      (u.fb Fd.PATH_STAT_INREG = true → exec (.inputSaturated x) s = .next (u.ev Fd.PATH_EVRAW_INSAT).settle) ∧
      (u.fb Fd.PATH_STAT_INREG = false → exec (.inputSaturated x) s = .next u.settle)) ∧
    (s.ho = hoSource → ∃ u : State, u = s.setF Fd.PATH_HOCOUNT_BOUNCE 0 ∧
      exec .bounceClear s = .next (u.setPath { u.path with settled := true }).settle) ∧
    (∀ u : State, u = (s.incF Fd.PATH_HOCOUNT_BOUNCE).ev Fd.PATH_EVRAW_BOUNCE →
      (s.f Fd.PATH_HOCOUNT_BOUNCE < u.f Fd.PATH_QUAL_BOUNCEMAX → u.f Fd.PATH_QUAL_BOUNCEMAX ≤ u.f Fd.PATH_HOCOUNT_BOUNCE →
        s.bounce = u.raise 23 0 (u.f Fd.PATH_HOCOUNT_BOUNCE)) ∧
      (u.f Fd.PATH_QUAL_BOUNCEMAX ≤ s.f Fd.PATH_HOCOUNT_BOUNCE ∨ u.f Fd.PATH_HOCOUNT_BOUNCE < u.f Fd.PATH_QUAL_BOUNCEMAX →
        s.bounce = u))

/-- R221, R222, R226, R228, R231, R232: a write of CTRL stores HOEN, a 0 of which written on the battery
acts after the episode, SUPEN and CHGEN, then acts on INEN, CHGEN, TRST — from a
host alone — and BATGO. INEN moves the path as R221's table has it; CHGEN takes the charger to WAIT, or to CHGPEND within
MINOFF, or to STOPPING; TRST leaves TIMEOUT; BATGO enters BRIDGE from QUALIFY, opens the bypass in ON_BATTERY, and is kept
through a discharge stop. Between a die shut-down's trip and the hold the write is stored. -/
def Obligations.PathControl : Prop :=
  (∀ (s : State) (w : Writer) (d : Word), s.power.ao = true → s.mayWrite w Reg.PATH_CTRL = true →
    exec (.inenWrite w d) s = .next (s.pathCtrlWrite (isHost w) d).settle ∧
    exec (.hoenWrite w d) s = .next (s.pathCtrlWrite (isHost w) d).settle ∧
    exec (.batgo w d) s = .next (s.pathCtrlWrite (isHost w) (d ||| 0x10)).settle ∧
    exec (.chgenOn w d) s = .next (s.pathCtrlWrite (isHost w) (d ||| 0x8)).settle ∧
    exec (.chgenOff w d) s = .next (s.pathCtrlWrite (isHost w) (d &&& ~~~ 0x8)).settle) ∧
  (∀ (s : State) (p : Proc) (d : Word), s.power.ao = true → s.mayWrite (.host p) Reg.PATH_CTRL = true →
    exec (.trst p d) s = .next (s.pathCtrlWrite true (d ||| 0x20)).settle) ∧
  ∀ s : State,
    (∀ h d, s.therm.holding = true → s.pathCtrlWrite h d = s.pathCtrlStore d) ∧
    (∀ h d, s.therm.holding = false → ∃ a b : State, a = (((s.setFb Fd.PATH_CTRL_HOEN (bit d 1)).setPath { s.path with
        hoenKept := !bit d 1 && s.hoen && (s.ho == hoBridge || s.ho == hoBattery || s.path.hoenKept) }).setFb
          Fd.PATH_CTRL_SUPEN (bit d 2)).setFb Fd.PATH_CTRL_CHGEN (bit d 3) ∧ b = a.inenWrite (bit d 0) ∧
      (bit d 3 = true → bit d 4 = false → bit d 5 = false → s.pathCtrlWrite h d = b.chgOn) ∧
      (bit d 3 = true → bit d 4 = true → bit d 5 = false → s.pathCtrlWrite h d = b.chgOn.batGo) ∧
      (bit d 3 = true → bit d 4 = false → bit d 5 = true → s.pathCtrlWrite true d = b.chgOn.leaveTimeout ∧
        s.pathCtrlWrite false d = b.chgOn) ∧
      (bit d 3 = false → bit d 4 = false → bit d 5 = false → s.fb Fd.PATH_CTRL_CHGEN = true →
        s.pathCtrlWrite h d = b.chgOff)) ∧
    (∀ t : State, t = s.setFb Fd.PATH_CTRL_INEN true → t.ho = hoOff → s.inenWrite true = t.toHo hoQualify) ∧
    (∀ t : State, t = s.setFb Fd.PATH_CTRL_INEN false →
      (t.ho = hoQualify → s.inenWrite false = t.toHo hoOff) ∧
      (t.ho = hoReconnect → s.inenWrite false = t.reconnectBack false) ∧
      (t.ho = hoSource → (t.setF Fd.PATH_STAT_ACON 0).batteryUsable = true →
        s.inenWrite false = (((t.setF Fd.PATH_STAT_ACON 0).toHo hoBridge).ev Fd.PATH_EVRAW_BRIDGE).gaugeOwe) ∧
      (t.ho = hoSource → (t.setF Fd.PATH_STAT_ACON 0).batteryUsable = false →
        s.inenWrite false = (t.setF Fd.PATH_STAT_ACON 0).toHo hoOff)) ∧
    (s.chg = chOff → s.chgOffPast = true → s.chgOn = s.toChg chWait) ∧
    (s.chg = chOff → s.chgOffPast = false → s.chgOn = s.setF Fd.PATH_STAT_CHGPEND 1) ∧
    (s.chg = chStopping → s.chgOn = s.setF Fd.PATH_STAT_CHGPEND 1) ∧
    (s.chg = chTimeout → s.chgOn = s) ∧
    (∀ t : State, t = s.setF Fd.PATH_STAT_CHGPEND 0 → (1 ≤ t.chg → t.chg ≤ 6 →
        s.chgOff = (t.setPath { t.path with rampDown := t.f Fd.PATH_STAT_HBMODE == 1 }).toChg chStopping) ∧
      (t.chg = chTimeout ∨ t.chg = chOff ∨ t.chg = chStopping → s.chgOff = t)) ∧
    (s.chg ≠ chTimeout → s.leaveTimeout = s) ∧
    (s.dischargeFree = true → s.ho = hoQualify → s.batteryUsable = true →
      s.batGo = ((s.toHo hoBridge).ev Fd.PATH_EVRAW_BRIDGE).gaugeOwe) ∧
    (s.dischargeFree = true → s.ho = hoBattery → s.fb Fd.PATH_STAT_BYPASS = true → s.batGo = s.setF Fd.PATH_STAT_BYPASS 0) ∧
    (s.dischargeFree = true → s.ho ≠ hoQualify → s.ho ≠ hoBattery → s.batGo = s) ∧
    (s.dischargeFree = false → s.batGo = s.setPath { s.path with batgo := true })

/-- R228, R229, R231, R232: the charger's own moves. WAIT is left for the phase that VBAT selects; DRIZZLE, PRE and CC advance at their
thresholds; CV ends in DONE with CHGDONE, which a discharged battery leaves for CC; an expired timer ends in TIMEOUT with
FS24; STOPPING ends in OFF, which a pending CHGEN leaves for WAIT; HEADROOM follows VSYS − VBAT; every change of state sets
CHGPHASE. -/
def Obligations.Charger : Prop :=
  ∀ (s : State), s.power.ao = true → s.portUp = true →
    (∀ vbat, s.chg = chWait → s.chargeConds = true → ∃ u : State, u = { s with plant := { s.plant with vbat := some vbat } } ∧
      (vbat < s.f Fd.PATH_VTHR_VDRZ → exec (.chargeResume vbat) s = .next (u.toChg chDrizzle).settle) ∧
      (s.f Fd.PATH_VTHR_VDRZ ≤ vbat → vbat < s.f Fd.PATH_VTHR_VPRE →
        exec (.chargeResume vbat) s = .next (u.toChg chPre).settle) ∧
      (s.f Fd.PATH_VTHR_VDRZ ≤ vbat → s.f Fd.PATH_VTHR_VPRE ≤ vbat →
        vbat + 10 * s.f Fd.PATH_VREG_RECHG < s.f Fd.PATH_VREG_MV →
        exec (.chargeResume vbat) s = .next (u.toChg chCc).settle) ∧
      (s.f Fd.PATH_VTHR_VDRZ ≤ vbat → s.f Fd.PATH_VTHR_VPRE ≤ vbat →
        s.f Fd.PATH_VREG_MV ≤ vbat + 10 * s.f Fd.PATH_VREG_RECHG →
        exec (.chargeResume vbat) s = .next (u.toChg chDone).settle)) ∧
    (∀ vbat, (s.chg = chDrizzle → s.f Fd.PATH_VTHR_VDRZ ≤ vbat → exec (.chargePhaseAdvance vbat) s = .next (s.toChg chPre).settle) ∧
      (s.chg = chPre → s.f Fd.PATH_VTHR_VPRE ≤ vbat → exec (.chargePhaseAdvance vbat) s = .next (s.toChg chCc).settle) ∧
      (s.chg = chCc → s.f Fd.PATH_VREG_MV ≤ vbat → exec (.chargePhaseAdvance vbat) s = .next (s.toChg chCv).settle)) ∧
    (∀ ma, s.chg = chCv → s.fb Fd.PATH_CHGCFG_TERMEN = true → ma < s.f Fd.PATH_ICHG_TERM →
      exec (.chargeTerminated ma) s = .next ((s.toChg chDone).ev Fd.PATH_EVRAW_CHGDONE).fullSync.settle) ∧
    (∀ vbat, s.chg = chDone → s.fb Fd.PATH_CHGCFG_RECHGEN = true → vbat + 10 * s.f Fd.PATH_VREG_RECHG < s.f Fd.PATH_VREG_MV →
      exec (.recharge vbat) s = .next (s.toChg chCc).settle) ∧
    (2 ≤ s.chg → s.chg ≤ 5 → s.timerLen ≤ s.path.tCount → exec .chargeTimeout s =
      .next (((s.toChg chTimeout).ev Fd.PATH_EVRAW_TIMEOUT).raise 24 0 s.path.tPhase).settle) ∧
    (s.chg = chStopping → exec .chargerStopped s =
      .next (State.toChg (s.setPath { s.path with rampDown := false }) chOff).settle) ∧
    (s.fb Fd.PATH_STAT_CHGPEND = true → s.chg = chOff → s.chgOffPast = true →
      exec .chargerPendDue s = .next ((s.setF Fd.PATH_STAT_CHGPEND 0).toChg chWait).settle) ∧
    (∀ vsys vbat, ∃ u : State, u = { s with plant := { s.plant with vsys := some vsys, vbat := some vbat } } ∧
      (vsys < vbat + 1500 → exec (.headroomChange vsys vbat) s = .next (u.setF Fd.PATH_STAT_HEADROOM 1).settle) ∧
      (vbat + 1500 ≤ vsys → vsys < vbat + 1700 → exec (.headroomChange vsys vbat) s = .next u.settle) ∧
      (vbat + 1700 ≤ vsys → exec (.headroomChange vsys vbat) s = .next (u.setF Fd.PATH_STAT_HEADROOM 0).settle)) ∧
    (∀ st, st ≤ 8 → (s.toChg st).chg = st ∧ (s.chg ≠ st → (s.toChg st).f Fd.PATH_EVRAW_CHGPHASE = 1) ∧
      (s.chg ≠ chOff → (s.toChg chOff).path.offAt = some s.ticks))

/-- R226, R233, R234: a hardware limit stops its direction once, with LIMACT, CHGCAUSE, HWLIM and FS25, and its release frees
it; a presence test starts only when none is owed in vain, and its end at or above 6 V keeps the battery present; 7 V makes
it present and counts as a re-insertion, and below 6 V it is absent with FS26. -/
def Obligations.BatteryLimits : Prop :=
  ∀ (s : State), s.power.ao = true → s.portUp = true →
    (∀ (c : Fin 6) v u, s.limTrigger c v = true → s.limOn c = false →
      u = (s.setF Fd.PATH_FCAUSE_LIMACT (s.f Fd.PATH_FCAUSE_LIMACT ||| 2 ^ (c.val - 1))).setF Fd.PATH_FCAUSE_CHGCAUSE c →
      (c.val = 2 ∨ c.val = 4 → exec (.chargerHwLimit c v) s = .next (((u.setPath { u.path with
          limAt := tset (fun _ => 0) u.path.limAt c u.ticks }).ev Fd.PATH_EVRAW_HWLIM).raise 25 c 0).settle) ∧
      (c.val = 3 ∨ c.val = 5 → exec (.chargerHwLimit c v) s = .next (((State.dischargeStop (u.setPath { u.path with
          limAt := tset (fun _ => 0) u.path.limAt c u.ticks })).ev Fd.PATH_EVRAW_HWLIM).raise 25 c 0).settle)) ∧
    (∀ (c : Fin 6) v, s.limOn c = true → exec (.chargerHwLimit c v) s = .next s.settle) ∧
    (∀ v, (s.limTrigger 1 v = true ↔ s.f Fd.PATH_VREG_MV * (100 + s.f Fd.PATH_VREG_OVPCT) < 100 * v) ∧
      (s.limTrigger 4 v = true ↔ 500 * s.f Fd.PATH_BATLIM_OCC < v) ∧
      (s.limTrigger 5 v = true ↔ 500 * s.f Fd.PATH_BATLIM_OCD < v) ∧ s.limTrigger 0 v = false) ∧
    (∀ u : State, u = (s.setPath { s.path with supp := false }).setF Fd.PATH_STAT_BYPASS 0 →
      (u.ho = hoBridge ∨ u.ho = hoBattery → s.dischargeStop = u.toHo hoQualify) ∧
      (u.ho ≠ hoBridge → u.ho ≠ hoBattery → s.dischargeStop = u)) ∧
    (∀ (c : Fin 6) v, s.limOn c = true → s.limReleases c v = true → s.path.batgo = false →
      exec (.chargerLimitRelease c v) s =
        .next (s.setF Fd.PATH_FCAUSE_LIMACT (s.f Fd.PATH_FCAUSE_LIMACT ^^^ 2 ^ (c.val - 1))).settle) ∧
    (∀ (c : Fin 6) v, s.limOn c = false → exec (.chargerLimitRelease c v) s = .next s.settle) ∧
    (s.testOwed = true → s.path.testOn = false → s.ho = hoOff ∨ s.ho = hoQualify ∨ s.ho = hoSource →
      s.f Fd.PATH_STAT_HBMODE ≠ 2 → s.f Fd.PATH_STAT_HBMODE ≠ 3 → exec .presenceTestStart s =
        .next (s.setPath { s.path with testOn := true, testDue := false, lastTest := s.ticks }).settle) ∧
    (s.f Fd.PATH_STAT_HBMODE = 3 → exec .presenceTestStart s = .next s.settle) ∧
    (∀ vbat u, s.path.testOn = true → u = ({ s with
        plant := { s.plant with vbat := some vbat }
        path := { s.path with testOn := false, ovPassed := s.path.ovPassed || decide (6000 ≤ vbat) } } : State) →
      (6000 ≤ vbat → exec (.presenceTestDone vbat) s = .next u.settle) ∧
      (vbat < 6000 → u.fb Fd.PATH_STAT_BATPRES = true → exec (.presenceTestDone vbat) s =
        .next (((u.setF Fd.PATH_STAT_BATPRES 0).ev Fd.PATH_EVRAW_BATTOUT).raise 26 0 0).settle)) ∧
    (∀ vbat, 7000 ≤ vbat → s.f Fd.PATH_STAT_BATPRES = 0 → exec (.batteryPresent vbat) s =
      .next ((State.setF { s with plant := { s.plant with vbat := some vbat } } Fd.PATH_STAT_BATPRES 1).ev
        Fd.PATH_EVRAW_BATTIN).leaveTimeout.settle) ∧
    (∀ vbat u, vbat < 6000 → u = ({ s with plant := { s.plant with vbat := some vbat } } : State) →
      (u.fb Fd.PATH_STAT_BATPRES = true → exec (.batteryAbsent vbat) s =
        .next (((u.setF Fd.PATH_STAT_BATPRES 0).ev Fd.PATH_EVRAW_BATTOUT).raise 26 0 0).settle) ∧
      (u.fb Fd.PATH_STAT_BATPRES = false → exec (.batteryAbsent vbat) s = .next u.settle))

/-! ## The gauge -/

/-- R241, R245, R252, R253, R255, R258: control of the gauge. CTRL turns it on and off, starts an auto-zero, sets RELEARN and
asks for a store; a write of FCC rescales RM, a write of RM recomputes SOC, a first non-zero DESIGN becomes FCC; a proving
run starts only under its conditions, is refused with cause 9, and is aborted with cause 8; a store is kept pending through
the one under way, fails with FS28 and is retried 10 s later. -/
def Obligations.GaugeControl : Prop :=
  ∀ (s : State), s.power.ao = true →
    (∀ w d, s.mayWrite w Reg.GAUGE_CTRL = true →
      exec (.gaugeEnWrite w d) s = .next (s.gaugeCtrl d).settle ∧ exec (.azgo w d) s = .next (s.gaugeCtrl (d ||| 0x2)).settle ∧
      exec (.storego w d) s = .next (s.gaugeCtrl (d ||| 0x4)).settle ∧
      exec (.relearnWrite w d) s = .next (s.gaugeCtrl (d ||| 0x8)).settle) ∧
    (∀ d (u v : State), u = s.setFb Fd.GAUGE_CTRL_EN (bit d 0) →
      v = (if bit d 0 then (if u.gMode = gmOff then State.setGauge (u.setF Fd.GAUGE_STAT_MODE gmActive) { u.gauge with small := 0 } else u)
        else State.setGauge (u.setF Fd.GAUGE_STAT_MODE gmOff) { u.gauge with small := 0 }) →
      (bit d 1 = false → bit d 2 = false → bit d 3 = false → s.gaugeCtrl d = v) ∧
      (bit d 1 = true → bit d 2 = false → bit d 3 = false → s.gaugeCtrl d = v.autozeroStart) ∧
      (bit d 1 = false → bit d 2 = true → bit d 3 = false → s.gaugeCtrl d = v.gStore) ∧
      (bit d 1 = false → bit d 2 = false → bit d 3 = true → v.fb Fd.GAUGE_STAT_RELEARN = false →
        s.gaugeCtrl d = (v.setFb Fd.GAUGE_STAT_RELEARN true).gStore)) ∧
    (∀ w (d : Word), s.mayWrite w Reg.GAUGE_FCC = true → d ≠ 0 → s.fcc ≠ 0 →
      exec (.fccWrite w d) s = .next ((s.setF Fd.GAUGE_FCC_MAH d.toNat).setRm (s.f Fd.GAUGE_RM_MAH * d.toNat / s.fcc) 0).settle) ∧
    (∀ w (d : Word), s.mayWrite w Reg.GAUGE_FCC = true → d ≠ 0 → s.fcc = 0 →
      exec (.fccWrite w d) s = .next ((s.setF Fd.GAUGE_FCC_MAH d.toNat).setRm 0 0).settle) ∧
    (∀ w (d : Word), s.mayWrite w Reg.GAUGE_RM = true → s.fcc ≠ 0 → d.toNat * 10000 / s.fcc < 2 ^ 16 →
      exec (.rmWrite w d) s = .next ((s.setRm d.toNat 0).setF Fd.GAUGE_SOC_SOC (d.toNat * 10000 / s.fcc)).settle) ∧
    (∀ w (d : Word), s.mayWrite w Reg.GAUGE_DESIGN = true → s.fcc = 0 → d ≠ 0 → exec (.designMahWrite w d) s =
      .next (((s.setF Fd.GAUGE_DESIGN_MAH d.toNat).setF Fd.GAUGE_FCC_MAH d.toNat).setRm 0 0).settle) ∧
    (∀ w (d : Word), s.mayWrite w Reg.GAUGE_DESIGN = true → s.fcc ≠ 0 →
      exec (.designMahWrite w d) s = .next (s.setF Fd.GAUGE_DESIGN_MAH d.toNat).settle) ∧
    (∀ w d (u : State), s.mayWrite w Reg.GAUGE_PROVE = true → u = ((s.setF Fd.GAUGE_PROVE_START (clampNat 50 100 (getBits d 16 8))).setF
        Fd.GAUGE_PROVE_FLOOR (clampNat 5 80 (getBits d 8 8))).setF Fd.GAUGE_PROVE_TMAX (clampNat 1 48 (getBits d 0 8)) →
      (∀ soc at', s.gauge.prove = none → u.fb Fd.GAUGE_STAT_CNTINV = false → u.fb Fd.GAUGE_STAT_TINV = false →
        s.gauge.anchor = some (soc, at') → s.ticks - at' < secTicks 3600 → 100 * u.f Fd.GAUGE_PROVE_START ≤ soc → u.ho = hoSource →
        exec (.proveGo w d) s = .next (((u.setGauge { u.gauge with prove := some u.ticks, fs27 := false }).setF Fd.GAUGE_STAT_PROVING 1).setF
          Fd.GAUGE_PROVESTAT_MIN 0).settle) ∧
      (s.gauge.prove ≠ none ∨ u.fb Fd.GAUGE_STAT_CNTINV = true ∨ u.ho ≠ hoSource ∨ s.gauge.anchor = none →
        exec (.proveGo w d) s = .next (u.setF Fd.GAUGE_PROVESTAT_CAUSE 9).settle) ∧
      exec (.proveAbort w d) s = .next (u.proveEnd 8).settle) ∧
    (s.power.state ≠ .off →
      (s.gauge.perAt + secTicks 3600 * s.f Fd.GAUGE_STORE_PERIOD ≤ s.ticks →
        exec .gaugeStorePeriodic s = .next ((s.setGauge { s.gauge with perAt := s.ticks }).gStore).settle) ∧
      (s.ticks < s.gauge.perAt + secTicks 3600 * s.f Fd.GAUGE_STORE_PERIOD → exec .gaugeStorePeriodic s = .next s.settle) ∧
      (∀ slot bytes, s.gauge.writing = some (slot, bytes) → s.recPending .gauge = false → s.gauge.failed = true →
        exec .gaugeStoreDone s = .next ((State.gev (s.setGauge { s.gauge with
          writing := none, failed := false, again := false, retryAt := some (s.ticks + secTicks 10) })
            Fd.GAUGE_EVRAW_STOREFAIL).raise 28 0 0).settle) ∧
      (∀ slot bytes, s.gauge.writing = some (slot, bytes) → s.recPending .gauge = false → s.gauge.failed = false →
        s.gauge.again = false → ∃ u : State, u = ((s.setGauge { s.gauge with writing := none, again := false }).setF
          Fd.GAUGE_STAT_SLOT slot).setF Fd.GAUGE_STORE_SEQ (recField bytes 4 4) ∧
        exec .gaugeStoreDone s = .next (((u.gev Fd.GAUGE_EVRAW_STORED).flashAppend .gauge bytes).setF Fd.GAUGE_STAT_STOREPEND 0).settle) ∧
      (∀ due, s.gauge.retryAt = some due → s.gauge.writing = none → due ≤ s.ticks →
        exec .gaugeStoreRetry s = .next s.gStoreStart.settle)) ∧
    (∀ x, s.gauge.writing = some x → ∃ u : State, u = s.setF Fd.GAUGE_STAT_STOREPEND 1 ∧
      s.gStore = u.setGauge { u.gauge with again := true })

/-- R240–R242, R244–R249, R258: measuring. An auto-zero takes the mode, and its end folds a quarter of the difference into
OFFSET; a sample sets VBAT, TCELL and VCELL; an impedance within 1–500 mΩ moves R by an eighth; an update takes R258's steps in
their order and ends in UPDATE, and in QUIET a current of twice ISLEEP makes ACTIVE; a full sync sets RM to FCC; charge moves RM
within 0 and FCC; a learning step without an anchor sets one, and one that qualifies moves FCC by W eighths and stores. -/
def Obligations.GaugeMeasures : Prop :=
  ∀ (s : State), s.power.ao = true → s.power.state ≠ .off →
    (s.counting = true → s.gMode = gmActive ∨ s.gMode = gmQuiet → ∃ u : State, u = s.setF Fd.GAUGE_STAT_MODE gmAutozero ∧
      exec .autozeroStart s = .next (u.setGauge { u.gauge with prev := s.gMode, az := s.gauge.az + 1 }).settle) ∧
    (∀ meas o, s.counting = true → s.gMode = gmAutozero → o = signed 16 (s.f Fd.GAUGE_AZ_OFFSET) →
      exec (.autozeroDone meas) s = .next ((s.setF Fd.GAUGE_AZ_OFFSET (toSigned 16 (o + (meas - o) / 4))).setF
        Fd.GAUGE_STAT_MODE s.gauge.prev).settle) ∧
    (∀ uv t ms, s.counting = true → s.tempBad = false → ∃ u v : State,
      u = (s.setFb Fd.GAUGE_STAT_TINV false).setF Fd.GAUGE_TEMPMEAS_TCELL (toSigned 16 t) ∧
      v = (u.setF Fd.GAUGE_VOLT_VBAT (min 0xFFFF (uv / 1000))).setF Fd.GAUGE_VOLT_VCELL (min 0xFFFF
        (((uv : Int) - u.gCurrent * (u.f Fd.GAUGE_IMP_R : Int) / 100).toNat / (100 * u.cells))) ∧
      (0 ≤ v.gCurrent → exec (.gaugeSample uv t ms) s = .next (v.setGauge { v.gauge with
        samples := (uv :: v.gauge.samples).take 2, gap := ms, lowMs := none }).settle)) ∧
    (∀ (dv di : Int), s.counting = true → s.f Fd.GAUGE_IMP_DI ≤ di.natAbs → di ≠ 0 → s.fb Fd.GAUGE_STAT_TINV = false →
      (100 ≤ -(dv * 100) / di → -(dv * 100) / di ≤ 50000 → exec (.impedanceUpdate dv di) s =
        .next ((s.setF Fd.GAUGE_IMP_R ((s.f Fd.GAUGE_IMP_R : Int) + (-(dv * 100) / di - (s.f Fd.GAUGE_IMP_R : Int)) / 8).toNat).gev
          Fd.GAUGE_EVRAW_IMP).settle) ∧
      (-(dv * 100) / di < 100 ∨ 50000 < -(dv * 100) / di → exec (.impedanceUpdate dv di) s = .next s.settle)) ∧
    (∀ counts ms q ma (u v x y : State), s.counting = true → ms ≠ 0 → s.charge counts ms = (q, ma) →
      u = (s.setF Fd.GAUGE_CURRENT_MA (toSigned 32 ma)).setGauge { s.gauge with az := 0 } →
      v = (((if ma < 0 then u else u.setGauge { u.gauge with lowMs := none }).addCharge q).socFromRm).energyFromRm →
      x = v.emptyRule (s.f Fd.GAUGE_SOC_SOC) (s.f Fd.GAUGE_RM_MAH * nCmAh + s.gauge.rmRem : Nat) q →
      y = ((if x.f Fd.GAUGE_RM_MAH < x.fcc then x.setF Fd.GAUGE_STAT_FULL 0 else x).restRule ms) →
      exec (.gaugeUpdate counts ms) s = .next (s.gUpdate counts ms).settle ∧
      (y.f Fd.GAUGE_CFG_ISLEEP ≤ ma.natAbs → y.gauge.prove = none → y.fb Fd.GAUGE_STAT_EMPTY = false →
        y.fb Fd.GAUGE_STAT_RELEARN = s.fb Fd.GAUGE_STAT_RELEARN →
        s.gUpdate counts ms = (((y.setGauge { y.gauge with small := 0 }).gev Fd.GAUGE_EVRAW_UPDATE).gPresent).gStoreTake)) ∧
    (∀ (ma counts : Int) ms, s.counting = true → s.gMode = gmQuiet → 2 * s.f Fd.GAUGE_CFG_ISLEEP ≤ ma.natAbs →
      ∃ u : State, u = s.setF Fd.GAUGE_STAT_MODE gmActive ∧
        exec (.gaugeWakeActive ma counts ms) s = .next ((u.setGauge { u.gauge with small := 0 }).gUpdate counts ms).settle) ∧
    ((s.counting = true → s.fcc ≠ 0 → ∃ u : State, u = ((((s.setRm s.fcc 0).setF Fd.GAUGE_SOC_SOC 10000).setF Fd.GAUGE_STAT_FULL 1).setF
      Fd.GAUGE_STAT_HOLD1 0).setQBeyond 0 ∧
      s.fullSync = ((u.setF Fd.GAUGE_STAT_EMPTY 0).gev Fd.GAUGE_EVRAW_FULL).gaugeOwe) ∧
      (s.counting = false → s.fullSync = s)) ∧
    (∀ q t, s.fcc ≠ 0 → t = clampInt 0 (s.fcc * nCmAh) ((s.f Fd.GAUGE_RM_MAH * nCmAh + s.gauge.rmRem : Nat) + q) →
      s.addCharge q = (s.setQPass (s.gauge.qPass + q)).setRm (t.toNat / nCmAh) (t.toNat % nCmAh)) ∧
    (∀ b, s.gauge.anchor = none → s.learn b = ((s.learnResult 6 0 none).setAnchor (some (b, s.ticks)), false)) ∧
    (∀ a at' b (u : State), s.gauge.anchor = some (a, at') → s.ticks - at' ≤ secTicks 3600 * s.f Fd.GAUGE_LEARN_TMAX → a < b →
      0 < signed 32 (s.f Fd.GAUGE_QPASS_Q) → 100 * s.f Fd.GAUGE_LEARN_DSOC ≤ b - a → s.fb Fd.GAUGE_STAT_RELEARN = false →
      s.deviates ((signed 32 (s.f Fd.GAUGE_QPASS_Q)).natAbs * 1000 / (b - a)) = false →
      u = s.setF Fd.GAUGE_FCC_MAH ((s.fcc * (8 - s.f Fd.GAUGE_LEARN_W) +
        (signed 32 (s.f Fd.GAUGE_QPASS_Q)).natAbs * 1000 / (b - a) * s.f Fd.GAUGE_LEARN_W) / 8) →
      (s.learn b).1 = (((u.setF Fd.GAUGE_STAT_RELEARN 0).learnResult 1 (b - a) (some
        ((signed 32 (s.f Fd.GAUGE_QPASS_Q)).natAbs * 1000 / (b - a)))).setAnchor (some (b, s.ticks))).gaugeOwe)

/-! ## Point links -/

/-- R268–R270, R278, R288, R291, R292, R295: the line. At a gap an enabled, idle port starts its highest-ranked work; a frame
that expects no reply completes with SENT and, for a train, has its points verified; a low is an alert, whose poll is
followed up at the addresses that were driven, and counts SPURIOUS with none; a collision sends the frame again; a stuck
line raises FS29; a round begins at its period, or counts OVERRUN while one is in progress. -/
def Obligations.LinkLine : Prop :=
  ∀ (s : State) (n : Fin 8), s.power.ao = true → s.portUp = true →
    (∀ order, order = (if (s.lk n).opening then [0] else s.rankOrder n) → s.linkOn n = true ∨ (s.lk n).opening = true →
      s.power.state = .full → (s.lk n).cur = none →
      (∀ x t, takeFrom n order s = (t, some x) → exec (.linkTransactionStart n) s = .next (t.xactBegin n x false).settle) ∧
      (∀ t, takeFrom n order s = (t, none) → exec (.linkTransactionStart n) s = .next t.settle)) ∧
    (s.linkOn n = false → (s.lk n).opening = false → exec (.linkTransactionStart n) s = .next s.settle) ∧
    (∀ x, (s.lk n).cur = some x → x.replies = true → exec (.frameSent n) s =
      .next (s.modLk n fun l => { l with onLine := false, collRun := 0 }).settle) ∧
    (∀ x (u : State), (s.lk n).cur = some x → x.replies = false → u = (s.xactEnd n).noCollision n →
      (x.src = .release →
        ((u.lk n).releases ≠ 0 → exec (.frameSent n) s = .next (u.afterXact n).settle) ∧
        ((u.lk n).releases = 0 → (u.lk n).opening = true → exec (.frameSent n) s =
          .next ((u.ledgerLink (.enable n) fun s => s.linkEnable n).afterXact n).settle)) ∧
      (∀ k (v w : State), x.src = .shed k → v = u.modLk n (fun l => { l with shedNow := l.shedNow ++ [(x.addr, k)] }) →
        (∀ y, v.trainNext n = (w, some y) → exec (.frameSent n) s = .next (w.xactBegin n y true).settle) ∧
        (v.trainNext n = (w, none) → (w.lk n).closing = false → exec (.frameSent n) s = .next ((w.modLk n fun l =>
          { l with shedNow := [], verify := l.verify ++ l.shedNow }).afterXact n).settle)) ∧
      (∀ q d, x.src = .desc q d → 0 < q → exec (.frameSent n) s =
        .next (((u.setDs n q d Ds.TRIES (x.tries + 1)).descDone n q d 10).afterXact n).settle)) ∧
    (s.linkOn n = true → (s.lk n).cur = none → s.fb (Fd.LINK_CTRL_ALERTEN n) = true → exec (.lineAlert n) s =
      .next (((s.ev (Fd.LINK_EVRAW_ALERT n)).modLk n fun x => { x with alert := true }).wakeUp).settle) ∧
    (∀ x lo hi (u : State), (s.lk n).cur = some x → x.src = .alertPoll →
      u = (s.wr (Reg.LINK_ALERTMASK n 0) lo).wr (Reg.LINK_ALERTMASK n 1) hi →
      (u.pairList (Reg.LINK_ALERTMASK n) = [] → exec (.alertPollSlotsDone n lo hi) s =
        .next ((((((u.incF (Fd.LINK_ALERTSTAT_SPURIOUS n)).incF (Fd.LINK_ALERTSTAT_ALERTS n)).modLk n fun l =>
          { l with follow := [] }).xactEnd n).noCollision n).afterXact n).settle) ∧
      (u.pairList (Reg.LINK_ALERTMASK n) ≠ [] → exec (.alertPollSlotsDone n lo hi) s =
        .next (((((u.incF (Fd.LINK_ALERTSTAT_ALERTS n)).modLk n fun l =>
          { l with follow := u.pairList (Reg.LINK_ALERTMASK n) }).xactEnd n).noCollision n).afterXact n).settle)) ∧
    (∀ x (u v : State), (s.lk n).cur = some x → (s.lk n).onLine = true → v = (s.incF (Fd.LINK_FAULTSTAT_COLLIDE n)).xactEnd n →
      u = State.alertSeen ((if x.src = .alertPoll then v.modLk n fun l => { l with alert := true }
        else v.modLk n fun l => { l with again := x :: l.again }).modLk n fun l => { l with collRun := l.collRun + 1 }) n →
      ((u.lk n).collRun < 8 → exec (.linkCollision n) s = .next u.settle) ∧
      (8 ≤ (u.lk n).collRun → exec (.linkCollision n) s =
        .next ((u.modLk n fun l => { l with collRun := 0 }).linkFault n 3).settle)) ∧
    (s.linkOn n = true → (s.lk n).cur = none →
      exec (.linkStuck n) s = .next ((s.setF (Fd.LINK_STAT_LINELOW n) 1).linkFault n 1).settle) ∧
    (s.fb (Fd.LINK_SCAN_SCANEN n) = true → s.linkOn n = true → (s.lk n).nextRound ≤ s.ticks → ∃ u : State,
      u = (s.modLk n fun x => { x with nextRound := s.ticks + s.f (Fd.LINK_SCAN_PERIOD n) }).wakeUp ∧
      ((u.lk n).cursor = none → exec (.scanRoundStart n) s = .next ((u.roundBegin n).roundCheck n).settle) ∧
      ((u.lk n).cursor ≠ none → exec (.scanRoundStart n) s = .next (((u.incF (Fd.LINK_SCANSTAT_OVERRUN n)).ev
        (Fd.LINK_EVRAW_OVERRUN n)).modLk n fun x => { x with roundDue := true }).settle)) ∧
    (∀ c (u : State), (s.lk n).episode.contains c = false → u = s.modLk n (fun x => { x with episode := c :: x.episode }) →
      s.linkFault n c = ((u.setF (Fd.LINK_FAULTSTAT_LCAUSE n) c).ev (Fd.LINK_EVRAW_LFAULT n)).raise 29 c n) ∧
    (∀ c, (s.lk n).episode.contains c = true → s.linkFault n c = s)

/-- R269, R274, R282, R283, R288, R289, R293: what a reply does. One of the expected kind and epoch ends the transaction, its
errors and its misses, and completes the descriptor: a STATUS is stored and judged, an ACK of ROLE gives the point its role
and epoch, a NAK its reason, DATA its bytes, an IDENT_R makes an absent point arrive; a NAK_EPOCH is EPOCHNAK, a foreign
epoch FS30; a stale reply and a missing one are retried or end with NOREPLY; an unexpected kind is BADREPLY. -/
def Obligations.LinkReplies : Prop :=
  ∀ (s : State) (n : Fin 8) (x : LinkXact) (gp : Nat) (e : Fin 16) (t : State), s.power.ao = true → s.portUp = true →
    (s.lk n).cur = some x → x.replies = true → gp = gpOf n x.addr →
    t = ((s.xactEnd n).noteGood n).setPt gp Pt.MISS 0 →
    (∀ q d y, x.kind = kPoll → x.src = .desc q d → e.val = s.pt gp Pt.EPOCH → ∃ u : State,
      u = ((t.takeStatus n x.addr y).storeReply n x 0 y).xactDone n x 1 ∧
      exec (.statusReply n e false y) s = .next (u.afterXact n).settle ∧
      exec (.statusReply n e true y) s = .next (((u.ev (Fd.LINK_EVRAW_HOSTQ n))).afterXact n).settle) ∧
    (∀ out, x.kind = kGrant → e.val = s.pt gp Pt.EPOCH → exec (.ackReply n e out) s =
      .next (((t.storeReply n x 1 [BitVec.ofNat 8 (out.val % 8 * 32)]).xactDone n x 1).afterXact n).settle) ∧
    (∀ out, x.kind = kRole → e.val = x.epoch → ∃ u : State, u = (if t.pt gp Pt.PRES = 1 then t.setPt gp Pt.PRES 2 else t) ∧
      exec (.ackReply n e out) s = .next ((((((u.setPt gp Pt.ROLE (x.payload.headD 0).toNat).setPt gp Pt.EPOCH x.epoch).dropDue n x.addr).storeReply
        n x 1 [BitVec.ofNat 8 (out.val % 8 * 32)]).xactDone n x 1).afterXact n).settle) ∧
    (∀ q d r, x.src = .desc q d → e.val = s.pt gp Pt.EPOCH → exec (.nakReply n e r) s =
      .next ((State.xactDone (((t.incPt gp Pt.NAK).storeReply n x 2 [BitVec.ofNat 8 r.val]).setDs n q d Ds.RCODE r) n x 2).afterXact n).settle) ∧
    (∀ q d (u : State), x.src = .desc q d → u = (t.storeReply n x 3 []).xactDone n x 6 →
      (e.val ≠ 0 → exec (.nakEpochReply n e) s =
        .next (((u.pointFault n x.addr 3).modLk n fun l => { l with offs := l.offs ++ [x.addr] }).afterXact n).settle) ∧
      (e.val = 0 → u.pt gp Pt.PRES = 2 → exec (.nakEpochReply n e) s =
        .next (((u.leave n x.addr 3).arrive n x.addr 0 0 0).afterXact n).settle)) ∧
    (∀ y, x.kind = 0x8 → e.val = s.pt gp Pt.EPOCH → ∃ u : State, u = (t.storeReply n x 4 (y.take 8)).xactDone n x 1 ∧
      exec (.dataReply n e false y) s = .next (u.afterXact n).settle ∧
      exec (.dataReply n e true y) s = .next ((u.ev (Fd.LINK_EVRAW_HOSTQ n)).afterXact n).settle) ∧
    (∀ vn md sr (u : State), x.kind = kIdent → e.val = s.pt gp Pt.EPOCH →
      u = (if t.ptHere gp then t else t.arrive n x.addr vn.toNat md.toNat sr.toNat) → exec (.identRReply n e vn md sr) s =
      .next (((u.storeReply n x 5 (packBE [(vn.toNat, 2), (md.toNat, 2), (sr.toNat, 4)])).xactDone n x 1).afterXact n).settle) ∧
    (∀ y, x.kind = kPoll → e.val ≠ s.pt gp Pt.EPOCH → exec (.statusReply n e false y) s = exec (.badReply n .stale) s ∧
      exec (.badReply n .stale) s = .next (((((s.incPt gp Pt.STALE).incF (Fd.LINK_EPCNT_STALEREPLY n)).ev
        (Fd.LINK_EVRAW_STALE n)).attemptFailed n x)).settle) ∧
    exec (.replyTimeout n) s =
      .next (((s.incF (Fd.LINK_ERRCNT_NOREPLY n)).incPt gp Pt.NOREPLY).attemptFailed n x).settle ∧
    (∀ r : RxFrame, s.linkOn n = true → rxAccepted r = false → exec (.badReply n (.invalid r)) s =
      .next (((s.incF (Fd.LINK_ERRCNT_CRCERR n)).incPt gp Pt.CRCERR).attemptFailed n x).settle) ∧
    (∀ r : RxFrame, rxAccepted r = true → exec (.badReply n (.invalid r)) s = .next s.settle) ∧
    exec (.badReply n .unexpected) s =
      .next ((((((s.xactEnd n).noCollision n).noteError n x.addr).xactDone n x 12).missed n x.addr).afterXact n).settle ∧
    (∀ u : State, u = (s.xactEnd n).noCollision n → x.src ≠ .scan → x.src ≠ .probe → (u.lk n).closing = false →
      (x.tries < u.f (Fd.LINK_TIMING_RETRY n) →
        s.attemptFailed n x = u.modLk n fun l => { l with again := { x with tries := x.tries + 1 } :: l.again }) ∧
      (u.f (Fd.LINK_TIMING_RETRY n) ≤ x.tries →
        s.attemptFailed n x = (((u.noteError n x.addr).xactDone n x 3).missed n x.addr).afterXact n))

/-- R275, R276, R286, R287, R289, R290: control of a port. EN is stored and a port closed, or its enable refused on PL4–PL7 in
COMPACT; SHEDMASK takes new bits into the shed set; a push is refused with the first failing check's code or queues a READY
descriptor; a descriptor is written only while FREE or DONE; a latched grant that has become due is queued, or dropped when
stale. -/
def Obligations.LinkControl : Prop :=
  ∀ (s : State) (n : Fin 8), s.power.ao = true →
    (∀ w d, s.mayWrite w (Reg.LINK_CTRL n) = true →
      exec (.linkEnable w n d) s = .next (s.linkCtrlWrite n (d ||| 1)).settle ∧
      exec (.linkDisable w n d) s = .next (s.linkCtrlWrite n (d &&& ~~~ 1)).settle) ∧
    (∀ d, getBits d 0 1 = 1 → 4 ≤ n.val → s.fb Fd.SYS_CONFIG_CLASS = false →
      s.linkCtrlWrite n d = s.ev (Fd.LINK_EVRAW_REFUSED n)) ∧
    (∀ t : State, t = s.setFb (Fd.LINK_CTRL_EN n) false → s.fb (Fd.LINK_CTRL_EN n) = true →
      t.linkOn n = true ∨ (t.lk n).opening = true →
      (s.therm.holding = false → s.linkEnWrite n false = State.closeOn (State.modLk ((t.lk n).again.foldl (fun s x => s.dropAgain n x) t) n
        fun x => { x with closing := true, opening := false, again := [], resend := [] }) n) ∧
      (s.therm.holding = true → s.linkEnWrite n false = t)) ∧
    (∀ t : State, t = s.setFb (Fd.LINK_CTRL_EN n) true → s.linkEnWrite n true = t) ∧
    (∀ w (m : Fin 2) mask, s.mayWrite w (Reg.LINK_SHEDMASK n m + 0x400) = true → ∃ new : Word,
      new = mask &&& ~~~ s.rd (Reg.LINK_SHEDMASK n m) ∧
      (new ≠ 0 → exec (.shedmaskSet w n m mask) s =
        .next (State.settle ((s.orReg (Reg.LINK_SHEDMASK n m) new).abandon n 2))) ∧
      (new = 0 → exec (.shedmaskSet w n m mask) s = .next (s.orReg (Reg.LINK_SHEDMASK n m) 0).settle)) ∧
    (∀ w d c, s.mayWrite w (Reg.LINK_HOSTPUSH n) = true → s.pushCode n (getBits d 0 6) (s.rd (Reg.LINK_HOSTDESC n 0))
        (s.rd (Reg.LINK_HOSTDESC n 1)) (getBits d 7 1 == 1) = c → c = 1 ∨ c = 2 ∨ c = 3 ∨ c = 4 →
      exec (.hostpush w n d) s = .next (s.wr (Reg.LINK_HOSTRES n) (BitVec.ofNat 32 (0x80000000 + c))).settle) ∧
    (∀ w d, s.mayWrite w (Reg.LINK_HOSTPUSH n) = true → s.pushCode n (getBits d 0 6) (s.rd (Reg.LINK_HOSTDESC n 0))
        (s.rd (Reg.LINK_HOSTDESC n 1)) (getBits d 7 1 == 1) = 0 → ∃ r, r = s.push n (getBits d 0 6) (s.rd (Reg.LINK_HOSTDESC n 0))
          (s.rd (Reg.LINK_HOSTDESC n 1)) (s.rd (Reg.LINK_HOSTDESC n 2)) (s.rd (Reg.LINK_HOSTDESC n 3)) (getBits d 7 1 == 1) ∧
        exec (.hostpush w n d) s = .next (r.1.wr (Reg.LINK_HOSTRES n) (r.2 &&& 0x80003FFF)).settle) ∧
    (∀ a w0 w1 w2 w3 b q d (w : Word) (u : State), s.pushCode n a w0 w1 b = 0 → q = getBits w0 0 3 → d = (s.lk n).tail.getD q 0 →
      w = putBits (putBits (putBits (putBits (w0 &&& 0x0203C3F7) 24 1 (b2n b)) 18 6 a) 10 4 (s.pt (gpOf n a) Pt.EPOCH)) 26 2 1 →
      u = (((s.wr (descAddr n q d 0) w).wr (descAddr n q d 1) w1).wr (descAddr n q d 2) w2).wr (descAddr n q d 3) (w3 &&& 0xFFFF0000) →
      (q ≠ 0 → s.push n a w0 w1 w2 w3 b =
        (u.modLk n fun x => { x with tail := x.tail.setIfInBounds q ((d + 1) % 16) }, BitVec.ofNat 32 (slotOf n q d))) ∧
      (q = 0 → s.push n a w0 w1 w2 w3 b = (State.abandon (u.modLk n fun x =>
        { x with tail := x.tail.setIfInBounds 0 ((d + 1) % 16) }) n 3, BitVec.ofNat 32 (slotOf n 0 d)))) ∧
    (∀ w (q : Fin 8) (i : Fin 16) (j : Fin 4) d, s.mayWrite w (descAddr n q i j) = true →
      (s.ds n q i Ds.STATE = 1 ∨ s.ds n q i Ds.STATE = 2 → exec (.descriptorWrite w n q i j d) s = .next s.settle) ∧
      (s.ds n q i Ds.STATE = 0 ∨ s.ds n q i Ds.STATE = 3 → j.val = 1 ∨ j.val = 2 →
        exec (.descriptorWrite w n q i j d) s = .next (s.wr (descAddr n q i j) d).settle) ∧
      (s.ds n q i Ds.STATE = 0 ∨ s.ds n q i Ds.STATE = 3 → j.val = 3 → exec (.descriptorWrite w n q i j d) s =
        .next (s.wr (descAddr n q i 3) ((d &&& 0xFFFF0000) ||| (s.rd (descAddr n q i 3) &&& 0x0000FFFF))).settle)) ∧
    (∀ (a : Fin 64), s.portUp = true → s.pt (gpOf n a) Pt.PEND = 1 → s.pt (gpOf n a) Pt.OUTPUT = 0 → s.grantHeld n (gpOf n a) = false →
      (s.lk n).grants.contains a.val = false →
      (s.pt (gpOf n a) Pt.PEPOCH = s.pt (gpOf n a) Pt.EPOCH → exec (.grantLatchDue n a) s =
        .next ((s.modLk n fun x => { x with grants := x.grants ++ [a.val] }).wakeUp).settle) ∧
      (s.pt (gpOf n a) Pt.PEPOCH ≠ s.pt (gpOf n a) Pt.EPOCH → exec (.grantLatchDue n a) s =
        .next ((s.setPt (gpOf n a) Pt.PEND 0).incF (Fd.LINK_EPCNT_STALEDROP n)).settle))

/-! ## The ledger's operations, host operations and timers -/

/-- R310–R313, R315: what an operation answers. A refused LRES changes nothing, sets C and answers 0x80000000 + code: 1 when
disabled, 2 for B or the point out of range, 3 for an absent point; an accepted one fits in HEADROOM, makes the record RESERVED
with B mW, starts its timer and answers HEADROOM; LCOM commits a RESERVED record and sends its forecast, and is refused with code
10 otherwise, as LREL is of a record that is NONE; LREL frees the record and answers its power, 0 for a SHED one; a shed-scan
sheds points in its order until it has freed what is needed, each keeping its power in LASTMW and joining its port's shed set. -/
def Obligations.LedgerOps : Prop :=
  ∀ (s : State) (gp : Nat),
    (∀ mw c, s.lresCode gp mw = c → c ≠ 0 → s.lres gp mw = (s, ⟨BitVec.ofNat 32 (0x80000000 + c), none, true⟩)) ∧
    (∀ mw, s.lresCode gp mw = 0 → ∃ u a, s.lres gp mw = (u, a) ∧ a.c = false ∧ a.w7 = BitVec.ofInt 32 u.headroom ∧
      u.pt gp Pt.LSTATE = 1 ∧ u.pt gp Pt.RESMW = mw ∧ u.pt gp Pt.BPRIO = s.pt gp Pt.PRIO ∧ u.pt gp Pt.BGROUP = s.pt gp Pt.GROUP ∧
      u.resDue gp = some (s.ticks + msTicks (s.f Fd.LEDGER_RESTO_MS)) ∧
      ∀ x, x ≠ ptAddr gp 0x20 → u.rd x = s.rd x) ∧
    (∀ mw, (s.f Fd.LEDGER_CTRL_EN = 0 → s.lresCode gp mw = 1) ∧
      (s.f Fd.LEDGER_CTRL_EN = 1 → mw = 0 ∨ 65535 < mw → s.lresCode gp mw = 2) ∧
      (s.f Fd.LEDGER_CTRL_EN = 1 → 256 ≤ gp → s.fb Fd.SYS_CONFIG_CLASS = false → s.lresCode gp mw = 2) ∧
      (s.f Fd.LEDGER_CTRL_EN = 1 → 1 ≤ mw → mw ≤ 65535 → gp < 256 → s.pt gp Pt.PRES ≠ 2 → s.lresCode gp mw = 3) ∧
      (s.lresCode gp mw = 0 → (mw : Int) ≤ s.headroom ∧ s.effPrio ≤ s.pt gp Pt.PRIO ∧ s.pt gp Pt.GROUP < 14 ∧ 1 ≤ mw ∧ mw ≤ 65535)) ∧
    (∀ b u, gp < 512 → s.pt gp Pt.LSTATE = 1 →
      u = ((State.setResDue ((s.setPt gp Pt.LSTATE 2).setPt gp Pt.TSTAMP s.stamp) gp none).setPt gp Pt.PEAKMW 0) →
      (b = 4 → s.lcom gp b = (u, ⟨BitVec.ofNat 32 u.commitTotal, none, false⟩)) ∧
      (b < 4 → ∃ w v : State, w = u.setF (Fd.LEDGER_LOOP_FCMW_MW b) (satAdd (u.f (Fd.LEDGER_LOOP_FCMW_MW b)) (s.pt gp Pt.RESMW)) ∧
        v = (w.setLoop b { w.loop b with fcDue := w.halfUs + 2 * w.f Fd.LEDGER_PREARM_HOLD_US }).forecastIn b (s.pt gp Pt.RESMW) ∧ s.lcom gp b = (v, ⟨BitVec.ofNat 32 v.commitTotal, none, false⟩))) ∧
    (∀ b, s.pt gp Pt.LSTATE ≠ 1 ∨ 512 ≤ gp → s.lcom gp b = (s, ⟨0x8000000A, none, true⟩)) ∧
    (s.pt gp Pt.LSTATE = 0 ∨ 512 ≤ gp → s.lrel gp = (s, ⟨0x8000000A, none, true⟩)) ∧
    (gp < 512 → s.pt gp Pt.LSTATE = 1 ∨ s.pt gp Pt.LSTATE = 2 → ∃ u a, s.lrel gp = (u, a) ∧ a.c = false ∧
      a.w7 = BitVec.ofNat 32 (s.pt gp Pt.RESMW) ∧ u.pt gp Pt.LSTATE = 0 ∧ u.pt gp Pt.RESMW = 0 ∧ u.resDue gp = none ∧
      ∀ x, x ≠ ptAddr gp 0x20 → u.rd x = s.rd x) ∧
    (gp < 512 → s.pt gp Pt.LSTATE = 3 → ∃ u a, s.lrel gp = (u, a) ∧ a.c = false ∧ a.w7 = 0 ∧ u.pt gp Pt.LSTATE = 0 ∧
      u.resDue gp = none ∧ ∀ x, x ≠ ptAddr gp 0x20 → u.rd x = s.rd x) ∧
    (∃ w : State, w.pt gp Pt.LSTATE = 3 ∧ w.pt gp Pt.LASTMW = s.pt gp Pt.RESMW ∧ w.pt gp Pt.RESMW = 0 ∧
      s.shedPoint gp = (w.orReg (Reg.LINK_SHEDMASK (gp / 64) (gp % 64 / 32)) (bitAt (gp % 32))).abandon (gp / 64) 2) ∧
    (∀ need prio, s.shedOrder prio = [] → s.lshed need prio = (s, ⟨0, some 0, decide (0 < need)⟩)) ∧
    (∀ (need : Int) rest (freed n : Nat), need ≤ (freed : Int) → shedUntil need (gp :: rest) s freed n = (s, freed, n)) ∧
    (∀ (need : Int) rest (freed n : Nat), (freed : Int) < need →
      shedUntil need (gp :: rest) s freed n = shedUntil need rest (s.shedPoint gp) (freed + s.pt gp Pt.RESMW) (n + 1))

/-- R18, R312, R314, R316: operations of a host, and what falls due. A host's operation is carried out at once on a free
ledger, its results in HOSTRES and HOSTRESX with DONE, and waits in the queue otherwise; a B out of range completes with C;
the oldest waiting operation takes the ledger once it is free; a reservation is released after RESTO with RESEXP; a
forecast's hold ends with FCEND. -/
def Obligations.LedgerHost : Prop :=
  ∀ (s : State), s.power.ao = true →
    (∀ c k op u, s.HostOp c k op → u = s.setF Fd.LEDGER_HOSTRESX_DONE 0 →
      (s.ledgerFree = true →
        exec c s = .next ((u.ledgerRun op).1.hostAnswered (u.ledgerRun op).2).settle) ∧
      (s.ledgerFree = false → exec c s = .next (State.settle { u with eng := { s.eng with
        ledgerQ := s.eng.ledgerQ ++ [(.host, op)] } }))) ∧
    (∀ w p (u v : State), s.mayWrite w Reg.LEDGER_HOSTOP = true → u = s.setF Fd.LEDGER_HOSTRESX_DONE 0 →
      v = (if s.ledgerFree then u.ledgerJudge.hostAnswered
          ⟨u.rd Reg.LEDGER_HOSTRES, some (BitVec.ofNat 32 (u.f Fd.LEDGER_HOSTRESX_COUNT)), true⟩
        else { u with eng := { s.eng with ledgerQ := s.eng.ledgerQ ++ [(.host, .outside)] } }) →
      (∀ b : BitVec 3, 5 ≤ b.toNat → exec (.hostopLcom w p b) s = .next v.settle) ∧
      exec (.hostopLshed w p 7) s = .next v.settle) ∧
    (∀ op rest (u : State), s.portUp = true → s.eng.ledgerBusy = none → s.eng.ledgerQ = (.host, op) :: rest →
      u = { s with eng := { s.eng with ledgerQ := rest } } →
      exec .ledgerOpDequeue s = .next ((u.ledgerRun op).1.hostAnswered (u.ledgerRun op).2).settle) ∧
    (∀ op rest (u : State), s.portUp = true → s.eng.ledgerBusy = none → s.eng.ledgerQ = (.link, op) :: rest →
      u = { s with eng := { s.eng with ledgerQ := rest } } → exec .ledgerOpDequeue s = .next (u.ledgerRun op).1.settle) ∧
    (s.portUp = true → s.eng.ledgerBusy ≠ none → exec .ledgerOpDequeue s = .next s.settle) ∧
    (∀ (gp : Fin 512) due, s.portUp = true → s.resDue gp = some due → due ≤ s.ticks → s.pt gp Pt.LSTATE = 1 →
      exec (.reservationTimeout gp) s =
        .next (((s.releaseRecord gp).1.ev Fd.LEDGER_EVRAW_RESEXP).almanacBlock 3 3 gp (s.releaseRecord gp).2).settle) ∧
    (∀ gp : Fin 512, s.portUp = true → s.resDue gp = none → exec (.reservationTimeout gp) s = .next s.settle) ∧
    (∀ n : Fin 4, s.portUp = true → s.fb (Fd.LOOP_STAT_FCAST n) = true → (s.loop n).fcDue ≤ s.halfUs → exec (.forecastHoldEnd n) s =
      .next (((s.setF (Fd.LEDGER_LOOP_FCMW_MW n) 0).ev Fd.LEDGER_EVRAW_FCEND).forecastOut n).settle) ∧
    (∀ n : Fin 4, s.portUp = true → s.fb (Fd.LOOP_STAT_FCAST n) = false ∨ s.halfUs < (s.loop n).fcDue → exec (.forecastHoldEnd n) s = .next s.settle)

/-! ## Thermal -/

/-- R327–R337: a sample is judged, and a position that it finds at SHUT shuts the device down; a shut-down of an in-service
position turns every output off, raises FS5, counts, and writes its record, after which the device is held; a Thaw needs the
hold, an automatic one acts and is counted when it is ready, and the key acts when it is ready and does not act alone; Thaws an
hour old leave the window; limits are stored in order, a die SHUT within 125–150 °C. -/
def Obligations.Thermal : Prop :=
  (∀ (s : State), s.power.ao = true → s.power.state ≠ .off →
    (∀ die ends td t, t = s.thermalSample die ends td →
      (newShut s t = none → exec (.thermalSample die ends td) s = .next t.settle) ∧
      (∀ k, newShut s t = some k → exec (.thermalSample die ends td) s = .next (t.dieShutdown k).settle)) ∧
    (∀ (k : Fin 8) (u v : State), s.seq.hold = false → s.therm.holding = false → s.posIn k = true →
      u = (((s.outputsOff.haltAll).raise 5 0 k).setF Fd.THERM_STAT_TSD 1).incF Fd.THERM_TSDCNT_TOTAL →
      v = u.setRec { u.rflash with counters := { u.rflash.counters with
        dieShut := satInc (2 ^ 32 - 1) u.rflash.counters.dieShut } } →
      ∃ w : State, w = v.setTherm { v.therm with
          needKey := decide (v.f Fd.THERM_CTRL_THAWMAX ≤ min 15 v.thawsKept.length), holding := true } ∧
        exec (.dieShutdown k) s =
          .next ((w.recRing .shutdown .shutdown fun _ => w.tsdRecord k s.ho s.chg s.onMask).recStart).settle) ∧
    (∀ k : Fin 8, s.posIn k = false → exec (.dieShutdown k) s = .next s.settle) ∧
    (s.therm.holding = true → s.recPending .shutdown = false ∨ s.portUp = false → ∃ u : State, u = State.setTherm (((s.chipClear true).bootClocks).setF
        Fd.THERM_STAT_HELD 1) { (((s.chipClear true).bootClocks).setF Fd.THERM_STAT_HELD 1).therm with holding := false, cool := none } ∧
      exec .shutdownRecordWritten s = .next (State.settle (u.setSeq { u.seq with
        stage := .step2, step6 := false, rsto := false, rstoDue := none, reload := false, hold := true }))) ∧
    (s.therm.holding = false → exec .shutdownRecordWritten s = .next s.settle) ∧
    (s.thawReady = true → s.thawsAlone = true → exec .thawAuto s = .next s.countThaw.thaw.settle) ∧
    (s.seq.hold = false → exec .thawAuto s = .next s.settle)) ∧
  (∀ (s : State), s.power.ao = true →
    (∀ w (d : Word), s.mayWrite w Reg.THERM_THAW = true →
      (getBits d 0 16 = 0x7A4E → s.thawReady = true → s.thawsAlone = false → exec (.thawKey w d) s =
        .next (State.settle { s with resetReq := { s.resetReq with thaw := true } })) ∧
      (getBits d 0 16 ≠ 0x7A4E ∨ s.thawReady = false → exec (.thawKey w d) s = .next s.settle)) ∧
    (∃ l, l = s.therm.thaws.filter (fun t => decide (s.ticks < t + secTicks 3600)) ∧ exec .recentThawExpire s =
      .next ((s.setTherm { s.therm with thaws := l }).setF Fd.THERM_TSDCNT_RECENT (min 15 l.length)).settle) ∧
    (s.thawReady = true → s.seq.hold = true) ∧
    (∀ k, k < 16 → s.posIn k = true → k < 8)) ∧
  ∀ d b, signed 9 (getBits (limWord b d) 0 9) ≤ signed 9 (getBits (limWord b d) 9 9) ∧
    signed 9 (getBits (limWord b d) 9 9) ≤ signed 9 (getBits (limWord b d) 18 9) ∧
    signed 9 (getBits (limWord b d) 18 9) ≤ 150 ∧ (b = true → 125 ≤ signed 9 (getBits (limWord b d) 18 9)) ∧
    (b = false → -55 ≤ signed 9 (getBits (limWord b d) 0 9))

/-! ## Fault sources -/

/-- R343, R347–R349, R351, R354: a fault source. An ended source with AUTO = 1 enters LULL for ⌈LULL × 327.68⌉ AO ticks; a
Lull that expires counts a recovery, in a new window once WINDOW s have passed, and the source enters SQUALL when the count
exceeds RECMAX, IDLE otherwise; a clear has no effect while the condition holds, none on SQUALL from a row, and makes the
source IDLE otherwise; REACT takes its word and moves a source that AUTO concerns; HCLR empties the ring and leaves TOTAL;
the external fault input raises FS44 and ends it. -/
def Obligations.FaultSources : Prop :=
  (∀ (s : State) (k : Fin 48), s.power.ao = true → s.power.state ≠ .off →
    (∀ x u : State, x = (if k.val = 14 then s.setF Fd.CONV_STAT_SFLT 0 else s) →
      u = x.setSrc k { s.src k with live := false, hw := false } →
      (s.src k).live = true → (s.src k).hw = false ∨ k.val ≠ 4 ∧ k.val ≠ 6 ∧ k.val ≠ 7 ∧ k.val ≠ 44 →
      ((s.src k).st = .active → s.fb (Fd.FAULT_REACT_AUTO k) = true → exec (.faultEnded k) s =
        .next (State.settle (u.setSrc k { s.src k with
          live := false, hw := false, st := .lull, lullNext := false
          lullDue := s.ticks + divCeil (s.f (Fd.FAULT_RECOV_LULL k) * 32768) 100 }))) ∧
      ((s.src k).st ≠ .active ∨ s.fb (Fd.FAULT_REACT_AUTO k) = false → exec (.faultEnded k) s = .next u.settle)) ∧
    ((s.src k).live = false → exec (.faultEnded k) s = .next (State.settle (if k.val = 14 then s.setF Fd.CONV_STAT_SFLT 0 else s))) ∧
    ((s.src k).hw = true → k.val = 4 ∨ k.val = 6 ∨ k.val = 7 ∨ k.val = 44 → exec (.faultEnded k) s = .next s.settle) ∧
    (∀ w, (s.src k).st = .lull → (s.src k).lullDue ≤ s.ticks → (s.src k).window = some w →
      s.ticks - w < secTicks (s.f (Fd.FAULT_RECOV_WINDOW k)) →
      ((s.src k).rcnt + 1 ≤ s.f (Fd.FAULT_RECOV_RECMAX k) → exec (.lullExpire k) s = .next (State.settle
        (((s.wakeUp.setSrc k { s.src k with st := .idle, rcnt := (s.src k).rcnt + 1 }).history k histRecover
          (s.src k).cause (s.src k).detail none).ev Fd.FAULT_EVRAW_RECOVER))) ∧
      (s.f (Fd.FAULT_RECOV_RECMAX k) < (s.src k).rcnt + 1 → exec (.lullExpire k) s = .next (State.settle
        (((s.wakeUp.setSrc k { s.src k with st := .squall, rcnt := (s.src k).rcnt + 1 }).history k histSquall
          (s.src k).cause (s.src k).detail none).ev Fd.FAULT_EVRAW_SQUALL)))) ∧
    ((s.src k).st = .lull → (s.src k).lullDue ≤ s.ticks →
      (s.src k).window = none ∨ (∃ w, (s.src k).window = some w ∧ secTicks (s.f (Fd.FAULT_RECOV_WINDOW k)) ≤ s.ticks - w) →
      (1 ≤ s.f (Fd.FAULT_RECOV_RECMAX k) → exec (.lullExpire k) s = .next (State.settle
        (((s.wakeUp.setSrc k { s.src k with st := .idle, rcnt := 1, window := some s.ticks }).history k histRecover
          (s.src k).cause (s.src k).detail none).ev Fd.FAULT_EVRAW_RECOVER))) ∧
      (s.f (Fd.FAULT_RECOV_RECMAX k) = 0 → exec (.lullExpire k) s = .next (State.settle
        (((s.wakeUp.setSrc k { s.src k with st := .squall, rcnt := 1, window := some s.ticks }).history k histSquall
          (s.src k).cause (s.src k).detail none).ev Fd.FAULT_EVRAW_SQUALL)))) ∧
    ((s.src k).st ≠ .lull ∨ s.ticks < (s.src k).lullDue → exec (.lullExpire k) s = .next s.settle)) ∧
  (∀ (s : State), s.power.ao = true →
    (∀ w (i : Fin 2) (d : Word), s.mayWrite w (Reg.FAULT_CLEAR i) = true → exec (.faultClear w i d) s =
      .next (State.settle ((bitList (if i = 0 then 32 else 16) d.toNat).foldl (fun t j => t.clearSource (32 * i + j) (isHost w)) s))) ∧
    (∀ k h, (s.src k).st = .idle ∨ (s.src k).hw = true ∨ (s.src k).st = .squall ∧ h = false → s.clearSource k h = s) ∧
    (∀ k h, (s.src k).st = .active ∨ (s.src k).st = .lull → (s.src k).hw = false → s.clearSource k h =
      ((s.setSrc k { s.src k with st := .idle, live := false, lullNext := false }).history k histClear (s.src k).cause
        (s.src k).detail none).ev Fd.FAULT_EVRAW_CLEARED) ∧
    (∀ k, (s.src k).st = .squall → (s.src k).hw = false → s.clearSource k true =
      ((s.setSrc k { s.src k with st := .idle, live := false, lullNext := false, rcnt := 0, window := none }).history k histClear
        (s.src k).cause (s.src k).detail none).ev Fd.FAULT_EVRAW_CLEARED) ∧
    (∀ w (k : Fin 48) (d v : Word) (u : State), s.mayWrite w (Reg.FAULT_REACT k) = true → v = normWord 0x10 (0x100 + 4 * k) d →
      u = s.wr (Reg.FAULT_REACT k) (putBits (putBits (v &&& 0x7F) 0 2 (if getBits v 0 2 = 3 then 0 else getBits v 0 2)) 2 2
        (if getBits v 2 2 = 3 ∨ (getBits v 2 2 = 1 ∧ (blockOf k 0).isNone) then 0 else getBits v 2 2)) →
      (getBits v 0 2 = 2 → s.f (Fd.FAULT_REACT_NOTIFY k) ≠ 2 → (s.src k).st ≠ .idle →
        bit ((s.reactWrite k v).rd (nmiReg k)) (k % 32) = true ∧ exec (.reactWrite w k d) s = .next (s.reactWrite k v).settle) ∧
      (getBits v 0 2 ≠ 2 ∨ s.f (Fd.FAULT_REACT_NOTIFY k) = 2 ∨ (s.src k).st = .idle →
        (bit v 6 = true → (s.src k).st = .active → (s.src k).live = false →
          exec (.reactWrite w k d) s = .next (State.settle (u.setSrc k { s.src k with lullNext := true }))) ∧
        (bit v 6 = true → (s.src k).st ≠ .active ∨ (s.src k).live = true →
          exec (.reactWrite w k d) s = .next (State.settle (u.setSrc k (s.src k)))) ∧
        (bit v 6 = false → (s.src k).st = .lull →
          exec (.reactWrite w k d) s = .next (State.settle (u.setSrc k { s.src k with st := .active, lullNext := false }))) ∧
        (bit v 6 = false → (s.src k).st ≠ .lull →
          exec (.reactWrite w k d) s = .next (State.settle (u.setSrc k { s.src k with lullNext := false }))))) ∧
    (∀ p, s.mayWrite (.host p) Reg.FAULT_CTRL = true → exec (.historyClear p) s = .next s.historyClear.settle) ∧
    (s.historyClear.f Fd.FAULT_HISTSTAT_NUM = 0 ∧ s.historyClear.f Fd.FAULT_HISTSTAT_NEXT = 0 ∧
      s.historyClear.f Fd.FAULT_HISTSTAT_TOTAL = s.f Fd.FAULT_HISTSTAT_TOTAL ∧ ∀ j, j < 16 →
        s.historyClear.rd (Reg.FAULT_HISTW0 j) = 0 ∧ s.historyClear.rd (Reg.FAULT_HISTW1 j) = 0 ∧
        s.historyClear.rd (Reg.FAULT_HISTW2 j) = 0 ∧ s.historyClear.rd (Reg.FAULT_HISTW3 j) = 0) ∧
    (s.portUp = true → s.fb Fd.FAULT_EXTIN_EN = true → (s.src 44).hw = false →
      exec (.extFaultIn true) s = .next (s.raiseLevel 44 0 (s.f Fd.FAULT_EXTIN_PIN)).settle) ∧
    (s.portUp = true → s.fb Fd.FAULT_EXTIN_EN = true → (s.src 44).hw = true → exec (.extFaultIn true) s = .next s.settle) ∧
    (s.portUp = true → s.fb Fd.FAULT_EXTIN_EN = true →
      exec (.extFaultIn false) s = .next (State.settle (s.setSrc 44 { s.src 44 with hw := false }))) ∧
    (∀ a, s.portUp = true → s.fb Fd.FAULT_EXTIN_EN = false → exec (.extFaultIn a) s = .next s.settle) ∧
    (∀ w (d v : Word) (u : State), s.mayWrite w Reg.FAULT_EXTIN = true → v = normWord 0x10 0x68 d →
      u = s.wr Reg.FAULT_EXTIN (putBits (putBits (v &&& 0xCF0000FF) 24 4 (min 11 (getBits v 24 4))) 0 8 (max 1 (getBits v 0 8))) →
      (bit v 31 = false → exec (.extinWrite w d) s = .next (State.settle (u.setSrc 44 { s.src 44 with hw := false }))) ∧
      (bit v 31 = true → s.fb Fd.FAULT_EXTIN_EN = false → exec (.extinWrite w d) s = .next u.settle))) ∧
  (∀ (s : State) k cause detail hw origin, (s.src k).st ≠ .idle →
    (s.raiseFrom k cause detail hw origin).resetReq = s.resetReq ∧
    ((s.src k).st = .squall → ((s.raiseFrom k cause detail hw origin).src k).st = .squall) ∧
    ((s.src k).st ≠ .squall → ((s.raiseFrom k cause detail hw origin).src k).st = .active))

/-! ## Interrupts -/

/-- R357, R359–R361: pending bits. The controller takes an input in by its SENSE: the level modes follow it, RISING sets at a
rise, FALLING at a fall, BOTH at each; a clear writes its register back without the bits of its mask; a pending bit that falls
shuts the open group of a member for TICKS AO ticks, which then opens with HOLDEXP; an NMI clear lowers the bits of its mask; a
write of CFG that changes SENSE clears the pending bit, and one that does not keeps it. -/
def Obligations.Interrupts : Prop :=
  ∀ (s : State), s.power.ao = true →
    (∀ (i : Fin 96), s.portUp = true → s.pagesRun = true →
      exec (.intcSourceEdge i) s = .next (s.noteOutputs (s.takeIn i)).settle) ∧
    (∀ (i : Fin 96), s.portUp = true → s.pagesRun = false → exec (.intcSourceEdge i) s = .next s.settle) ∧
    (∀ (i : Nat) now was u, i < 48 ∨ 56 ≤ i → s.intc.pulse.contains i = false → now = s.inputLevel i →
      was = tget (fun _ => false) s.intc.prev i →
      u = ({ s with intc := { s.intc with prev := tset (fun _ => false) s.intc.prev i now
                                          pulse := s.intc.pulse.filter (· != i) } } : State) →
      (s.sense i = 0 → s.takeIn i = u.setIntPend i now) ∧ (s.sense i = 1 → s.takeIn i = u.setIntPend i (!now)) ∧
      (s.sense i = 2 → now = true → was = false → s.takeIn i = u.setIntPend i true) ∧
      (s.sense i = 2 → now = false ∨ was = true → s.takeIn i = u) ∧
      (s.sense i = 3 → now = false → was = true → s.takeIn i = u.setIntPend i true) ∧
      (s.sense i = 3 → now = true ∨ was = false → s.takeIn i = u) ∧
      (s.sense i = 4 → now ≠ was → s.takeIn i = u.setIntPend i true) ∧ (s.sense i = 4 → now = was → s.takeIn i = u)) ∧
    (∀ (i : Fin 96) b, (s.setIntPend i b).pend i = b) ∧
    (∀ (i : Fin 96) g n, s.pend i = true → bit (s.rd (cfgReg i)) 11 = true → g = getBits (s.rd (cfgReg i)) 8 3 →
      n = s.f (Fd.INTC_HOLDOFF_TICKS g) → n ≠ 0 → s.groupShut g = false →
      tget (fun _ => none) (s.setIntPend i false).intc.shutAt g = some (s.ticks + n)) ∧
    (∀ (i : Fin 96), bit (s.rd (cfgReg i)) 11 = false ∨ s.f (Fd.INTC_HOLDOFF_TICKS (getBits (s.rd (cfgReg i)) 8 3)) = 0 ∨
      s.groupShut (getBits (s.rd (cfgReg i)) 8 3) = true → (s.setIntPend i false).intc.shutAt = s.intc.shutAt) ∧
    (∀ w (mask : Word), s.mayWrite w (Reg.INTC_PEND0 + 0x800) = true →
      exec (.pendClear w 0 mask) s = .next (s.pendWrite 0 32 (s.rd Reg.INTC_PEND0 &&& ~~~ mask)).settle) ∧
    (∀ w (mask : Word), s.mayWrite w (Reg.INTC_PEND1 + 0x800) = true →
      exec (.pendClear w 1 mask) s = .next (s.pendWrite 32 32 (s.rd Reg.INTC_PEND1 &&& ~~~ mask)).settle) ∧
    (∀ (p : Proc) (mask : Word), s.mayWrite (.host p) (Reg.INTC_PPEND 0 + 0x800) = true → exec (.pendClear (.host p) 2 mask) s =
      .next (s.pendWrite (64 + 16 * procIx p) 16 (s.rd (Reg.INTC_PPEND (procIx p)) &&& ~~~ (mask &&& 0xFFFF))).settle) ∧
    (∀ t (i : Fin 2) (mask : Word), s.mayWrite (.row t) (Reg.INTC_PPEND i + 0x800) = true → ∃ j : Fin 4, j.val = 2 + i.val ∧
      exec (.pendClear (.row t) j mask) s =
        .next (s.pendWrite (64 + 16 * i) 16 (s.rd (Reg.INTC_PPEND i) &&& ~~~ (mask &&& 0xFFFF))).settle) ∧
    (∀ w (mask : Word), s.mayWrite w (Reg.INTC_NMIPEND0 + 0x800) = true → exec (.nmipendClear w 0 mask) s =
      .next (s.noteOutputs (s.wr Reg.INTC_NMIPEND0 (s.rd Reg.INTC_NMIPEND0 &&& ~~~ mask))).settle) ∧
    (∀ w (mask : Word), s.mayWrite w (Reg.INTC_NMIPEND1 + 0x800) = true → exec (.nmipendClear w 1 mask) s =
      .next (s.noteOutputs (s.wr Reg.INTC_NMIPEND1 (s.rd Reg.INTC_NMIPEND1 &&& ~~~ (mask &&& 0xFFFF)))).settle) ∧
    (∀ w (k : Fin 64) (d : Word), s.mayWrite w (Reg.INTC_CFG k) = true → ∃ i : Fin 96, i.val = k.val ∧
      exec (.intcCfgWrite w i d) s = .next (s.cfgWrite k (normWord 0x11 (0x100 + 4 * k) d)).settle) ∧
    (∀ (p : Proc) (k : Fin 16) (d : Word), s.mayWrite (.host p) (Reg.INTC_PCFG 0 k) = true → ∃ i : Fin 96, i.val = 64 + k.val ∧
      exec (.intcCfgWrite (.host p) i d) s =
        .next (s.cfgWrite (64 + 16 * procIx p + k) (normWord 0x11 (0x200 + 0x100 * procIx p + 4 * k) d)).settle) ∧
    (∀ t (k : Fin 32) (d : Word), s.mayWrite (.row t) (Reg.INTC_PCFG (k / 16) (k % 16)) = true → ∃ i : Fin 96, i.val = 64 + k.val ∧
      exec (.intcCfgWrite (.row t) i d) s =
        .next (s.cfgWrite (64 + k) (normWord 0x11 (0x200 + 0x100 * (k / 16) + 4 * (k % 16)) d)).settle) ∧
    (∀ (i : Fin 96) (v : Word), getBits v 0 3 = s.sense i → s.sense i ≤ 4 → s.cfgWrite i v =
      s.noteOutputs (s.wr (cfgReg i) (putBits (v &&& (if i.val < 64 then 0x00000F17 else 0x00000F07)) 0 3 (s.sense i)))) ∧
    (∀ (i : Fin 96) (v : Word), getBits v 0 3 ≠ s.sense i → 2 ≤ getBits v 0 3 → getBits v 0 3 ≤ 4 →
      (s.cfgWrite i v).sense i = getBits v 0 3 ∧ (s.cfgWrite i v).pend i = false) ∧
    (∀ (g : Fin 8) due u, s.portUp = true → s.pagesRun = true → tget (fun _ => none) s.intc.shutAt g = some due → due ≤ s.ticks →
      u = ({ s with intc := { s.intc with shutAt := tset (fun _ => none) s.intc.shutAt g none } } : State) →
      exec (.holdoffReopen g) s = .next ((s.noteOutputs u).ev Fd.INTC_EVRAW_HOLDEXP).settle) ∧
    (∀ (g : Fin 8) due, s.portUp = true → s.pagesRun = false → tget (fun _ => none) s.intc.shutAt g = some due → due ≤ s.ticks →
      exec (.holdoffReopen g) s = .next s.wakeUp.settle) ∧
    (∀ (g : Fin 8), s.portUp = true → (∀ due, tget (fun _ => none) s.intc.shutAt g = some due → s.ticks < due) →
      exec (.holdoffReopen g) s = .next s.settle)

/-! ## Records and flash -/

/-- R368–R373, R376–R378, R381, R390: record work. A command written while BUSY is 1 completes at once with BUSY;
READPAGE copies a page, TAILS queues both tails, SDWRITE queues an orderly SHUTDOWN record, TRIG triggers the Almanac, and
RESUME is NOTHELD unless it is HELD; POST ends in FROZEN and its copies; the copies' end is RUN or HELD; a program that
verifies commits its page, one that does not is retried over an erase, then remapped; below 6.0 V work is abandoned with
FS36. -/
def Obligations.Records : Prop :=
  (∀ (s : State), s.power.ao = true → s.portUp = true →
    (∀ w, s.mayWrite w Reg.RECORD_CMD = true → s.fb Fd.RECORD_STAT_BUSY = true →
      (∀ page, exec (.recordReadpage w page) s = .next (s.recCmdDone 1 0).settle) ∧
      exec (.recordTails w) s = .next (s.recCmdDone 1 0).settle ∧
      (∀ reason, exec (.recordSdwrite w reason) s = .next (s.recCmdDone 1 0).settle) ∧
      exec (.recordTrig w) s = .next (s.recCmdDone 1 0).settle ∧ exec (.recordResume w) s = .next (s.recCmdDone 1 0).settle) ∧
    (∀ w b, s.mayWrite w Reg.RECORD_CMD = true → s.fb Fd.RECORD_STAT_BUSY = false →
      b = ((s.wr Reg.RECORD_CMDRES 0).setF Fd.RECORD_STAT_BUSY 1) →
      (∀ page : BitVec 8, ∃ u : State, u = List.foldl (fun (t : State) i => t.wr (Reg.RECORD_BUF i)
          (wordBE (((s.rflash.pageBytes page.toNat 0 128).drop (4 * i)).take 4))) s (List.range 32) ∧
        exec (.recordReadpage w page) s = .next (u.recCmdDone 0 0).settle) ∧
      exec (.recordTails w) s = .next (b.queueTails .cmdTails).recStart.settle ∧
      (∀ reason : BitVec 8, exec (.recordSdwrite w reason) s = .next (State.settle (State.recStart
        (b.recRing .cmdShutdown .shutdown fun n => withCrc32c (packBE ([(0x4F, 1), (reason.toNat, 1), (n, 2), (s.chipTime, 8)] ++
          (List.range 12).map fun i => ((s.rd (Reg.RECORD_SDDATA i)).toNat, 4))))))) ∧
      exec (.recordTrig w) s = .next ((s.almanacTrigger 0x100).recCmdDone 0 0).settle ∧
      (s.f Fd.RECORD_STAT_ASTATE = 3 → exec (.recordResume w) s = .next (s.almanacRun.recCmdDone 0 0).settle) ∧
      (s.f Fd.RECORD_STAT_ASTATE ≠ 3 → exec (.recordResume w) s = .next (s.recCmdDone 5 0).settle)) ∧
    (∀ u, s.f Fd.RECORD_STAT_ASTATE = 1 → s.almanac.postLeft = 0 ∨ s.almanac.postDue ≤ s.ticks →
      u = s.setF Fd.RECORD_STAT_ASTATE 2 → exec .almanacFreeze s = .next (State.settle (State.recStart (State.queueTails
        { u with almanac := { s.almanac with lostAt := s.f Fd.RECORD_ASTAT_LOST, archWait := true } } .freeze)))) ∧
    (s.f Fd.RECORD_STAT_ASTATE ≠ 1 → exec .almanacFreeze s = .next s.settle) ∧
    (∀ u v : State, s.f Fd.RECORD_STAT_ASTATE = 2 → s.recPending .freeze = false → s.almanac.archWait = false → s.archiving = false →
      u = (s.ev Fd.RECORD_EVRAW_FROZEN).pulse 63 →
      v = (u.setRec { u.rflash with counters := { u.rflash.counters with
        freezes := satInc (2 ^ 32 - 1) u.rflash.counters.freezes } }).recCounters.recStart →
      (v.fb Fd.RECORD_CTRL_AUTORESUME = true → exec .freezeCopyDone s = .next v.almanacRun.settle) ∧
      (v.fb Fd.RECORD_CTRL_AUTORESUME = false → exec .freezeCopyDone s = .next (v.setF Fd.RECORD_STAT_ASTATE 3).settle)) ∧
    (s.f Fd.RECORD_STAT_ASTATE ≠ 2 ∨ s.recPending .freeze = true ∨ s.almanac.archWait = true ∨ s.archiving = true →
      exec .freezeCopyDone s = .next s.settle) ∧
    (∀ t, s.xflash.mirSince = some t → s.mirroring = true → s.unmirrored < 8 → t + msTicks (s.f Fd.RECORD_LCFG_FLUSH) ≤ s.ticks →
      exec .logbookFlush s = .next (State.settle { s with xflash := { s.xflash with mirFlush := true } })) ∧
    (s.xflash.mirSince = none ∨ s.mirroring = false ∨ 8 ≤ s.unmirrored → exec .logbookFlush s = .next s.settle)) ∧
  (∀ (s : State), s.power.ao = true →
    (∀ o u, s.rflash.busy = some o → o.erase = false → u = State.setRec s { s.rflash with
        busy := none, cells := putCells s.rflash.cells (128 * s.rflash.phys o.page + o.off) o.data } →
      (∀ j, o.job = some j → exec (.recordProgramDone true) s = .next (u.recAdvance j).recStart.settle) ∧
      (o.job = none → exec (.recordProgramDone true) s = .next u.recStart.settle)) ∧
    (∀ o t, s.rflash.busy = some o → o.erase = false → t = ({ s with
        rflash := { s.rflash with cells := putCells s.rflash.cells (128 * s.rflash.phys o.page + o.off) (tornBytes s.freeCtr o.data.length) }
        freeCtr := s.freeCtr + o.data.length } : State) →
      (o.retry = false → exec (.recordProgramDone false) s =
        .next (t.recGoOn ⟨true, o.page, 0, s.rflash.intended o, true, o.job⟩).recStart.settle) ∧
      (o.retry = true → exec (.recordProgramDone false) s = .next (t.recWorn o).recStart.settle)) ∧
    (∀ ok, s.rflash.busy = none → exec (.recordProgramDone ok) s = .next s.settle) ∧
    (∀ o (r : RecFlash), s.rflash.busy = some o → o.erase = true →
      r = { s.rflash with
        cells := eraseCells s.rflash.cells (s.rflash.phys o.page)
        counters := s.rflash.counters.countErase o.page
        eraseDue := s.rflash.eraseDue.filter (· != o.page)
        busy := none } →
      (o.retry = true → exec .recordEraseDone s = .next (State.settle (State.recStart ((s.setRec r).recGoOn
        ⟨false, o.page, 0, o.data, true, o.job⟩)))) ∧
      (∀ j, o.retry = false → o.job = some j → exec .recordEraseDone s = .next (State.settle (State.recStart (s.setRec
        { r with queue := { j with erased := true } :: r.queue })))) ∧
      (o.retry = false → o.job = none → exec .recordEraseDone s = .next (s.setRec r).recStart.settle)) ∧
    (s.rflash.busy = none → exec .recordEraseDone s = .next s.settle) ∧
    (∀ o, 6000 ≤ s.plant.vhold.getD 8000 → s.recGoOn o = s.setRec { s.rflash with busy := some o }) ∧
    (s.pagesRun = false → s.recStart = s) ∧
    (∀ j, s.portUp = true → s.pagesRun = true → s.rflash.busy = none → s.rflash.queue = [j] → j.free s.rflash = true →
      (6000 ≤ s.plant.vhold.getD 8000 → s.recStart = s.setRec { s.rflash with queue := [], busy := some (j.op s.rflash) }) ∧
      (s.plant.vhold.getD 8000 < 6000 → s.recStart =
        recStartN 1 ((State.recLost (s.setRec { s.rflash with queue := [] }) j 2).storeFail)))) ∧
  ∀ (s : State) c n, c < 8 → (s.recCmdDone c n).f Fd.RECORD_CMDRES_CODE = c ∧ (s.recCmdDone c n).fb Fd.RECORD_CMDRES_DONE = true ∧
    ((s.recCmdDone c n).fb Fd.RECORD_CMDRES_ERR = true ↔ c ≠ 0)

/-- R383, R387–R389: the flash port. A host command that R388 refuses completes at once with its code, another becomes the
first of the queue; no work is taken up while EN is 0, outside FULL, during discovery or while a load reads; a host command
starts on its free chip select; an operation that completes is committed, one that fails verification or exceeds its
timeout raises FS37 and its job is abandoned; discovery runs at REDISC with EN = 1 and once owed. -/
def Obligations.FlashPort : Prop :=
  (∀ (s : State), s.power.ao = true →
    (∀ w op (len : BitVec 9) c a n o, s.mayWrite w Reg.FLASH_HCMD = true →
      (op = 1 ∧ c = .flashHostRead w len ∧ a = s.f Fd.FLASH_HADDR_ADDR ∧ n = clampNat 1 256 len.toNat ∧
        o = .read (s.f Fd.FLASH_HADDR_CS) a n) ∨
      (op = 2 ∧ c = .flashHostProgram w len ∧ a = s.f Fd.FLASH_HADDR_ADDR ∧ n = clampNat 1 256 len.toNat ∧
        o = .prog (s.f Fd.FLASH_HADDR_CS) a (s.flashBuf n)) ∨
      (op = 3 ∧ c = .flashHostErase w len ∧ a = s.f Fd.FLASH_HADDR_ADDR / 4096 * 4096 ∧ n = 4096 ∧
        o = .erase (s.f Fd.FLASH_HADDR_CS) a) →
      (∀ code, s.hostFlashCode op (s.f Fd.FLASH_HADDR_CS) a n = code → code ≠ 0 →
        exec c s = .next (s.hostFlashEnd (hostOf w) code).settle) ∧
      (s.hostFlashCode op (s.f Fd.FLASH_HADDR_CS) a n = 0 → ∃ u : State, u = (s.wr Reg.FLASH_HRES 0).setF Fd.FLASH_STAT_BUSY 1 ∧
        exec c s = .next (State.settle (u.setX { s.xflash with queue := ⟨.host (hostOf w), [o], 0⟩ :: s.xflash.queue })))) ∧
    (∀ op cs a n, (s.fb Fd.FLASH_STAT_BUSY = true → s.hostFlashCode op cs a n = 6) ∧
      (s.fb Fd.FLASH_STAT_BUSY = false → s.csPresent cs = false ∨ s.f Fd.FLASH_CTRL_EN = 0 → s.hostFlashCode op cs a n = 1) ∧
      (s.fb Fd.FLASH_STAT_BUSY = false → s.csPresent cs = true → s.f Fd.FLASH_CTRL_EN ≠ 0 → s.csSize cs < a + n →
        s.hostFlashCode op cs a n = 2) ∧
      (∀ id, s.hostFlashCode op cs a n = 0 → op ≠ 1 → id = 3 ∨ id = 4 ∨ id = 5 ∨ id = 6 → s.touches id cs a n = false)) ∧
    (∀ w (d : Word) u, s.mayWrite w Reg.FLASH_CTRL = true → u = s.wr Reg.FLASH_CTRL (d &&& 3) →
      (bit d 0 = true → exec (.flashRediscover w d) s = .next (State.settle (u.setX { s.xflash with disc := true, discDone := true }))) ∧
      (bit d 0 = true → exec (.flashEnWrite w d) s = .next u.discStart.settle) ∧
      (bit d 0 = false → exec (.flashRediscover w d) s = .next u.hostAbsent.settle ∧
        exec (.flashEnWrite w d) s = .next u.hostAbsent.settle))) ∧
  (∀ (s : State), s.power.ao = true → s.portUp = true →
    (s.f Fd.FLASH_CTRL_EN = 0 ∨ s.power.state ≠ .full ∨ s.xflash.disc = true ∨ s.loadReads = true →
      exec .flashWorkStart s = .next s.settle) ∧
    (∀ by' o rest, s.f Fd.FLASH_CTRL_EN ≠ 0 → s.power.state = .full → s.xflash.disc = false → s.loadReads = false →
      s.xflash.queue = ⟨.host by', [o], 0⟩ :: rest → s.xflash.busy o.cs = none → exec .flashWorkStart s =
        .next (State.settle (s.setX ((XFlash.setBusy { s.xflash with queue := rest } o.cs (some ⟨.host by', [o], 0⟩)).begin o.cs s.ticks)))) ∧
    (∀ (cs : Fin 2) ok, s.xflash.busy cs = none → exec (.flashOpDone cs ok) s = .next s.settle) ∧
    (∀ (cs : Fin 2) by' o (u : State), s.xflash.busy cs = some ⟨.host by', [o], 0⟩ → u = s.setX (s.xflash.setBusy cs none) →
      exec (.flashOpDone cs true) s =
        .next (((u.flashCommit o).setF Fd.FLASH_STAT_BUSY 0).hostFlashEnd by' 0).settle ∧
      (∀ v : State, v = s.xflashTorn cs →
        (∀ c a data, o = .prog c a data → exec (.flashOpDone cs false) s = .next (State.settle (State.flashFail (State.hostFlashEnd
          ((v.setX (v.xflash.setBusy cs none)).setF Fd.FLASH_STAT_BUSY 0) by' 5) 4))) ∧
        (∀ t, s.flashLimit o = some t → s.xflash.since cs + t ≤ s.ticks → exec (.flashOpTimeout cs) s = .next (State.settle
          (State.flashFail (State.hostFlashEnd ((v.setX (v.xflash.setBusy cs none)).setF Fd.FLASH_STAT_BUSY 0) by' 4) 3)))) ∧
      (∀ t, s.flashLimit o = some t → s.ticks < s.xflash.since cs + t → exec (.flashOpTimeout cs) s = .next s.settle) ∧
      (s.flashLimit o = none → exec (.flashOpTimeout cs) s = .next s.settle)) ∧
    ((∀ c a n, s.flashLimit (.read c a n) = none) ∧ (∀ c a d, s.flashLimit (.prog c a d) = some (msTicks (s.f Fd.FLASH_TMO_PROG))) ∧
      ∀ c a, s.flashLimit (.erase c a) = some (msTicks (s.f Fd.FLASH_TMO_ERASE))) ∧
    (∀ (cs : Fin 2), s.xflash.busy cs = none → exec (.flashOpTimeout cs) s = .next s.settle) ∧
    (s.fb Fd.SYS_STAT_READY = true → s.power.state = .full → s.xflash.discDone = false → s.fb Fd.FLASH_CTRL_EN = true →
      exec .flashDiscoveryStart s = .next (State.settle (s.setX { s.xflash with disc := true, discDone := true }))) ∧
    (s.fb Fd.SYS_STAT_READY = false ∨ s.power.state ≠ .full ∨ s.xflash.discDone = true ∨ s.fb Fd.FLASH_CTRL_EN = false →
      exec .flashDiscoveryStart s = .next s.settle) ∧
    (∀ c0 c1, s.xflash.disc = true → s.fb Fd.FLASH_CTRL_EN = true → s.power.state = .full →
      exec (.flashDiscoveryDone c0 c1) s = .next (s.discFinish c0 c1).settle) ∧
    (∀ c0 c1, s.xflash.disc = false ∨ s.fb Fd.FLASH_CTRL_EN = false ∨ s.power.state ≠ .full → exec (.flashDiscoveryDone c0 c1) s = .next s.settle)) ∧
  (∀ x : Sfdp, (x.log2 < 24 → usedDensity (some x) = none) ∧
    (24 < x.log2 → x.addr3 = true → usedDensity (some x) = some (24, true)) ∧
    (26 < x.log2 → x.addr3 = false → usedDensity (some x) = some (26, true)) ∧
    (24 ≤ x.log2 → x.log2 ≤ 26 → x.addr3 = false → usedDensity (some x) = some (x.log2, false))) ∧
  ∀ (s : State) cs a o, o = .erase cs a → ∀ k, k / 4096 ≠ xKey cs a / 4096 →
    tget erasedCell (s.flashCommit o).xflash.cells k = tget erasedCell s.xflash.cells k

/-! ## One-time-programmable memory -/

/-- R394, R398, R399, R405–R408: OTP commands. One at a time: a command written while BUSY is 1 completes at once with BUSY;
a refused one completes with its code and changes nothing (REPAIR without a spare raises FS47); an accepted one takes the
controller until it completes. LOCK's judging reads its region, so corrections are counted and an uncorrectable word raises
FS39 (R393). PROGRAM only adds bits, LOCK blows the three fuses, READ brings its word into RDATA; RLOCK and
WLOCK bits are set and never cleared; a shadow write replaces one word, counted in OVR, until OVRCLR. -/
def Obligations.OtpCommands : Prop :=
  ∀ (s : State), s.power.ao = true →
    (∀ c w op m key arg (u : State), OtpCommand c w op m key arg → s.mayWrite w Reg.OTP_CMD = true → u = s.setF Fd.OTP_RES_DONE 0 →
      (s.otp.cmd ≠ none ∨ s.otpLoading = true → exec c s = .next (u.otpEnd (hostOf w) 1 false false none).settle) ∧
      (s.otp.cmd = none → s.otpLoading = false → u.otpRefuse op arg key (s.rd Reg.OTP_DATA) = 0 → exec c s =
        .next (State.settle (State.otpBusy ((u.otpJudge op arg 0).setOtp
          { (u.otpJudge op arg 0).otp with cmd := some ⟨op, min 2 m, arg, s.rd Reg.OTP_DATA, hostOf w⟩ })))) ∧
      (∀ code, s.otp.cmd = none → s.otpLoading = false → u.otpRefuse op arg key (s.rd Reg.OTP_DATA) = code → code ≠ 0 → code ≠ 9 →
        exec c s = .next ((u.otpJudge op arg code).otpEnd (hostOf w) code false false none).settle) ∧
      (s.otp.cmd = none → s.otpLoading = false → u.otpRefuse op arg key (s.rd Reg.OTP_DATA) = 9 →
        exec c s = .next ((u.spareGone 4).otpEnd (hostOf w) 9 false false none).settle)) ∧
    (∀ op arg key d, (op = 2 ∨ op = 3 ∨ op = 4 → key ≠ 0xB7 → s.otpRefuse op arg key d = 11) ∧
      ((s.f Fd.OTP_RLOCK_REGION).testBit (regionOfWord arg) = true → s.otpRefuse 1 arg key d = 10) ∧
      ((s.f Fd.OTP_RLOCK_REGION).testBit (regionOfWord arg) = false → s.otpRefuse 1 arg key d = 0) ∧
      (arg < 192 ∨ s.otp.locked (regionOfWord arg) = true ∨ (s.f Fd.OTP_WLOCK_REGION).testBit (regionOfWord arg) = true →
        s.otpRefuse 2 arg 0xB7 d = 3) ∧
      (s.otpRefuse 2 arg key d = 0 → 192 ≤ arg ∧ 12000 ≤ s.plant.vin.getD 0 ∧
        s.otpRaw arg &&& (otpEncode d ^^^ (2 ^ 39 - 1)) = 0) ∧
      (s.otpRefuse 3 arg key d = 0 → arg ≤ 6 ∧ s.otp.locked arg = false ∧ ∃ ws, s.regionWords arg = some ws ∧ closingGood ws = true)) ∧
    (s.portUp = true → s.otp.cmd = none → ∀ o, exec (.otpCmdComplete o) s = .next s.settle) ∧
    (∀ c o (u : State), s.portUp = true → s.otp.cmd = some c → u = State.otpBusy (s.setOtp { s.otp with cmd := none }) →
      (∀ d, c.op = 1 → c.margin = 0 → u.otpValue o c.arg = some (d, false) →
        exec (.otpCmdComplete o) s = .next ((u.wr Reg.OTP_RDATA d).otpEnd c.by' 0 false false none).settle) ∧
      (∀ d, c.op = 1 → c.margin = 0 → u.otpValue o c.arg = some (d, true) → exec (.otpCmdComplete o) s =
        .next (((u.incF Fd.OTP_ECC_CORR).wr Reg.OTP_RDATA d).otpEnd c.by' 0 false true none).settle) ∧
      (c.op = 1 → u.otpValue o c.arg = none → exec (.otpCmdComplete o) s = .next
        ((((u.incF Fd.OTP_ECC_UNCORR).ev Fd.OTP_EVRAW_UNCORR).raise 39 0 (c.arg / 8)).otpEnd c.by' 7 false false none).settle) ∧
      (c.op = 2 → o.lowv = none → o.fails = none → u.redirOf (c.arg / 8) = none → exec (.otpCmdComplete o) s =
        .next (State.settle (State.otpEnd (u.setOtp (u.otp.burn c.arg (otpEncode c.data))) c.by' 0 false false (some o.pulses)))) ∧
      (c.op = 3 → o.fails = none → exec (.otpCmdComplete o) s = .next (State.settle (State.otpEnd (State.otpStat (u.setOtp
        (((u.otp.blow c.arg 0).blow c.arg 1).blow c.arg 2))) c.by' 0 false false none))) ∧
      (c.op = 4 → exec (.otpCmdComplete o) s = .next (u.otpRepairEnd c o).settle) ∧
      (c.op = 5 → exec (.otpCmdComplete o) s = .next (u.otpCheckEnd c o).settle) ∧
      (∀ v, c.op = 6 → v = s.applyRecords s.bootRecords → v.otp.cmd = some c → exec (.otpCmdComplete o) s = .next (State.settle
        (State.otpEnd (State.otpBusy (v.setOtp { v.otp with cmd := none })) c.by' 0 false false none)))) ∧
    (∀ (o : Otp) w b r, (o.burn w b).pattern w = o.pattern w ||| b ∧
      (((o.blow r 0).blow r 1).blow r 2).locked r = true) ∧
    (∀ w (d : Word), s.mayWrite w Reg.OTP_RLOCK = true →
      exec (.otpRlockWrite w d) s = .next (s.orReg Reg.OTP_RLOCK (d &&& 0x7F)).settle) ∧
    (∀ w (d : Word), s.mayWrite w Reg.OTP_WLOCK = true →
      exec (.otpWlockWrite w d) s = .next (s.orReg Reg.OTP_WLOCK (d &&& 0x7F)).settle) ∧
    (∀ w (i : Fin 320) d l (u : State), s.mayWrite w (0x150300 + 4 * i) = true → s.shadowLocked = false →
      l = (if s.otp.overridden.contains (192 + i.val) then s.otp.overridden else (192 + i.val) :: s.otp.overridden) →
      u = s.setMemWord (0x150300 + 4 * i) d →
      exec (.shadowWrite w i d) s = .next (State.settle ((u.setOtp { s.otp with overridden := l }).setF Fd.OTP_STAT_OVR l.length))) ∧
    (∀ w (i : Fin 320) d, s.shadowLocked = true → exec (.shadowWrite w i d) s = .next s.settle) ∧
    (∀ w, s.mayWrite w Reg.OTP_CTRL = true → exec (.overrideClear w) s = .next s.overrideClear.settle) ∧
    s.overrideClear.otp.overridden = [] ∧ s.overrideClear.f Fd.OTP_STAT_OVR = 0

/-! ## Timers and CRC -/

/-- R411–R416: timers. A counted increment adds one, or returns to 0 after CMP0 with WRAP = 1, and matches each compare that
it then equals, which sets the timer's EVRAW bit; the phase that an increment leaves is below one source edge; a capture
enters a queue of 8, or is dropped and counted; SNAP, POP, LOAD and CLRQ act on the writer's bank, the counter and the
queue. -/
def Obligations.Timers : Prop :=
  (∀ (s : State) (n : Fin 4), s.power.ao = true → s.portUp = true →
    (∀ c u, s.fb (Fd.TIMER_TCFG_EN n) = true → s.sourceRuns n = true →
      (s.fb (Fd.TIMER_TCFG_WRAP n) = true → (s.tm n).count = s.cmpOf n 0 → c = 0) →
      (s.fb (Fd.TIMER_TCFG_WRAP n) = false ∨ (s.tm n).count ≠ s.cmpOf n 0 → c = ((s.tm n).count + 1) % 2 ^ 64) →
      u = s.setTm n { s.tm n with count := c, phase := nextPhase (s.tm n).phase (s.f (Fd.TIMER_DIV_DIV n)) } →
      (c ≠ s.cmpOf n 0 → c ≠ s.cmpOf n 1 → exec (.timerIncrement n) s = .next u.settle) ∧
      (c = s.cmpOf n 0 → c ≠ s.cmpOf n 1 → exec (.timerIncrement n) s = .next (u.timerMatch n 0).settle) ∧
      (c ≠ s.cmpOf n 0 → c = s.cmpOf n 1 → exec (.timerIncrement n) s = .next (u.timerMatch n 1).settle) ∧
      (c = s.cmpOf n 0 → c = s.cmpOf n 1 → exec (.timerIncrement n) s = .next ((u.timerMatch n 0).timerMatch n 1).settle)) ∧
    (s.fb (Fd.TIMER_TCFG_EN n) = false ∨ s.sourceRuns n = false → exec (.timerIncrement n) s = .next s.settle) ∧
    (∀ x, x < 2 → bit ((s.timerMatch n x).rd Reg.TIMER_EVRAW) (4 * n + x) = true) ∧
    (∀ r late, s.fb (Fd.TIMER_TIO_CAPEN n) = true → s.f (Fd.TIMER_TIO_CEDGE n) = 3 ∨ s.f (Fd.TIMER_TIO_CEDGE n) = (if r then 1 else 2) →
      s.power.wakeRuns = true → s.seq.hold = false →
      ((s.tm n).queue.length < 8 → exec (.timerCapture n r late) s = .next (State.settle
        ((s.setTm n { s.tm n with queue := (s.tm n).queue ++ [((s.tm n).count, late)] }).timerEvent n 2))) ∧
      (8 ≤ (s.tm n).queue.length → exec (.timerCapture n r late) s =
        .next (State.settle ((s.incF (Fd.TIMER_TSTAT_QOVF n)).timerEvent n 3)))) ∧
    (∀ r late, s.fb (Fd.TIMER_TIO_CAPEN n) = false ∨ s.f (Fd.TIMER_TIO_CEDGE n) = 0 ∨ s.power.wakeRuns = false →
      exec (.timerCapture n r late) s = .next s.settle)) ∧
  (∀ (s : State) (n : Fin 4) w, s.power.ao = true → s.mayWrite w (Reg.TIMER_CMD n) = true →
    exec (.timerSnap w n) s = .next (State.settle (s.setTm n { s.tm n with
      banks := (s.tm n).banks.set (bankIx w) ((s.tm n).count, 3) })) ∧
    (∀ v late rest, (s.tm n).queue = (v, late) :: rest → exec (.timerPop w n) s = .next (State.settle (s.setTm n { s.tm n with
      queue := rest, banks := (s.tm n).banks.set (bankIx w) (v, if late then 13 else 5) }))) ∧
    ((s.tm n).queue = [] → exec (.timerPop w n) s = .next (State.settle (s.setTm n { s.tm n with
      banks := (s.tm n).banks.set (bankIx w) ((s.tm n).banks[bankIx w].1, 0) }))) ∧
    exec (.timerLoad w n) s = .next (State.settle (s.setTm n { s.tm n with
      phase := 0, count := (s.rd (Reg.TIMER_LOAD_HI n)).toNat * 2 ^ 32 + (s.rd (Reg.TIMER_LOAD_LO n)).toNat })) ∧
    exec (.timerClrq w n) s = .next (State.settle (s.setTm n { s.tm n with queue := [] }))) ∧
  ∀ p d, p < d → nextPhase p d < 65536 ∧ (nextPhase p d + d - p) % 65536 = 0

/-- R420–R423: the CRC unit. Feeds and CTRL writes enter a queue of 8 in order, and one that finds it full is dropped with
OVF; a feed runs its bytes through the algorithm, most significant byte first, and INIT sets the algorithm's initial value;
a write from anyone but the owner sets FOREIGN; OWNER is claimed only while it is 0, and released by its owner or a host;
each algorithm gives the check value of its row over "123456789". -/
def Obligations.CrcFeeds : Prop :=
  (∀ (s : State) (u : Writer → State) w, s.power.ao = true →
    (∀ w, (s.f Fd.CRC_OWNER_ID = 0 ∨ s.f Fd.CRC_OWNER_ID = ownerId w → u w = s) ∧
      (s.f Fd.CRC_OWNER_ID ≠ 0 → s.f Fd.CRC_OWNER_ID ≠ ownerId w → u w = s.setF Fd.CRC_STAT_FOREIGN 1)) →
    (∀ d : Word, s.mayWrite w Reg.CRC_CTRL = true →
      (s.crc.queue.length < 8 → exec (.crcInit w d) s = .next (State.settle (State.setF (State.setCrc (u w)
        { s.crc with queue := s.crc.queue ++ [.init (getBits d 0 2)] }) Fd.CRC_CTRL_POLY (getBits d 0 2)))) ∧
      (8 ≤ s.crc.queue.length → exec (.crcInit w d) s = .next (((u w).setF Fd.CRC_STAT_OVF 1).ev Fd.CRC_EVRAW_OVF).settle)) ∧
    (∀ (d : Word) c k n, (c = .crcDin8 w d ∧ k = Reg.CRC_DIN8 ∧ n = 1) ∨ (c = .crcDin16 w d ∧ k = Reg.CRC_DIN16 ∧ n = 2) ∨
        (c = .crcDin32 w d ∧ k = Reg.CRC_DIN32 ∧ n = 4) → s.mayWrite w k = true →
      (s.crc.queue.length < 8 → exec c s = .next (State.settle (State.setCrc (u w)
        { s.crc with queue := s.crc.queue ++ [.feed (bytesBE n d.toNat)] }))) ∧
      (8 ≤ s.crc.queue.length → exec c s = .next (((u w).setF Fd.CRC_STAT_OVF 1).ev Fd.CRC_EVRAW_OVF).settle)) ∧
    (∀ rest, s.portUp = true → s.power.wakeRuns = true →
      (∀ bs, s.crc.queue = .feed bs :: rest → exec .crcQueueApply s = .next (State.settle (s.setCrc { s.crc with
        queue := rest, value := bs.foldl (crcFeed s.crc.poly) s.crc.value }))) ∧
      (∀ p, s.crc.queue = .init p :: rest → exec .crcQueueApply s = .next (State.settle (s.setCrc ⟨p, crcInit p, rest⟩)))) ∧
    (s.portUp = true → s.crc.queue = [] ∨ s.power.wakeRuns = false → exec .crcQueueApply s = .next s.settle) ∧
    (∀ d : Word, s.mayWrite w Reg.CRC_OWNER = true →
      (getBits d 0 8 = ownerId w → ownerId w ≠ 0 → s.f Fd.CRC_OWNER_ID = 0 →
        exec (.crcOwnerWrite w d) s = .next (s.setF Fd.CRC_OWNER_ID (ownerId w)).settle) ∧
      (getBits d 0 8 ≠ 0 → getBits d 0 8 ≠ ownerId w ∨ s.f Fd.CRC_OWNER_ID ≠ 0 → exec (.crcOwnerWrite w d) s = .next s.settle) ∧
      (getBits d 0 8 = 0 → s.f Fd.CRC_OWNER_ID ≠ 0 → isHost w = true ∨ s.f Fd.CRC_OWNER_ID = ownerId w →
        exec (.crcOwnerWrite w d) s = .next ((((s.setF Fd.CRC_OWNER_ID 0).ev Fd.CRC_EVRAW_FREE).pulse 68).pulse 84).settle) ∧
      (getBits d 0 8 = 0 → s.f Fd.CRC_OWNER_ID = 0 ∨ (isHost w = false ∧ s.f Fd.CRC_OWNER_ID ≠ ownerId w) →
        exec (.crcOwnerWrite w d) s = .next s.settle))) ∧
  ∀ i : Fin 4, (CrcUnit.result ⟨i, (bytesBE 9 0x313233343536373839).foldl (crcFeed i) (crcInit i), []⟩) =
    match i with
    | 0 => 0xF4
    | 1 => 0x29B1
    | 2 => 0xCBF43926
    | 3 => 0xE3069283

/-! ## Every command, every state -/

/-- A step runs the command at the front of the queue on the state with the queue's rest. -/
def Obligations.StepRunsFront : Prop :=
  ∀ (c : Instr) (rest : List Instr) (s : State), s.pending = c :: rest → step s = exec c { s with pending := rest }

/-- Log entry 4, the model's choice: with no command waiting, a step is one ENG cycle in FULL, of which 6,104 make an AO tick,
and one AO tick in the other states; nothing happens with the AO domain down. -/
def Obligations.IdleClock : Prop :=
  ∀ (s : State), s.pending = [] →
    (s.power.ao = false → step s = .next s) ∧
    (s.power.ao = true → s.power.state = .full → s.sub < 6103 → step s = .next { s with sub := s.sub + 1 }) ∧
    (∀ u : State, s.power.ao = true → s.power.state ≠ .full ∨ 6103 ≤ s.sub → u = { s with
        ticks := s.ticks + 1, sub := 0, power := { s.power with subValid := decide (s.power.state = .full) } } →
      step s = .next ((u.idleTick.lullEdge).safetyTick).railTick)

/-- Every command answers a next state in every state, and takes nothing from the queue and puts nothing in it. -/
def Obligations.CommandsAnswer : Prop := ∀ (c : Instr) (s : State), ∃ t, exec c s = .next t ∧ t.pending = s.pending

/-- The register table and the SRAM windows stay in their canonical form over every step, so that states that agree on every
register and byte are equal in them. -/
def Obligations.StepKeepsForm : Prop := ∀ (s t : State), s.wf = true → step s = .next t → t.wf = true

/-- The state after reset has the canonical form; its registers read as their reset words, its SRAM as 0 (log entry 7), its
queue is empty and the device is in OFF. -/
def Obligations.ResetForm : Prop :=
  State.reset.wf = true ∧ (∀ a, State.reset.rd a = resetWord a) ∧ (∀ a, State.reset.byte a = memDefault a) ∧
    State.reset.pending = [] ∧ State.reset.power.state = .off

/-- R392, R394, R398: what is burned stays burned. No step returns a bit of an OTP word, of a spare word or of a copy of a
redirection entry, or a blown lock fuse, to 0, so a locked region stays locked. -/
def Obligations.BurnedStays : Prop :=
  ∀ (s t : State), step s = .next t →
    (∀ w i, (s.otp.pattern w).testBit i = true → (t.otp.pattern w).testBit i = true) ∧
    (∀ w i, (s.otp.sparePattern w).testBit i = true → (t.otp.sparePattern w).testBit i = true) ∧
    (∀ e c i, (s.otp.copy e c).testBit i = true → (t.otp.copy e c).testBit i = true) ∧
    (∀ r, s.otp.locked r = true → t.otp.locked r = true)
end

