-- ==== Sys2Proof/Laws/Exec.lean ====
section
/-! SUPPORT. What `exec` is at each constructor, in the shape of its command. -/

namespace Sys2Proof.Machine

open Sys2Proof

variable (s : State)

theorem exec_aoPowerOn : exec (.aoPowerOn) s = .next s.aoPowerOn := rfl
theorem exec_bootStart : exec (.bootStart) s = act s State.bootStart := rfl
theorem exec_bootSuppliesReady : exec (.bootSuppliesReady) s = act s State.bootSupplies := rfl
theorem exec_bootTrimReadDone (o : OtpSense) (bad : List Nat) : exec (.bootTrimReadDone o bad) s = act s fun s => s.bootTrimDone o bad := rfl
theorem exec_bootShadowLoaded (o : OtpSense) : exec (.bootShadowLoaded o) s = act s fun s => s.bootShadowDone o := rfl
theorem exec_rstoRelease : exec (.rstoRelease) s = live s State.rstoExpire := rfl
theorem exec_fallowEntry : exec (.fallowEntry) s = act s State.fallowEntry := rfl
theorem exec_wake (_src : WakeSource) : exec (.wake _src) s = act s State.wakeUp := rfl
theorem exec_engLock : exec (.engLock) s = act s State.engLock := rfl
theorem exec_subtickAlign : exec (.subtickAlign) s = act s State.subtickAlign := rfl
theorem exec_pllLockTimeout : exec (.pllLockTimeout) s = act s State.pllTimeout := rfl
theorem exec_pllLockRetry : exec (.pllLockRetry) s = act s State.pllRetry := rfl
theorem exec_aoXtalLost : exec (.aoXtalLost) s = act s State.xtalLost := rfl
theorem exec_xtalReturn : exec (.xtalReturn) s = act s State.xtalReturn := rfl
theorem exec_pwmOscLost : exec (.pwmOscLost) s = awake s State.pwmLost := rfl
theorem exec_gaugeOscLost : exec (.gaugeOscLost) s = awake s State.gaugeLost := rfl
theorem exec_wakeOscFail : exec (.wakeOscFail) s = act s State.wakeFailed := rfl
theorem exec_timecapGo (w : Writer) : exec (.timecapGo w) s = write s w Reg.SYS_TIMECAP 1 := rfl
theorem exec_chipReset (w : Writer) (d : Word) : exec (.chipReset w d) s = write s w Reg.SYS_CTRL (d ||| 1) := rfl
theorem exec_resetPin : exec (.resetPin) s = act s State.resetPin := rfl
theorem exec_registerWrite (w : Writer) (a : Nat) (d : Word) : exec (.registerWrite w a d) s = write s w a d := rfl
theorem exec_read (f : Frame) : exec (.read f) s = act s fun s => s.frameOf 0x03 f := rfl
theorem exec_readBurst (f : Frame) : exec (.readBurst f) s = act s fun s => s.frameOf 0x0B f := rfl
theorem exec_write (f : Frame) : exec (.write f) s = act s fun s => s.frameOf 0x02 f := rfl
theorem exec_writeBurst (f : Frame) : exec (.writeBurst f) s = act s fun s => s.frameOf 0x0A f := rfl
theorem exec_burstWordApply : exec (.burstWordApply) s = act s State.burstApply := rfl
theorem exec_status (f : Frame) : exec (.status f) s = act s fun s => s.frameOf 0x05 f := rfl
theorem exec_id (f : Frame) : exec (.id f) s = act s fun s => s.frameOf 0x9F f := rfl
theorem exec_mboxOutWrite (p : Proc) (d : Word) : exec (.mboxOutWrite p d) s = write s (.host p) 0x1060 d := rfl
theorem exec_mboxInRead (p : Proc) : exec (.mboxInRead p) s = live s fun s => if s.pagesRun then s.mboxIn p else s := rfl
theorem exec_watchdogEnable (p : Proc) (d : Word) : exec (.watchdogEnable p d) s = write s (.host p) 0x1050 (d ||| 0x80000000) := rfl
theorem exec_watchdogKick (p : Proc) (d : Word) : exec (.watchdogKick p d) s = write s (.host p) 0x1054 d := rfl
theorem exec_watchdogWarn (p : Proc) : exec (.watchdogWarn p) s = live s fun s => s.wdWarn p := rfl
theorem exec_watchdogExpire (p : Proc) : exec (.watchdogExpire p) s = live s fun s => s.wdTimeout p := rfl
theorem exec_planRowLowerWrite (p : Proc) (r : Fin 16384) (d : Word) : exec (.planRowLowerWrite p r d) s = write s (.host p) (0x100000 + 8 * r.val) d := rfl
theorem exec_planRowUpperWrite (p : Proc) (r : Fin 16384) (d : Word) : exec (.planRowUpperWrite p r d) s = write s (.host p) (0x100000 + 8 * r.val + 4) d := rfl
theorem exec_nop (t : Fin 16) (ecc : Ecc) : exec (.nop t ecc) s = act s fun s => rowNop s t ecc := rfl
theorem exec_illegalRow (t : Fin 16) : exec (.illegalRow t) s = act s fun s => rowIllegal s t := rfl
theorem exec_jmp (t : Fin 16) : exec (.jmp t) s = row s fun s => rowJmp s t := rfl
theorem exec_call (t : Fin 16) : exec (.call t) s = act s fun s => rowCall s t := rfl
theorem exec_ret (t : Fin 16) : exec (.ret t) s = act s fun s => rowRet s t := rfl
theorem exec_dbnz (t : Fin 16) : exec (.dbnz t) s = row s fun s => rowDbnz s t := rfl
theorem exec_halt (t : Fin 16) : exec (.halt t) s = row s fun s => rowHalt s t := rfl
theorem exec_start (t : Fin 16) : exec (.start t) s = row s fun s => rowStart s t := rfl
theorem exec_stop (t : Fin 16) : exec (.stop t) s = row s fun s => rowStop s t := rfl
theorem exec_jmpx (t : Fin 16) : exec (.jmpx t) s = act s fun s => rowJmpx s t := rfl
theorem exec_mov (t : Fin 16) : exec (.mov t) s = row s fun s => s.aluRow t 0x10 aluMov := rfl
theorem exec_ldh (t : Fin 16) : exec (.ldh t) s = row s fun s => s.aluRow t 0x11 aluLdh := rfl
theorem exec_add (t : Fin 16) : exec (.add t) s = row s fun s => s.aluRow t 0x12 aluAdd := rfl
theorem exec_sub (t : Fin 16) : exec (.sub t) s = row s fun s => s.aluRow t 0x13 aluSub := rfl
theorem exec_cmp (t : Fin 16) : exec (.cmp t) s = row s fun s => s.aluRow t 0x14 aluCmp := rfl
theorem exec_and (t : Fin 16) : exec (.and t) s = row s fun s => s.aluRow t 0x15 aluAnd := rfl
theorem exec_or (t : Fin 16) : exec (.or t) s = row s fun s => s.aluRow t 0x16 aluOr := rfl
theorem exec_xor (t : Fin 16) : exec (.xor t) s = row s fun s => s.aluRow t 0x17 aluXor := rfl
theorem exec_tst (t : Fin 16) : exec (.tst t) s = row s fun s => s.aluRow t 0x18 aluTst := rfl
theorem exec_shl (t : Fin 16) : exec (.shl t) s = row s fun s => s.aluRow t 0x19 aluShl := rfl
theorem exec_shr (t : Fin 16) : exec (.shr t) s = row s fun s => s.aluRow t 0x1A aluShr := rfl
theorem exec_asr (t : Fin 16) : exec (.asr t) s = row s fun s => s.aluRow t 0x1B aluAsr := rfl
theorem exec_mul (t : Fin 16) : exec (.mul t) s = row s fun s => s.aluRowBusy t 0x1C aluMul := rfl
theorem exec_div (t : Fin 16) : exec (.div t) s = row s fun s => s.aluRowBusy t 0x1D aluDiv := rfl
theorem exec_adds (t : Fin 16) : exec (.adds t) s = row s fun s => s.aluRow t 0x1E aluAdds := rfl
theorem exec_subs (t : Fin 16) : exec (.subs t) s = row s fun s => s.aluRow t 0x1F aluSubs := rfl
theorem exec_min (t : Fin 16) : exec (.min t) s = row s fun s => s.aluRow t 0x20 aluMin := rfl
theorem exec_max (t : Fin 16) : exec (.max t) s = row s fun s => s.aluRow t 0x21 aluMax := rfl
theorem exec_ld (t : Fin 16) : exec (.ld t) s = act s fun s => rowLd s t := rfl
theorem exec_st (t : Fin 16) : exec (.st t) s = act s fun s => rowSt s t := rfl
theorem exec_storeApply (t : Fin 16) : exec (.storeApply t) s = act s fun s => s.storeApply t := rfl
theorem exec_sync (t : Fin 16) : exec (.sync t) s = row s fun s => rowSync s t := rfl
theorem exec_rowComplete (t : Fin 16) (ecc : Ecc) : exec (.rowComplete t ecc) s = act s fun s => s.rowComplete t ecc := rfl
theorem exec_semget (t : Fin 16) : exec (.semget t) s = row s fun s => rowSemget s t := rfl
theorem exec_semput (t : Fin 16) : exec (.semput t) s = row s fun s => rowSemput s t := rfl
theorem exec_wait (t : Fin 16) : exec (.wait t) s = row s fun s => rowWait s t := rfl
theorem exec_waitEventEnd (t : Fin 16) : exec (.waitEventEnd t) s = ready s fun s => waitEventEnd s t := rfl
theorem exec_waitp (t : Fin 16) : exec (.waitp t) s = row s fun s => rowWaitp s t := rfl
theorem exec_waitpEnd (t : Fin 16) : exec (.waitpEnd t) s = ready s fun s => waitpEnd s t := rfl
theorem exec_waitTimeout (t : Fin 16) : exec (.waitTimeout t) s = ready s fun s => waitTimeout s t := rfl
theorem exec_post (t : Fin 16) : exec (.post t) s = row s fun s => rowPost s t := rfl
theorem exec_hostPostSet (p : Proc) (d : Word) : exec (.hostPostSet p d) s = write s (.host p) (Reg.PLAN_POST + 0x400) d := rfl
theorem exec_dly (t : Fin 16) : exec (.dly t) s = row s fun s => rowDly s t := rfl
theorem exec_dlyEnd (t : Fin 16) : exec (.dlyEnd t) s = row s fun s => dlyEnd s t := rfl
theorem exec_signal (t : Fin 16) : exec (.signal t) s = row s fun s => rowSignal s t := rfl
theorem exec_tcap (t : Fin 16) : exec (.tcap t) s = row s fun s => rowTcap s t := rfl
theorem exec_log (t : Fin 16) : exec (.log t) s = row s fun s => rowLog s t := rfl
theorem exec_raise (t : Fin 16) : exec (.raise t) s = act s fun s => rowRaise s t := rfl
theorem exec_lres (t : Fin 16) : exec (.lres t) s = act s fun s => rowLres s t := rfl
theorem exec_lcom (t : Fin 16) : exec (.lcom t) s = act s fun s => rowLcom s t := rfl
theorem exec_lrel (t : Fin 16) : exec (.lrel t) s = act s fun s => rowLrel s t := rfl
theorem exec_lshed (t : Fin 16) : exec (.lshed t) s = act s fun s => rowLshed s t := rfl
theorem exec_lsend (t : Fin 16) (ecc : List Ecc) : exec (.lsend t ecc) s = act s fun s => rowLsend s t ecc := rfl
theorem exec_rail (t : Fin 16) : exec (.rail t) s = act s fun s => rowRail s t := rfl
theorem exec_thcmdHalt (p : Proc) (t : Fin 16) : exec (.thcmdHalt p t) s = thcmd s p (thcmdWord 1 t 0) := rfl
theorem exec_thcmdStart (p : Proc) (t : Fin 16) (pc : BitVec 14) : exec (.thcmdStart p t pc) s = thcmd s p (thcmdWord 2 t pc.toNat) := rfl
theorem exec_thcmdResume (p : Proc) (t : Fin 16) : exec (.thcmdResume p t) s = thcmd s p (thcmdWord 3 t 0) := rfl
theorem exec_thcmdStep (p : Proc) (t : Fin 16) : exec (.thcmdStep p t) s = thcmd s p (thcmdWord 4 t 0) := rfl
theorem exec_threadRegWrite (w : Writer) (n : Fin 16) (m : Fin 8) (d : Word) : exec (.threadRegWrite w n m d) s = write s w (Reg.PLAN_THW n m) d := rfl
theorem exec_wlockSet (w : Writer) : exec (.wlockSet w) s = write s w Reg.PLAN_CTRL 1 := rfl
theorem exec_semRelease (p : Proc) (d : Word) : exec (.semRelease p d) s = write s (.host p) (Reg.PLAN_SEM + 0x800) d := rfl
theorem exec_planLoadOtp (w : Writer) : exec (.planLoadOtp w) s = write s w Reg.PLAN_LOAD 1 := rfl
theorem exec_planLoadPlanA (w : Writer) : exec (.planLoadPlanA w) s = write s w Reg.PLAN_LOAD 2 := rfl
theorem exec_planLoadPlanB (w : Writer) : exec (.planLoadPlanB w) s = write s w Reg.PLAN_LOAD 3 := rfl
theorem exec_loadThreadsHalted : exec (.loadThreadsHalted) s = live s State.loadHalted := rfl
theorem exec_loadHeaderRead (ok : Bool) : exec (.loadHeaderRead ok) s = live s fun s => s.loadHeader ok := rfl
theorem exec_loadPass1Done (ok : Bool) (o : OtpSense) : exec (.loadPass1Done ok o) s = live s fun s => s.loadPass1 ok o := rfl
theorem exec_loadPass2Done (ok : Bool) (same : Bool) : exec (.loadPass2Done ok same) s = live s fun s => s.loadPass2 ok same := rfl
theorem exec_otpPlanHeaderRead (o : OtpSense) : exec (.otpPlanHeaderRead o) s = live s fun s => s.otpHeader o := rfl
theorem exec_otpPlanReadDone (o : OtpSense) : exec (.otpPlanReadDone o) s = live s fun s => s.otpPlanRead o := rfl
theorem exec_otpPlanWriteDone : exec (.otpPlanWriteDone) s = live s State.otpPlanWritten := rfl
theorem exec_phaseAssignWrite (w : Writer) (k : Fin 16) (d : Word) : exec (.phaseAssignWrite w k d) s = write s w (Reg.PHASE_ASSIGN k) d := rfl
theorem exec_loopOnRequest (w : Writer) (n : Fin 4) (d : Word) : exec (.loopOnRequest w n d) s = write s w (Reg.LOOP_CTRL n) (d ||| 1) := rfl
theorem exec_loopOffRequest (w : Writer) (n : Fin 4) (d : Word) : exec (.loopOffRequest w n d) s = write s w (Reg.LOOP_CTRL n) (d &&& ~~~1) := rfl
theorem exec_loopStartComplete (n : Fin 4) (vout : Nat) : exec (.loopStartComplete n vout) s = live s fun s => s.loopStarted n vout := rfl
theorem exec_targetWrite (w : Writer) (n : Fin 4) (d : Word) : exec (.targetWrite w n d) s = write s w (Reg.LOOP_TARGET n) d := rfl
theorem exec_slewDone (n : Fin 4) : exec (.slewDone n) s = live s fun s => s.slewDone n := rfl
theorem exec_softoffDone (n : Fin 4) : exec (.softoffDone n) s = live s fun s => s.softoffDone n := rfl
theorem exec_periodStart (n : Fin 4) (vout : Nat) (ms : List PhaseMeas) : exec (.periodStart n vout ms) s = live s fun s => s.periodBegin n vout ms := rfl
theorem exec_shedCommit (k : Fin 16) : exec (.shedCommit k) s = live s fun s => s.shedCommit k := rfl
theorem exec_phaseAdded (k : Fin 16) : exec (.phaseAdded k) s = live s fun s => s.phaseAdded k := rfl
theorem exec_shedInhibitEnd (n : Fin 4) : exec (.shedInhibitEnd n) s = live s fun s => s.shedInhibitEnd n := rfl
theorem exec_burstEntry (n : Fin 4) : exec (.burstEntry n) s = live s fun s => s.burstEntry n := rfl
theorem exec_burstTick (n : Fin 4) (vout : Nat) : exec (.burstTick n vout) s = live s fun s => s.burstTick n vout := rfl
theorem exec_gustTrip (n : Fin 4) (vout : Nat) : exec (.gustTrip n vout) s = live s fun s => s.gustTrip n vout := rfl
theorem exec_phaseCurrentLimit (k : Fin 16) (t : Nat) (uv : Int) : exec (.phaseCurrentLimit k t uv) s = live s fun s => s.phaseLimit k t uv := rfl
theorem exec_loopOcFault (n : Fin 4) (vout : Nat) : exec (.loopOcFault n vout) s = live s fun s => s.loopOc n vout := rfl
theorem exec_negativeCurrentLimit (k : Fin 16) (uv : Int) : exec (.negativeCurrentLimit k uv) s = live s fun s => s.negLimit k uv := rfl
theorem exec_ovCrowbar (n : Fin 4) (vout : Nat) : exec (.ovCrowbar n vout) s = live s fun s => s.crowbar n vout := rfl
theorem exec_crowbarRelease (n : Fin 4) (vout : Nat) : exec (.crowbarRelease n vout) s = live s fun s => s.crowbarRelease n vout := rfl
theorem exec_loopUvFault (n : Fin 4) (vout : Nat) : exec (.loopUvFault n vout) s = live s fun s => s.loopUv n vout := rfl
theorem exec_loopPgoodLost (n : Fin 4) (vout : Nat) : exec (.loopPgoodLost n vout) s = live s fun s => s.pgoodLost n vout := rfl
theorem exec_stageFault : exec (.stageFault) s = live s State.stageFault := rfl
theorem exec_syncLock (per : Nat) : exec (.syncLock per) s = live s fun s => s.syncLock per := rfl
theorem exec_syncLoss : exec (.syncLoss) s = live s State.syncLoss := rfl
theorem exec_probeGo (w : Writer) (n : Fin 4) (meas : BitVec 5) : exec (.probeGo w n meas) s = write s w Reg.HEALTH_PROBE (BitVec.ofNat 32 (0x40000000 + 0x100 * n.val + meas.toNat)) := rfl
theorem exec_probeAbort (w : Writer) : exec (.probeAbort w) s = write s w Reg.HEALTH_PROBE 0x80000000 := rfl
theorem exec_probeMeasDone (m : Measured) : exec (.probeMeasDone m) s = live s fun s => s.probeMeas m := rfl
theorem exec_rebase (w : Writer) (d : Word) : exec (.rebase w d) s = write s w Reg.HEALTH_CTRL (d ||| 0x10) := rfl
theorem exec_healthApply (w : Writer) (d : Word) : exec (.healthApply w d) s = write s w Reg.HEALTH_APPLY d := rfl
theorem exec_healthDue (n : Fin 4) : exec (.healthDue n) s = live s fun s => s.healthDue n := rfl
theorem exec_railWindowChange (k : Fin 6) (mv : Nat) : exec (.railWindowChange k mv) s = live s fun s => s.railWindow k mv := rfl
theorem exec_vmonWindowChange (n : Fin 8) (mv : Nat) : exec (.vmonWindowChange n mv) s = live s fun s => s.vmonChange n mv := rfl
theorem exec_regulatorFault (k : Fin 6) (cause : Nat) (vout : Nat) (vin : Nat) : exec (.regulatorFault k cause vout vin) s = live s fun s => s.railFault k cause vout vin := rfl
theorem exec_adcScanStart : exec (.adcScanStart) s = live s State.scanStart := rfl
theorem exec_adcScanGo (w : Writer) (d : Word) : exec (.adcScanGo w d) s = write s w Reg.RAILS_SCANCFG (d ||| 0x200) := rfl
theorem exec_adcScanDone (xs : List AdcSample) : exec (.adcScanDone xs) s = live s fun s => s.scanDone xs := rfl
theorem exec_adcSelftestDone (a b : Nat × Nat) : exec (.adcSelftestDone a b) s = live s fun s => s.selfTestDone a b := rfl
theorem exec_gpioEdge (k : Fin 12) (level : Bool) : exec (.gpioEdge k level) s = live s fun s => s.gpioEdge k level := rfl
theorem exec_slotOnRequest (w : Writer) (k : Fin 32) : exec (.slotOnRequest w k) s = write s w Reg.SEQ_REQ (BitVec.ofNat 32 (0x100 + k.val)) := rfl
theorem exec_slotOffRequest (w : Writer) (k : Fin 32) : exec (.slotOffRequest w k) s = write s w Reg.SEQ_REQ (BitVec.ofNat 32 k.val) := rfl
theorem exec_seqDown (w : Writer) (d : Word) : exec (.seqDown w d) s = write s w Reg.SEQ_DOWN d := rfl
theorem exec_slotQualified (k : Fin 32) : exec (.slotQualified k) s = live s fun s => s.slotQualified k := rfl
theorem exec_slotStartTimeout (k : Fin 32) : exec (.slotStartTimeout k) s = live s fun s => s.slotStartTimeout k := rfl
theorem exec_slotDischarged (k : Fin 32) (mv : Nat) : exec (.slotDischarged k mv) s = live s fun s => s.slotDischarged k mv := rfl
theorem exec_slotDischargeTimeout (k : Fin 32) : exec (.slotDischargeTimeout k) s = live s fun s => s.slotDischargeTimeout k := rfl
theorem exec_slotPendDue (k : Fin 32) : exec (.slotPendDue k) s = live s fun s => s.slotPendDue k := rfl
theorem exec_slotDepWrite (w : Writer) (k : Fin 32) (d : Word) : exec (.slotDepWrite w k d) s = write s w (Reg.SEQ_SLOTDEP k) d := rfl
theorem exec_vsysCollapseWarn (vsys : Nat) : exec (.vsysCollapseWarn vsys) s = live s fun s => s.vsysCollapse vsys := rfl
theorem exec_firstfailRearm (vsys : Nat) (since : Nat) : exec (.firstfailRearm vsys since) s = live s fun s => s.firstFailRearm vsys since := rfl
theorem exec_ffarmWrite (w : Writer) : exec (.ffarmWrite w) s = write s w Reg.SEQ_CTRL 1 := rfl
theorem exec_vinUv (vin : Nat) : exec (.vinUv vin) s = act s fun s => s.vinUv vin := rfl
theorem exec_vinOv (vin : Nat) : exec (.vinOv vin) s = act s fun s => s.vinOv vin := rfl
theorem exec_vholdLow (vhold : Nat) : exec (.vholdLow vhold) s = act s fun s => s.vholdLow vhold := rfl
theorem exec_collapseRelease (vin : Nat) : exec (.collapseRelease vin) s = act s fun s => s.collapse vin := rfl
theorem exec_vacWindowChange (vac : Nat) : exec (.vacWindowChange vac) s = live s fun s => s.vacChange vac := rfl
theorem exec_vacQualified : exec (.vacQualified) s = live s State.vacQualified := rfl
theorem exec_reconnectBatdrvOff : exec (.reconnectBatdrvOff) s = live s State.batdrvOff := rfl
theorem exec_reconnectComplete : exec (.reconnectComplete) s = live s State.reconnected := rfl
theorem exec_detectTimeout : exec (.detectTimeout) s = live s State.detectTimeout := rfl
theorem exec_bridgeSettled (vsys : Nat) : exec (.bridgeSettled vsys) s = live s fun s => s.bridgeSettled vsys := rfl
theorem exec_bypassClose (vsys : Nat) (vbat : Nat) : exec (.bypassClose vsys vbat) s = live s fun s => s.bypassClose vsys vbat := rfl
theorem exec_reverseCurrentBlock : exec (.reverseCurrentBlock) s = live s State.reverseBlock := rfl
theorem exec_reverseBlockRelease (vac : Nat) (vsys : Nat) : exec (.reverseBlockRelease vac vsys) s = live s fun s => s.reverseRelease vac vsys := rfl
theorem exec_inputTrip (iin : Nat) : exec (.inputTrip iin) s = live s fun s => s.inputTrip iin := rfl
theorem exec_supplementStart (x : HbSample) : exec (.supplementStart x) s = live s fun s => s.supplementStart x := rfl
theorem exec_supplementEnd (x : HbSample) : exec (.supplementEnd x) s = live s fun s => s.supplementEnd x := rfl
theorem exec_inputSaturated (x : HbSample) : exec (.inputSaturated x) s = live s fun s => s.inputSaturated x := rfl
theorem exec_bounceClear : exec (.bounceClear) s = live s State.bounceClear := rfl
theorem exec_inenWrite (w : Writer) (d : Word) : exec (.inenWrite w d) s = write s w Reg.PATH_CTRL d := rfl
theorem exec_hoenWrite (w : Writer) (d : Word) : exec (.hoenWrite w d) s = write s w Reg.PATH_CTRL d := rfl
theorem exec_batgo (w : Writer) (d : Word) : exec (.batgo w d) s = write s w Reg.PATH_CTRL (d ||| 0x10) := rfl
theorem exec_chgenOn (w : Writer) (d : Word) : exec (.chgenOn w d) s = write s w Reg.PATH_CTRL (d ||| 0x8) := rfl
theorem exec_chgenOff (w : Writer) (d : Word) : exec (.chgenOff w d) s = write s w Reg.PATH_CTRL (d &&& ~~~0x8) := rfl
theorem exec_trst (p : Proc) (d : Word) : exec (.trst p d) s = write s (.host p) Reg.PATH_CTRL (d ||| 0x20) := rfl
theorem exec_chargeResume (vbat : Nat) : exec (.chargeResume vbat) s = live s fun s => s.chargeResume vbat := rfl
theorem exec_chargePhaseAdvance (vbat : Nat) : exec (.chargePhaseAdvance vbat) s = live s fun s => s.phaseAdvance vbat := rfl
theorem exec_chargeTerminated (ma : Nat) : exec (.chargeTerminated ma) s = live s fun s => if s.chargeTerminates ma then s.chargeDone.fullSync else s := rfl
theorem exec_recharge (vbat : Nat) : exec (.recharge vbat) s = live s fun s => s.recharge vbat := rfl
theorem exec_chargeTimeout : exec (.chargeTimeout) s = live s State.chargeTimeout := rfl
theorem exec_chargerStopped : exec (.chargerStopped) s = live s State.chargerStopped := rfl
theorem exec_chargerPendDue : exec (.chargerPendDue) s = live s State.chargerPendDue := rfl
theorem exec_chargerHwLimit (cause : Fin 6) (v : Nat) : exec (.chargerHwLimit cause v) s = live s fun s => s.hwLimit cause v := rfl
theorem exec_chargerLimitRelease (cause : Fin 6) (v : Nat) : exec (.chargerLimitRelease cause v) s = live s fun s => s.limRelease cause v := rfl
theorem exec_presenceTestStart : exec (.presenceTestStart) s = live s State.testStart := rfl
theorem exec_presenceTestDone (vbat : Nat) : exec (.presenceTestDone vbat) s = live s fun s => s.testDone vbat := rfl
theorem exec_batteryPresent (vbat : Nat) : exec (.batteryPresent vbat) s = live s fun s => s.batteryIn vbat := rfl
theorem exec_batteryAbsent (vbat : Nat) : exec (.batteryAbsent vbat) s = live s fun s => s.batteryGone vbat := rfl
theorem exec_gaugeEnWrite (w : Writer) (d : Word) : exec (.gaugeEnWrite w d) s = write s w Reg.GAUGE_CTRL d := rfl
theorem exec_azgo (w : Writer) (d : Word) : exec (.azgo w d) s = write s w Reg.GAUGE_CTRL (d ||| 0x2) := rfl
theorem exec_storego (w : Writer) (d : Word) : exec (.storego w d) s = write s w Reg.GAUGE_CTRL (d ||| 0x4) := rfl
theorem exec_relearnWrite (w : Writer) (d : Word) : exec (.relearnWrite w d) s = write s w Reg.GAUGE_CTRL (d ||| 0x8) := rfl
theorem exec_autozeroStart : exec (.autozeroStart) s = awake s fun s => s.autozeroStart := rfl
theorem exec_autozeroDone (meas : Int) : exec (.autozeroDone meas) s = awake s fun s => s.autozeroDone meas := rfl
theorem exec_gaugeUpdate (counts : Int) (ms : Nat) : exec (.gaugeUpdate counts ms) s = awake s fun s => s.gaugeUpdate counts ms := rfl
theorem exec_gaugeWakeActive (ma : Int) (counts : Int) (ms : Nat) : exec (.gaugeWakeActive ma counts ms) s = awake s fun s => s.gaugeWake ma counts ms := rfl
theorem exec_gaugeSample (uv : Nat) (temp : Int) (ms : Nat) : exec (.gaugeSample uv temp ms) s = awake s fun s => s.gaugeSample uv temp ms := rfl
theorem exec_impedanceUpdate (dv : Int) (di : Int) : exec (.impedanceUpdate dv di) s = awake s fun s => s.gaugeImpedance dv di := rfl
theorem exec_proveGo (w : Writer) (d : Word) : exec (.proveGo w d) s = write s w Reg.GAUGE_PROVE ((d ||| 0x80000000) &&& ~~~0x40000000) := rfl
theorem exec_proveAbort (w : Writer) (d : Word) : exec (.proveAbort w d) s = write s w Reg.GAUGE_PROVE ((d ||| 0x40000000) &&& ~~~0x80000000) := rfl
theorem exec_gaugeStorePeriodic : exec (.gaugeStorePeriodic) s = awake s fun s => s.gStorePeriodic := rfl
theorem exec_gaugeStoreDone : exec (.gaugeStoreDone) s = awake s State.gStoreDone := rfl
theorem exec_gaugeStoreRetry : exec (.gaugeStoreRetry) s = awake s fun s => s.gStoreRetry := rfl
theorem exec_fccWrite (w : Writer) (d : Word) : exec (.fccWrite w d) s = write s w Reg.GAUGE_FCC d := rfl
theorem exec_rmWrite (w : Writer) (d : Word) : exec (.rmWrite w d) s = write s w Reg.GAUGE_RM d := rfl
theorem exec_designMahWrite (w : Writer) (d : Word) : exec (.designMahWrite w d) s = write s w Reg.GAUGE_DESIGN d := rfl
theorem exec_linkEnable (w : Writer) (n : Fin 8) (d : Word) : exec (.linkEnable w n d) s = write s w (Reg.LINK_CTRL n) (d ||| 1) := rfl
theorem exec_linkDisable (w : Writer) (n : Fin 8) (d : Word) : exec (.linkDisable w n d) s = write s w (Reg.LINK_CTRL n) (d &&& ~~~1) := rfl
theorem exec_linkTransactionStart (n : Fin 8) : exec (.linkTransactionStart n) s = live s fun s => s.linkStart n := rfl
theorem exec_frameSent (n : Fin 8) : exec (.frameSent n) s = live s fun s => s.frameSent n := rfl
theorem exec_statusReply (n : Fin 8) (epoch : Fin 16) (query : Bool) (payload : List Byte) : exec (.statusReply n epoch query payload) s = live s fun s => s.statusReply n epoch query payload := rfl
theorem exec_ackReply (n : Fin 8) (epoch : Fin 16) (out : Fin 8) : exec (.ackReply n epoch out) s = live s fun s => s.ackReply n epoch out := rfl
theorem exec_nakReply (n : Fin 8) (epoch : Fin 16) (reason : Fin 256) : exec (.nakReply n epoch reason) s = live s fun s => s.nakReply n epoch reason := rfl
theorem exec_nakEpochReply (n : Fin 8) (epoch : Fin 16) : exec (.nakEpochReply n epoch) s = live s fun s => s.nakEpochReply n epoch := rfl
theorem exec_dataReply (n : Fin 8) (epoch : Fin 16) (query : Bool) (payload : List Byte) : exec (.dataReply n epoch query payload) s = live s fun s => s.dataReply n epoch query payload := rfl
theorem exec_identRReply (n : Fin 8) (epoch : Fin 16) (vendor : BitVec 16) (model : BitVec 16) (serial : Word) : exec (.identRReply n epoch vendor model serial) s = live s fun s => s.identReply n epoch vendor.toNat model.toNat serial.toNat := rfl
theorem exec_badReply (n : Fin 8) (bad : BadReply) : exec (.badReply n bad) s = live s fun s => s.badReply n bad := rfl
theorem exec_replyTimeout (n : Fin 8) : exec (.replyTimeout n) s = live s fun s => s.replyTimeout n := rfl
theorem exec_lineAlert (n : Fin 8) : exec (.lineAlert n) s = live s fun s => s.lineAlert n := rfl
theorem exec_alertPollSlotsDone (n : Fin 8) (lo : Word) (hi : Word) : exec (.alertPollSlotsDone n lo hi) s = live s fun s => s.alertSlots n lo hi := rfl
theorem exec_linkCollision (n : Fin 8) : exec (.linkCollision n) s = live s fun s => s.collision n := rfl
theorem exec_linkStuck (n : Fin 8) : exec (.linkStuck n) s = live s fun s => s.stuck n := rfl
theorem exec_scanRoundStart (n : Fin 8) : exec (.scanRoundStart n) s = live s fun s => s.scanRound n := rfl
theorem exec_shedmaskSet (w : Writer) (n : Fin 8) (m : Fin 2) (mask : Word) : exec (.shedmaskSet w n m mask) s = act s fun s => s.shedWrite w n m mask := rfl
theorem exec_grantLatchDue (n : Fin 8) (a : Fin 64) : exec (.grantLatchDue n a) s = live s fun s => s.grantDue n a := rfl
theorem exec_hostpush (w : Writer) (n : Fin 8) (d : Word) : exec (.hostpush w n d) s = write s w (Reg.LINK_HOSTPUSH n) d := rfl
theorem exec_descriptorWrite (w : Writer) (n : Fin 8) (q : Fin 8) (i : Fin 16) (j : Fin 4) (d : Word) : exec (.descriptorWrite w n q i j d) s = write s w (descAddr n q i j) d := rfl
theorem exec_ledgerOpDequeue : exec (.ledgerOpDequeue) s = live s State.ledgerDequeue := rfl
theorem exec_hostopLres (w : Writer) (point : BitVec 9) (b : BitVec 3) : exec (.hostopLres w point b) s = write s w Reg.LEDGER_HOSTOP (BitVec.ofNat 32 (1 * 2 ^ 28 + b.toNat * 2 ^ 16 + point.toNat)) := rfl
theorem exec_hostopLcom (w : Writer) (point : BitVec 9) (b : BitVec 3) : exec (.hostopLcom w point b) s = write s w Reg.LEDGER_HOSTOP (BitVec.ofNat 32 (2 * 2 ^ 28 + b.toNat * 2 ^ 16 + point.toNat)) := rfl
theorem exec_hostopLrel (w : Writer) (point : BitVec 9) (b : BitVec 3) : exec (.hostopLrel w point b) s = write s w Reg.LEDGER_HOSTOP (BitVec.ofNat 32 (3 * 2 ^ 28 + b.toNat * 2 ^ 16 + point.toNat)) := rfl
theorem exec_hostopLshed (w : Writer) (point : BitVec 9) (b : BitVec 3) : exec (.hostopLshed w point b) s = write s w Reg.LEDGER_HOSTOP (BitVec.ofNat 32 (4 * 2 ^ 28 + b.toNat * 2 ^ 16 + point.toNat)) := rfl
theorem exec_reservationTimeout (gp : Fin 512) : exec (.reservationTimeout gp) s = live s fun s => s.reservationTimeout gp := rfl
theorem exec_forecastHoldEnd (n : Fin 4) : exec (.forecastHoldEnd n) s = live s fun s => s.forecastHoldEnd n := rfl
theorem exec_thermalSample (die : List Int) (ends : Nat) (td : List TdReading) : exec (.thermalSample die ends td) s = awake s fun s => s.sampleAll die ends td := rfl
theorem exec_dieShutdown (k : Fin 8) : exec (.dieShutdown k) s = awake s fun s => s.dieShutdown k := rfl
theorem exec_shutdownRecordWritten : exec (.shutdownRecordWritten) s = awake s State.holdBegin := rfl
theorem exec_thawAuto : exec (.thawAuto) s = awake s State.thawAuto := rfl
theorem exec_thawKey (w : Writer) (d : Word) : exec (.thawKey w d) s = write s w Reg.THERM_THAW d := rfl
theorem exec_recentThawExpire : exec (.recentThawExpire) s = act s State.recentExpire := rfl
theorem exec_faultEnded (k : Fin 48) : exec (.faultEnded k) s = awake s fun s => s.faultEnded k := rfl
theorem exec_lullExpire (k : Fin 48) : exec (.lullExpire k) s = awake s fun s => s.lullExpire k := rfl
theorem exec_faultClear (w : Writer) (i : Fin 2) (d : Word) : exec (.faultClear w i d) s = write s w (Reg.FAULT_CLEAR i) d := rfl
theorem exec_reactWrite (w : Writer) (k : Fin 48) (d : Word) : exec (.reactWrite w k d) s = write s w (Reg.FAULT_REACT k) d := rfl
theorem exec_historyClear (p : Proc) : exec (.historyClear p) s = write s (.host p) Reg.FAULT_CTRL 1 := rfl
theorem exec_extFaultIn (active : Bool) : exec (.extFaultIn active) s = live s fun s => s.extFault active := rfl
theorem exec_extinWrite (w : Writer) (d : Word) : exec (.extinWrite w d) s = write s w Reg.FAULT_EXTIN d := rfl
theorem exec_intcSourceEdge (i : Fin 96) : exec (.intcSourceEdge i) s = live s fun s => if s.pagesRun then s.intcEdge i else s := rfl
theorem exec_pendClear (w : Writer) (i : Fin 4) (mask : Word) : exec (.pendClear w i mask) s = write s w (pendAddr i + 0x800) mask := rfl
theorem exec_nmipendClear (w : Writer) (i : Fin 2) (mask : Word) : exec (.nmipendClear w i mask) s = write s w (Reg.INTC_NMIPEND0 + 4 * i.val + 0x800) mask := rfl
theorem exec_intcCfgWrite (w : Writer) (k : Fin 96) (d : Word) : exec (.intcCfgWrite w k d) s = write s w (cfgAddr k) d := rfl
theorem exec_holdoffReopen (g : Fin 8) : exec (.holdoffReopen g) s = live s fun s => s.groupReopen g := rfl
theorem exec_recordReadpage (w : Writer) (page : BitVec 8) : exec (.recordReadpage w page) s = write s w Reg.RECORD_CMD (BitVec.ofNat 32 (0x10000000 + page.toNat)) := rfl
theorem exec_recordTails (w : Writer) : exec (.recordTails w) s = write s w Reg.RECORD_CMD 0x20000000 := rfl
theorem exec_recordSdwrite (w : Writer) (reason : BitVec 8) : exec (.recordSdwrite w reason) s = write s w Reg.RECORD_CMD (BitVec.ofNat 32 (0x30000000 + reason.toNat)) := rfl
theorem exec_recordTrig (w : Writer) : exec (.recordTrig w) s = write s w Reg.RECORD_CMD 0x40000000 := rfl
theorem exec_recordResume (w : Writer) : exec (.recordResume w) s = write s w Reg.RECORD_CMD 0x50000000 := rfl
theorem exec_almanacFreeze : exec (.almanacFreeze) s = live s State.almanacFreeze := rfl
theorem exec_freezeCopyDone : exec (.freezeCopyDone) s = live s State.freezeCopyDone := rfl
theorem exec_recordProgramDone (ok : Bool) : exec (.recordProgramDone ok) s = act s fun s => s.recProgramDone ok := rfl
theorem exec_recordEraseDone : exec (.recordEraseDone) s = act s State.recEraseDone := rfl
theorem exec_logbookFlush : exec (.logbookFlush) s = live s State.logbookFlush := rfl
theorem exec_flashHostRead (w : Writer) (len : BitVec 9) : exec (.flashHostRead w len) s = write s w Reg.FLASH_HCMD (BitVec.ofNat 32 (1 * 2 ^ 28 + len.toNat)) := rfl
theorem exec_flashHostProgram (w : Writer) (len : BitVec 9) : exec (.flashHostProgram w len) s = write s w Reg.FLASH_HCMD (BitVec.ofNat 32 (2 * 2 ^ 28 + len.toNat)) := rfl
theorem exec_flashHostErase (w : Writer) (len : BitVec 9) : exec (.flashHostErase w len) s = write s w Reg.FLASH_HCMD (BitVec.ofNat 32 (3 * 2 ^ 28 + len.toNat)) := rfl
theorem exec_flashWorkStart : exec (.flashWorkStart) s = live s State.flashStart := rfl
theorem exec_flashOpDone (cs : Fin 2) (ok : Bool) : exec (.flashOpDone cs ok) s = live s fun s => s.flashOpDone cs ok := rfl
theorem exec_flashOpTimeout (cs : Fin 2) : exec (.flashOpTimeout cs) s = live s fun s => s.flashTimeout cs := rfl
theorem exec_flashRediscover (w : Writer) (d : Word) : exec (.flashRediscover w d) s = write s w Reg.FLASH_CTRL (d ||| 4) := rfl
theorem exec_flashEnWrite (w : Writer) (d : Word) : exec (.flashEnWrite w d) s = write s w Reg.FLASH_CTRL (d &&& ~~~4) := rfl
theorem exec_flashDiscoveryStart : exec (.flashDiscoveryStart) s = live s State.discStart := rfl
theorem exec_flashDiscoveryDone (c0 : Option Sfdp) (c1 : Option Sfdp) : exec (.flashDiscoveryDone c0 c1) s = live s fun s => s.discFinish c0 c1 := rfl
theorem exec_otpRead (w : Writer) (arg : BitVec 11) (margin : BitVec 2) : exec (.otpRead w arg margin) s = write s w Reg.OTP_CMD (otpWord 1 margin.toNat 0 arg.toNat) := rfl
theorem exec_otpProgram (w : Writer) (arg : BitVec 11) (key : BitVec 8) : exec (.otpProgram w arg key) s = write s w Reg.OTP_CMD (otpWord 2 0 key.toNat arg.toNat) := rfl
theorem exec_otpLock (w : Writer) (arg : BitVec 11) (key : BitVec 8) : exec (.otpLock w arg key) s = write s w Reg.OTP_CMD (otpWord 3 0 key.toNat arg.toNat) := rfl
theorem exec_otpRepair (w : Writer) (arg : BitVec 11) (key : BitVec 8) : exec (.otpRepair w arg key) s = write s w Reg.OTP_CMD (otpWord 4 0 key.toNat arg.toNat) := rfl
theorem exec_otpCheck (w : Writer) (arg : BitVec 11) : exec (.otpCheck w arg) s = write s w Reg.OTP_CMD (otpWord 5 0 0 arg.toNat) := rfl
theorem exec_otpReapply (w : Writer) : exec (.otpReapply w) s = write s w Reg.OTP_CMD (otpWord 6 0 0 0) := rfl
theorem exec_otpCmdComplete (o : OtpSense) : exec (.otpCmdComplete o) s = live s fun s => s.otpDone o := rfl
theorem exec_otpRlockWrite (w : Writer) (d : Word) : exec (.otpRlockWrite w d) s = write s w Reg.OTP_RLOCK d := rfl
theorem exec_otpWlockWrite (w : Writer) (d : Word) : exec (.otpWlockWrite w d) s = write s w Reg.OTP_WLOCK d := rfl
theorem exec_shadowWrite (w : Writer) (i : Fin 320) (d : Word) : exec (.shadowWrite w i d) s = write s w (0x150300 + 4 * i.val) d := rfl
theorem exec_overrideClear (w : Writer) : exec (.overrideClear w) s = write s w Reg.OTP_CTRL 1 := rfl
theorem exec_timerIncrement (n : Fin 4) : exec (.timerIncrement n) s = live s fun s => s.timerIncrement n := rfl
theorem exec_timerCapture (n : Fin 4) (rising : Bool) (late : Bool) : exec (.timerCapture n rising late) s = live s fun s => s.timerCapture n rising late := rfl
theorem exec_timerSnap (w : Writer) (n : Fin 4) : exec (.timerSnap w n) s = write s w (Reg.TIMER_CMD n) 1 := rfl
theorem exec_timerPop (w : Writer) (n : Fin 4) : exec (.timerPop w n) s = write s w (Reg.TIMER_CMD n) 2 := rfl
theorem exec_timerLoad (w : Writer) (n : Fin 4) : exec (.timerLoad w n) s = write s w (Reg.TIMER_CMD n) 3 := rfl
theorem exec_timerClrq (w : Writer) (n : Fin 4) : exec (.timerClrq w n) s = write s w (Reg.TIMER_CMD n) 4 := rfl
theorem exec_crcInit (w : Writer) (d : Word) : exec (.crcInit w d) s = write s w Reg.CRC_CTRL (d ||| 0x100) := rfl
theorem exec_crcDin8 (w : Writer) (d : Word) : exec (.crcDin8 w d) s = write s w Reg.CRC_DIN8 d := rfl
theorem exec_crcDin16 (w : Writer) (d : Word) : exec (.crcDin16 w d) s = write s w Reg.CRC_DIN16 d := rfl
theorem exec_crcDin32 (w : Writer) (d : Word) : exec (.crcDin32 w d) s = write s w Reg.CRC_DIN32 d := rfl
theorem exec_crcQueueApply : exec (.crcQueueApply) s = live s State.crcApply := rfl
theorem exec_crcOwnerWrite (w : Writer) (d : Word) : exec (.crcOwnerWrite w d) s = write s w Reg.CRC_OWNER d := rfl
theorem exec_resetPinRelease : exec (.resetPinRelease) s = act s State.resetPinHigh := rfl
theorem exec_aoPowerLoss : exec (.aoPowerLoss) s = .next s.aoPowerLoss := rfl
theorem exec_wakeStable : exec (.wakeStable) s = act s State.wakeStable := rfl
theorem exec_wakeStartRetry : exec (.wakeStartRetry) s = act s State.wakeRetry := rfl
theorem exec_gaugeOscReturn : exec (.gaugeOscReturn) s = awake s fun s => s.setPower { s.power with gaugeOk := true } := rfl
theorem exec_loopPgoodRegained (n : Fin 4) (vout : Nat) : exec (.loopPgoodRegained n vout) s = live s fun s => s.pgoodRegained n vout := rfl
theorem exec_headroomChange (vsys : Nat) (vbat : Nat) : exec (.headroomChange vsys vbat) s = live s fun s => s.headroomChange vsys vbat := rfl
theorem exec_vholdCharged : exec (.vholdCharged) s = awake s State.vholdCharged := rfl

end Sys2Proof.Machine
end

