-- ==== Sys2Proof/Laws/Table.lean ====
section
/-! SUPPORT. The laws of sparse tables: a read after a write, and the canonical form under every table operation. -/

namespace Sys2Proof.Machine

variable {V : Type}

/-! ## Reads after writes -/

theorem tget_terase_self (d : Nat → V) (l : List (Nat × V)) (a : Nat) : tget d (terase a l) a = d a := by
  induction l with
  | nil => rfl
  | cons p l ih =>
    obtain ⟨k, v⟩ := p
    by_cases h : k = a <;> simp [terase, tget, h, ih]

theorem tget_terase_ne (d : Nat → V) (l : List (Nat × V)) {a b : Nat} (h : b ≠ a) : tget d (terase a l) b = tget d l b := by
  induction l with
  | nil => rfl
  | cons p l ih =>
    obtain ⟨k, v⟩ := p
    by_cases hk : k = a
    · subst hk
      simp [terase, tget, ih, Ne.symm h]
    · simp [terase, tget, hk, ih]

theorem tget_tinsert_self (d : Nat → V) (l : List (Nat × V)) (a : Nat) (v : V) (h : ∀ p ∈ l, p.1 ≠ a) :
    tget d (tinsert a v l) a = v := by
  induction l with
  | nil => simp [tinsert, tget]
  | cons p l ih =>
    obtain ⟨k, w⟩ := p
    have hk : k ≠ a := h (k, w) (by simp)
    by_cases hl : a < k
    · simp [tinsert, hl, tget]
    · simp [tinsert, hl, tget, hk, ih (fun q hq => h q (by simp [hq]))]

theorem tget_tinsert_ne (d : Nat → V) (l : List (Nat × V)) {a b : Nat} (v : V) (h : b ≠ a) :
    tget d (tinsert a v l) b = tget d l b := by
  induction l with
  | nil => simp [tinsert, tget, Ne.symm h]
  | cons p l ih =>
    obtain ⟨k, w⟩ := p
    by_cases hl : a < k
    · simp [tinsert, hl, tget, Ne.symm h]
    · simp [tinsert, hl, tget, ih]

theorem mem_terase {l : List (Nat × V)} {a : Nat} {p : Nat × V} : p ∈ terase a l ↔ p ∈ l ∧ p.1 ≠ a := by
  induction l with
  | nil => simp [terase]
  | cons q l ih =>
    obtain ⟨k, v⟩ := q
    by_cases h : k = a
    · subst h
      simp only [terase, if_true, ih, List.mem_cons]
      constructor
      · rintro ⟨h1, h2⟩
        exact ⟨.inr h1, h2⟩
      · rintro ⟨rfl | h1, h2⟩
        · exact absurd rfl h2
        · exact ⟨h1, h2⟩
    · simp only [terase, if_neg h, List.mem_cons, ih]
      constructor
      · rintro (rfl | ⟨h1, h2⟩)
        · exact ⟨.inl rfl, h⟩
        · exact ⟨.inr h1, h2⟩
      · rintro ⟨rfl | h1, h2⟩
        · exact .inl rfl
        · exact .inr ⟨h1, h2⟩

/-- A read of the key just written. -/
@[simp] theorem tget_tset_self [DecidableEq V] (d : Nat → V) (l : List (Nat × V)) (a : Nat) (v : V) :
    tget d (tset d l a v) a = v := by
  unfold tset
  split
  next h => rw [tget_terase_self, h]
  next => exact tget_tinsert_self d _ a v fun p hp => (mem_terase.1 hp).2

/-- A read of another key. -/
theorem tget_tset_ne [DecidableEq V] (d : Nat → V) (l : List (Nat × V)) {a b : Nat} (v : V) (h : b ≠ a) :
    tget d (tset d l a v) b = tget d l b := by
  unfold tset
  split
  · exact tget_terase_ne d l h
  · rw [tget_tinsert_ne d _ v h, tget_terase_ne d l h]

/-- A read after a write, at any key. -/
theorem tget_tset [DecidableEq V] (d : Nat → V) (l : List (Nat × V)) (a b : Nat) (v : V) :
    tget d (tset d l a v) b = if b = a then v else tget d l b := by
  split
  next h => rw [h, tget_tset_self]
  next h => exact tget_tset_ne d l v h

/-! ## The canonical form -/

theorem tsorted_iff (l : List (Nat × V)) : tsorted l = true ↔ l.Pairwise fun p q => p.1 < q.1 := by
  induction l with
  | nil => simp [tsorted]
  | cons p l ih =>
    obtain ⟨a, v⟩ := p
    cases l with
    | nil => simp [tsorted]
    | cons q l =>
      obtain ⟨b, w⟩ := q
      simp only [tsorted, Bool.and_eq_true, decide_eq_true_eq, ih]
      constructor
      · rintro ⟨h, hp⟩
        refine List.pairwise_cons.2 ⟨fun x hx => ?_, hp⟩
        rcases List.mem_cons.1 hx with rfl | hx
        · exact h
        · exact Nat.lt_trans h ((List.pairwise_cons.1 hp).1 x hx)
      · intro hp
        exact ⟨(List.pairwise_cons.1 hp).1 (b, w) (by simp), (List.pairwise_cons.1 hp).2⟩

/-- The canonical form: keys strictly rising, no entry at its default. -/
theorem twf_iff [DecidableEq V] (d : Nat → V) (l : List (Nat × V)) :
    twf d l = true ↔ (l.Pairwise fun p q => p.1 < q.1) ∧ ∀ p ∈ l, p.2 ≠ d p.1 := by
  simp [twf, tsorted_iff]

theorem twf_filter [DecidableEq V] (d : Nat → V) (l : List (Nat × V)) (c : Nat × V → Bool) (h : twf d l = true) :
    twf d (l.filter c) = true := by
  rw [twf_iff] at h ⊢
  exact ⟨h.1.filter _, fun p hp => h.2 p (List.mem_filter.1 hp).1⟩

theorem terase_eq_filter (l : List (Nat × V)) (a : Nat) : terase a l = l.filter fun p => !decide (p.1 = a) := by
  induction l with
  | nil => rfl
  | cons p l ih =>
    obtain ⟨k, v⟩ := p
    by_cases h : k = a <;> simp [terase, h, ih]

theorem mem_tinsert {l : List (Nat × V)} {a : Nat} {v : V} {p : Nat × V} : p ∈ tinsert a v l ↔ p = (a, v) ∨ p ∈ l := by
  induction l with
  | nil => simp [tinsert]
  | cons q l ih =>
    obtain ⟨k, w⟩ := q
    by_cases h : a < k
    · simp [tinsert, h]
    · simp only [tinsert, h, if_false, List.mem_cons, ih]
      tauto

theorem pairwise_tinsert (l : List (Nat × V)) (a : Nat) (v : V) (h : l.Pairwise fun p q => p.1 < q.1)
    (hn : ∀ p ∈ l, p.1 ≠ a) : (tinsert a v l).Pairwise fun p q => p.1 < q.1 := by
  induction l with
  | nil => simp [tinsert]
  | cons q l ih =>
    obtain ⟨k, w⟩ := q
    have hp := List.pairwise_cons.1 h
    by_cases hl : a < k
    · simp only [tinsert, hl, if_true]
      refine List.pairwise_cons.2 ⟨fun x hx => ?_, h⟩
      rcases List.mem_cons.1 hx with rfl | hx
      · exact hl
      · exact Nat.lt_trans hl (hp.1 x hx)
    · simp only [tinsert, hl, if_false]
      refine List.pairwise_cons.2 ⟨fun x hx => ?_, ih hp.2 fun p hq => hn p (by simp [hq])⟩
      rcases mem_tinsert.1 hx with rfl | hx
      · have := hn (k, w) (by simp)
        simp only at this ⊢
        omega
      · exact hp.1 x hx

/-- A write keeps the canonical form. -/
theorem twf_tset [DecidableEq V] (d : Nat → V) (l : List (Nat × V)) (a : Nat) (v : V) (h : twf d l = true) :
    twf d (tset d l a v) = true := by
  have he : twf d (terase a l) = true := by
    rw [terase_eq_filter]
    exact twf_filter d l _ h
  unfold tset
  split
  · exact he
  next hv =>
    rw [twf_iff] at he ⊢
    refine ⟨pairwise_tinsert _ a v he.1 fun p hp => (mem_terase.1 hp).2, fun p hp => ?_⟩
    rcases mem_tinsert.1 hp with rfl | hp
    · exact hv
    · exact he.2 p hp

theorem terase_terase (l : List (Nat × V)) (a : Nat) : terase a (terase a l) = terase a l := by
  simp [terase_eq_filter]

theorem terase_tinsert (l : List (Nat × V)) (a : Nat) (v : V) : terase a (tinsert a v l) = terase a l := by
  induction l with
  | nil => simp [tinsert, terase]
  | cons p l ih =>
    obtain ⟨k, w⟩ := p
    simp only [tinsert]
    split
    · simp [terase]
    · simp only [terase, ih]

/-- The later of two values put at one key stands. -/
@[simp] theorem tset_tset [DecidableEq V] (d : Nat → V) (l : List (Nat × V)) (a : Nat) (v w : V) :
    tset d (tset d l a v) a w = tset d l a w := by
  have h : terase a (tset d l a v) = terase a l := by
    unfold tset
    split
    · exact terase_terase l a
    · rw [terase_tinsert, terase_terase]
  have key (l' : List (Nat × V)) : tset d l' a w = if w = d a then terase a l' else tinsert a w (terase a l') := rfl
  rw [key, h, key]

end Sys2Proof.Machine
end

