-- ==== Sys2Proof/Laws/Keeps.lean ====
section
/-! SUPPORT. What no command but a power-on or a power loss of the AO domain can do: touch the queue, set chip time back or
forward, break the canonical form of the register table or the SRAM windows, or return a burned OTP bit to 0. One relation
says it, and one lemma per operation. -/

namespace Sys2Proof.Machine

/-- Bits burned stay burned (R392, R398): words, spare rows, entry copies and lock fuses. -/
structure OtpLe (a b : Otp) : Prop where
  words  : ∀ w i, (a.pattern w).testBit i = true → (b.pattern w).testBit i = true
  spare  : ∀ w i, (a.sparePattern w).testBit i = true → (b.sparePattern w).testBit i = true
  copies : ∀ e c i, (a.copy e c).testBit i = true → (b.copy e c).testBit i = true
  fuses  : ∀ r i, a.fuse r i = true → b.fuse r i = true

theorem OtpLe.refl (a : Otp) : OtpLe a a := ⟨fun _ _ h => h, fun _ _ h => h, fun _ _ _ h => h, fun _ _ h => h⟩

theorem OtpLe.trans {a b c : Otp} (h : OtpLe a b) (k : OtpLe b c) : OtpLe a c :=
  ⟨fun w i x => k.words w i (h.words w i x), fun w i x => k.spare w i (h.spare w i x),
    fun e d i x => k.copies e d i (h.copies e d i x), fun r i x => k.fuses r i (h.fuses r i x)⟩

/-- The same cells under another command or list of overrides. -/
theorem OtpLe.same {a b : Otp} (h1 : b.words = a.words) (h2 : b.spare = a.spare) (h3 : b.copies = a.copies)
    (h4 : b.fuses = a.fuses) : OtpLe a b := by
  refine ⟨fun w i h => ?_, fun w i h => ?_, fun e c i h => ?_, fun r i h => ?_⟩
  · simpa [Otp.pattern, h1] using h
  · simpa [Otp.sparePattern, h2] using h
  · simpa [Otp.copy, h3] using h
  · simpa [Otp.fuse, h4] using h

/-- What every operation of a command keeps. -/
structure Keeps (s t : State) : Prop where
  pending : t.pending = s.pending
  ticks   : t.ticks = s.ticks
  ao      : t.power.ao = s.power.ao
  wf      : s.wf = true → t.wf = true
  free    : s.freeCtr ≤ t.freeCtr
  burned  : OtpLe s.otp t.otp

variable {s₀ s t : State}

theorem Keeps.refl (s : State) : Keeps s s := ⟨rfl, rfl, rfl, id, Nat.le_refl _, OtpLe.refl _⟩

theorem Keeps.trans (h : Keeps s₀ s) (k : Keeps s t) : Keeps s₀ t :=
  ⟨k.pending.trans h.pending, k.ticks.trans h.ticks, k.ao.trans h.ao, fun w => k.wf (h.wf w), Nat.le_trans h.free k.free,
    h.burned.trans k.burned⟩

/-- A change of parts that `Keeps` does not speak of. -/
theorem Keeps.same (h : Keeps s₀ s) (h1 : t.pending = s.pending) (h2 : t.ticks = s.ticks) (h3 : t.power.ao = s.power.ao)
    (h4 : t.regs = s.regs) (h5 : t.mem = s.mem) (h6 : t.freeCtr = s.freeCtr) (h7 : t.otp = s.otp) : Keeps s₀ t := by
  refine h.trans ⟨h1, h2, h3, fun w => ?_, by omega, h7 ▸ OtpLe.refl _⟩
  simpa [State.wf, h4, h5] using w

/-- The same for a state written out field by field. -/
theorem keeps_mk {pending ticks sub power regs mem hostA hostB burst held reads eng faults resetReq intc almanac plant loops trim
    rflash xflash seq rails adc health otp path therm timers crc links gauged gauge resTimers freeCtr}
    (h1 : pending = s.pending) (h2 : ticks = s.ticks) (h3 : power.ao = s.power.ao) (h4 : regs = s.regs) (h5 : mem = s.mem)
    (h6 : freeCtr = s.freeCtr) (h7 : otp = s.otp) (h : Keeps s₀ s) :
    Keeps s₀ ⟨pending, ticks, sub, power, regs, mem, hostA, hostB, burst, held, reads, eng, faults, resetReq, intc, almanac,
      plant, loops, trim, rflash, xflash, seq, rails, adc, health, otp, path, therm, timers, crc, links, gauged,
      gauge, resTimers, freeCtr⟩ :=
  h.same h1 h2 h3 h4 h5 h6 h7

/-- The register table replaced by another canonical one. -/
theorem keeps_regs {regs : List (Nat × Word)} (hw : twf resetWord s.regs = true → twf resetWord regs = true) (h : Keeps s₀ s) :
    Keeps s₀ { s with regs := regs } := by
  refine h.trans ⟨rfl, rfl, rfl, fun w => ?_, Nat.le_refl _, OtpLe.refl _⟩
  simp only [State.wf, Bool.and_eq_true] at w ⊢
  exact ⟨hw w.1, w.2⟩

/-- Both: the register table replaced, and parts that `Keeps` does not speak of. -/
theorem keeps_mkw {pending ticks sub power regs mem hostA hostB burst held reads eng faults resetReq intc almanac plant loops trim
    rflash xflash seq rails adc health otp path therm timers crc links gauged gauge resTimers freeCtr}
    (h1 : pending = s.pending) (h2 : ticks = s.ticks) (h3 : power.ao = s.power.ao)
    (h4 : twf resetWord s.regs = true → twf resetWord regs = true) (h5 : mem = s.mem)
    (h6 : freeCtr = s.freeCtr) (h7 : otp = s.otp) (h : Keeps s₀ s) :
    Keeps s₀ ⟨pending, ticks, sub, power, regs, mem, hostA, hostB, burst, held, reads, eng, faults, resetReq, intc, almanac,
      plant, loops, trim, rflash, xflash, seq, rails, adc, health, otp, path, therm, timers, crc, links, gauged,
      gauge, resTimers, freeCtr⟩ :=
  (keeps_regs h4 h).same h1 h2 h3 rfl h5 h6 h7

theorem keeps_cut {G : Prop} (a : Keeps s₀ s) (b : Keeps s₀ s → G) : G := b a

theorem keeps_ite {c : Prop} [Decidable c] (h : Keeps s₀ s) (k : Keeps s₀ t) : Keeps s₀ (if c then s else t) := by
  split
  · exact h
  · exact k

theorem keeps_fst {α : Type} {p : State × α} {b : α} (e : p = (s, b)) (h : Keeps s₀ p.1) : Keeps s₀ s := by
  rw [e] at h
  exact h

/-- A fold of an operation over a list. -/
theorem keeps_foldl {α : Type} {f : State → α → State} {l : List α} (hf : ∀ s a, Keeps s₀ s → Keeps s₀ (f s a))
    (h : Keeps s₀ s) : Keeps s₀ (l.foldl f s) := by
  induction l generalizing s with
  | nil => exact h
  | cons a l ih => exact ih (hf s a h)

/-! ## Registers and memory -/

theorem State.wr_keeps {a : Nat} {w : Word} (h : Keeps s₀ s) : Keeps s₀ (s.wr a w) :=
  keeps_regs (fun k => twf_tset _ _ _ _ k) h

theorem State.setByte_keeps {a : Nat} {b : Byte} (h : Keeps s₀ s) : Keeps s₀ (s.setByte a b) := by
  refine h.trans ⟨rfl, rfl, rfl, fun w => ?_, Nat.le_refl _, OtpLe.refl _⟩
  simp only [State.wf, State.setByte, Bool.and_eq_true] at w ⊢
  exact ⟨w.1, twf_tset _ _ _ _ w.2⟩

theorem State.setBytes_keeps {a : Nat} {bs : List Byte} (h : Keeps s₀ s) : Keeps s₀ (s.setBytes a bs) := by
  induction bs generalizing s a with
  | nil => exact h
  | cons b bs ih => exact ih (State.setByte_keeps h)

theorem State.nextFree_keeps (h : Keeps s₀ s) : Keeps s₀ s.nextFree :=
  h.trans ⟨rfl, rfl, rfl, id, Nat.le_succ _, OtpLe.refl _⟩

/-- A part that `Keeps` does not speak of written anew, with the free values that this took. -/
theorem Keeps.freed (h : Keeps s₀ s) (h1 : t.pending = s.pending) (h2 : t.ticks = s.ticks) (h3 : t.power = s.power)
    (h4 : t.regs = s.regs) (h5 : t.mem = s.mem) (h6 : s.freeCtr ≤ t.freeCtr) (h7 : t.otp = s.otp) : Keeps s₀ t := by
  refine h.trans ⟨h1, h2, by rw [h3], fun w => ?_, h6, h7 ▸ OtpLe.refl _⟩
  simpa [State.wf, h4, h5] using w

theorem State.when_keeps {c : Bool} {g : State → State} (hg : ∀ s, Keeps s₀ s → Keeps s₀ (g s)) (h : Keeps s₀ s) :
    Keeps s₀ (s.when c g) := by
  unfold State.when
  split
  · exact hg s h
  · exact h

/-! ## Parts replaced whole -/

theorem State.setPower_keeps {p : Power} (hp : p.ao = s.power.ao) (h : Keeps s₀ s) : Keeps s₀ (s.setPower p) :=
  h.same rfl rfl hp rfl rfl rfl rfl

theorem State.setOtp_keeps {o : Otp} (ho : OtpLe s.otp o) (h : Keeps s₀ s) : Keeps s₀ (s.setOtp o) :=
  h.trans ⟨rfl, rfl, rfl, id, Nat.le_refl _, ho⟩

/-- The canonical form of the register table after a reset. -/
theorem twf_resetRegs {keep : Nat → Word} {regs : List (Nat × Word)} (h : twf resetWord regs = true) :
    twf resetWord (resetRegs keep regs) = true := by
  rw [twf_iff] at h ⊢
  unfold resetRegs
  refine ⟨?_, ?_⟩
  · rw [List.pairwise_filterMap]
    refine h.1.imp fun {p q} hpq a ha b hb => ?_
    simp only at ha hb
    split at ha <;> split at hb <;> simp at ha hb
    rw [← ha, ← hb]
    exact hpq
  · intro p hp
    obtain ⟨q, -, hq⟩ := List.mem_filterMap.1 hp
    simp only at hq
    split at hq
    · cases hq
    next hne =>
      injection hq with hq
      subst hq
      exact hne

end Sys2Proof.Machine
end

