-- ==== Sys2Proof/Laws/KeepsOps.lean ====
section
/-! SUPPORT. `Keeps` for the shared operations: one lemma per operation. -/

namespace Sys2Proof.Machine

theorem State.setF_keeps {s₀ s : State} {fd : Fld} {v : Nat} (hk : Keeps s₀ s) : Keeps s₀ (State.setF s fd v) := by
  unfold State.setF
  repeat' first | with_reducible assumption | with_reducible apply State.wr_keeps

theorem State.setFb_keeps {s₀ s : State} {fd : Fld} {b : Bool} (hk : Keeps s₀ s) : Keeps s₀ (State.setFb s fd b) := by
  unfold State.setFb
  repeat' first | with_reducible assumption | with_reducible apply State.setF_keeps

theorem State.orReg_keeps {s₀ s : State} {a : Nat} {m : Word} (hk : Keeps s₀ s) : Keeps s₀ (State.orReg s a m) := by
  unfold State.orReg
  repeat' first | with_reducible assumption | with_reducible apply State.wr_keeps

theorem State.clrReg_keeps {s₀ s : State} {a : Nat} {m : Word} (hk : Keeps s₀ s) : Keeps s₀ (State.clrReg s a m) := by
  unfold State.clrReg
  repeat' first | with_reducible assumption | with_reducible apply State.wr_keeps

theorem State.ev_keeps {s₀ s : State} {fd : Fld} (hk : Keeps s₀ s) : Keeps s₀ (State.ev s fd) := by
  unfold State.ev
  repeat' first | with_reducible assumption | with_reducible apply State.orReg_keeps

theorem State.evBit_keeps {s₀ s : State} {fd : Fld} {i : Nat} (hk : Keeps s₀ s) : Keeps s₀ (State.evBit s fd i) := by
  unfold State.evBit
  repeat' first | with_reducible assumption | with_reducible apply State.orReg_keeps

theorem State.incF_keeps {s₀ s : State} {fd : Fld} (hk : Keeps s₀ s) : Keeps s₀ (State.incF s fd) := by
  unfold State.incF
  repeat' first | with_reducible assumption | with_reducible apply State.setF_keeps

theorem State.setMemWord_keeps {s₀ s : State} {a : Nat} {w : Word} (hk : Keeps s₀ s) :
    Keeps s₀ (State.setMemWord s a w) := by
  unfold State.setMemWord
  repeat' first | with_reducible assumption | with_reducible apply State.setBytes_keeps

theorem State.wakeUp_keeps {s₀ s : State} (hk : Keeps s₀ s) : Keeps s₀ (State.wakeUp s) := by
  unfold State.wakeUp
  repeat' first | with_reducible assumption | split | with_reducible refine keeps_mk rfl rfl rfl rfl rfl rfl rfl ?_

theorem State.setPort_keeps {s₀ s : State} {p : Proc} {h : HostPort} (hk : Keeps s₀ s) :
    Keeps s₀ (State.setPort s p h) := by
  unfold State.setPort
  repeat' first | with_reducible assumption | split | with_reducible refine keeps_mk rfl rfl rfl rfl rfl rfl rfl ?_

theorem State.setTh_keeps {s₀ s : State} {t : Nat} {x : Thread} (hk : Keeps s₀ s) : Keeps s₀ (State.setTh s t x) := by
  unfold State.setTh
  repeat' first | with_reducible assumption | with_reducible refine keeps_mk rfl rfl rfl rfl rfl rfl rfl ?_

theorem State.almanacPut_keeps {s₀ s : State} {time type srcid code d0 d1 d2 : Nat} (hk : Keeps s₀ s) :
    Keeps s₀ (State.almanacPut s time type srcid code d0 d1 d2) := by
  unfold State.almanacPut
  repeat' (first
    | (intro s; refine keeps_cut (s₀ := s₀) (s := s) ?_ ?_ <;> [subst s; (intro hs; clear_value s)])
    | (intro x; clear_value x)
    | with_reducible assumption
    | with_reducible first | apply State.setBytes_keeps | apply State.setF_keeps | apply State.incF_keeps
    | split
    | with_reducible refine keeps_mk rfl rfl rfl rfl rfl rfl rfl ?_
    | lift_lets)

theorem State.almanacOwe_keeps {s₀ s : State} {i : AlmItem} (hk : Keeps s₀ s) : Keeps s₀ (State.almanacOwe s i) := by
  unfold State.almanacOwe
  repeat' first | with_reducible assumption | with_reducible refine keeps_mk rfl rfl rfl rfl rfl rfl rfl ?_

theorem State.almanacAdd_keeps {s₀ s : State} {type srcid code d0 d1 d2 : Nat} (hk : Keeps s₀ s) :
    Keeps s₀ (State.almanacAdd s type srcid code d0 d1 d2) := by
  unfold State.almanacAdd
  repeat' (first
    | with_reducible assumption
    | with_reducible first | apply State.almanacPut_keeps | apply State.almanacOwe_keeps
    | split)

theorem State.almanacBlock_keeps {s₀ s : State} {page evbit item value : Nat} (hk : Keeps s₀ s) :
    Keeps s₀ (State.almanacBlock s page evbit item value) := by
  unfold State.almanacBlock
  repeat' first | with_reducible assumption | with_reducible apply State.almanacAdd_keeps

theorem State.almanacFire_keeps {s₀ s : State} {time code : Nat} (hk : Keeps s₀ s) :
    Keeps s₀ (State.almanacFire s time code) := by
  unfold State.almanacFire
  repeat' (first
    | (intro s; refine keeps_cut (s₀ := s₀) (s := s) ?_ ?_ <;> [subst s; (intro hs; clear_value s)])
    | (intro x; clear_value x)
    | with_reducible assumption
    | with_reducible first | apply State.almanacPut_keeps | apply State.setF_keeps | apply State.incF_keeps
    | split
    | with_reducible refine keeps_mk rfl rfl rfl rfl rfl rfl rfl ?_
    | lift_lets)

theorem State.almanacTrigger_keeps {s₀ s : State} {code : Nat} (hk : Keeps s₀ s) :
    Keeps s₀ (State.almanacTrigger s code) := by
  unfold State.almanacTrigger
  repeat' (first
    | with_reducible assumption
    | with_reducible first | apply State.almanacFire_keeps | apply State.almanacOwe_keeps
    | split)

theorem State.almanacCatchUp_keeps {s₀ s : State} (hk : Keeps s₀ s) : Keeps s₀ (State.almanacCatchUp s) := by
  unfold State.almanacCatchUp
  repeat' (first
    | with_reducible assumption
    | with_reducible first | apply State.almanacPut_keeps | apply State.almanacFire_keeps
    | with_reducible refine keeps_foldl (fun s a h => ?_) ?_
    | split
    | with_reducible refine keeps_mk rfl rfl rfl rfl rfl rfl rfl ?_)

theorem State.pulse_keeps {s₀ s : State} {src : Nat} (hk : Keeps s₀ s) : Keeps s₀ (State.pulse s src) := by
  unfold State.pulse
  repeat' first | with_reducible assumption | split | with_reducible refine keeps_mk rfl rfl rfl rfl rfl rfl rfl ?_

theorem State.noteOutputs_keeps {s₀ before after : State} (h : Keeps s₀ after) : Keeps s₀ (State.noteOutputs before after) := by
  unfold State.noteOutputs
  repeat' (first
    | with_reducible assumption
    | with_reducible first | apply State.orReg_keeps
    | split
    | (intro x; clear_value x)
    | lift_lets)

theorem State.setSrc_keeps {s₀ s : State} {k : Nat} {x : FaultSrc} (hk : Keeps s₀ s) :
    Keeps s₀ (State.setSrc s k x) := by
  unfold State.setSrc
  repeat' first | with_reducible assumption | with_reducible refine keeps_mk rfl rfl rfl rfl rfl rfl rfl ?_

theorem State.history_keeps {s₀ s : State} {k type cause detail : Nat} {origin : Option Nat} (hk : Keeps s₀ s) :
    Keeps s₀ (State.history s k type cause detail origin) := by
  unfold State.history
  repeat' (first
    | (intro s; refine keeps_cut (s₀ := s₀) (s := s) ?_ ?_ <;> [subst s; (intro hs; clear_value s)])
    | (intro x; clear_value x)
    | with_reducible assumption
    | with_reducible first | apply State.wr_keeps | apply State.setF_keeps | apply State.setFb_keeps
    | with_reducible first | apply State.incF_keeps | apply State.almanacAdd_keeps
    | lift_lets)

theorem State.presentFault_keeps {s₀ s : State} {k : Nat} {first : Bool} (hk : Keeps s₀ s) :
    Keeps s₀ (State.presentFault s k first) := by
  unfold State.presentFault
  repeat' (first
    | with_reducible assumption
    | with_reducible first | apply State.pulse_keeps | apply State.noteOutputs_keeps | apply State.orReg_keeps
    | split
    | with_reducible refine keeps_mk rfl rfl rfl rfl rfl rfl rfl ?_)

theorem State.raiseFrom_keeps {s₀ s : State} {k cause detail : Nat} {hw : Bool} {origin : Option Nat} (hk : Keeps s₀ s) :
    Keeps s₀ (State.raiseFrom s k cause detail hw origin) := by
  unfold State.raiseFrom
  repeat' (first
    | (intro s; refine keeps_cut (s₀ := s₀) (s := s) ?_ ?_ <;> [subst s; (intro hs; clear_value s)])
    | (intro x; clear_value x)
    | with_reducible assumption
    | with_reducible first | apply State.setSrc_keeps | apply State.incF_keeps | apply State.history_keeps
    | with_reducible first | apply State.setF_keeps | apply State.ev_keeps | apply State.presentFault_keeps
    | with_reducible first | apply State.wakeUp_keeps | apply State.almanacTrigger_keeps | apply State.orReg_keeps
    | split
    | with_reducible refine keeps_mk rfl rfl rfl rfl rfl rfl rfl ?_
    | lift_lets)

theorem State.raise_keeps {s₀ s : State} {k cause detail : Nat} (hk : Keeps s₀ s) :
    Keeps s₀ (State.raise s k cause detail) := by
  unfold State.raise
  repeat' first | with_reducible assumption | with_reducible apply State.raiseFrom_keeps

theorem State.raiseLevel_keeps {s₀ s : State} {k cause detail : Nat} (hk : Keeps s₀ s) :
    Keeps s₀ (State.raiseLevel s k cause detail) := by
  unfold State.raiseLevel
  repeat' first | with_reducible assumption | with_reducible apply State.raiseFrom_keeps

theorem State.endLevel_keeps {s₀ s : State} {k : Nat} (hk : Keeps s₀ s) : Keeps s₀ (State.endLevel s k) := by
  unfold State.endLevel
  repeat' (first
    | with_reducible assumption
    | with_reducible apply State.setSrc_keeps
    | with_reducible refine keeps_mk rfl rfl rfl rfl rfl rfl rfl ?_)

theorem State.gaugeOwe_keeps {s₀ s : State} (hk : Keeps s₀ s) : Keeps s₀ (State.gaugeOwe s) := by
  unfold State.gaugeOwe
  repeat' first | with_reducible assumption | with_reducible refine keeps_mk rfl rfl rfl rfl rfl rfl rfl ?_

theorem State.logbookAt_keeps {s₀ s : State} {kind : Nat} {p : Proc} {addr : Nat} {data : Word} {time : Nat} (hk : Keeps s₀ s) :
    Keeps s₀ (State.logbookAt s kind p addr data time) := by
  unfold State.logbookAt
  repeat' (first
    | (intro s; refine keeps_cut (s₀ := s₀) (s := s) ?_ ?_ <;> [subst s; (intro hs; clear_value s)])
    | (intro x; clear_value x)
    | with_reducible assumption
    | with_reducible first | apply State.setBytes_keeps | apply State.setF_keeps | apply State.pulse_keeps
    | split
    | lift_lets)

theorem State.logbook_keeps {s₀ s : State} {kind : Nat} {p : Proc} {addr : Nat} {data : Word} (hk : Keeps s₀ s) :
    Keeps s₀ (State.logbook s kind p addr data) := by
  unfold State.logbook
  repeat' first | with_reducible assumption | with_reducible apply State.logbookAt_keeps

end Sys2Proof.Machine
end

