-- ==== Sys2Proof/Laws/KeepsRecords.lean ====
section
/-! SUPPORT. `Keeps` for the record flash: one lemma per operation. -/

namespace Sys2Proof.Machine

theorem State.setRec_keeps {s₀ s : State} {r : RecFlash} (hk : Keeps s₀ s) : Keeps s₀ (State.setRec s r) := by
  unfold State.setRec
  repeat' first | with_reducible assumption | with_reducible refine keeps_mk rfl rfl rfl rfl rfl rfl rfl ?_

theorem State.recAdd_keeps {s₀ s : State} {j : RecJob} (hk : Keeps s₀ s) : Keeps s₀ (State.recAdd s j) := by
  unfold State.recAdd
  repeat' (first
    | with_reducible assumption
    | with_reducible apply State.setRec_keeps
    | with_reducible refine keeps_mk rfl rfl rfl rfl rfl rfl rfl ?_)

theorem State.recRing_keeps {s₀ s : State} {kind : RecKind} {g : Ring} {data : Nat → List Byte} (hk : Keeps s₀ s) :
    Keeps s₀ (State.recRing s kind g data) := by
  unfold State.recRing
  repeat' (first
    | (intro s; refine keeps_cut (s₀ := s₀) (s := s) ?_ ?_ <;> [subst s; (intro hs; clear_value s)])
    | (intro x; clear_value x)
    | with_reducible assumption
    | with_reducible first | apply State.setRec_keeps | apply State.recAdd_keeps
    | with_reducible refine keeps_mk rfl rfl rfl rfl rfl rfl rfl ?_
    | lift_lets)

theorem State.recPages_keeps {s₀ s : State} {kind : RecKind} {page : Nat} {data : List Byte} (hk : Keeps s₀ s) :
    Keeps s₀ (State.recPages s kind page data) := by
  unfold State.recPages
  repeat' first | with_reducible assumption | with_reducible apply State.recAdd_keeps

theorem State.recLastFault_keeps {s₀ s : State} {source : Nat} {words : List Word} (hk : Keeps s₀ s) :
    Keeps s₀ (State.recLastFault s source words) := by
  unfold State.recLastFault
  repeat' (first
    | (intro s; refine keeps_cut (s₀ := s₀) (s := s) ?_ ?_ <;> [subst s; (intro hs; clear_value s)])
    | (intro x; clear_value x)
    | with_reducible assumption
    | with_reducible apply State.recRing_keeps
    | lift_lets)

theorem State.recCounters_keeps {s₀ s : State} (hk : Keeps s₀ s) : Keeps s₀ (State.recCounters s) := by
  unfold State.recCounters
  repeat' (first
    | (intro s; refine keeps_cut (s₀ := s₀) (s := s) ?_ ?_ <;> [subst s; (intro hs; clear_value s)])
    | (intro x; clear_value x)
    | with_reducible assumption
    | with_reducible first | apply State.setRec_keeps | apply State.recPages_keeps
    | with_reducible refine keeps_mk rfl rfl rfl rfl rfl rfl rfl ?_
    | lift_lets)

theorem State.recRemapTable_keeps {s₀ s : State} (hk : Keeps s₀ s) : Keeps s₀ (State.recRemapTable s) := by
  unfold State.recRemapTable
  repeat' (first
    | (intro s; refine keeps_cut (s₀ := s₀) (s := s) ?_ ?_ <;> [subst s; (intro hs; clear_value s)])
    | (intro x; clear_value x)
    | with_reducible assumption
    | with_reducible first | apply State.setRec_keeps | apply State.recPages_keeps
    | with_reducible refine keeps_mk rfl rfl rfl rfl rfl rfl rfl ?_
    | lift_lets)

theorem State.recCmdDone_keeps {s₀ s : State} {code recno : Nat} (hk : Keeps s₀ s) :
    Keeps s₀ (State.recCmdDone s code recno) := by
  unfold State.recCmdDone
  repeat' (first
    | (intro s; refine keeps_cut (s₀ := s₀) (s := s) ?_ ?_ <;> [subst s; (intro hs; clear_value s)])
    | (intro x; clear_value x)
    | with_reducible assumption
    | with_reducible first | apply State.wr_keeps | apply State.setF_keeps | apply State.setFb_keeps
    | with_reducible first | apply State.ev_keeps | apply State.pulse_keeps
    | lift_lets)

theorem State.recCmdBegin_keeps {s₀ s : State} (hk : Keeps s₀ s) : Keeps s₀ (State.recCmdBegin s) := by
  unfold State.recCmdBegin
  repeat' (first
    | with_reducible assumption
    | with_reducible first | apply State.wr_keeps | apply State.setF_keeps)

theorem State.recCmdEnd_keeps {s₀ s : State} {code recno : Nat} (hk : Keeps s₀ s) :
    Keeps s₀ (State.recCmdEnd s code recno) := by
  unfold State.recCmdEnd
  repeat' (first
    | with_reducible assumption
    | with_reducible first | apply State.setF_keeps | apply State.recCmdDone_keeps)

theorem State.spareUsed_keeps {s₀ s : State} (hk : Keeps s₀ s) : Keeps s₀ (State.spareUsed s) := by
  unfold State.spareUsed
  repeat' first | with_reducible assumption | with_reducible apply State.ev_keeps

theorem State.spareGone_keeps {s₀ s : State} {cause : Nat} (hk : Keeps s₀ s) :
    Keeps s₀ (State.spareGone s cause) := by
  unfold State.spareGone
  repeat' (first
    | with_reducible assumption
    | with_reducible first | apply State.setF_keeps | apply State.spareUsed_keeps | apply State.raise_keeps)

theorem State.storeFail_keeps {s₀ s : State} (hk : Keeps s₀ s) : Keeps s₀ (State.storeFail s) := by
  unfold State.storeFail
  repeat' (first
    | with_reducible assumption
    | with_reducible first | apply State.ev_keeps | apply State.raise_keeps)

theorem State.recLost_keeps {s₀ s : State} {j : RecJob} {code : Nat} (hk : Keeps s₀ s) :
    Keeps s₀ (State.recLost s j code) := by
  unfold State.recLost
  repeat' (first
    | with_reducible assumption
    | with_reducible apply State.recCmdEnd_keeps
    | split
    | with_reducible refine keeps_mk rfl rfl rfl rfl rfl rfl rfl ?_)

theorem State.recKept_keeps {s₀ s : State} {j : RecJob} (hk : Keeps s₀ s) : Keeps s₀ (State.recKept s j) := by
  unfold State.recKept
  repeat' (first
    | with_reducible assumption
    | with_reducible apply State.recCmdEnd_keeps
    | split
    | with_reducible refine keeps_mk rfl rfl rfl rfl rfl rfl rfl ?_)

theorem recStartN_keeps {s₀ : State} {n : Nat} {s : State} (hk : Keeps s₀ s) : Keeps s₀ (recStartN n s) := by
  induction n generalizing s with
  | zero => exact hk
  | succ n ih =>
    unfold recStartN
    repeat' (first
      | with_reducible assumption
      | with_reducible first | apply ih | apply State.storeFail_keeps | apply State.recLost_keeps | apply State.setRec_keeps
      | split
      | (intro s; refine keeps_cut (s₀ := s₀) (s := s) ?_ ?_ <;> [skip; (intro hs; clear_value s)])
      | lift_lets)

theorem State.recStart_keeps {s₀ s : State} (hk : Keeps s₀ s) : Keeps s₀ (State.recStart s) := by
  unfold State.recStart
  repeat' first | with_reducible assumption | with_reducible apply recStartN_keeps

theorem State.recAdvance_keeps {s₀ s : State} {j : RecJob} (hk : Keeps s₀ s) : Keeps s₀ (State.recAdvance s j) := by
  unfold State.recAdvance
  repeat' (first
    | (intro s; refine keeps_cut (s₀ := s₀) (s := s) ?_ ?_ <;> [subst s; (intro hs; clear_value s)])
    | (intro x; clear_value x)
    | with_reducible assumption
    | with_reducible first | apply State.setRec_keeps | apply State.recKept_keeps
    | split
    | with_reducible refine keeps_mk rfl rfl rfl rfl rfl rfl rfl ?_
    | with_reducible refine keeps_fst (by assumption) ?_
    | lift_lets)

theorem State.recCommit_keeps {s₀ s : State} {o : RecOp} (hk : Keeps s₀ s) : Keeps s₀ (State.recCommit s o) := by
  unfold State.recCommit
  repeat' (first
    | with_reducible assumption
    | with_reducible apply State.setRec_keeps
    | with_reducible refine keeps_mk rfl rfl rfl rfl rfl rfl rfl ?_)

theorem State.recGoOn_keeps {s₀ s : State} {o : RecOp} (hk : Keeps s₀ s) : Keeps s₀ (State.recGoOn s o) := by
  unfold State.recGoOn
  repeat' (first
    | (intro s; refine keeps_cut (s₀ := s₀) (s := s) ?_ ?_ <;> [subst s; (intro hs; clear_value s)])
    | (intro x; clear_value x)
    | with_reducible assumption
    | with_reducible first | apply State.setRec_keeps | apply State.recLost_keeps | apply State.storeFail_keeps
    | split
    | with_reducible refine keeps_mk rfl rfl rfl rfl rfl rfl rfl ?_
    | lift_lets)

theorem State.recWorn_keeps {s₀ s : State} {o : RecOp} (hk : Keeps s₀ s) : Keeps s₀ (State.recWorn s o) := by
  unfold State.recWorn
  repeat' (first
    | (intro s; refine keeps_cut (s₀ := s₀) (s := s) ?_ ?_ <;> [subst s; (intro hs; clear_value s)])
    | (intro x; clear_value x)
    | with_reducible assumption
    | with_reducible first | apply State.setRec_keeps | apply State.recLost_keeps | apply State.storeFail_keeps
    | with_reducible first | apply State.spareGone_keeps | apply State.recGoOn_keeps
    | with_reducible first | apply State.recRemapTable_keeps | apply State.setF_keeps | apply State.ev_keeps
    | with_reducible first | apply State.spareUsed_keeps
    | split
    | with_reducible refine keeps_mk rfl rfl rfl rfl rfl rfl rfl ?_
    | lift_lets)

theorem State.recTorn_keeps {s₀ s : State} {o : RecOp} (hk : Keeps s₀ s) : Keeps s₀ (s.recTorn o) := by
  unfold State.recTorn
  split
  exact hk.freed rfl rfl rfl rfl rfl (Nat.le_add_right _ _) rfl

theorem State.recProgramDone_keeps {s₀ s : State} {ok : Bool} (hk : Keeps s₀ s) :
    Keeps s₀ (State.recProgramDone s ok) := by
  unfold State.recProgramDone
  repeat' (first
    | (intro s; refine keeps_cut (s₀ := s₀) (s := s) ?_ ?_ <;> [subst s; (intro hs; clear_value s)])
    | (intro x; clear_value x)
    | with_reducible assumption
    | with_reducible first | apply State.recCommit_keeps | apply State.setRec_keeps | apply State.recAdvance_keeps
    | with_reducible first | apply State.recStart_keeps | apply State.recTorn_keeps | apply State.recWorn_keeps
    | with_reducible first | apply State.recGoOn_keeps
    | split
    | with_reducible refine keeps_mk rfl rfl rfl rfl rfl rfl rfl ?_
    | lift_lets)

theorem State.recEraseDone_keeps {s₀ s : State} (hk : Keeps s₀ s) : Keeps s₀ (State.recEraseDone s) := by
  unfold State.recEraseDone
  repeat' (first
    | (intro s; refine keeps_cut (s₀ := s₀) (s := s) ?_ ?_ <;> [subst s; (intro hs; clear_value s)])
    | (intro x; clear_value x)
    | with_reducible assumption
    | with_reducible first | apply State.setRec_keeps | apply State.recGoOn_keeps | apply State.recStart_keeps
    | split
    | with_reducible refine keeps_mk rfl rfl rfl rfl rfl rfl rfl ?_
    | lift_lets)

theorem State.almanacMark_keeps {s₀ s : State} {code d0 d1 : Nat} (hk : Keeps s₀ s) :
    Keeps s₀ (State.almanacMark s code d0 d1) := by
  unfold State.almanacMark
  repeat' first | with_reducible assumption | with_reducible apply State.almanacAdd_keeps

theorem State.queueTails_keeps {s₀ s : State} {kind : RecKind} (hk : Keeps s₀ s) :
    Keeps s₀ (State.queueTails s kind) := by
  unfold State.queueTails
  repeat' (first
    | (intro s; refine keeps_cut (s₀ := s₀) (s := s) ?_ ?_ <;> [subst s; (intro hs; clear_value s)])
    | (intro x; clear_value x)
    | with_reducible assumption
    | with_reducible apply State.recPages_keeps
    | lift_lets)

theorem State.almanacRun_keeps {s₀ s : State} (hk : Keeps s₀ s) : Keeps s₀ (State.almanacRun s) := by
  unfold State.almanacRun
  repeat' (first
    | (intro s; refine keeps_cut (s₀ := s₀) (s := s) ?_ ?_ <;> [subst s; (intro hs; clear_value s)])
    | (intro x; clear_value x)
    | with_reducible assumption
    | with_reducible first | apply State.setF_keeps | apply State.almanacMark_keeps
    | lift_lets)

end Sys2Proof.Machine
end

