-- ==== Sys2Proof/Laws/KeepsThermal.lean ====
section
/-! SUPPORT. `Keeps` for the thermal block: one lemma per operation. -/

namespace Sys2Proof.Machine

theorem State.setTherm_keeps {s₀ s : State} {t : Therm} (hk : Keeps s₀ s) : Keeps s₀ (State.setTherm s t) := by
  unfold State.setTherm
  repeat' first | with_reducible assumption | with_reducible refine keeps_mk rfl rfl rfl rfl rfl rfl rfl ?_

theorem State.sensorFailed_keeps {s₀ s : State} {cause chan : Nat} (hk : Keeps s₀ s) :
    Keeps s₀ (State.sensorFailed s cause chan) := by
  unfold State.sensorFailed
  repeat' (first
    | with_reducible assumption
    | with_reducible first | apply State.setF_keeps | apply State.ev_keeps | apply State.raise_keeps)

theorem State.dieOut_keeps {s₀ s : State} {k : Nat} (hk : Keeps s₀ s) : Keeps s₀ (State.dieOut s k) := by
  unfold State.dieOut
  repeat' (first
    | (intro s; refine keeps_cut (s₀ := s₀) (s := s) ?_ ?_ <;> [subst s; (intro hs; clear_value s)])
    | (intro x; clear_value x)
    | with_reducible assumption
    | with_reducible first | apply State.setF_keeps | apply State.sensorFailed_keeps | apply State.spareUsed_keeps
    | with_reducible first | apply State.spareGone_keeps
    | split
    | lift_lets)

theorem State.dieCheck_keeps {s₀ s : State} {rd : Nat → Int} {ends : Nat} (hk : Keeps s₀ s) :
    Keeps s₀ (State.dieCheck s rd ends) := by
  unfold State.dieCheck
  repeat' (first
    | (intro s; refine keeps_cut (s₀ := s₀) (s := s) ?_ ?_ <;> [subst s; (intro hs; clear_value s)])
    | (intro x; clear_value x)
    | with_reducible assumption
    | with_reducible first | apply State.setTherm_keeps | apply State.setF_keeps | apply State.dieOut_keeps
    | with_reducible refine keeps_foldl (fun s a h => ?_) ?_
    | split
    | with_reducible refine keeps_mk rfl rfl rfl rfl rfl rfl rfl ?_
    | lift_lets)

theorem State.setLevel_keeps {s₀ s : State} {c l : Nat} (hk : Keeps s₀ s) : Keeps s₀ (State.setLevel s c l) := by
  unfold State.setLevel
  repeat' (first
    | with_reducible assumption
    | with_reducible first | apply State.setTherm_keeps | apply State.setF_keeps
    | split
    | with_reducible refine keeps_mk rfl rfl rfl rfl rfl rfl rfl ?_)

theorem State.thermHold_keeps {s₀ s : State} (hk : Keeps s₀ s) : Keeps s₀ (State.thermHold s) := by
  unfold State.thermHold
  repeat' (first
    | (intro s; refine keeps_cut (s₀ := s₀) (s := s) ?_ ?_ <;> [subst s; (intro hs; clear_value s)])
    | (intro x; clear_value x)
    | with_reducible assumption
    | with_reducible apply State.endLevel_keeps
    | split
    | lift_lets)

theorem State.enterLevel_keeps {s₀ s : State} {c l : Nat} (hk : Keeps s₀ s) : Keeps s₀ (State.enterLevel s c l) := by
  unfold State.enterLevel
  repeat' (first
    | with_reducible assumption
    | with_reducible first | apply State.ev_keeps | apply State.wakeUp_keeps | apply State.raiseLevel_keeps
    | split
    | with_reducible refine keeps_mk rfl rfl rfl rfl rfl rfl rfl ?_)

theorem State.toLevel_keeps {s₀ s : State} {c new : Nat} (hk : Keeps s₀ s) : Keeps s₀ (State.toLevel s c new) := by
  unfold State.toLevel
  repeat' (first
    | (intro s; refine keeps_cut (s₀ := s₀) (s := s) ?_ ?_ <;> [subst s; (intro hs; clear_value s)])
    | (intro x; clear_value x)
    | with_reducible assumption
    | with_reducible first | apply State.setLevel_keeps | apply State.enterLevel_keeps | apply State.ev_keeps
    | with_reducible first | apply State.wakeUp_keeps | apply State.thermHold_keeps
    | with_reducible refine keeps_foldl (fun s a h => ?_) ?_
    | split
    | lift_lets)

theorem State.judgeLevel_keeps {s₀ s : State} {c : Nat} {t : Int} (hk : Keeps s₀ s) :
    Keeps s₀ (State.judgeLevel s c t) := by
  unfold State.judgeLevel
  repeat' (first
    | (intro s; refine keeps_cut (s₀ := s₀) (s := s) ?_ ?_ <;> [subst s; (intro hs; clear_value s)])
    | (intro x; clear_value x)
    | with_reducible assumption
    | with_reducible first | apply State.setTherm_keeps | apply State.toLevel_keeps
    | with_reducible refine keeps_foldl (fun s a h => ?_) ?_
    | split
    | with_reducible refine keeps_mk rfl rfl rfl rfl rfl rfl rfl ?_
    | lift_lets)

theorem State.forgetSample_keeps {s₀ s : State} {c : Nat} (hk : Keeps s₀ s) : Keeps s₀ (State.forgetSample s c) := by
  unfold State.forgetSample
  repeat' (first
    | with_reducible assumption
    | with_reducible apply State.setTherm_keeps
    | with_reducible refine keeps_mk rfl rfl rfl rfl rfl rfl rfl ?_)

theorem State.tdDisabled_keeps {s₀ s : State} {n : Nat} (hk : Keeps s₀ s) : Keeps s₀ (State.tdDisabled s n) := by
  unfold State.tdDisabled
  repeat' (first
    | (intro s; refine keeps_cut (s₀ := s₀) (s := s) ?_ ?_ <;> [subst s; (intro hs; clear_value s)])
    | (intro x; clear_value x)
    | with_reducible assumption
    | with_reducible first | apply State.setTherm_keeps | apply State.forgetSample_keeps | apply State.setF_keeps
    | with_reducible first | apply State.toLevel_keeps
    | with_reducible refine keeps_mk rfl rfl rfl rfl rfl rfl rfl ?_
    | lift_lets)

theorem State.tdSample_keeps {s₀ s : State} {n : Nat} {r : TdReading} (hk : Keeps s₀ s) :
    Keeps s₀ (State.tdSample s n r) := by
  unfold State.tdSample
  repeat' (first
    | (intro s; refine keeps_cut (s₀ := s₀) (s := s) ?_ ?_ <;> [subst s; (intro hs; clear_value s)])
    | (intro x; clear_value x)
    | with_reducible assumption
    | with_reducible first | apply State.tdDisabled_keeps | apply State.setTherm_keeps
    | with_reducible first | apply State.forgetSample_keeps | apply State.setF_keeps
    | with_reducible first | apply State.sensorFailed_keeps | apply State.toLevel_keeps
    | with_reducible first | refine State.when_keeps (fun s h => ?_) ?_ | apply State.nextFree_keeps
    | with_reducible first | apply State.judgeLevel_keeps
    | split
    | with_reducible refine keeps_mk rfl rfl rfl rfl rfl rfl rfl ?_
    | lift_lets)

theorem State.thermStat_keeps {s₀ s : State} (hk : Keeps s₀ s) : Keeps s₀ (State.thermStat s) := by
  unfold State.thermStat
  repeat' (first
    | (intro s; refine keeps_cut (s₀ := s₀) (s := s) ?_ ?_ <;> [subst s; (intro hs; clear_value s)])
    | (intro x; clear_value x)
    | with_reducible assumption
    | with_reducible apply State.setF_keeps
    | with_reducible refine keeps_foldl (fun s a h => ?_) ?_
    | split
    | lift_lets)

theorem State.thermalSample_keeps {s₀ s : State} {die : List Int} {ends : Nat} {td : List TdReading} (hk : Keeps s₀ s) :
    Keeps s₀ (State.thermalSample s die ends td) := by
  unfold State.thermalSample
  repeat' (first
    | (intro s; refine keeps_cut (s₀ := s₀) (s := s) ?_ ?_ <;> [subst s; (intro hs; clear_value s)])
    | (intro x; clear_value x)
    | with_reducible assumption
    | with_reducible first | apply State.dieCheck_keeps | apply State.setF_keeps | apply State.judgeLevel_keeps
    | with_reducible first | apply State.forgetSample_keeps | apply State.toLevel_keeps | apply State.tdSample_keeps
    | with_reducible first | apply State.setTherm_keeps | apply State.thermStat_keeps
    | with_reducible refine keeps_foldl (fun s a h => ?_) ?_
    | split
    | with_reducible refine keeps_mk rfl rfl rfl rfl rfl rfl rfl ?_
    | lift_lets)

theorem State.countThaw_keeps {s₀ s : State} (hk : Keeps s₀ s) : Keeps s₀ (State.countThaw s) := by
  unfold State.countThaw
  repeat' (first
    | (intro s; refine keeps_cut (s₀ := s₀) (s := s) ?_ ?_ <;> [subst s; (intro hs; clear_value s)])
    | (intro x; clear_value x)
    | with_reducible assumption
    | with_reducible first | apply State.setTherm_keeps | apply State.setF_keeps
    | with_reducible refine keeps_mk rfl rfl rfl rfl rfl rfl rfl ?_
    | lift_lets)

theorem State.recentExpire_keeps {s₀ s : State} (hk : Keeps s₀ s) : Keeps s₀ (State.recentExpire s) := by
  unfold State.recentExpire
  repeat' (first
    | (intro s; refine keeps_cut (s₀ := s₀) (s := s) ?_ ?_ <;> [subst s; (intro hs; clear_value s)])
    | (intro x; clear_value x)
    | with_reducible assumption
    | with_reducible first | apply State.setTherm_keeps | apply State.setF_keeps
    | with_reducible refine keeps_mk rfl rfl rfl rfl rfl rfl rfl ?_
    | lift_lets)

theorem State.tdCfgWrite_keeps {s₀ s : State} {n : Nat} {new : Word} (hk : Keeps s₀ s) :
    Keeps s₀ (State.tdCfgWrite s n new) := by
  unfold State.tdCfgWrite
  repeat' (first
    | (intro s; refine keeps_cut (s₀ := s₀) (s := s) ?_ ?_ <;> [subst s; (intro hs; clear_value s)])
    | (intro x; clear_value x)
    | with_reducible assumption
    | with_reducible first | apply State.wr_keeps | apply State.tdDisabled_keeps | apply State.thermStat_keeps
    | split
    | lift_lets)

theorem State.thermBlockReset_keeps {s₀ s : State} (hk : Keeps s₀ s) : Keeps s₀ (State.thermBlockReset s) := by
  unfold State.thermBlockReset
  repeat' (first
    | (intro s; refine keeps_cut (s₀ := s₀) (s := s) ?_ ?_ <;> [subst s; (intro hs; clear_value s)])
    | (intro x; clear_value x)
    | with_reducible assumption
    | with_reducible first | apply State.setTherm_keeps | apply State.wr_keeps | apply State.thermStat_keeps
    | with_reducible first | apply State.thermHold_keeps
    | with_reducible refine keeps_foldl (fun s a h => ?_) ?_
    | with_reducible refine keeps_mk rfl rfl rfl rfl rfl rfl rfl ?_
    | lift_lets)

end Sys2Proof.Machine
end

