-- ==== Sys2Proof/Laws/KeepsPowerPath.lean ====
section
/-! SUPPORT. `Keeps` for the power path and the charger: one lemma per operation. -/

namespace Sys2Proof.Machine

theorem State.setPath_keeps {s₀ s : State} {p : Path} (hk : Keeps s₀ s) : Keeps s₀ (State.setPath s p) := by
  unfold State.setPath
  repeat' first | with_reducible assumption | with_reducible refine keeps_mk rfl rfl rfl rfl rfl rfl rfl ?_

theorem State.bounce_keeps {s₀ s : State} (hk : Keeps s₀ s) : Keeps s₀ (State.bounce s) := by
  unfold State.bounce
  repeat' (first
    | (intro s; refine keeps_cut (s₀ := s₀) (s := s) ?_ ?_ <;> [subst s; (intro hs; clear_value s)])
    | (intro x; clear_value x)
    | with_reducible assumption
    | with_reducible first | apply State.incF_keeps | apply State.ev_keeps | apply State.raise_keeps
    | split
    | lift_lets)

theorem State.qualJudge_keeps {s₀ s : State} (hk : Keeps s₀ s) : Keeps s₀ (State.qualJudge s) := by
  unfold State.qualJudge
  repeat' (first
    | (intro s; refine keeps_cut (s₀ := s₀) (s := s) ?_ ?_ <;> [subst s; (intro hs; clear_value s)])
    | (intro x; clear_value x)
    | with_reducible assumption
    | with_reducible first | apply State.bounce_keeps | apply State.setPath_keeps | apply State.setFb_keeps
    | split
    | with_reducible refine keeps_mk rfl rfl rfl rfl rfl rfl rfl ?_
    | lift_lets)

theorem State.testCut_keeps {s₀ s : State} (hk : Keeps s₀ s) : Keeps s₀ (State.testCut s) := by
  unfold State.testCut
  repeat' (first
    | with_reducible assumption
    | with_reducible apply State.setPath_keeps
    | split
    | with_reducible refine keeps_mk rfl rfl rfl rfl rfl rfl rfl ?_)

theorem State.toHo_keeps {s₀ s : State} {st : Nat} (hk : Keeps s₀ s) : Keeps s₀ (State.toHo s st) := by
  unfold State.toHo
  repeat' (first
    | (intro s; refine keeps_cut (s₀ := s₀) (s := s) ?_ ?_ <;> [subst s; (intro hs; clear_value s)])
    | (intro x; clear_value x)
    | with_reducible assumption
    | with_reducible first | apply State.testCut_keeps | apply State.setF_keeps | apply State.setPath_keeps
    | with_reducible first | apply State.qualJudge_keeps
    | split
    | with_reducible refine keeps_mk rfl rfl rfl rfl rfl rfl rfl ?_
    | lift_lets)

theorem State.toBridge_keeps {s₀ s : State} (hk : Keeps s₀ s) : Keeps s₀ (State.toBridge s) := by
  unfold State.toBridge
  repeat' (first
    | with_reducible assumption
    | with_reducible first | apply State.toHo_keeps | apply State.ev_keeps | apply State.gaugeOwe_keeps)

theorem State.sourceOff_keeps {s₀ s : State} (hk : Keeps s₀ s) : Keeps s₀ (State.sourceOff s) := by
  unfold State.sourceOff
  repeat' (first
    | (intro s; refine keeps_cut (s₀ := s₀) (s := s) ?_ ?_ <;> [subst s; (intro hs; clear_value s)])
    | (intro x; clear_value x)
    | with_reducible assumption
    | with_reducible first | apply State.setF_keeps | apply State.toBridge_keeps | apply State.toHo_keeps
    | split
    | lift_lets)

theorem State.toDetect_keeps {s₀ s : State} {det : Nat} (hk : Keeps s₀ s) : Keeps s₀ (State.toDetect s det) := by
  unfold State.toDetect
  repeat' (first
    | (intro s; refine keeps_cut (s₀ := s₀) (s := s) ?_ ?_ <;> [subst s; (intro hs; clear_value s)])
    | (intro x; clear_value x)
    | with_reducible assumption
    | with_reducible first | apply State.toHo_keeps | apply State.ev_keeps | apply State.wakeUp_keeps
    | with_reducible first | apply State.setPath_keeps | apply State.setF_keeps
    | split
    | with_reducible refine keeps_mk rfl rfl rfl rfl rfl rfl rfl ?_
    | lift_lets)

theorem State.inputLost_keeps {s₀ s : State} {cause : Nat} (hk : Keeps s₀ s) :
    Keeps s₀ (State.inputLost s cause) := by
  unfold State.inputLost
  repeat' (first
    | with_reducible assumption
    | with_reducible first | apply State.setF_keeps | apply State.raise_keeps)

theorem State.toSource_keeps {s₀ s : State} (hk : Keeps s₀ s) : Keeps s₀ (State.toSource s) := by
  unfold State.toSource
  repeat' (first
    | with_reducible assumption
    | with_reducible first | apply State.toHo_keeps | apply State.ev_keeps)

theorem State.hoenActs_keeps {s₀ s : State} (hk : Keeps s₀ s) : Keeps s₀ (State.hoenActs s) := by
  unfold State.hoenActs
  repeat' (first
    | with_reducible assumption
    | with_reducible apply State.setPath_keeps
    | with_reducible refine keeps_mk rfl rfl rfl rfl rfl rfl rfl ?_)

theorem State.glitch_keeps {s₀ s : State} (hk : Keeps s₀ s) : Keeps s₀ (State.glitch s) := by
  unfold State.glitch
  repeat' (first
    | (intro s; refine keeps_cut (s₀ := s₀) (s := s) ?_ ?_ <;> [subst s; (intro hs; clear_value s)])
    | (intro x; clear_value x)
    | with_reducible assumption
    | with_reducible first | apply State.toSource_keeps | apply State.hoenActs_keeps | apply State.ev_keeps
    | with_reducible first | apply State.incF_keeps | apply State.inputLost_keeps | apply State.sourceOff_keeps
    | split
    | lift_lets)

theorem State.reconnectBack_keeps {s₀ s : State} {lost : Bool} (hk : Keeps s₀ s) :
    Keeps s₀ (State.reconnectBack s lost) := by
  unfold State.reconnectBack
  repeat' (first
    | (intro s; refine keeps_cut (s₀ := s₀) (s := s) ?_ ?_ <;> [subst s; (intro hs; clear_value s)])
    | (intro x; clear_value x)
    | with_reducible assumption
    | with_reducible first | apply State.setF_keeps | apply State.bounce_keeps | apply State.toBridge_keeps
    | with_reducible first | apply State.toHo_keeps | apply State.ev_keeps
    | split
    | lift_lets)

theorem State.vacChange_keeps {s₀ s : State} {vac : Nat} (hk : Keeps s₀ s) : Keeps s₀ (State.vacChange s vac) := by
  unfold State.vacChange
  repeat' (first
    | (intro s; refine keeps_cut (s₀ := s₀) (s := s) ?_ ?_ <;> [subst s; (intro hs; clear_value s)])
    | (intro x; clear_value x)
    | with_reducible assumption
    | with_reducible first | apply State.toDetect_keeps | apply State.glitch_keeps | apply State.setF_keeps
    | with_reducible first | apply State.reconnectBack_keeps | apply State.qualJudge_keeps
    | split
    | with_reducible refine keeps_mk rfl rfl rfl rfl rfl rfl rfl ?_
    | lift_lets)

theorem State.vacQualified_keeps {s₀ s : State} (hk : Keeps s₀ s) : Keeps s₀ (State.vacQualified s) := by
  unfold State.vacQualified
  repeat' (first
    | (intro s; refine keeps_cut (s₀ := s₀) (s := s) ?_ ?_ <;> [subst s; (intro hs; clear_value s)])
    | (intro x; clear_value x)
    | with_reducible assumption
    | with_reducible first | apply State.toHo_keeps | apply State.setPath_keeps | apply State.setF_keeps
    | split
    | with_reducible refine keeps_mk rfl rfl rfl rfl rfl rfl rfl ?_
    | lift_lets)

theorem State.batdrvOff_keeps {s₀ s : State} (hk : Keeps s₀ s) : Keeps s₀ (State.batdrvOff s) := by
  unfold State.batdrvOff
  repeat' (first
    | with_reducible assumption
    | with_reducible first | apply State.setPath_keeps | apply State.setF_keeps
    | split
    | with_reducible refine keeps_mk rfl rfl rfl rfl rfl rfl rfl ?_)

theorem State.reconnected_keeps {s₀ s : State} (hk : Keeps s₀ s) : Keeps s₀ (State.reconnected s) := by
  unfold State.reconnected
  repeat' first | with_reducible assumption | with_reducible apply State.toSource_keeps | split

theorem State.detectTimeout_keeps {s₀ s : State} (hk : Keeps s₀ s) : Keeps s₀ (State.detectTimeout s) := by
  unfold State.detectTimeout
  repeat' (first
    | (intro s; refine keeps_cut (s₀ := s₀) (s := s) ?_ ?_ <;> [subst s; (intro hs; clear_value s)])
    | (intro x; clear_value x)
    | with_reducible assumption
    | with_reducible first | apply State.hoenActs_keeps | apply State.setF_keeps | apply State.incF_keeps
    | with_reducible first | apply State.bounce_keeps | apply State.toBridge_keeps | apply State.toHo_keeps
    | with_reducible first | apply State.setPath_keeps | apply State.inputLost_keeps
    | split
    | with_reducible refine keeps_mk rfl rfl rfl rfl rfl rfl rfl ?_
    | lift_lets)

theorem State.bridgeSettled_keeps {s₀ s : State} {vsys : Nat} (hk : Keeps s₀ s) :
    Keeps s₀ (State.bridgeSettled s vsys) := by
  unfold State.bridgeSettled
  repeat' (first
    | (intro s; refine keeps_cut (s₀ := s₀) (s := s) ?_ ?_ <;> [subst s; (intro hs; clear_value s)])
    | (intro x; clear_value x)
    | with_reducible assumption
    | with_reducible first | apply State.setF_keeps | apply State.setPath_keeps | apply State.ev_keeps
    | split
    | with_reducible refine keeps_mk rfl rfl rfl rfl rfl rfl rfl ?_
    | lift_lets)

theorem State.bypassClose_keeps {s₀ s : State} {vsys vbat : Nat} (hk : Keeps s₀ s) :
    Keeps s₀ (State.bypassClose s vsys vbat) := by
  unfold State.bypassClose
  repeat' (first
    | (intro s; refine keeps_cut (s₀ := s₀) (s := s) ?_ ?_ <;> [subst s; (intro hs; clear_value s)])
    | (intro x; clear_value x)
    | with_reducible assumption
    | with_reducible first | apply State.setF_keeps | apply State.ev_keeps
    | split
    | with_reducible refine keeps_mk rfl rfl rfl rfl rfl rfl rfl ?_
    | lift_lets)

theorem State.reverseBlock_keeps {s₀ s : State} (hk : Keeps s₀ s) : Keeps s₀ (State.reverseBlock s) := by
  unfold State.reverseBlock
  repeat' (first
    | (intro s; refine keeps_cut (s₀ := s₀) (s := s) ?_ ?_ <;> [subst s; (intro hs; clear_value s)])
    | (intro x; clear_value x)
    | with_reducible assumption
    | with_reducible first | apply State.setF_keeps | apply State.ev_keeps | apply State.setPath_keeps
    | with_reducible first | apply State.inputLost_keeps
    | split
    | with_reducible refine keeps_mk rfl rfl rfl rfl rfl rfl rfl ?_
    | lift_lets)

theorem State.reverseRelease_keeps {s₀ s : State} {vac vsys : Nat} (hk : Keeps s₀ s) :
    Keeps s₀ (State.reverseRelease s vac vsys) := by
  unfold State.reverseRelease
  repeat' (first
    | (intro s; refine keeps_cut (s₀ := s₀) (s := s) ?_ ?_ <;> [subst s; (intro hs; clear_value s)])
    | (intro x; clear_value x)
    | with_reducible assumption
    | with_reducible first | apply State.setPath_keeps | apply State.setF_keeps
    | split
    | with_reducible refine keeps_mk rfl rfl rfl rfl rfl rfl rfl ?_
    | lift_lets)

theorem State.inputTrip_keeps {s₀ s : State} {iin : Nat} (hk : Keeps s₀ s) : Keeps s₀ (State.inputTrip s iin) := by
  unfold State.inputTrip
  repeat' (first
    | (intro s; refine keeps_cut (s₀ := s₀) (s := s) ?_ ?_ <;> [subst s; (intro hs; clear_value s)])
    | (intro x; clear_value x)
    | with_reducible assumption
    | with_reducible first | apply State.setF_keeps | apply State.toDetect_keeps | apply State.setPath_keeps
    | split
    | with_reducible refine keeps_mk rfl rfl rfl rfl rfl rfl rfl ?_
    | lift_lets)

theorem State.hbSample_keeps {s₀ s : State} {x : HbSample} (hk : Keeps s₀ s) : Keeps s₀ (State.hbSample s x) := by
  unfold State.hbSample
  repeat' (first
    | (intro s; refine keeps_cut (s₀ := s₀) (s := s) ?_ ?_ <;> [subst s; (intro hs; clear_value s)])
    | (intro x; clear_value x)
    | with_reducible assumption
    | with_reducible first | apply State.setF_keeps | apply State.setPath_keeps | apply State.setFb_keeps
    | with_reducible refine keeps_mk rfl rfl rfl rfl rfl rfl rfl ?_
    | lift_lets)

theorem State.supplementStart_keeps {s₀ s : State} {x : HbSample} (hk : Keeps s₀ s) :
    Keeps s₀ (State.supplementStart s x) := by
  unfold State.supplementStart
  repeat' (first
    | (intro s; refine keeps_cut (s₀ := s₀) (s := s) ?_ ?_ <;> [subst s; (intro hs; clear_value s)])
    | (intro x; clear_value x)
    | with_reducible assumption
    | with_reducible first | apply State.hbSample_keeps | apply State.testCut_keeps | apply State.setPath_keeps
    | with_reducible first | apply State.setF_keeps
    | split
    | with_reducible refine keeps_mk rfl rfl rfl rfl rfl rfl rfl ?_
    | lift_lets)

theorem State.supplementEnd_keeps {s₀ s : State} {x : HbSample} (hk : Keeps s₀ s) :
    Keeps s₀ (State.supplementEnd s x) := by
  unfold State.supplementEnd
  repeat' (first
    | (intro s; refine keeps_cut (s₀ := s₀) (s := s) ?_ ?_ <;> [subst s; (intro hs; clear_value s)])
    | (intro x; clear_value x)
    | with_reducible assumption
    | with_reducible first | apply State.hbSample_keeps | apply State.setPath_keeps
    | split
    | with_reducible refine keeps_mk rfl rfl rfl rfl rfl rfl rfl ?_
    | lift_lets)

theorem State.inputSaturated_keeps {s₀ s : State} {x : HbSample} (hk : Keeps s₀ s) :
    Keeps s₀ (State.inputSaturated s x) := by
  unfold State.inputSaturated
  repeat' (first
    | (intro s; refine keeps_cut (s₀ := s₀) (s := s) ?_ ?_ <;> [subst s; (intro hs; clear_value s)])
    | (intro x; clear_value x)
    | with_reducible assumption
    | with_reducible first | apply State.hbSample_keeps | apply State.ev_keeps
    | split
    | lift_lets)

theorem State.bounceClear_keeps {s₀ s : State} (hk : Keeps s₀ s) : Keeps s₀ (State.bounceClear s) := by
  unfold State.bounceClear
  repeat' (first
    | with_reducible assumption
    | with_reducible first | apply State.setF_keeps | apply State.setPath_keeps
    | split
    | with_reducible refine keeps_mk rfl rfl rfl rfl rfl rfl rfl ?_)

theorem State.toChg_keeps {s₀ s : State} {st : Nat} (hk : Keeps s₀ s) : Keeps s₀ (State.toChg s st) := by
  unfold State.toChg
  repeat' (first
    | (intro s; refine keeps_cut (s₀ := s₀) (s := s) ?_ ?_ <;> [subst s; (intro hs; clear_value s)])
    | (intro x; clear_value x)
    | with_reducible assumption
    | with_reducible first | apply State.setF_keeps | apply State.ev_keeps | apply State.setPath_keeps
    | split
    | with_reducible refine keeps_mk rfl rfl rfl rfl rfl rfl rfl ?_
    | lift_lets)

theorem State.chargeResume_keeps {s₀ s : State} {vbat : Nat} (hk : Keeps s₀ s) :
    Keeps s₀ (State.chargeResume s vbat) := by
  unfold State.chargeResume
  repeat' (first
    | with_reducible assumption
    | with_reducible apply State.toChg_keeps
    | split
    | with_reducible refine keeps_mk rfl rfl rfl rfl rfl rfl rfl ?_)

theorem State.phaseAdvance_keeps {s₀ s : State} {vbat : Nat} (hk : Keeps s₀ s) :
    Keeps s₀ (State.phaseAdvance s vbat) := by
  unfold State.phaseAdvance
  repeat' (first
    | (intro s; refine keeps_cut (s₀ := s₀) (s := s) ?_ ?_ <;> [subst s; (intro hs; clear_value s)])
    | (intro x; clear_value x)
    | with_reducible assumption
    | with_reducible apply State.toChg_keeps
    | split
    | lift_lets)

theorem State.chargeDone_keeps {s₀ s : State} (hk : Keeps s₀ s) : Keeps s₀ (State.chargeDone s) := by
  unfold State.chargeDone
  repeat' (first
    | with_reducible assumption
    | with_reducible first | apply State.toChg_keeps | apply State.ev_keeps)

theorem State.recharge_keeps {s₀ s : State} {vbat : Nat} (hk : Keeps s₀ s) : Keeps s₀ (State.recharge s vbat) := by
  unfold State.recharge
  repeat' first | with_reducible assumption | with_reducible apply State.toChg_keeps | split

theorem State.chargeTimeout_keeps {s₀ s : State} (hk : Keeps s₀ s) : Keeps s₀ (State.chargeTimeout s) := by
  unfold State.chargeTimeout
  repeat' (first
    | (intro s; refine keeps_cut (s₀ := s₀) (s := s) ?_ ?_ <;> [subst s; (intro hs; clear_value s)])
    | (intro x; clear_value x)
    | with_reducible assumption
    | with_reducible first | apply State.toChg_keeps | apply State.ev_keeps | apply State.raise_keeps
    | split
    | lift_lets)

theorem State.safetyTick_keeps {s₀ s : State} (hk : Keeps s₀ s) : Keeps s₀ (State.safetyTick s) := by
  unfold State.safetyTick
  repeat' (first
    | with_reducible assumption
    | with_reducible apply State.setPath_keeps
    | split
    | with_reducible refine keeps_mk rfl rfl rfl rfl rfl rfl rfl ?_)

theorem State.chargerStopped_keeps {s₀ s : State} (hk : Keeps s₀ s) : Keeps s₀ (State.chargerStopped s) := by
  unfold State.chargerStopped
  repeat' (first
    | with_reducible assumption
    | with_reducible first | apply State.setPath_keeps | apply State.toChg_keeps
    | split
    | with_reducible refine keeps_mk rfl rfl rfl rfl rfl rfl rfl ?_)

theorem State.chargerPendDue_keeps {s₀ s : State} (hk : Keeps s₀ s) : Keeps s₀ (State.chargerPendDue s) := by
  unfold State.chargerPendDue
  repeat' (first
    | with_reducible assumption
    | with_reducible first | apply State.setF_keeps | apply State.toChg_keeps
    | split)

theorem State.chgOn_keeps {s₀ s : State} (hk : Keeps s₀ s) : Keeps s₀ (State.chgOn s) := by
  unfold State.chgOn
  repeat' (first
    | with_reducible assumption
    | with_reducible first | apply State.toChg_keeps | apply State.setF_keeps
    | split)

theorem State.chgOff_keeps {s₀ s : State} (hk : Keeps s₀ s) : Keeps s₀ (State.chgOff s) := by
  unfold State.chgOff
  repeat' (first
    | (intro s; refine keeps_cut (s₀ := s₀) (s := s) ?_ ?_ <;> [subst s; (intro hs; clear_value s)])
    | (intro x; clear_value x)
    | with_reducible assumption
    | with_reducible first | apply State.setF_keeps | apply State.setPath_keeps | apply State.toChg_keeps
    | split
    | with_reducible refine keeps_mk rfl rfl rfl rfl rfl rfl rfl ?_
    | lift_lets)

theorem State.leaveTimeout_keeps {s₀ s : State} (hk : Keeps s₀ s) : Keeps s₀ (State.leaveTimeout s) := by
  unfold State.leaveTimeout
  repeat' (first
    | (intro s; refine keeps_cut (s₀ := s₀) (s := s) ?_ ?_ <;> [subst s; (intro hs; clear_value s)])
    | (intro x; clear_value x)
    | with_reducible assumption
    | with_reducible first | apply State.setPath_keeps | apply State.toChg_keeps
    | split
    | with_reducible refine keeps_mk rfl rfl rfl rfl rfl rfl rfl ?_
    | lift_lets)

theorem State.inenWrite_keeps {s₀ s : State} {on : Bool} (hk : Keeps s₀ s) : Keeps s₀ (State.inenWrite s on) := by
  unfold State.inenWrite
  repeat' (first
    | (intro s; refine keeps_cut (s₀ := s₀) (s := s) ?_ ?_ <;> [subst s; (intro hs; clear_value s)])
    | (intro x; clear_value x)
    | with_reducible assumption
    | with_reducible first | apply State.setFb_keeps | apply State.toHo_keeps | apply State.qualJudge_keeps
    | with_reducible first | apply State.reconnectBack_keeps | apply State.sourceOff_keeps
    | with_reducible first | apply State.setPath_keeps | apply State.setF_keeps
    | split
    | with_reducible refine keeps_mk rfl rfl rfl rfl rfl rfl rfl ?_
    | lift_lets)

theorem State.batGo_keeps {s₀ s : State} (hk : Keeps s₀ s) : Keeps s₀ (State.batGo s) := by
  unfold State.batGo
  repeat' (first
    | with_reducible assumption
    | with_reducible first | apply State.toBridge_keeps | apply State.setF_keeps | apply State.setPath_keeps
    | split
    | with_reducible refine keeps_mk rfl rfl rfl rfl rfl rfl rfl ?_)

theorem State.hoenWrite_keeps {s₀ s : State} {on : Bool} (hk : Keeps s₀ s) : Keeps s₀ (State.hoenWrite s on) := by
  unfold State.hoenWrite
  repeat' (first
    | (intro s; refine keeps_cut (s₀ := s₀) (s := s) ?_ ?_ <;> [subst s; (intro hs; clear_value s)])
    | (intro x; clear_value x)
    | with_reducible assumption
    | with_reducible first | apply State.setFb_keeps | apply State.setPath_keeps
    | with_reducible refine keeps_mk rfl rfl rfl rfl rfl rfl rfl ?_
    | lift_lets)

theorem State.pathCtrlStore_keeps {s₀ s : State} {d : Word} (hk : Keeps s₀ s) :
    Keeps s₀ (State.pathCtrlStore s d) := by
  unfold State.pathCtrlStore
  repeat' (first
    | (intro s; refine keeps_cut (s₀ := s₀) (s := s) ?_ ?_ <;> [subst s; (intro hs; clear_value s)])
    | (intro x; clear_value x)
    | with_reducible assumption
    | with_reducible first | apply State.setFb_keeps | apply State.setPath_keeps
    | with_reducible refine keeps_mk rfl rfl rfl rfl rfl rfl rfl ?_
    | lift_lets)

theorem State.pathCtrlWrite_keeps {s₀ s : State} {host : Bool} {d : Word} (hk : Keeps s₀ s) :
    Keeps s₀ (State.pathCtrlWrite s host d) := by
  unfold State.pathCtrlWrite
  repeat' (first
    | (intro s; refine keeps_cut (s₀ := s₀) (s := s) ?_ ?_ <;> [subst s; (intro hs; clear_value s)])
    | (intro x; clear_value x)
    | with_reducible assumption
    | with_reducible first | apply State.pathCtrlStore_keeps | apply State.hoenWrite_keeps | apply State.setFb_keeps
    | with_reducible first | apply State.inenWrite_keeps | apply State.chgOn_keeps | apply State.chgOff_keeps
    | with_reducible first | apply State.leaveTimeout_keeps | apply State.batGo_keeps
    | split
    | lift_lets)

theorem State.dischargeStop_keeps {s₀ s : State} (hk : Keeps s₀ s) : Keeps s₀ (State.dischargeStop s) := by
  unfold State.dischargeStop
  repeat' (first
    | (intro s; refine keeps_cut (s₀ := s₀) (s := s) ?_ ?_ <;> [subst s; (intro hs; clear_value s)])
    | (intro x; clear_value x)
    | with_reducible assumption
    | with_reducible first | apply State.setPath_keeps | apply State.setF_keeps | apply State.toHo_keeps
    | split
    | with_reducible refine keeps_mk rfl rfl rfl rfl rfl rfl rfl ?_
    | lift_lets)

theorem State.hwLimit_keeps {s₀ s : State} {cause v : Nat} (hk : Keeps s₀ s) :
    Keeps s₀ (State.hwLimit s cause v) := by
  unfold State.hwLimit
  repeat' (first
    | (intro s; refine keeps_cut (s₀ := s₀) (s := s) ?_ ?_ <;> [subst s; (intro hs; clear_value s)])
    | (intro x; clear_value x)
    | with_reducible assumption
    | with_reducible first | apply State.setF_keeps | apply State.setPath_keeps | apply State.dischargeStop_keeps
    | with_reducible first | apply State.ev_keeps | apply State.raise_keeps
    | split
    | with_reducible refine keeps_mk rfl rfl rfl rfl rfl rfl rfl ?_
    | lift_lets)

theorem State.limRelease_keeps {s₀ s : State} {cause v : Nat} (hk : Keeps s₀ s) :
    Keeps s₀ (State.limRelease s cause v) := by
  unfold State.limRelease
  repeat' (first
    | (intro s; refine keeps_cut (s₀ := s₀) (s := s) ?_ ?_ <;> [subst s; (intro hs; clear_value s)])
    | (intro x; clear_value x)
    | with_reducible assumption
    | with_reducible first | apply State.setF_keeps | apply State.setPath_keeps | apply State.batGo_keeps
    | split
    | with_reducible refine keeps_mk rfl rfl rfl rfl rfl rfl rfl ?_
    | lift_lets)

theorem State.testStart_keeps {s₀ s : State} (hk : Keeps s₀ s) : Keeps s₀ (State.testStart s) := by
  unfold State.testStart
  repeat' (first
    | with_reducible assumption
    | with_reducible apply State.setPath_keeps
    | split
    | with_reducible refine keeps_mk rfl rfl rfl rfl rfl rfl rfl ?_)

theorem State.batteryOut_keeps {s₀ s : State} (hk : Keeps s₀ s) : Keeps s₀ (State.batteryOut s) := by
  unfold State.batteryOut
  repeat' (first
    | with_reducible assumption
    | with_reducible first | apply State.setF_keeps | apply State.ev_keeps | apply State.raise_keeps
    | split)

theorem State.testDone_keeps {s₀ s : State} {vbat : Nat} (hk : Keeps s₀ s) : Keeps s₀ (State.testDone s vbat) := by
  unfold State.testDone
  repeat' (first
    | (intro s; refine keeps_cut (s₀ := s₀) (s := s) ?_ ?_ <;> [subst s; (intro hs; clear_value s)])
    | (intro x; clear_value x)
    | with_reducible assumption
    | with_reducible first | apply State.setPath_keeps | apply State.batteryOut_keeps
    | split
    | with_reducible refine keeps_mk rfl rfl rfl rfl rfl rfl rfl ?_
    | lift_lets)

theorem State.batteryIn_keeps {s₀ s : State} {vbat : Nat} (hk : Keeps s₀ s) : Keeps s₀ (State.batteryIn s vbat) := by
  unfold State.batteryIn
  repeat' (first
    | (intro s; refine keeps_cut (s₀ := s₀) (s := s) ?_ ?_ <;> [subst s; (intro hs; clear_value s)])
    | (intro x; clear_value x)
    | with_reducible assumption
    | with_reducible first | apply State.setF_keeps | apply State.ev_keeps | apply State.leaveTimeout_keeps
    | split
    | with_reducible refine keeps_mk rfl rfl rfl rfl rfl rfl rfl ?_
    | lift_lets)

theorem State.batteryGone_keeps {s₀ s : State} {vbat : Nat} (hk : Keeps s₀ s) :
    Keeps s₀ (State.batteryGone s vbat) := by
  unfold State.batteryGone
  repeat' (first
    | with_reducible assumption
    | with_reducible apply State.batteryOut_keeps
    | split
    | with_reducible refine keeps_mk rfl rfl rfl rfl rfl rfl rfl ?_)

theorem State.headroomChange_keeps {s₀ s : State} {vsys vbat : Nat} (hk : Keeps s₀ s) :
    Keeps s₀ (State.headroomChange s vsys vbat) := by
  unfold State.headroomChange
  repeat' (first
    | (intro s; refine keeps_cut (s₀ := s₀) (s := s) ?_ ?_ <;> [subst s; (intro hs; clear_value s)])
    | (intro x; clear_value x)
    | with_reducible assumption
    | with_reducible apply State.setF_keeps
    | split
    | with_reducible refine keeps_mk rfl rfl rfl rfl rfl rfl rfl ?_
    | lift_lets)

theorem State.pathLevels_keeps {s₀ s : State} (hk : Keeps s₀ s) : Keeps s₀ (State.pathLevels s) := by
  unfold State.pathLevels
  repeat' (first
    | (intro s; refine keeps_cut (s₀ := s₀) (s := s) ?_ ?_ <;> [subst s; (intro hs; clear_value s)])
    | (intro x; clear_value x)
    | with_reducible assumption
    | with_reducible first | apply State.setF_keeps | apply State.toHo_keeps | apply State.setPath_keeps
    | with_reducible first | apply State.setFb_keeps
    | split
    | with_reducible refine keeps_mk rfl rfl rfl rfl rfl rfl rfl ?_
    | lift_lets)

theorem State.hbJudge_keeps {s₀ s : State} (hk : Keeps s₀ s) : Keeps s₀ (State.hbJudge s) := by
  unfold State.hbJudge
  repeat' (first
    | (intro s; refine keeps_cut (s₀ := s₀) (s := s) ?_ ?_ <;> [subst s; (intro hs; clear_value s)])
    | (intro x; clear_value x)
    | with_reducible assumption
    | with_reducible first | apply State.setPath_keeps | apply State.setF_keeps
    | split
    | with_reducible refine keeps_mk rfl rfl rfl rfl rfl rfl rfl ?_
    | lift_lets)

theorem State.pathSettle_keeps {s₀ s : State} (hk : Keeps s₀ s) : Keeps s₀ (State.pathSettle s) := by
  unfold State.pathSettle
  repeat' (first
    | (intro s; refine keeps_cut (s₀ := s₀) (s := s) ?_ ?_ <;> [subst s; (intro hs; clear_value s)])
    | (intro x; clear_value x)
    | with_reducible assumption
    | with_reducible first | apply State.pathLevels_keeps | apply State.toChg_keeps | apply State.setPath_keeps
    | with_reducible first | apply State.setF_keeps | apply State.raise_keeps | apply State.hbJudge_keeps
    | split
    | with_reducible refine keeps_mk rfl rfl rfl rfl rfl rfl rfl ?_
    | lift_lets)

theorem State.pathKill_keeps {s₀ s : State} (hk : Keeps s₀ s) : Keeps s₀ (State.pathKill s) := by
  unfold State.pathKill
  repeat' (first
    | (intro s; refine keeps_cut (s₀ := s₀) (s := s) ?_ ?_ <;> [subst s; (intro hs; clear_value s)])
    | (intro x; clear_value x)
    | with_reducible assumption
    | with_reducible first | apply State.setF_keeps | apply State.setPath_keeps
    | with_reducible refine keeps_mk rfl rfl rfl rfl rfl rfl rfl ?_
    | lift_lets)

end Sys2Proof.Machine
end

