-- ==== Sys2Proof/Laws/KeepsFlash.lean ====
section
/-! SUPPORT. `Keeps` for the external flash: one lemma per operation. -/

namespace Sys2Proof.Machine

theorem State.setX_keeps {s₀ s : State} {x : XFlash} (hk : Keeps s₀ s) : Keeps s₀ (State.setX s x) := by
  unfold State.setX
  repeat' first | with_reducible assumption | with_reducible refine keeps_mk rfl rfl rfl rfl rfl rfl rfl ?_

theorem State.flashFail_keeps {s₀ s : State} {cause : Nat} (hk : Keeps s₀ s) :
    Keeps s₀ (State.flashFail s cause) := by
  unfold State.flashFail
  repeat' (first
    | with_reducible assumption
    | with_reducible first | apply State.setF_keeps | apply State.ev_keeps | apply State.raise_keeps)

theorem State.discBegin_keeps {s₀ s : State} (hk : Keeps s₀ s) : Keeps s₀ (State.discBegin s) := by
  unfold State.discBegin
  repeat' (first
    | with_reducible assumption
    | with_reducible apply State.setX_keeps
    | split
    | with_reducible refine keeps_mk rfl rfl rfl rfl rfl rfl rfl ?_)

theorem State.discStart_keeps {s₀ s : State} (hk : Keeps s₀ s) : Keeps s₀ (State.discStart s) := by
  unfold State.discStart
  repeat' first | with_reducible assumption | with_reducible apply State.discBegin_keeps | split

theorem State.setPart_keeps {s₀ s : State} {id cs off size : Nat} (hk : Keeps s₀ s) :
    Keeps s₀ (State.setPart s id cs off size) := by
  unfold State.setPart
  repeat' (first
    | (intro s; refine keeps_cut (s₀ := s₀) (s := s) ?_ ?_ <;> [subst s; (intro hs; clear_value s)])
    | (intro x; clear_value x)
    | with_reducible assumption
    | with_reducible apply State.setF_keeps
    | lift_lets)

theorem State.defaultLayout_keeps {s₀ s : State} {l : Nat} (hk : Keeps s₀ s) :
    Keeps s₀ (State.defaultLayout s l) := by
  unfold State.defaultLayout
  repeat' (first
    | (intro s; refine keeps_cut (s₀ := s₀) (s := s) ?_ ?_ <;> [subst s; (intro hs; clear_value s)])
    | (intro x; clear_value x)
    | with_reducible assumption
    | with_reducible apply State.setPart_keeps
    | lift_lets)

theorem State.discFinish_keeps {s₀ s : State} {c0 c1 : Option Sfdp} (hk : Keeps s₀ s) :
    Keeps s₀ (State.discFinish s c0 c1) := by
  unfold State.discFinish
  repeat' (first
    | (intro s; refine keeps_cut (s₀ := s₀) (s := s) ?_ ?_ <;> [subst s; (intro hs; clear_value s)])
    | (intro x; clear_value x)
    | with_reducible assumption
    | with_reducible first | apply State.setX_keeps | apply State.setF_keeps | apply State.wr_keeps
    | with_reducible first | apply State.flashFail_keeps | apply State.defaultLayout_keeps
    | with_reducible first | apply State.setPart_keeps | apply State.ev_keeps
    | with_reducible refine keeps_foldl (fun s a h => ?_) ?_
    | split
    | with_reducible refine keeps_mk rfl rfl rfl rfl rfl rfl rfl ?_
    | lift_lets)

theorem State.hostFlashEnd_keeps {s₀ s : State} {by' : Option Proc} {code : Nat} (hk : Keeps s₀ s) :
    Keeps s₀ (State.hostFlashEnd s by' code) := by
  unfold State.hostFlashEnd
  repeat' (first
    | (intro s; refine keeps_cut (s₀ := s₀) (s := s) ?_ ?_ <;> [subst s; (intro hs; clear_value s)])
    | (intro x; clear_value x)
    | with_reducible assumption
    | with_reducible first | apply State.wr_keeps | apply State.setF_keeps | apply State.setFb_keeps
    | with_reducible first | apply State.ev_keeps | apply State.pulse_keeps
    | split
    | with_reducible refine keeps_mk rfl rfl rfl rfl rfl rfl rfl ?_
    | lift_lets)

theorem State.hostFlash_keeps {s₀ s : State} {by' : Option Proc} {d : Word} (hk : Keeps s₀ s) :
    Keeps s₀ (State.hostFlash s by' d) := by
  unfold State.hostFlash
  repeat' (first
    | (intro s; refine keeps_cut (s₀ := s₀) (s := s) ?_ ?_ <;> [subst s; (intro hs; clear_value s)])
    | (intro x; clear_value x)
    | with_reducible assumption
    | with_reducible first | apply State.wr_keeps | apply State.setF_keeps | apply State.setX_keeps
    | with_reducible first | apply State.hostFlashEnd_keeps
    | split
    | with_reducible refine keeps_mk rfl rfl rfl rfl rfl rfl rfl ?_
    | with_reducible refine keeps_fst (by assumption) ?_
    | lift_lets)

theorem State.mirrorSkip_keeps {s₀ s : State} {n : Nat} (hk : Keeps s₀ s) : Keeps s₀ (State.mirrorSkip s n) := by
  unfold State.mirrorSkip
  repeat' (first
    | (intro s; refine keeps_cut (s₀ := s₀) (s := s) ?_ ?_ <;> [subst s; (intro hs; clear_value s)])
    | (intro x; clear_value x)
    | with_reducible assumption
    | with_reducible apply State.setF_keeps
    | lift_lets)

theorem mirrorAge_keeps {s₀ s : State} {n : Nat} (hk : Keeps s₀ s) : Keeps s₀ (match s.xflash.mirSince with
    | none => if n = 0 then s else s.setX { s.xflash with mirSince := some s.ticks }
    | some _ => if n = 0 then s.setX { s.xflash with mirSince := none } else s) := by
  repeat' (first
    | with_reducible assumption
    | with_reducible apply State.setX_keeps
    | split)

theorem State.mirrorUpkeep_keeps {s₀ s : State} (hk : Keeps s₀ s) : Keeps s₀ (State.mirrorUpkeep s) := by
  unfold State.mirrorUpkeep
  split
  · refine mirrorAge_keeps ?_
    split
    · exact State.mirrorSkip_keeps hk
    · exact hk
  · exact hk

theorem State.logbookFlush_keeps {s₀ s : State} (hk : Keeps s₀ s) : Keeps s₀ (State.logbookFlush s) := by
  unfold State.logbookFlush
  repeat' (first
    | with_reducible assumption
    | with_reducible apply State.setX_keeps
    | split
    | with_reducible refine keeps_mk rfl rfl rfl rfl rfl rfl rfl ?_)

theorem State.flashAppend_keeps {s₀ s : State} {kind : FlashKind} {data : List Byte} (hk : Keeps s₀ s) :
    Keeps s₀ (State.flashAppend s kind data) := by
  unfold State.flashAppend
  repeat' (first
    | (intro s; refine keeps_cut (s₀ := s₀) (s := s) ?_ ?_ <;> [subst s; (intro hs; clear_value s)])
    | (intro x; clear_value x)
    | with_reducible assumption
    | with_reducible apply State.setX_keeps
    | split
    | with_reducible refine keeps_mk rfl rfl rfl rfl rfl rfl rfl ?_
    | with_reducible refine keeps_fst (by assumption) ?_
    | lift_lets)

theorem State.xflashTorn_keeps {s₀ s : State} {cs : Nat} (hk : Keeps s₀ s) : Keeps s₀ (s.xflashTorn cs) := by
  unfold State.xflashTorn
  extract_lets x torn
  have h (k n : Nat) : Keeps s₀ (torn k n) := hk.freed rfl rfl rfl rfl rfl (Nat.le_add_right _ _) rfl
  split
  · exact h _ _
  · exact h _ _
  · exact hk

theorem State.flashStart_keeps {s₀ s : State} (hk : Keeps s₀ s) : Keeps s₀ (State.flashStart s) := by
  unfold State.flashStart
  repeat' (first
    | (intro s; refine keeps_cut (s₀ := s₀) (s := s) ?_ ?_ <;> [subst s; (intro hs; clear_value s)])
    | (intro x; clear_value x)
    | with_reducible assumption
    | with_reducible first | apply State.setX_keeps | apply State.setBusy_keeps
    | split
    | with_reducible refine keeps_mk rfl rfl rfl rfl rfl rfl rfl ?_
    | lift_lets)

theorem State.flashCommit_keeps {s₀ s : State} {o : FlashOp} (hk : Keeps s₀ s) :
    Keeps s₀ (State.flashCommit s o) := by
  unfold State.flashCommit
  repeat' (first
    | (intro s; refine keeps_cut (s₀ := s₀) (s := s) ?_ ?_ <;> [subst s; (intro hs; clear_value s)])
    | (intro x; clear_value x)
    | with_reducible assumption
    | with_reducible first | apply State.wr_keeps | apply State.setX_keeps
    | with_reducible refine keeps_foldl (fun s a h => ?_) ?_
    | split
    | with_reducible refine keeps_mk rfl rfl rfl rfl rfl rfl rfl ?_
    | lift_lets)

theorem State.mirrorPass_keeps {s₀ s : State} {n : Nat} (hk : Keeps s₀ s) : Keeps s₀ (State.mirrorPass s n) := by
  unfold State.mirrorPass
  repeat' (first
    | (intro s; refine keeps_cut (s₀ := s₀) (s := s) ?_ ?_ <;> [subst s; (intro hs; clear_value s)])
    | (intro x; clear_value x)
    | with_reducible assumption
    | with_reducible first | apply State.setX_keeps | apply State.setF_keeps
    | split
    | with_reducible refine keeps_mk rfl rfl rfl rfl rfl rfl rfl ?_
    | lift_lets)

theorem State.jobDone_keeps {s₀ s : State} {j : FlashJob} (hk : Keeps s₀ s) : Keeps s₀ (State.jobDone s j) := by
  unfold State.jobDone
  repeat' (first
    | with_reducible assumption
    | with_reducible first | apply State.setF_keeps | apply State.hostFlashEnd_keeps | apply State.mirrorPass_keeps
    | with_reducible first | apply State.setX_keeps
    | split
    | with_reducible refine keeps_mk rfl rfl rfl rfl rfl rfl rfl ?_)

theorem State.jobLost_keeps {s₀ s : State} {j : FlashJob} {code : Nat} (hk : Keeps s₀ s) :
    Keeps s₀ (State.jobLost s j code) := by
  unfold State.jobLost
  repeat' (first
    | (intro s; refine keeps_cut (s₀ := s₀) (s := s) ?_ ?_ <;> [subst s; (intro hs; clear_value s)])
    | (intro x; clear_value x)
    | with_reducible assumption
    | with_reducible first | apply State.setF_keeps | apply State.hostFlashEnd_keeps | apply State.mirrorPass_keeps
    | with_reducible first | apply State.setX_keeps
    | split
    | with_reducible refine keeps_mk rfl rfl rfl rfl rfl rfl rfl ?_
    | lift_lets)

theorem State.flashBad_keeps {s₀ s : State} {cs : Nat} {j : FlashJob} {code cause : Nat} (hk : Keeps s₀ s) :
    Keeps s₀ (State.flashBad s cs j code cause) := by
  unfold State.flashBad
  repeat' (first
    | (intro s; refine keeps_cut (s₀ := s₀) (s := s) ?_ ?_ <;> [subst s; (intro hs; clear_value s)])
    | (intro x; clear_value x)
    | with_reducible assumption
    | with_reducible first | apply State.xflashTorn_keeps | apply State.setX_keeps | apply State.setBusy_keeps
    | with_reducible first | apply State.jobLost_keeps | apply State.flashFail_keeps
    | lift_lets)

theorem State.flashOpDone_keeps {s₀ s : State} {cs : Nat} {ok : Bool} (hk : Keeps s₀ s) :
    Keeps s₀ (State.flashOpDone s cs ok) := by
  unfold State.flashOpDone
  repeat' (first
    | (intro s; refine keeps_cut (s₀ := s₀) (s := s) ?_ ?_ <;> [subst s; (intro hs; clear_value s)])
    | (intro x; clear_value x)
    | with_reducible assumption
    | with_reducible first | apply State.flashBad_keeps | apply State.setX_keeps | apply State.setBusy_keeps
    | with_reducible first | apply State.flashCommit_keeps | apply State.jobDone_keeps
    | split
    | with_reducible refine keeps_mk rfl rfl rfl rfl rfl rfl rfl ?_
    | lift_lets)

theorem State.flashTimeout_keeps {s₀ s : State} {cs : Nat} (hk : Keeps s₀ s) :
    Keeps s₀ (State.flashTimeout s cs) := by
  unfold State.flashTimeout
  repeat' (first
    | with_reducible assumption
    | with_reducible apply State.flashBad_keeps
    | split
    | with_reducible refine keeps_mk rfl rfl rfl rfl rfl rfl rfl ?_)

theorem State.hostAbsent_keeps {s₀ s : State} (hk : Keeps s₀ s) : Keeps s₀ (State.hostAbsent s) := by
  unfold State.hostAbsent
  repeat' (first
    | (intro s; refine keeps_cut (s₀ := s₀) (s := s) ?_ ?_ <;> [subst s; (intro hs; clear_value s)])
    | (intro x; clear_value x)
    | with_reducible assumption
    | with_reducible first | apply State.setX_keeps | apply State.jobLost_keeps
    | split
    | with_reducible refine keeps_mk rfl rfl rfl rfl rfl rfl rfl ?_
    | lift_lets)

theorem State.flashCtrlWrite_keeps {s₀ s : State} {d : Word} (hk : Keeps s₀ s) :
    Keeps s₀ (State.flashCtrlWrite s d) := by
  unfold State.flashCtrlWrite
  repeat' (first
    | (intro s; refine keeps_cut (s₀ := s₀) (s := s) ?_ ?_ <;> [subst s; (intro hs; clear_value s)])
    | (intro x; clear_value x)
    | with_reducible assumption
    | with_reducible first | apply State.wr_keeps | apply State.hostAbsent_keeps | apply State.discBegin_keeps
    | with_reducible first | apply State.discStart_keeps
    | split
    | lift_lets)

theorem State.almanacFreeze_keeps {s₀ s : State} (hk : Keeps s₀ s) : Keeps s₀ (State.almanacFreeze s) := by
  unfold State.almanacFreeze
  repeat' (first
    | (intro s; refine keeps_cut (s₀ := s₀) (s := s) ?_ ?_ <;> [subst s; (intro hs; clear_value s)])
    | (intro x; clear_value x)
    | with_reducible assumption
    | with_reducible first | apply State.setF_keeps | apply State.queueTails_keeps | apply State.recStart_keeps
    | split
    | with_reducible refine keeps_mk rfl rfl rfl rfl rfl rfl rfl ?_
    | lift_lets)

theorem State.almanacSpent_keeps {s₀ s : State} (hk : Keeps s₀ s) : Keeps s₀ (State.almanacSpent s) := by
  unfold State.almanacSpent
  repeat' first | with_reducible assumption | with_reducible apply State.almanacFreeze_keeps | split

theorem State.archUpkeep_keeps {s₀ s : State} (hk : Keeps s₀ s) : Keeps s₀ (State.archUpkeep s) := by
  unfold State.archUpkeep
  repeat' (first
    | (intro s; refine keeps_cut (s₀ := s₀) (s := s) ?_ ?_ <;> [subst s; (intro hs; clear_value s)])
    | (intro x; clear_value x)
    | with_reducible assumption
    | with_reducible apply State.setX_keeps
    | split
    | with_reducible refine keeps_mk rfl rfl rfl rfl rfl rfl rfl ?_
    | lift_lets)

theorem State.freezeCopyDone_keeps {s₀ s : State} (hk : Keeps s₀ s) : Keeps s₀ (State.freezeCopyDone s) := by
  unfold State.freezeCopyDone
  repeat' (first
    | (intro s; refine keeps_cut (s₀ := s₀) (s := s) ?_ ?_ <;> [subst s; (intro hs; clear_value s)])
    | (intro x; clear_value x)
    | with_reducible assumption
    | with_reducible first | apply State.ev_keeps | apply State.pulse_keeps | apply State.setRec_keeps
    | with_reducible first | apply State.recStart_keeps | apply State.recCounters_keeps
    | with_reducible first | apply State.almanacRun_keeps | apply State.setF_keeps
    | split
    | with_reducible refine keeps_mk rfl rfl rfl rfl rfl rfl rfl ?_
    | lift_lets)

theorem State.recReadPage_keeps {s₀ s : State} {page : Nat} (hk : Keeps s₀ s) :
    Keeps s₀ (State.recReadPage s page) := by
  unfold State.recReadPage
  repeat' (first
    | (intro s; refine keeps_cut (s₀ := s₀) (s := s) ?_ ?_ <;> [subst s; (intro hs; clear_value s)])
    | (intro x; clear_value x)
    | with_reducible assumption
    | with_reducible first | apply State.wr_keeps | apply State.recCmdDone_keeps
    | with_reducible refine keeps_foldl (fun s a h => ?_) ?_
    | lift_lets)

theorem State.recTails_keeps {s₀ s : State} (hk : Keeps s₀ s) : Keeps s₀ (State.recTails s) := by
  unfold State.recTails
  repeat' (first
    | with_reducible assumption
    | with_reducible first | apply State.queueTails_keeps | apply State.recCmdBegin_keeps | apply State.recStart_keeps)

theorem State.recSdwrite_keeps {s₀ s : State} {reason : Nat} (hk : Keeps s₀ s) :
    Keeps s₀ (State.recSdwrite s reason) := by
  unfold State.recSdwrite
  repeat' (first
    | (intro s; refine keeps_cut (s₀ := s₀) (s := s) ?_ ?_ <;> [subst s; (intro hs; clear_value s)])
    | (intro x; clear_value x)
    | with_reducible assumption
    | with_reducible first | apply State.recCmdBegin_keeps | apply State.recRing_keeps | apply State.recStart_keeps
    | lift_lets)

theorem State.recTrig_keeps {s₀ s : State} (hk : Keeps s₀ s) : Keeps s₀ (State.recTrig s) := by
  unfold State.recTrig
  repeat' (first
    | with_reducible assumption
    | with_reducible first | apply State.almanacTrigger_keeps | apply State.recCmdDone_keeps)

theorem State.recResume_keeps {s₀ s : State} (hk : Keeps s₀ s) : Keeps s₀ (State.recResume s) := by
  unfold State.recResume
  repeat' (first
    | with_reducible assumption
    | with_reducible first | apply State.recCmdDone_keeps | apply State.almanacRun_keeps
    | split)

theorem State.recordCmd_keeps {s₀ s : State} {d : Word} (hk : Keeps s₀ s) : Keeps s₀ (State.recordCmd s d) := by
  unfold State.recordCmd
  repeat' (first
    | (intro s; refine keeps_cut (s₀ := s₀) (s := s) ?_ ?_ <;> [subst s; (intro hs; clear_value s)])
    | (intro x; clear_value x)
    | with_reducible assumption
    | with_reducible first | apply State.recCmdDone_keeps | apply State.recReadPage_keeps
    | with_reducible first | apply State.recTails_keeps | apply State.recSdwrite_keeps | apply State.recTrig_keeps
    | with_reducible first | apply State.recResume_keeps
    | split
    | with_reducible refine keeps_mk rfl rfl rfl rfl rfl rfl rfl ?_
    | lift_lets)

end Sys2Proof.Machine
end

