-- ==== Sys2Proof/Laws/KeepsGauge.lean ====
section
/-! SUPPORT. `Keeps` for the gauge: one lemma per operation. -/

namespace Sys2Proof.Machine

theorem State.setGauge_keeps {s₀ s : State} {g : Gauge} (hk : Keeps s₀ s) : Keeps s₀ (State.setGauge s g) := by
  unfold State.setGauge
  repeat' first | with_reducible assumption | with_reducible refine keeps_mk rfl rfl rfl rfl rfl rfl rfl ?_

theorem State.gev_keeps {s₀ s : State} {fd : Fld} (hk : Keeps s₀ s) : Keeps s₀ (State.gev s fd) := by
  unfold State.gev
  repeat' (first
    | (intro s; refine keeps_cut (s₀ := s₀) (s := s) ?_ ?_ <;> [subst s; (intro hs; clear_value s)])
    | (intro x; clear_value x)
    | with_reducible assumption
    | with_reducible first | apply State.ev_keeps | apply State.wakeUp_keeps
    | split
    | lift_lets)

theorem State.ocvCheck_keeps {s₀ s : State} (hk : Keeps s₀ s) : Keeps s₀ (State.ocvCheck s) := by
  unfold State.ocvCheck
  repeat' first | with_reducible assumption | with_reducible apply State.setFb_keeps

theorem State.gStoreStart_keeps {s₀ s : State} (hk : Keeps s₀ s) : Keeps s₀ (State.gStoreStart s) := by
  unfold State.gStoreStart
  repeat' (first
    | (intro s; refine keeps_cut (s₀ := s₀) (s := s) ?_ ?_ <;> [subst s; (intro hs; clear_value s)])
    | (intro x; clear_value x)
    | with_reducible assumption
    | with_reducible first | apply State.setGauge_keeps | apply State.recPages_keeps
    | split
    | with_reducible refine keeps_mk rfl rfl rfl rfl rfl rfl rfl ?_
    | lift_lets)

theorem State.gStore_keeps {s₀ s : State} (hk : Keeps s₀ s) : Keeps s₀ (State.gStore s) := by
  unfold State.gStore
  repeat' (first
    | (intro s; refine keeps_cut (s₀ := s₀) (s := s) ?_ ?_ <;> [subst s; (intro hs; clear_value s)])
    | (intro x; clear_value x)
    | with_reducible assumption
    | with_reducible first | apply State.setF_keeps | apply State.setGauge_keeps | apply State.gStoreStart_keeps
    | split
    | with_reducible refine keeps_mk rfl rfl rfl rfl rfl rfl rfl ?_
    | lift_lets)

theorem State.gStoreTake_keeps {s₀ s : State} (hk : Keeps s₀ s) : Keeps s₀ (State.gStoreTake s) := by
  unfold State.gStoreTake
  repeat' (first
    | with_reducible assumption
    | with_reducible first | apply State.setGauge_keeps | apply State.gStore_keeps
    | split
    | with_reducible refine keeps_mk rfl rfl rfl rfl rfl rfl rfl ?_)

theorem State.gStorePeriodic_keeps {s₀ s : State} (hk : Keeps s₀ s) : Keeps s₀ (State.gStorePeriodic s) := by
  unfold State.gStorePeriodic
  repeat' (first
    | with_reducible assumption
    | with_reducible first | apply State.setGauge_keeps | apply State.gStore_keeps
    | split
    | with_reducible refine keeps_mk rfl rfl rfl rfl rfl rfl rfl ?_)

theorem State.gStoreDone_keeps {s₀ s : State} (hk : Keeps s₀ s) : Keeps s₀ (State.gStoreDone s) := by
  unfold State.gStoreDone
  repeat' (first
    | (intro s; refine keeps_cut (s₀ := s₀) (s := s) ?_ ?_ <;> [subst s; (intro hs; clear_value s)])
    | (intro x; clear_value x)
    | with_reducible assumption
    | with_reducible first | apply State.setGauge_keeps | apply State.gev_keeps | apply State.raise_keeps
    | with_reducible first | apply State.setF_keeps | apply State.flashAppend_keeps | apply State.gStoreStart_keeps
    | split
    | with_reducible refine keeps_mk rfl rfl rfl rfl rfl rfl rfl ?_
    | lift_lets)

theorem State.gStoreRetry_keeps {s₀ s : State} (hk : Keeps s₀ s) : Keeps s₀ (State.gStoreRetry s) := by
  unfold State.gStoreRetry
  repeat' (first
    | with_reducible assumption
    | with_reducible apply State.gStoreStart_keeps
    | split
    | with_reducible refine keeps_mk rfl rfl rfl rfl rfl rfl rfl ?_)

theorem State.setRelearn_keeps {s₀ s : State} {b : Bool} (hk : Keeps s₀ s) : Keeps s₀ (State.setRelearn s b) := by
  unfold State.setRelearn
  repeat' (first
    | with_reducible assumption
    | with_reducible first | apply State.setFb_keeps | apply State.gStore_keeps
    | split)

theorem State.setRm_keeps {s₀ s : State} {mah rem : Nat} (hk : Keeps s₀ s) : Keeps s₀ (State.setRm s mah rem) := by
  unfold State.setRm
  repeat' (first
    | with_reducible assumption
    | with_reducible first | apply State.setF_keeps | apply State.setGauge_keeps
    | with_reducible refine keeps_mk rfl rfl rfl rfl rfl rfl rfl ?_)

theorem State.socFromRm_keeps {s₀ s : State} (hk : Keeps s₀ s) : Keeps s₀ (State.socFromRm s) := by
  unfold State.socFromRm
  repeat' (first
    | (intro s; refine keeps_cut (s₀ := s₀) (s := s) ?_ ?_ <;> [subst s; (intro hs; clear_value s)])
    | (intro x; clear_value x)
    | with_reducible assumption
    | with_reducible first | apply State.setF_keeps | apply State.outOfRange_keeps
    | split
    | lift_lets)

theorem State.energyFromRm_keeps {s₀ s : State} (hk : Keeps s₀ s) : Keeps s₀ (State.energyFromRm s) := by
  unfold State.energyFromRm
  repeat' (first
    | (intro s; refine keeps_cut (s₀ := s₀) (s := s) ?_ ?_ <;> [subst s; (intro hs; clear_value s)])
    | (intro x; clear_value x)
    | with_reducible assumption
    | with_reducible first | apply State.setF_keeps | apply State.ocvCheck_keeps
    | split
    | lift_lets)

theorem State.setQPass_keeps {s₀ s : State} {q : Int} (hk : Keeps s₀ s) : Keeps s₀ (State.setQPass s q) := by
  unfold State.setQPass
  repeat' (first
    | with_reducible assumption
    | with_reducible first | apply State.setF_keeps | apply State.setGauge_keeps
    | with_reducible refine keeps_mk rfl rfl rfl rfl rfl rfl rfl ?_)

theorem State.setQBeyond_keeps {s₀ s : State} {q : Nat} (hk : Keeps s₀ s) : Keeps s₀ (State.setQBeyond s q) := by
  unfold State.setQBeyond
  repeat' (first
    | with_reducible assumption
    | with_reducible first | apply State.setF_keeps | apply State.setGauge_keeps
    | with_reducible refine keeps_mk rfl rfl rfl rfl rfl rfl rfl ?_)

theorem State.setAnchor_keeps {s₀ s : State} {a : Option (Nat × Nat)} (hk : Keeps s₀ s) :
    Keeps s₀ (State.setAnchor s a) := by
  unfold State.setAnchor
  repeat' (first
    | (intro s; refine keeps_cut (s₀ := s₀) (s := s) ?_ ?_ <;> [subst s; (intro hs; clear_value s)])
    | (intro x; clear_value x)
    | with_reducible assumption
    | with_reducible first | apply State.setGauge_keeps | apply State.setF_keeps
    | split
    | with_reducible refine keeps_mk rfl rfl rfl rfl rfl rfl rfl ?_
    | lift_lets)

theorem State.gPresent_keeps {s₀ s : State} (hk : Keeps s₀ s) : Keeps s₀ (State.gPresent s) := by
  unfold State.gPresent
  repeat' first | with_reducible assumption | with_reducible refine keeps_mk rfl rfl rfl rfl rfl rfl rfl ?_

theorem State.addCharge_keeps {s₀ s : State} {q : Int} (hk : Keeps s₀ s) : Keeps s₀ (State.addCharge s q) := by
  unfold State.addCharge
  repeat' (first
    | (intro s; refine keeps_cut (s₀ := s₀) (s := s) ?_ ?_ <;> [subst s; (intro hs; clear_value s)])
    | (intro x; clear_value x)
    | with_reducible assumption
    | with_reducible first | apply State.setQPass_keeps | apply State.setRm_keeps
    | split
    | lift_lets)

theorem State.conflict_keeps {s₀ s : State} {cause : Nat} (hk : Keeps s₀ s) : Keeps s₀ (State.conflict s cause) := by
  unfold State.conflict
  repeat' (first
    | with_reducible assumption
    | with_reducible first | apply State.setF_keeps | apply State.gev_keeps | apply State.raise_keeps)

theorem State.emptyRule_keeps {s₀ s : State} {soc0 : Nat} {rm0 q : Int} (hk : Keeps s₀ s) :
    Keeps s₀ (State.emptyRule s soc0 rm0 q) := by
  unfold State.emptyRule
  repeat' (first
    | (intro s; refine keeps_cut (s₀ := s₀) (s := s) ?_ ?_ <;> [subst s; (intro hs; clear_value s)])
    | (intro x; clear_value x)
    | with_reducible assumption
    | with_reducible first | apply State.setRm_keeps | apply State.setF_keeps | apply State.setQBeyond_keeps
    | with_reducible first | apply State.conflict_keeps | apply State.gev_keeps | apply State.socFromRm_keeps
    | split
    | with_reducible refine keeps_mk rfl rfl rfl rfl rfl rfl rfl ?_
    | lift_lets)

theorem State.fullSync_keeps {s₀ s : State} (hk : Keeps s₀ s) : Keeps s₀ (State.fullSync s) := by
  unfold State.fullSync
  repeat' (first
    | (intro s; refine keeps_cut (s₀ := s₀) (s := s) ?_ ?_ <;> [subst s; (intro hs; clear_value s)])
    | (intro x; clear_value x)
    | with_reducible assumption
    | with_reducible first | apply State.setRm_keeps | apply State.setF_keeps | apply State.setQBeyond_keeps
    | with_reducible first | apply State.gev_keeps | apply State.gaugeOwe_keeps
    | split
    | lift_lets)

theorem State.learnResult_keeps {s₀ s : State} {result dsoc : Nat} {fccNew : Option Nat} (hk : Keeps s₀ s) :
    Keeps s₀ (State.learnResult s result dsoc fccNew) := by
  unfold State.learnResult
  repeat' (first
    | (intro s; refine keeps_cut (s₀ := s₀) (s := s) ?_ ?_ <;> [subst s; (intro hs; clear_value s)])
    | (intro x; clear_value x)
    | with_reducible assumption
    | with_reducible first | apply State.setF_keeps | apply State.setGauge_keeps | apply State.gev_keeps
    | split
    | with_reducible refine keeps_mk rfl rfl rfl rfl rfl rfl rfl ?_
    | lift_lets)

theorem State.learn_keeps {s₀ s : State} {b : Nat} (hk : Keeps s₀ s) : Keeps s₀ (s.learn b).1 := by
  have h (r d : Nat) (n : Option Nat) : Keeps s₀ ((s.learnResult r d n).setAnchor (some (b, s.ticks))) :=
    State.setAnchor_keeps (State.learnResult_keeps hk)
  unfold State.learn
  split
  · exact h _ _ _
  next a at' _ =>
    extract_lets d q n w s1 s2
    clear_value d q n w
    have h1 : Keeps s₀ s1 := State.setF_keeps hk
    clear_value s1
    have h2 : Keeps s₀ s2 := State.setAnchor_keeps (State.learnResult_keeps (State.setF_keeps h1))
    clear_value s2
    split
    · exact h _ _ _
    · split
      · dsimp only
        exact State.learnResult_keeps hk
      · split
        · exact h _ _ _
        · exact State.gaugeOwe_keeps h2

theorem State.restPoint_keeps {s₀ s : State} (hk : Keeps s₀ s) : Keeps s₀ s.restPoint := by
  unfold State.restPoint
  extract_lets s1 v
  have h1 : Keeps s₀ s1 := State.ocvCheck_keeps hk
  clear_value s1 v
  generalize s1.ocvLookup v = p
  obtain ⟨x, seg⟩ := p
  dsimp -zeta only
  extract_lets soc s2 usable s3 s4
  have h2 : Keeps s₀ s2 := State.gev_keeps (State.setF_keeps h1)
  have h3 : Keeps s₀ s3 := State.socFromRm_keeps (State.setRm_keeps (State.learn_keeps h2))
  have h4 : Keeps s₀ s4 := keeps_ite h3 (State.setQPass_keeps h3)
  exact keeps_ite (State.setF_keeps (State.setF_keeps h4)) h2

theorem State.restRule_keeps {s₀ s : State} {ms : Nat} (hk : Keeps s₀ s) : Keeps s₀ (State.restRule s ms) := by
  unfold State.restRule
  repeat' (first
    | (intro s; refine keeps_cut (s₀ := s₀) (s := s) ?_ ?_ <;> [subst s; (intro hs; clear_value s)])
    | (intro x; clear_value x)
    | with_reducible assumption
    | with_reducible first | apply State.setGauge_keeps | apply State.setF_keeps | apply State.restPoint_keeps
    | split
    | with_reducible refine keeps_mk rfl rfl rfl rfl rfl rfl rfl ?_
    | lift_lets)

theorem State.proveEnd_keeps {s₀ s : State} {cause : Nat} (hk : Keeps s₀ s) : Keeps s₀ (State.proveEnd s cause) := by
  unfold State.proveEnd
  repeat' (first
    | (intro s; refine keeps_cut (s₀ := s₀) (s := s) ?_ ?_ <;> [subst s; (intro hs; clear_value s)])
    | (intro x; clear_value x)
    | with_reducible assumption
    | with_reducible first | apply State.setF_keeps | apply State.setGauge_keeps | apply State.gev_keeps
    | split
    | with_reducible refine keeps_mk rfl rfl rfl rfl rfl rfl rfl ?_
    | lift_lets)

theorem State.proveRule_keeps {s₀ s : State} (hk : Keeps s₀ s) : Keeps s₀ (State.proveRule s) := by
  unfold State.proveRule
  repeat' (first
    | (intro s; refine keeps_cut (s₀ := s₀) (s := s) ?_ ?_ <;> [subst s; (intro hs; clear_value s)])
    | (intro x; clear_value x)
    | with_reducible assumption
    | with_reducible first | apply State.setF_keeps | apply State.proveEnd_keeps
    | split
    | with_reducible refine keeps_mk rfl rfl rfl rfl rfl rfl rfl ?_
    | lift_lets)

theorem State.proveGo_keeps {s₀ s : State} (hk : Keeps s₀ s) : Keeps s₀ (State.proveGo s) := by
  unfold State.proveGo
  repeat' (first
    | (intro s; refine keeps_cut (s₀ := s₀) (s := s) ?_ ?_ <;> [subst s; (intro hs; clear_value s)])
    | (intro x; clear_value x)
    | with_reducible assumption
    | with_reducible first | apply State.setGauge_keeps | apply State.setF_keeps
    | split
    | with_reducible refine keeps_mk rfl rfl rfl rfl rfl rfl rfl ?_
    | lift_lets)

theorem State.gUpdate_keeps {s₀ s : State} {counts : Int} {ms : Nat} (hk : Keeps s₀ s) : Keeps s₀ (s.gUpdate counts ms) := by
  unfold State.gUpdate
  split
  · exact hk
  · generalize s.charge counts ms = p
    obtain ⟨q, ma⟩ := p
    dsimp -zeta only
    extract_lets soc0 rm0 e0 r0 g1 s1 g2 s2 s3 s4 s5 s6 s7 s8 quiet n g9 s9 s10
    have h1 : Keeps s₀ s1 := State.setGauge_keeps (State.setF_keeps hk)
    have h2 : Keeps s₀ s2 := keeps_ite h1 (State.setGauge_keeps h1)
    have h3 : Keeps s₀ s3 := State.energyFromRm_keeps (State.socFromRm_keeps (State.addCharge_keeps h2))
    have h4 : Keeps s₀ s4 := State.emptyRule_keeps h3
    have h5 : Keeps s₀ s5 := keeps_ite (State.setF_keeps h4) h4
    have h7 : Keeps s₀ s7 := State.proveRule_keeps (State.restRule_keeps h5)
    have h8 : Keeps s₀ s8 := keeps_ite (State.gaugeOwe_keeps h7) h7
    have h9 : Keeps s₀ s9 := State.setGauge_keeps h8
    have h10 : Keeps s₀ s10 := keeps_ite (State.setF_keeps h9) h9
    exact State.gStoreTake_keeps (State.gPresent_keeps (State.gev_keeps h10))

theorem State.gaugeUpdate_keeps {s₀ s : State} {counts : Int} {ms : Nat} (hk : Keeps s₀ s) :
    Keeps s₀ (State.gaugeUpdate s counts ms) := by
  unfold State.gaugeUpdate
  repeat' first | with_reducible assumption | with_reducible apply State.gUpdate_keeps

theorem State.gaugeWake_keeps {s₀ s : State} {ma counts : Int} {ms : Nat} (hk : Keeps s₀ s) :
    Keeps s₀ (State.gaugeWake s ma counts ms) := by
  unfold State.gaugeWake
  repeat' (first
    | with_reducible assumption
    | with_reducible first | apply State.setF_keeps | apply State.setGauge_keeps | apply State.gUpdate_keeps
    | split
    | with_reducible refine keeps_mk rfl rfl rfl rfl rfl rfl rfl ?_)

theorem State.gaugeSample_keeps {s₀ s : State} {uv : Nat} {t : Int} {ms : Nat} (hk : Keeps s₀ s) :
    Keeps s₀ (State.gaugeSample s uv t ms) := by
  unfold State.gaugeSample
  repeat' (first
    | (intro s; refine keeps_cut (s₀ := s₀) (s := s) ?_ ?_ <;> [subst s; (intro hs; clear_value s)])
    | (intro x; clear_value x)
    | with_reducible assumption
    | with_reducible first | apply State.setFb_keeps | apply State.setF_keeps | apply State.setGauge_keeps
    | split
    | with_reducible refine keeps_mk rfl rfl rfl rfl rfl rfl rfl ?_
    | lift_lets)

theorem State.gaugeImpedance_keeps {s₀ s : State} {dv di : Int} (hk : Keeps s₀ s) :
    Keeps s₀ (State.gaugeImpedance s dv di) := by
  unfold State.gaugeImpedance
  repeat' (first
    | (intro s; refine keeps_cut (s₀ := s₀) (s := s) ?_ ?_ <;> [subst s; (intro hs; clear_value s)])
    | (intro x; clear_value x)
    | with_reducible assumption
    | with_reducible first | apply State.setF_keeps | apply State.gev_keeps
    | split
    | lift_lets)

theorem State.autozeroStart_keeps {s₀ s : State} (hk : Keeps s₀ s) : Keeps s₀ (State.autozeroStart s) := by
  unfold State.autozeroStart
  repeat' (first
    | (intro s; refine keeps_cut (s₀ := s₀) (s := s) ?_ ?_ <;> [subst s; (intro hs; clear_value s)])
    | (intro x; clear_value x)
    | with_reducible assumption
    | with_reducible first | apply State.setF_keeps | apply State.setGauge_keeps
    | split
    | with_reducible refine keeps_mk rfl rfl rfl rfl rfl rfl rfl ?_
    | lift_lets)

theorem State.autozeroDone_keeps {s₀ s : State} {meas : Int} (hk : Keeps s₀ s) :
    Keeps s₀ (State.autozeroDone s meas) := by
  unfold State.autozeroDone
  repeat' (first
    | (intro s; refine keeps_cut (s₀ := s₀) (s := s) ?_ ?_ <;> [subst s; (intro hs; clear_value s)])
    | (intro x; clear_value x)
    | with_reducible assumption
    | with_reducible apply State.setF_keeps
    | split
    | lift_lets)

theorem State.gaugeCtrl_keeps {s₀ s : State} {d : Word} (hk : Keeps s₀ s) : Keeps s₀ (State.gaugeCtrl s d) := by
  unfold State.gaugeCtrl
  repeat' (first
    | (intro s; refine keeps_cut (s₀ := s₀) (s := s) ?_ ?_ <;> [subst s; (intro hs; clear_value s)])
    | (intro x; clear_value x)
    | with_reducible assumption
    | with_reducible first | apply State.setFb_keeps | apply State.setF_keeps | apply State.setGauge_keeps
    | with_reducible first | apply State.setRelearn_keeps | apply State.gStore_keeps
    | with_reducible first | apply State.autozeroStart_keeps
    | split
    | with_reducible refine keeps_mk rfl rfl rfl rfl rfl rfl rfl ?_
    | lift_lets)

theorem State.fccWrite_keeps {s₀ s : State} {d : Nat} (hk : Keeps s₀ s) : Keeps s₀ (State.fccWrite s d) := by
  unfold State.fccWrite
  repeat' (first
    | (intro s; refine keeps_cut (s₀ := s₀) (s := s) ?_ ?_ <;> [subst s; (intro hs; clear_value s)])
    | (intro x; clear_value x)
    | with_reducible assumption
    | with_reducible first | apply State.setF_keeps | apply State.setRm_keeps | apply State.socFromRm_keeps
    | split
    | lift_lets)

theorem State.rmWrite_keeps {s₀ s : State} {d : Nat} (hk : Keeps s₀ s) : Keeps s₀ (State.rmWrite s d) := by
  unfold State.rmWrite
  repeat' (first
    | with_reducible assumption
    | with_reducible first | apply State.setRm_keeps | apply State.socFromRm_keeps
    | split)

theorem State.designWrite_keeps {s₀ s : State} {d : Nat} (hk : Keeps s₀ s) : Keeps s₀ (State.designWrite s d) := by
  unfold State.designWrite
  repeat' (first
    | (intro s; refine keeps_cut (s₀ := s₀) (s := s) ?_ ?_ <;> [subst s; (intro hs; clear_value s)])
    | (intro x; clear_value x)
    | with_reducible assumption
    | with_reducible first | apply State.setF_keeps | apply State.setRm_keeps
    | split
    | lift_lets)

theorem State.proveWrite_keeps {s₀ s : State} {d : Word} (hk : Keeps s₀ s) : Keeps s₀ (State.proveWrite s d) := by
  unfold State.proveWrite
  repeat' (first
    | (intro s; refine keeps_cut (s₀ := s₀) (s := s) ?_ ?_ <;> [subst s; (intro hs; clear_value s)])
    | (intro x; clear_value x)
    | with_reducible assumption
    | with_reducible first | apply State.setF_keeps | apply State.proveEnd_keeps | apply State.proveGo_keeps
    | split
    | lift_lets)

theorem State.gaugeOscLost_keeps {s₀ s : State} (hk : Keeps s₀ s) : Keeps s₀ (State.gaugeOscLost s) := by
  unfold State.gaugeOscLost
  repeat' (first
    | with_reducible assumption
    | with_reducible first | apply State.setF_keeps | apply State.setAnchor_keeps | apply State.setQPass_keeps
    | with_reducible first | apply State.gev_keeps)

theorem State.gaugeRestore_keeps {s₀ s : State} (hk : Keeps s₀ s) : Keeps s₀ (State.gaugeRestore s) := by
  unfold State.gaugeRestore
  repeat' (first
    | (intro s; refine keeps_cut (s₀ := s₀) (s := s) ?_ ?_ <;> [subst s; (intro hs; clear_value s)])
    | (intro x; clear_value x)
    | with_reducible assumption
    | with_reducible first | apply State.setGauge_keeps | apply State.setF_keeps | apply State.setRm_keeps
    | with_reducible first | apply State.setFb_keeps | apply State.gPresent_keeps
    | split
    | with_reducible refine keeps_mk rfl rfl rfl rfl rfl rfl rfl ?_
    | lift_lets)

theorem State.gaugeBlockReset_keeps {s₀ s : State} (hk : Keeps s₀ s) : Keeps s₀ (State.gaugeBlockReset s) := by
  unfold State.gaugeBlockReset
  repeat' (first
    | (intro s; refine keeps_cut (s₀ := s₀) (s := s) ?_ ?_ <;> [subst s; (intro hs; clear_value s)])
    | (intro x; clear_value x)
    | with_reducible assumption
    | with_reducible first | apply State.proveEnd_keeps | apply State.setF_keeps | apply State.setGauge_keeps
    | split
    | with_reducible refine keeps_mk rfl rfl rfl rfl rfl rfl rfl ?_
    | lift_lets)

end Sys2Proof.Machine
end

