-- ==== Sys2Proof/Laws/KeepsOperands.lean ====
section
/-! SUPPORT. `Keeps` for the operand forms: one lemma per operation. -/

namespace Sys2Proof.Machine

theorem State.setRow_keeps {s₀ s : State} {r : Nat} {lower upper : Word} (hk : Keeps s₀ s) :
    Keeps s₀ (State.setRow s r lower upper) := by
  unfold State.setRow
  repeat' first | with_reducible assumption | with_reducible apply State.setMemWord_keeps

end Sys2Proof.Machine
end

