-- ==== Sys2Proof/Laws/KeepsEngine.lean ====
section
/-! SUPPORT. `Keeps` for the engine and its threads: one lemma per operation. -/

namespace Sys2Proof.Machine

theorem State.endRowAt_keeps {s₀ s : State} {t : Nat} {pc : BitVec 14} (hk : Keeps s₀ s) :
    Keeps s₀ (State.endRowAt s t pc) := by
  unfold State.endRowAt
  repeat' (first
    | with_reducible assumption
    | with_reducible apply State.setTh_keeps
    | with_reducible refine keeps_mk rfl rfl rfl rfl rfl rfl rfl ?_)

theorem State.endRow_keeps {s₀ s : State} {t : Nat} (hk : Keeps s₀ s) : Keeps s₀ (State.endRow s t) := by
  unfold State.endRow
  repeat' first | with_reducible assumption | with_reducible apply State.endRowAt_keeps

theorem State.setBusy_keeps {s₀ s : State} {t : Nat} {b : Busy} (hk : Keeps s₀ s) :
    Keeps s₀ (State.setBusy s t b) := by
  unfold State.setBusy
  repeat' (first
    | with_reducible assumption
    | with_reducible apply State.setTh_keeps
    | with_reducible refine keeps_mk rfl rfl rfl rfl rfl rfl rfl ?_)

theorem State.setFlags_keeps {s₀ s : State} {t : Nat} {f : Flags} (hk : Keeps s₀ s) :
    Keeps s₀ (State.setFlags s t f) := by
  unfold State.setFlags
  repeat' (first
    | with_reducible assumption
    | with_reducible apply State.setTh_keeps
    | with_reducible refine keeps_mk rfl rfl rfl rfl rfl rfl rfl ?_)

theorem State.setC_keeps {s₀ s : State} {t : Nat} {c : Bool} (hk : Keeps s₀ s) : Keeps s₀ (State.setC s t c) := by
  unfold State.setC
  repeat' (first
    | with_reducible assumption
    | with_reducible apply State.setFlags_keeps
    | with_reducible refine keeps_mk rfl rfl rfl rfl rfl rfl rfl ?_)

theorem State.setW_keeps {s₀ s : State} {t n : Nat} {v : Word} (hk : Keeps s₀ s) : Keeps s₀ (State.setW s t n v) := by
  unfold State.setW
  repeat' first | with_reducible assumption | with_reducible apply State.setTh_keeps

theorem State.finishRow_keeps {s₀ s : State} {t : Nat} {writes : List (Nat × Word)} {f : Flags} (hk : Keeps s₀ s) :
    Keeps s₀ (State.finishRow s t writes f) := by
  unfold State.finishRow
  repeat' (first
    | with_reducible assumption
    | with_reducible first | apply State.setW_keeps | apply State.setFlags_keeps | apply State.endRow_keeps
    | with_reducible refine keeps_foldl (fun s a h => ?_) ?_)

theorem State.threadFault_keeps {s₀ s : State} {t cause source : Nat} (hk : Keeps s₀ s) :
    Keeps s₀ (State.threadFault s t cause source) := by
  unfold State.threadFault
  repeat' (first
    | (intro s; refine keeps_cut (s₀ := s₀) (s := s) ?_ ?_ <;> [subst s; (intro hs; clear_value s)])
    | (intro x; clear_value x)
    | with_reducible assumption
    | with_reducible first | apply State.setTh_keeps | apply State.evBit_keeps | apply State.raise_keeps
    | split
    | with_reducible refine keeps_mk rfl rfl rfl rfl rfl rfl rfl ?_
    | lift_lets)

theorem State.issue_keeps {s₀ s : State} {t op : Nat} {k : Row → State → State} (hf : ∀ r s, Keeps s₀ s → Keeps s₀ (k r s))
    (hk : Keeps s₀ s) : Keeps s₀ (s.issue t op k) := by
  have h : Keeps s₀ { s with eng := { s.eng with lastIssued := t }, power := { s.power with idleTicks := 0 } } :=
    keeps_mk rfl rfl rfl rfl rfl rfl rfl hk
  simp only [State.issue]
  split
  · split
    · exact hf _ _ h
    · exact State.endRow_keeps h
  · exact hk

theorem State.aluRow_keeps {s₀ s : State} {t op : Nat} {f : Alu} (hk : Keeps s₀ s) :
    Keeps s₀ (State.aluRow s t op f) := by
  unfold State.aluRow
  repeat' (first
    | (intro s; refine keeps_cut (s₀ := s₀) (s := s) ?_ ?_ <;> [subst s; (intro hs; clear_value s)])
    | (intro x; clear_value x)
    | with_reducible assumption
    | with_reducible first | refine State.issue_keeps (fun r s h => ?_) ?_ | apply State.setW_keeps
    | with_reducible first | apply State.setFlags_keeps | apply State.endRow_keeps
    | split
    | with_reducible refine keeps_mk rfl rfl rfl rfl rfl rfl rfl ?_
    | with_reducible refine keeps_fst (by assumption) ?_
    | lift_lets)

theorem State.aluRowBusy_keeps {s₀ s : State} {t op : Nat} {f : Alu} (hk : Keeps s₀ s) :
    Keeps s₀ (State.aluRowBusy s t op f) := by
  unfold State.aluRowBusy
  repeat' (first
    | (intro s; refine keeps_cut (s₀ := s₀) (s := s) ?_ ?_ <;> [subst s; (intro hs; clear_value s)])
    | (intro x; clear_value x)
    | with_reducible assumption
    | with_reducible first | refine State.issue_keeps (fun r s h => ?_) ?_ | apply State.setBusy_keeps
    | split
    | with_reducible refine keeps_mk rfl rfl rfl rfl rfl rfl rfl ?_
    | with_reducible refine keeps_fst (by assumption) ?_
    | lift_lets)

theorem State.outOfRange_keeps {s₀ s : State} {t : Nat} (hk : Keeps s₀ s) : Keeps s₀ (State.outOfRange s t) := by
  unfold State.outOfRange
  repeat' (first
    | with_reducible assumption
    | with_reducible first | apply State.setC_keeps | apply State.endRow_keeps)

theorem State.endWait_keeps {s₀ s : State} {t : Nat} {w7 : Word} {timedOut : Bool} (hk : Keeps s₀ s) :
    Keeps s₀ (State.endWait s t w7 timedOut) := by
  unfold State.endWait
  repeat' (first
    | (intro s; refine keeps_cut (s₀ := s₀) (s := s) ?_ ?_ <;> [subst s; (intro hs; clear_value s)])
    | (intro x; clear_value x)
    | with_reducible assumption
    | with_reducible first | apply State.setTh_keeps | apply State.endRow_keeps
    | with_reducible refine keeps_mk rfl rfl rfl rfl rfl rfl rfl ?_
    | lift_lets)

theorem State.enterWait_keeps {s₀ s : State} {t : Nat} {wf : WaitFor} {timeout : Nat} (hk : Keeps s₀ s) :
    Keeps s₀ (State.enterWait s t wf timeout) := by
  unfold State.enterWait
  repeat' (first
    | with_reducible assumption
    | with_reducible apply State.setTh_keeps
    | split
    | with_reducible refine keeps_mk rfl rfl rfl rfl rfl rfl rfl ?_)

theorem State.takePosts_keeps {s₀ s : State} {t mask : Nat} (hk : Keeps s₀ s) :
    Keeps s₀ (State.takePosts s t mask) := by
  unfold State.takePosts
  repeat' (first
    | (intro s; refine keeps_cut (s₀ := s₀) (s := s) ?_ ?_ <;> [subst s; (intro hs; clear_value s)])
    | (intro x; clear_value x)
    | with_reducible assumption
    | with_reducible first | apply State.clrReg_keeps | apply State.endWait_keeps
    | lift_lets)

end Sys2Proof.Machine
end

