-- ==== Sys2Proof/Laws/KeepsEngineRows.lean ====
section
/-! SUPPORT. `Keeps` for the rows of the engine: one lemma per operation. -/

namespace Sys2Proof.Machine

theorem rowEccError_keeps {s₀ s : State} {t : Nat} (hk : Keeps s₀ s) : Keeps s₀ (rowEccError s t) := by
  unfold rowEccError
  repeat' (first
    | with_reducible assumption
    | with_reducible apply State.threadFault_keeps
    | split
    | with_reducible refine keeps_mk rfl rfl rfl rfl rfl rfl rfl ?_)

theorem fetchCorrected_keeps {s₀ s : State} {t : Nat} (hk : Keeps s₀ s) : Keeps s₀ (fetchCorrected s t) := by
  unfold fetchCorrected
  repeat' first | with_reducible assumption | with_reducible apply State.incF_keeps | split

theorem rowNop_keeps {s₀ s : State} {t : Nat} {ecc : Ecc} (hk : Keeps s₀ s) : Keeps s₀ (rowNop s t ecc) := by
  unfold rowNop
  repeat' (first
    | with_reducible assumption
    | with_reducible first | refine State.issue_keeps (fun r s h => ?_) ?_ | apply State.endRow_keeps
    | with_reducible first | apply fetchCorrected_keeps | apply rowEccError_keeps
    | split
    | with_reducible refine keeps_mk rfl rfl rfl rfl rfl rfl rfl ?_)

theorem rowIllegal_keeps {s₀ s : State} {t : Nat} (hk : Keeps s₀ s) : Keeps s₀ (rowIllegal s t) := by
  unfold rowIllegal
  repeat' (first
    | (intro s; refine keeps_cut (s₀ := s₀) (s := s) ?_ ?_ <;> [subst s; (intro hs; clear_value s)])
    | (intro x; clear_value x)
    | with_reducible assumption
    | with_reducible apply State.threadFault_keeps
    | split
    | with_reducible refine keeps_mk rfl rfl rfl rfl rfl rfl rfl ?_
    | lift_lets)

theorem rowJmp_keeps {s₀ s : State} {t : Nat} (hk : Keeps s₀ s) : Keeps s₀ (rowJmp s t) := by
  unfold rowJmp
  repeat' (first
    | with_reducible assumption
    | with_reducible first | refine State.issue_keeps (fun r s h => ?_) ?_ | apply State.endRowAt_keeps)

theorem rowCall_keeps {s₀ s : State} {t : Nat} (hk : Keeps s₀ s) : Keeps s₀ (rowCall s t) := by
  unfold rowCall
  repeat' (first
    | (intro s; refine keeps_cut (s₀ := s₀) (s := s) ?_ ?_ <;> [subst s; (intro hs; clear_value s)])
    | (intro x; clear_value x)
    | with_reducible assumption
    | with_reducible first | refine State.issue_keeps (fun r s h => ?_) ?_ | apply State.setTh_keeps
    | with_reducible first | apply State.endRowAt_keeps | apply State.threadFault_keeps
    | split
    | with_reducible refine keeps_mk rfl rfl rfl rfl rfl rfl rfl ?_
    | lift_lets)

theorem rowRet_keeps {s₀ s : State} {t : Nat} (hk : Keeps s₀ s) : Keeps s₀ (rowRet s t) := by
  unfold rowRet
  repeat' (first
    | (intro s; refine keeps_cut (s₀ := s₀) (s := s) ?_ ?_ <;> [subst s; (intro hs; clear_value s)])
    | (intro x; clear_value x)
    | with_reducible assumption
    | with_reducible first | refine State.issue_keeps (fun r s h => ?_) ?_ | apply State.setTh_keeps
    | with_reducible first | apply State.endRowAt_keeps | apply State.threadFault_keeps
    | split
    | with_reducible refine keeps_mk rfl rfl rfl rfl rfl rfl rfl ?_
    | lift_lets)

theorem rowDbnz_keeps {s₀ s : State} {t : Nat} (hk : Keeps s₀ s) : Keeps s₀ (rowDbnz s t) := by
  unfold rowDbnz
  repeat' (first
    | (intro s; refine keeps_cut (s₀ := s₀) (s := s) ?_ ?_ <;> [subst s; (intro hs; clear_value s)])
    | (intro x; clear_value x)
    | with_reducible assumption
    | with_reducible first | refine State.issue_keeps (fun r s h => ?_) ?_ | apply State.setW_keeps
    | with_reducible first | apply State.setFlags_keeps | apply State.endRow_keeps | apply State.endRowAt_keeps
    | split
    | with_reducible refine keeps_mk rfl rfl rfl rfl rfl rfl rfl ?_
    | lift_lets)

theorem rowHalt_keeps {s₀ s : State} {t : Nat} (hk : Keeps s₀ s) : Keeps s₀ (rowHalt s t) := by
  unfold rowHalt
  repeat' (first
    | with_reducible assumption
    | with_reducible first | refine State.issue_keeps (fun r s h => ?_) ?_ | apply State.setTh_keeps
    | with_reducible refine keeps_mk rfl rfl rfl rfl rfl rfl rfl ?_)

theorem rowStart_keeps {s₀ s : State} {t : Nat} (hk : Keeps s₀ s) : Keeps s₀ (rowStart s t) := by
  unfold rowStart
  repeat' (first
    | with_reducible assumption
    | with_reducible first | refine State.issue_keeps (fun r s h => ?_) ?_ | apply State.outOfRange_keeps
    | with_reducible first | apply State.setTh_keeps | apply State.setC_keeps | apply State.endRow_keeps
    | split
    | with_reducible refine keeps_mk rfl rfl rfl rfl rfl rfl rfl ?_)

theorem rowStop_keeps {s₀ s : State} {t : Nat} (hk : Keeps s₀ s) : Keeps s₀ (rowStop s t) := by
  unfold rowStop
  repeat' (first
    | (intro s; refine keeps_cut (s₀ := s₀) (s := s) ?_ ?_ <;> [subst s; (intro hs; clear_value s)])
    | (intro x; clear_value x)
    | with_reducible assumption
    | with_reducible first | refine State.issue_keeps (fun r s h => ?_) ?_ | apply State.outOfRange_keeps
    | with_reducible first | apply State.setC_keeps | apply State.setTh_keeps | apply State.endRow_keeps
    | split
    | with_reducible refine keeps_mk rfl rfl rfl rfl rfl rfl rfl ?_
    | lift_lets)

theorem rowJmpx_keeps {s₀ s : State} {t : Nat} (hk : Keeps s₀ s) : Keeps s₀ (rowJmpx s t) := by
  unfold rowJmpx
  repeat' (first
    | (intro s; refine keeps_cut (s₀ := s₀) (s := s) ?_ ?_ <;> [subst s; (intro hs; clear_value s)])
    | (intro x; clear_value x)
    | with_reducible assumption
    | with_reducible first | refine State.issue_keeps (fun r s h => ?_) ?_ | apply State.endRowAt_keeps
    | with_reducible first | apply State.threadFault_keeps
    | split
    | lift_lets)

theorem rowSemget_keeps {s₀ s : State} {t : Nat} (hk : Keeps s₀ s) : Keeps s₀ (rowSemget s t) := by
  unfold rowSemget
  repeat' (first
    | (intro s; refine keeps_cut (s₀ := s₀) (s := s) ?_ ?_ <;> [subst s; (intro hs; clear_value s)])
    | (intro x; clear_value x)
    | with_reducible assumption
    | with_reducible first | refine State.issue_keeps (fun r s h => ?_) ?_ | apply State.outOfRange_keeps
    | with_reducible first | apply State.setC_keeps | apply State.endRow_keeps | apply State.orReg_keeps
    | split
    | with_reducible refine keeps_mk rfl rfl rfl rfl rfl rfl rfl ?_
    | lift_lets)

theorem State.freeSem_keeps {s₀ s : State} {k : Nat} (hk : Keeps s₀ s) : Keeps s₀ (State.freeSem s k) := by
  unfold State.freeSem
  repeat' (first
    | (intro s; refine keeps_cut (s₀ := s₀) (s := s) ?_ ?_ <;> [subst s; (intro hs; clear_value s)])
    | (intro x; clear_value x)
    | with_reducible assumption
    | with_reducible apply State.clrReg_keeps
    | with_reducible refine keeps_mk rfl rfl rfl rfl rfl rfl rfl ?_
    | lift_lets)

theorem rowSemput_keeps {s₀ s : State} {t : Nat} (hk : Keeps s₀ s) : Keeps s₀ (rowSemput s t) := by
  unfold rowSemput
  repeat' (first
    | with_reducible assumption
    | with_reducible first | refine State.issue_keeps (fun r s h => ?_) ?_ | apply State.outOfRange_keeps
    | with_reducible first | apply State.freeSem_keeps | apply State.setC_keeps | apply State.endRow_keeps
    | split
    | with_reducible refine keeps_mk rfl rfl rfl rfl rfl rfl rfl ?_)

theorem rowWait_keeps {s₀ s : State} {t : Nat} (hk : Keeps s₀ s) : Keeps s₀ (rowWait s t) := by
  unfold rowWait
  repeat' (first
    | (intro s; refine keeps_cut (s₀ := s₀) (s := s) ?_ ?_ <;> [subst s; (intro hs; clear_value s)])
    | (intro x; clear_value x)
    | with_reducible assumption
    | with_reducible first | refine State.issue_keeps (fun r s h => ?_) ?_ | apply State.endWait_keeps
    | with_reducible first | apply State.enterWait_keeps
    | split
    | lift_lets)

theorem waitEventEnd_keeps {s₀ s : State} {t : Nat} (hk : Keeps s₀ s) : Keeps s₀ (waitEventEnd s t) := by
  unfold waitEventEnd
  repeat' (first
    | (intro s; refine keeps_cut (s₀ := s₀) (s := s) ?_ ?_ <;> [subst s; (intro hs; clear_value s)])
    | (intro x; clear_value x)
    | with_reducible assumption
    | with_reducible apply State.endWait_keeps
    | split
    | with_reducible refine keeps_mk rfl rfl rfl rfl rfl rfl rfl ?_
    | lift_lets)

theorem rowWaitp_keeps {s₀ s : State} {t : Nat} (hk : Keeps s₀ s) : Keeps s₀ (rowWaitp s t) := by
  unfold rowWaitp
  repeat' (first
    | (intro s; refine keeps_cut (s₀ := s₀) (s := s) ?_ ?_ <;> [subst s; (intro hs; clear_value s)])
    | (intro x; clear_value x)
    | with_reducible assumption
    | with_reducible first | refine State.issue_keeps (fun r s h => ?_) ?_ | apply State.takePosts_keeps
    | with_reducible first | apply State.enterWait_keeps
    | split
    | lift_lets)

theorem waitpEnd_keeps {s₀ s : State} {t : Nat} (hk : Keeps s₀ s) : Keeps s₀ (waitpEnd s t) := by
  unfold waitpEnd
  repeat' (first
    | with_reducible assumption
    | with_reducible apply State.takePosts_keeps
    | split
    | with_reducible refine keeps_mk rfl rfl rfl rfl rfl rfl rfl ?_)

theorem waitTimeout_keeps {s₀ s : State} {t : Nat} (hk : Keeps s₀ s) : Keeps s₀ (waitTimeout s t) := by
  unfold waitTimeout
  repeat' (first
    | (intro s; refine keeps_cut (s₀ := s₀) (s := s) ?_ ?_ <;> [subst s; (intro hs; clear_value s)])
    | (intro x; clear_value x)
    | with_reducible assumption
    | with_reducible first | apply State.wakeUp_keeps | apply State.endWait_keeps
    | split
    | with_reducible refine keeps_mk rfl rfl rfl rfl rfl rfl rfl ?_
    | lift_lets)

theorem rowPost_keeps {s₀ s : State} {t : Nat} (hk : Keeps s₀ s) : Keeps s₀ (rowPost s t) := by
  unfold rowPost
  repeat' (first
    | with_reducible assumption
    | with_reducible first | refine State.issue_keeps (fun r s h => ?_) ?_ | apply State.orReg_keeps
    | with_reducible first | apply State.endRow_keeps)

theorem rowDly_keeps {s₀ s : State} {t : Nat} (hk : Keeps s₀ s) : Keeps s₀ (rowDly s t) := by
  unfold rowDly
  repeat' (first
    | with_reducible assumption
    | with_reducible first | refine State.issue_keeps (fun r s h => ?_) ?_ | apply State.outOfRange_keeps
    | with_reducible first | apply State.setBusy_keeps
    | split
    | with_reducible refine keeps_mk rfl rfl rfl rfl rfl rfl rfl ?_)

theorem dlyEnd_keeps {s₀ s : State} {t : Nat} (hk : Keeps s₀ s) : Keeps s₀ (dlyEnd s t) := by
  unfold dlyEnd
  repeat' first | with_reducible assumption | with_reducible apply State.endRow_keeps | split

theorem rowSignal_keeps {s₀ s : State} {t : Nat} (hk : Keeps s₀ s) : Keeps s₀ (rowSignal s t) := by
  unfold rowSignal
  repeat' (first
    | (intro s; refine keeps_cut (s₀ := s₀) (s := s) ?_ ?_ <;> [subst s; (intro hs; clear_value s)])
    | (intro x; clear_value x)
    | with_reducible assumption
    | with_reducible first | refine State.issue_keeps (fun r s h => ?_) ?_ | apply State.outOfRange_keeps
    | with_reducible first | apply State.wr_keeps | apply State.noteOutputs_keeps | apply State.orReg_keeps
    | with_reducible first | apply State.endRow_keeps
    | split
    | with_reducible refine keeps_mk rfl rfl rfl rfl rfl rfl rfl ?_
    | lift_lets)

theorem rowTcap_keeps {s₀ s : State} {t : Nat} (hk : Keeps s₀ s) : Keeps s₀ (rowTcap s t) := by
  unfold rowTcap
  repeat' (first
    | (intro s; refine keeps_cut (s₀ := s₀) (s := s) ?_ ?_ <;> [subst s; (intro hs; clear_value s)])
    | (intro x; clear_value x)
    | with_reducible assumption
    | with_reducible first | refine State.issue_keeps (fun r s h => ?_) ?_ | apply State.setBusy_keeps
    | with_reducible refine keeps_mk rfl rfl rfl rfl rfl rfl rfl ?_
    | lift_lets)

theorem rowLog_keeps {s₀ s : State} {t : Nat} (hk : Keeps s₀ s) : Keeps s₀ (rowLog s t) := by
  unfold rowLog
  repeat' (first
    | (intro s; refine keeps_cut (s₀ := s₀) (s := s) ?_ ?_ <;> [subst s; (intro hs; clear_value s)])
    | (intro x; clear_value x)
    | with_reducible assumption
    | with_reducible first | refine State.issue_keeps (fun r s h => ?_) ?_ | apply State.almanacAdd_keeps
    | with_reducible first | apply State.endRow_keeps
    | lift_lets)

theorem rowRaise_keeps {s₀ s : State} {t : Nat} (hk : Keeps s₀ s) : Keeps s₀ (rowRaise s t) := by
  unfold rowRaise
  repeat' (first
    | (intro s; refine keeps_cut (s₀ := s₀) (s := s) ?_ ?_ <;> [subst s; (intro hs; clear_value s)])
    | (intro x; clear_value x)
    | with_reducible assumption
    | with_reducible first | refine State.issue_keeps (fun r s h => ?_) ?_ | apply State.outOfRange_keeps
    | with_reducible first | apply State.raiseFrom_keeps | apply State.setBusy_keeps
    | split
    | with_reducible refine keeps_mk rfl rfl rfl rfl rfl rfl rfl ?_
    | lift_lets)

theorem thcmdHalt_keeps {s₀ s : State} {t : Nat} (hk : Keeps s₀ s) : Keeps s₀ (thcmdHalt s t) := by
  unfold thcmdHalt
  repeat' first | with_reducible assumption | with_reducible apply State.setTh_keeps

theorem thcmdStart_keeps {s₀ s : State} {t : Nat} {pc : BitVec 14} (hk : Keeps s₀ s) :
    Keeps s₀ (thcmdStart s t pc) := by
  unfold thcmdStart
  repeat' first | with_reducible assumption | with_reducible apply State.setTh_keeps | split

theorem thcmdResume_keeps {s₀ s : State} {t : Nat} (hk : Keeps s₀ s) : Keeps s₀ (thcmdResume s t) := by
  unfold thcmdResume
  repeat' first | with_reducible assumption | with_reducible apply State.setTh_keeps | split

theorem thcmdStep_keeps {s₀ s : State} {t : Nat} (hk : Keeps s₀ s) : Keeps s₀ (thcmdStep s t) := by
  unfold thcmdStep
  repeat' first | with_reducible assumption | with_reducible apply State.setTh_keeps | split

theorem thcmdWrite_keeps {s₀ s : State} {d : Word} (hk : Keeps s₀ s) : Keeps s₀ (thcmdWrite s d) := by
  unfold thcmdWrite
  repeat' (first
    | (intro s; refine keeps_cut (s₀ := s₀) (s := s) ?_ ?_ <;> [subst s; (intro hs; clear_value s)])
    | (intro x; clear_value x)
    | with_reducible assumption
    | with_reducible first | apply thcmdHalt_keeps | apply thcmdStart_keeps | apply thcmdResume_keeps
    | with_reducible first | apply thcmdStep_keeps
    | split
    | with_reducible refine keeps_mk rfl rfl rfl rfl rfl rfl rfl ?_
    | lift_lets)

theorem thwWrite_keeps {s₀ s : State} {n m : Nat} {d : Word} (hk : Keeps s₀ s) : Keeps s₀ (thwWrite s n m d) := by
  unfold thwWrite
  repeat' first | with_reducible assumption | with_reducible apply State.setW_keeps | split

end Sys2Proof.Machine
end

