-- ==== Sys2Proof/Laws/KeepsIntc.lean ====
section
/-! SUPPORT. `Keeps` for the interrupt controller: one lemma per operation. -/

namespace Sys2Proof.Machine

theorem State.groupFall_keeps {s₀ s : State} {i : Nat} (hk : Keeps s₀ s) : Keeps s₀ (State.groupFall s i) := by
  unfold State.groupFall
  repeat' (first
    | (intro s; refine keeps_cut (s₀ := s₀) (s := s) ?_ ?_ <;> [subst s; (intro hs; clear_value s)])
    | (intro x; clear_value x)
    | with_reducible assumption
    | split
    | with_reducible refine keeps_mk rfl rfl rfl rfl rfl rfl rfl ?_
    | lift_lets)

theorem State.setIntPend_keeps {s₀ s : State} {i : Nat} {b : Bool} (hk : Keeps s₀ s) :
    Keeps s₀ (State.setIntPend s i b) := by
  unfold State.setIntPend
  repeat' (first
    | (intro s; refine keeps_cut (s₀ := s₀) (s := s) ?_ ?_ <;> [subst s; (intro hs; clear_value s)])
    | (intro x; clear_value x)
    | with_reducible assumption
    | with_reducible first | apply State.orReg_keeps | apply State.clrReg_keeps | apply State.groupFall_keeps
    | split
    | with_reducible refine keeps_fst (by assumption) ?_
    | lift_lets)

theorem State.takeIn_keeps {s₀ s : State} {i : Nat} (hk : Keeps s₀ s) : Keeps s₀ (State.takeIn s i) := by
  unfold State.takeIn
  repeat' (first
    | (intro s; refine keeps_cut (s₀ := s₀) (s := s) ?_ ?_ <;> [subst s; (intro hs; clear_value s)])
    | (intro x; clear_value x)
    | with_reducible assumption
    | with_reducible first | apply State.pulse_keeps | apply State.setIntPend_keeps
    | split
    | with_reducible refine keeps_mk rfl rfl rfl rfl rfl rfl rfl ?_
    | lift_lets)

theorem State.intcEdge_keeps {s₀ s : State} {i : Nat} (hk : Keeps s₀ s) : Keeps s₀ (State.intcEdge s i) := by
  unfold State.intcEdge
  repeat' (first
    | with_reducible assumption
    | with_reducible first | apply State.noteOutputs_keeps | apply State.takeIn_keeps
    | split)

theorem State.nmiTakeIn_keeps {s₀ s : State} (hk : Keeps s₀ s) : Keeps s₀ (State.nmiTakeIn s) := by
  unfold State.nmiTakeIn
  repeat' (first
    | (intro s; refine keeps_cut (s₀ := s₀) (s := s) ?_ ?_ <;> [subst s; (intro hs; clear_value s)])
    | (intro x; clear_value x)
    | with_reducible assumption
    | with_reducible first | apply State.noteOutputs_keeps | apply State.orReg_keeps
    | with_reducible refine keeps_foldl (fun s a h => ?_) ?_
    | split
    | with_reducible refine keeps_mk rfl rfl rfl rfl rfl rfl rfl ?_
    | lift_lets)

theorem State.pendWrite_keeps {s₀ s : State} {first n : Nat} {w : Word} (hk : Keeps s₀ s) :
    Keeps s₀ (State.pendWrite s first n w) := by
  unfold State.pendWrite
  repeat' (first
    | (intro s; refine keeps_cut (s₀ := s₀) (s := s) ?_ ?_ <;> [subst s; (intro hs; clear_value s)])
    | (intro x; clear_value x)
    | with_reducible assumption
    | with_reducible first | apply State.noteOutputs_keeps | apply State.setIntPend_keeps
    | with_reducible refine keeps_foldl (fun s a h => ?_) ?_
    | split
    | with_reducible refine keeps_mk rfl rfl rfl rfl rfl rfl rfl ?_
    | lift_lets)

theorem State.nmiWrite_keeps {s₀ s : State} {a : Nat} {w : Word} (hk : Keeps s₀ s) :
    Keeps s₀ (State.nmiWrite s a w) := by
  unfold State.nmiWrite
  repeat' (first
    | with_reducible assumption
    | with_reducible first | apply State.noteOutputs_keeps | apply State.wr_keeps)

theorem State.enWrite_keeps {s₀ s : State} {a : Nat} {w : Word} (hk : Keeps s₀ s) :
    Keeps s₀ (State.enWrite s a w) := by
  unfold State.enWrite
  repeat' (first
    | with_reducible assumption
    | with_reducible first | apply State.noteOutputs_keeps | apply State.wr_keeps)

theorem State.cfgWrite_keeps {s₀ s : State} {i : Nat} {d : Word} (hk : Keeps s₀ s) :
    Keeps s₀ (State.cfgWrite s i d) := by
  unfold State.cfgWrite
  repeat' (first
    | (intro s; refine keeps_cut (s₀ := s₀) (s := s) ?_ ?_ <;> [subst s; (intro hs; clear_value s)])
    | (intro x; clear_value x)
    | with_reducible assumption
    | with_reducible first | apply State.wr_keeps | apply State.setIntPend_keeps | apply State.pulse_keeps
    | with_reducible first | apply State.noteOutputs_keeps
    | split
    | with_reducible refine keeps_mk rfl rfl rfl rfl rfl rfl rfl ?_
    | lift_lets)

theorem State.groupReopen_keeps {s₀ s : State} {g : Nat} (hk : Keeps s₀ s) : Keeps s₀ (State.groupReopen s g) := by
  unfold State.groupReopen
  repeat' (first
    | (intro s; refine keeps_cut (s₀ := s₀) (s := s) ?_ ?_ <;> [subst s; (intro hs; clear_value s)])
    | (intro x; clear_value x)
    | with_reducible assumption
    | with_reducible first | apply State.noteOutputs_keeps | apply State.ev_keeps | apply State.wakeUp_keeps
    | split
    | with_reducible refine keeps_mk rfl rfl rfl rfl rfl rfl rfl ?_
    | lift_lets)

theorem State.intcWake_keeps {s₀ s : State} (hk : Keeps s₀ s) : Keeps s₀ (State.intcWake s) := by
  unfold State.intcWake
  repeat' (first
    | with_reducible assumption
    | with_reducible first | apply State.groupReopen_keeps | apply State.nmiTakeIn_keeps
    | with_reducible refine keeps_foldl (fun s a h => ?_) ?_
    | with_reducible refine keeps_mk rfl rfl rfl rfl rfl rfl rfl ?_)

theorem State.intcReset_keeps {s₀ s : State} (hk : Keeps s₀ s) : Keeps s₀ (State.intcReset s) := by
  unfold State.intcReset
  repeat' first | with_reducible assumption | with_reducible refine keeps_mk rfl rfl rfl rfl rfl rfl rfl ?_

theorem State.intcBoot_keeps {s₀ s : State} (hk : Keeps s₀ s) : Keeps s₀ (State.intcBoot s) := by
  unfold State.intcBoot
  repeat' (first
    | (intro s; refine keeps_cut (s₀ := s₀) (s := s) ?_ ?_ <;> [subst s; (intro hs; clear_value s)])
    | (intro x; clear_value x)
    | with_reducible assumption
    | with_reducible first | apply State.takeIn_keeps | apply State.noteOutputs_keeps | apply State.orReg_keeps
    | with_reducible refine keeps_foldl (fun s a h => ?_) ?_
    | split
    | with_reducible refine keeps_mk rfl rfl rfl rfl rfl rfl rfl ?_
    | lift_lets)

end Sys2Proof.Machine
end

