-- ==== Sys2Proof/Laws/KeepsFaultCtl.lean ====
section
/-! SUPPORT. `Keeps` for the fault controller: one lemma per operation. -/

namespace Sys2Proof.Machine

theorem State.toLull_keeps {s₀ s : State} {k : Nat} (hk : Keeps s₀ s) : Keeps s₀ (State.toLull s k) := by
  unfold State.toLull
  repeat' (first
    | with_reducible assumption
    | with_reducible apply State.setSrc_keeps
    | with_reducible refine keeps_mk rfl rfl rfl rfl rfl rfl rfl ?_)

theorem State.faultEnded_keeps {s₀ s : State} {k : Nat} (hk : Keeps s₀ s) : Keeps s₀ (State.faultEnded s k) := by
  unfold State.faultEnded
  repeat' (first
    | (intro s; refine keeps_cut (s₀ := s₀) (s := s) ?_ ?_ <;> [subst s; (intro hs; clear_value s)])
    | (intro x; clear_value x)
    | with_reducible assumption
    | with_reducible first | apply State.setF_keeps | apply State.setSrc_keeps | apply State.toLull_keeps
    | split
    | with_reducible refine keeps_mk rfl rfl rfl rfl rfl rfl rfl ?_
    | lift_lets)

theorem State.lullExpire_keeps {s₀ s : State} {k : Nat} (hk : Keeps s₀ s) : Keeps s₀ (State.lullExpire s k) := by
  unfold State.lullExpire
  repeat' (first
    | (intro s; refine keeps_cut (s₀ := s₀) (s := s) ?_ ?_ <;> [subst s; (intro hs; clear_value s)])
    | (intro x; clear_value x)
    | with_reducible assumption
    | with_reducible first | apply State.wakeUp_keeps | apply State.setSrc_keeps | apply State.history_keeps
    | with_reducible first | apply State.ev_keeps
    | split
    | with_reducible refine keeps_mk rfl rfl rfl rfl rfl rfl rfl ?_
    | lift_lets)

theorem State.clearSource_keeps {s₀ s : State} {k : Nat} {host : Bool} (hk : Keeps s₀ s) :
    Keeps s₀ (State.clearSource s k host) := by
  unfold State.clearSource
  repeat' (first
    | (intro s; refine keeps_cut (s₀ := s₀) (s := s) ?_ ?_ <;> [subst s; (intro hs; clear_value s)])
    | (intro x; clear_value x)
    | with_reducible assumption
    | with_reducible first | apply State.setSrc_keeps | apply State.history_keeps | apply State.ev_keeps
    | split
    | with_reducible refine keeps_mk rfl rfl rfl rfl rfl rfl rfl ?_
    | lift_lets)

theorem State.clearWrite_keeps {s₀ s : State} {i : Nat} {d : Word} {host : Bool} (hk : Keeps s₀ s) :
    Keeps s₀ (State.clearWrite s i d host) := by
  unfold State.clearWrite
  repeat' (first
    | with_reducible assumption
    | with_reducible apply State.clearSource_keeps
    | with_reducible refine keeps_foldl (fun s a h => ?_) ?_
    | split
    | with_reducible refine keeps_mk rfl rfl rfl rfl rfl rfl rfl ?_)

theorem State.reactWrite_keeps {s₀ s : State} {k : Nat} {d : Word} (hk : Keeps s₀ s) :
    Keeps s₀ (State.reactWrite s k d) := by
  unfold State.reactWrite
  repeat' (first
    | (intro s; refine keeps_cut (s₀ := s₀) (s := s) ?_ ?_ <;> [subst s; (intro hs; clear_value s)])
    | (intro x; clear_value x)
    | with_reducible assumption
    | with_reducible first | apply State.wr_keeps | apply State.noteOutputs_keeps | apply State.orReg_keeps
    | with_reducible first | apply State.setSrc_keeps
    | split
    | with_reducible refine keeps_mk rfl rfl rfl rfl rfl rfl rfl ?_
    | lift_lets)

theorem State.lullEdge_keeps {s₀ s : State} (hk : Keeps s₀ s) : Keeps s₀ (State.lullEdge s) := by
  unfold State.lullEdge
  repeat' (first
    | with_reducible assumption
    | with_reducible apply State.toLull_keeps
    | with_reducible refine keeps_foldl (fun s a h => ?_) ?_
    | split
    | with_reducible refine keeps_mk rfl rfl rfl rfl rfl rfl rfl ?_)

theorem State.historyClear_keeps {s₀ s : State} (hk : Keeps s₀ s) : Keeps s₀ (State.historyClear s) := by
  unfold State.historyClear
  repeat' (first
    | (intro s; refine keeps_cut (s₀ := s₀) (s := s) ?_ ?_ <;> [subst s; (intro hs; clear_value s)])
    | (intro x; clear_value x)
    | with_reducible assumption
    | with_reducible first | apply State.setF_keeps | apply State.wr_keeps
    | with_reducible refine keeps_foldl (fun s a h => ?_) ?_
    | with_reducible refine keeps_mk rfl rfl rfl rfl rfl rfl rfl ?_
    | lift_lets)

theorem State.extFault_keeps {s₀ s : State} {active : Bool} (hk : Keeps s₀ s) :
    Keeps s₀ (State.extFault s active) := by
  unfold State.extFault
  repeat' (first
    | with_reducible assumption
    | with_reducible first | apply State.raiseLevel_keeps | apply State.endLevel_keeps
    | split)

theorem State.extinWrite_keeps {s₀ s : State} {d : Word} (hk : Keeps s₀ s) : Keeps s₀ (State.extinWrite s d) := by
  unfold State.extinWrite
  repeat' (first
    | (intro s; refine keeps_cut (s₀ := s₀) (s := s) ?_ ?_ <;> [subst s; (intro hs; clear_value s)])
    | (intro x; clear_value x)
    | with_reducible assumption
    | with_reducible first | apply State.wr_keeps | apply State.endLevel_keeps
    | split
    | lift_lets)

theorem State.faultsPowerOn_keeps {s₀ s : State} (hk : Keeps s₀ s) : Keeps s₀ (State.faultsPowerOn s) := by
  unfold State.faultsPowerOn
  repeat' first | with_reducible assumption | with_reducible refine keeps_mk rfl rfl rfl rfl rfl rfl rfl ?_

end Sys2Proof.Machine
end

