-- ==== Sys2Proof/Laws/KeepsOtp.lean ====
section
/-! SUPPORT. `Keeps` for the OTP: one lemma per operation. -/

namespace Sys2Proof.Machine

theorem State.otpRead_keeps {s₀ s : State} {o : OtpSense} {w : Nat} (hk : Keeps s₀ s) :
    Keeps s₀ (State.otpRead s o w).1 := by
  unfold State.otpRead
  repeat' (first
    | with_reducible assumption
    | with_reducible first | apply State.incF_keeps | apply State.ev_keeps | apply State.raise_keeps
    | split
    | with_reducible refine keeps_mk rfl rfl rfl rfl rfl rfl rfl ?_)

theorem State.otpReads_keeps {s₀ s : State} {o : OtpSense} {ws : List Nat} (hk : Keeps s₀ s) : Keeps s₀ (s.otpReads o ws).1 := by
  induction ws generalizing s with
  | nil => exact hk
  | cons w ws ih => exact ih (State.otpRead_keeps hk)

theorem testBit_or_left {a b i : Nat} (h : a.testBit i = true) : (a ||| b).testBit i = true := by
  simp [Nat.testBit_or, h]

theorem Otp.blow_le (o : Otp) (r i : Nat) : OtpLe o (o.blow r i) := by
  refine ⟨fun _ _ h => h, fun _ _ h => h, fun _ _ _ h => h, fun q j h => ?_⟩
  simp only [Otp.fuse, Otp.blow, tget_tset]
  split
  · rfl
  · exact h

theorem otpLe_foldl {α : Type} {o : Otp} {f : Otp → α → Otp} {l : List α} (hf : ∀ t a, OtpLe t (f t a)) :
    OtpLe o (l.foldl f o) := by
  induction l generalizing o with
  | nil => exact .refl _
  | cons a l ih => exact (hf o a).trans ih

theorem State.overridden_keeps {s₀ s : State} {l : List Nat} (hk : Keeps s₀ s) :
    Keeps s₀ (s.setOtp { s.otp with overridden := l }) := State.setOtp_keeps (.same rfl rfl rfl rfl) hk

theorem State.setOtpCmd_keeps {s₀ s : State} {c : Option OtpCmd} (hk : Keeps s₀ s) :
    Keeps s₀ (s.setOtp { s.otp with cmd := c }) := State.setOtp_keeps (.same rfl rfl rfl rfl) hk

theorem State.blow_keeps {s₀ s : State} {r i : Nat} (hk : Keeps s₀ s) : Keeps s₀ (s.setOtp (s.otp.blow r i)) :=
  State.setOtp_keeps (Otp.blow_le _ _ _) hk

theorem State.blows_keeps {s₀ s : State} {r : Nat} {l : List Nat} (hk : Keeps s₀ s) :
    Keeps s₀ (s.setOtp (l.foldl (fun t i => t.blow r i) s.otp)) := State.setOtp_keeps (otpLe_foldl fun _ _ => Otp.blow_le _ _ _) hk

theorem State.readRedir_keeps {s₀ s : State} (hk : Keeps s₀ s) : Keeps s₀ (State.readRedir s) := by
  unfold State.readRedir
  repeat' (first
    | (intro s; refine keeps_cut (s₀ := s₀) (s := s) ?_ ?_ <;> [subst s; (intro hs; clear_value s)])
    | (intro x; clear_value x)
    | with_reducible assumption
    | with_reducible first | apply State.setF_keeps | apply State.setFb_keeps
    | with_reducible refine keeps_foldl (fun s a h => ?_) ?_
    | lift_lets)

theorem State.countRows_keeps {s₀ s : State} (hk : Keeps s₀ s) : Keeps s₀ (State.countRows s) := by
  unfold State.countRows
  repeat' first | with_reducible assumption | with_reducible apply State.setF_keeps

theorem State.otpStat_keeps {s₀ s : State} (hk : Keeps s₀ s) : Keeps s₀ (State.otpStat s) := by
  unfold State.otpStat
  repeat' (first
    | with_reducible assumption
    | with_reducible first | apply State.setF_keeps | apply State.setFb_keeps)

theorem State.setMidTrim_keeps {s₀ s : State} {b : Bool} (hk : Keeps s₀ s) : Keeps s₀ (s.setMidTrim b) :=
  State.setOtp_keeps (.same rfl rfl rfl rfl) hk

theorem State.bootTrim_keeps {s₀ s : State} {o : OtpSense} {bad : List Nat} (hk : Keeps s₀ s) : Keeps s₀ (s.bootTrim o bad) := by
  refine keeps_foldl (fun s r h => ?_) (State.setMidTrim_keeps (State.countRows_keeps (State.readRedir_keeps hk)))
  have h' := State.otpReads_keeps (o := o) (ws := otpWords r) h
  revert h'
  generalize s.otpReads o (otpWords r) = p
  intro h'
  obtain ⟨t, ws⟩ := p
  dsimp only at h' ⊢
  have h2 := keeps_ite (c := bad.contains r = true ∧ ws.all Option.isSome = true) (State.raise_keeps (k := 45) (cause := 0) (detail := 0) h') h'
  exact keeps_ite (State.setMidTrim_keeps h2) h2

theorem State.fillShadow_keeps {s₀ s : State} {ws : List Word} (hk : Keeps s₀ s) :
    Keeps s₀ (State.fillShadow s ws) := by
  unfold State.fillShadow
  repeat' (first
    | with_reducible assumption
    | with_reducible apply State.setMemWord_keeps
    | with_reducible refine keeps_foldl (fun s a h => ?_) ?_)

theorem State.marginal_keeps {s₀ s : State} {w : Nat} (hk : Keeps s₀ s) : Keeps s₀ (State.marginal s w) := by
  unfold State.marginal
  repeat' (first
    | with_reducible assumption
    | with_reducible first | apply State.incF_keeps | apply State.setF_keeps | apply State.ev_keeps
    | with_reducible first | apply State.raise_keeps)

theorem State.bootShadow_keeps {s₀ s : State} {o : OtpSense} (hk : Keeps s₀ s) : Keeps s₀ (s.bootShadow o) := by
  have h := State.otpReads_keeps (o := o) (ws := otpWords 2) hk
  unfold State.bootShadow
  revert h
  generalize s.otpReads o (otpWords 2) = p
  intro h
  obtain ⟨t, ws⟩ := p
  dsimp -zeta only at h ⊢
  extract_lets s1 st o1 s2 s3 s4 s5
  have h1 : Keeps s₀ s1 := keeps_foldl (fun s w h => keeps_ite (State.marginal_keeps h) h) h
  have h2 : Keeps s₀ s2 := State.overridden_keeps (State.setF_keeps h1)
  have h4 : Keeps s₀ s4 := State.fillShadow_keeps (State.setF_keeps h2)
  have h5 : Keeps s₀ s5 := keeps_ite h4 (State.setF_keeps h4)
  exact keeps_ite (State.raise_keeps h5) h5

theorem State.shadowWrite_keeps {s₀ s : State} {w : Nat} {d : Word} (hk : Keeps s₀ s) :
    Keeps s₀ (State.shadowWrite s w d) := by
  unfold State.shadowWrite
  repeat' (first
    | (intro s; refine keeps_cut (s₀ := s₀) (s := s) ?_ ?_ <;> [subst s; (intro hs; clear_value s)])
    | (intro x; clear_value x)
    | with_reducible assumption
    | with_reducible first | apply State.setMemWord_keeps | apply State.setF_keeps | apply State.overridden_keeps
    | split
    | with_reducible refine keeps_mk rfl rfl rfl rfl rfl rfl rfl ?_
    | lift_lets)

theorem State.overrideClear_keeps {s₀ s : State} (hk : Keeps s₀ s) : Keeps s₀ (State.overrideClear s) := by
  unfold State.overrideClear
  repeat' (first
    | (intro s; refine keeps_cut (s₀ := s₀) (s := s) ?_ ?_ <;> [subst s; (intro hs; clear_value s)])
    | (intro x; clear_value x)
    | with_reducible assumption
    | with_reducible first | apply State.fillShadow_keeps | apply State.setF_keeps | apply State.overridden_keeps
    | split
    | with_reducible refine keeps_mk rfl rfl rfl rfl rfl rfl rfl ?_
    | lift_lets)

theorem State.otpEnd_keeps {s₀ s : State} {by' : Option Proc} {code : Nat} {marg corr : Bool} {pulses : Option Nat} (hk : Keeps s₀ s) :
    Keeps s₀ (State.otpEnd s by' code marg corr pulses) := by
  unfold State.otpEnd
  repeat' (first
    | (intro s; refine keeps_cut (s₀ := s₀) (s := s) ?_ ?_ <;> [subst s; (intro hs; clear_value s)])
    | (intro x; clear_value x)
    | with_reducible assumption
    | with_reducible first | apply State.wr_keeps | apply State.setF_keeps | apply State.setFb_keeps
    | with_reducible first | apply State.ev_keeps | apply State.pulse_keeps
    | split
    | with_reducible refine keeps_mk rfl rfl rfl rfl rfl rfl rfl ?_
    | lift_lets)

theorem State.otpBusy_keeps {s₀ s : State} (hk : Keeps s₀ s) : Keeps s₀ (State.otpBusy s) := by
  unfold State.otpBusy
  repeat' first | with_reducible assumption | with_reducible apply State.setFb_keeps

theorem State.otpJudge_keeps {s₀ s : State} {op arg code : Nat} (hk : Keeps s₀ s) : Keeps s₀ (s.otpJudge op arg code) :=
  keeps_ite (State.otpReads_keeps hk) hk

theorem State.otpCmd_keeps {s₀ s : State} {by' : Option Proc} {d : Word} (hk : Keeps s₀ s) :
    Keeps s₀ (State.otpCmd s by' d) := by
  unfold State.otpCmd
  repeat' (first
    | (intro s; refine keeps_cut (s₀ := s₀) (s := s) ?_ ?_ <;> [subst s; (intro hs; clear_value s)])
    | (intro x; clear_value x)
    | with_reducible assumption
    | with_reducible first | apply State.setF_keeps | apply State.otpEnd_keeps | apply State.otpBusy_keeps
    | with_reducible first | refine State.when_keeps (fun s h => ?_) ?_ | apply State.spareGone_keeps
    | with_reducible first | apply State.setOtpCmd_keeps | apply State.otpJudge_keeps
    | split
    | with_reducible refine keeps_mk rfl rfl rfl rfl rfl rfl rfl ?_
    | lift_lets)

theorem Otp.burn_le (o : Otp) (w bits : Nat) : OtpLe o (o.burn w bits) := by
  refine ⟨fun v i h => ?_, fun _ _ h => h, fun _ _ _ h => h, fun _ _ h => h⟩
  simp only [Otp.pattern, Otp.burn, tget_tset]
  split
  next e => exact testBit_or_left (e ▸ h)
  next => exact h

theorem State.burn_keeps {s₀ s : State} {w bits : Nat} (hk : Keeps s₀ s) : Keeps s₀ (s.setOtp (s.otp.burn w bits)) :=
  State.setOtp_keeps (Otp.burn_le _ _ _) hk

theorem Otp.burnSpare_le (o : Otp) (w bits : Nat) : OtpLe o (o.burnSpare w bits) := by
  refine ⟨fun _ _ h => h, fun v i h => ?_, fun _ _ _ h => h, fun _ _ h => h⟩
  simp only [Otp.sparePattern, Otp.burnSpare, tget_tset]
  split
  next e => exact testBit_or_left (e ▸ h)
  next => exact h

theorem Otp.burnCopy_le (o : Otp) (e c bits : Nat) : OtpLe o (o.burnCopy e c bits) := by
  refine ⟨fun _ _ h => h, fun _ _ h => h, fun f d i h => ?_, fun _ _ h => h⟩
  simp only [Otp.copy, Otp.burnCopy, tget_tset]
  split
  next e => exact testBit_or_left (by simpa [Otp.copy, e] using h)
  next => exact h

theorem State.otpReadEnd_keeps {s₀ s : State} {c : OtpCmd} {o : OtpSense} (hk : Keeps s₀ s) : Keeps s₀ (s.otpReadEnd c o) := by
  have h := State.otpRead_keeps (o := o) (w := c.arg) hk
  unfold State.otpReadEnd
  revert h
  generalize s.otpRead o c.arg = p
  intro h
  obtain ⟨t, d | d⟩ := p
  · exact State.otpEnd_keeps h
  · refine State.otpEnd_keeps ?_
    dsimp only at h ⊢
    split
    · exact State.nextFree_keeps (State.wr_keeps h)
    · exact State.wr_keeps h

theorem State.otpProgramEnd_keeps {s₀ s : State} {c : OtpCmd} {o : OtpSense} (hk : Keeps s₀ s) :
    Keeps s₀ (State.otpProgramEnd s c o) := by
  unfold State.otpProgramEnd
  repeat' (first
    | (intro s; refine keeps_cut (s₀ := s₀) (s := s) ?_ ?_ <;> [subst s; (intro hs; clear_value s)])
    | (intro x; clear_value x)
    | with_reducible assumption
    | with_reducible first | apply State.nextFree_keeps | apply State.otpEnd_keeps | apply State.burn_keeps
    | split
    | lift_lets)

theorem State.otpLockEnd_keeps {s₀ s : State} {c : OtpCmd} {o : OtpSense} (hk : Keeps s₀ s) :
    Keeps s₀ (State.otpLockEnd s c o) := by
  unfold State.otpLockEnd
  repeat' (first
    | (intro s; refine keeps_cut (s₀ := s₀) (s := s) ?_ ?_ <;> [subst s; (intro hs; clear_value s)])
    | (intro x; clear_value x)
    | with_reducible assumption
    | with_reducible first | apply State.otpStat_keeps | apply State.otpEnd_keeps | apply State.blows_keeps
    | with_reducible refine keeps_foldl (fun s a h => ?_) ?_
    | split
    | lift_lets)

theorem State.repairBurn_keeps {s₀ s : State} {e row : Nat} {ws : List Word} {steps : Nat} {cut : Bool} (hk : Keeps s₀ s) :
    Keeps s₀ (s.repairBurn e row ws steps cut) := by
  have put (t : Otp) (i b : Nat) : OtpLe t (if i < 8 then t.burnSpare (8 * e + i) b else t.burnCopy e (i - 8) b) := by
    split
    · exact Otp.burnSpare_le _ _ _
    · exact Otp.burnCopy_le _ _ _ _
  have h1 : Keeps s₀ (s.setOtp ((List.range (min 11 steps)).foldl
      (fun t i => if i < 8 then t.burnSpare (8 * e + i) (if i < 8 then otpEncode ((ws[i]?).getD 0) else 256 + row)
        else t.burnCopy e (i - 8) (if i < 8 then otpEncode ((ws[i]?).getD 0) else 256 + row)) s.otp)) :=
    State.setOtp_keeps (otpLe_foldl fun t i => put t i _) hk
  unfold State.repairBurn
  simp only
  split
  · exact State.nextFree_keeps (State.setOtp_keeps (put _ _ _) h1)
  · exact h1

theorem State.otpRepairEnd_keeps {s₀ s : State} {c : OtpCmd} {o : OtpSense} (hk : Keeps s₀ s) :
    Keeps s₀ (State.otpRepairEnd s c o) := by
  unfold State.otpRepairEnd
  repeat' (first
    | (intro s; refine keeps_cut (s₀ := s₀) (s := s) ?_ ?_ <;> [subst s; (intro hs; clear_value s)])
    | (intro x; clear_value x)
    | with_reducible assumption
    | with_reducible first | apply State.otpReads_keeps | apply State.otpEnd_keeps | apply State.repairBurn_keeps
    | with_reducible first | apply State.countRows_keeps | apply State.readRedir_keeps | apply State.marginal_keeps
    | with_reducible first | apply State.raise_keeps | apply State.ev_keeps | apply State.spareUsed_keeps
    | split
    | with_reducible refine keeps_mk rfl rfl rfl rfl rfl rfl rfl ?_
    | with_reducible refine keeps_fst (by assumption) ?_
    | lift_lets)

theorem State.otpCheckEnd_keeps {s₀ s : State} {c : OtpCmd} {o : OtpSense} (hk : Keeps s₀ s) : Keeps s₀ (s.otpCheckEnd c o) := by
  have h := State.otpReads_keeps (o := o) (ws := otpWords c.arg) hk
  unfold State.otpCheckEnd
  revert h
  generalize s.otpReads o (otpWords c.arg) = p
  intro h
  obtain ⟨t, ds⟩ := p
  dsimp only at h ⊢
  split
  · exact State.otpEnd_keeps h
  · exact State.otpEnd_keeps (State.wr_keeps h)

theorem State.otpComplete_keeps {s₀ s : State} {o : OtpSense} (hk : Keeps s₀ s) :
    Keeps s₀ (State.otpComplete s o) := by
  unfold State.otpComplete
  repeat' (first
    | (intro s; refine keeps_cut (s₀ := s₀) (s := s) ?_ ?_ <;> [subst s; (intro hs; clear_value s)])
    | (intro x; clear_value x)
    | with_reducible assumption
    | with_reducible first | apply State.otpBusy_keeps | apply State.otpReadEnd_keeps
    | with_reducible first | apply State.otpProgramEnd_keeps | apply State.otpLockEnd_keeps
    | with_reducible first | apply State.otpRepairEnd_keeps | apply State.otpCheckEnd_keeps
    | with_reducible first | apply State.otpEnd_keeps | apply State.setOtpCmd_keeps
    | split
    | with_reducible refine keeps_mk rfl rfl rfl rfl rfl rfl rfl ?_
    | lift_lets)

theorem State.otpCut_keeps {s₀ s : State} (hk : Keeps s₀ s) : Keeps s₀ (State.otpCut s) := by
  unfold State.otpCut
  repeat' (first
    | (intro s; refine keeps_cut (s₀ := s₀) (s := s) ?_ ?_ <;> [subst s; (intro hs; clear_value s)])
    | (intro x; clear_value x)
    | with_reducible assumption
    | with_reducible first | apply State.nextFree_keeps | apply State.repairBurn_keeps | apply State.setOtpCmd_keeps
    | with_reducible first | apply State.burn_keeps | apply State.blow_keeps
    | with_reducible refine keeps_foldl (fun s a h => ?_) ?_
    | split
    | with_reducible refine keeps_mk rfl rfl rfl rfl rfl rfl rfl ?_
    | lift_lets)

theorem State.stickyLock_keeps {s₀ s : State} {a : Nat} {d : Word} (hk : Keeps s₀ s) :
    Keeps s₀ (State.stickyLock s a d) := by
  unfold State.stickyLock
  repeat' first | with_reducible assumption | with_reducible apply State.orReg_keeps

end Sys2Proof.Machine
end

