-- ==== Sys2Proof/Laws/KeepsPlanLoad.lean ====
section
/-! SUPPORT. `Keeps` for the plan loads: one lemma per operation. -/

namespace Sys2Proof.Machine

theorem State.setEng_keeps {s₀ s : State} {e : Engine} (hk : Keeps s₀ s) : Keeps s₀ (State.setEng s e) := by
  unfold State.setEng
  repeat' first | with_reducible assumption | with_reducible refine keeps_mk rfl rfl rfl rfl rfl rfl rfl ?_

theorem State.setStage_keeps {s₀ s : State} {l : Load} (hk : Keeps s₀ s) : Keeps s₀ (State.setStage s l) := by
  unfold State.setStage
  repeat' (first
    | with_reducible assumption
    | with_reducible apply State.setEng_keeps
    | with_reducible refine keeps_mk rfl rfl rfl rfl rfl rfl rfl ?_)

theorem State.haltAll_keeps {s₀ s : State} (hk : Keeps s₀ s) : Keeps s₀ (State.haltAll s) := by
  unfold State.haltAll
  repeat' (first
    | with_reducible assumption
    | with_reducible apply State.setTh_keeps
    | with_reducible refine keeps_foldl (fun s a h => ?_) ?_
    | with_reducible refine keeps_mk rfl rfl rfl rfl rfl rfl rfl ?_)

theorem State.loadStart_keeps {s₀ s : State} {src : PlanSrc} (hk : Keeps s₀ s) :
    Keeps s₀ (State.loadStart s src) := by
  unfold State.loadStart
  repeat' (first
    | (intro s; refine keeps_cut (s₀ := s₀) (s := s) ?_ ?_ <;> [subst s; (intro hs; clear_value s)])
    | (intro x; clear_value x)
    | with_reducible assumption
    | with_reducible first | apply State.setF_keeps | apply State.flashFail_keeps | apply State.haltAll_keeps
    | with_reducible first | apply State.setStage_keeps
    | split
    | lift_lets)

theorem State.loadWrite_keeps {s₀ s : State} {d : Word} (hk : Keeps s₀ s) : Keeps s₀ (State.loadWrite s d) := by
  unfold State.loadWrite
  repeat' (first
    | with_reducible assumption
    | with_reducible apply State.loadStart_keeps
    | split
    | with_reducible refine keeps_mk rfl rfl rfl rfl rfl rfl rfl ?_)

theorem State.loadOver_keeps {s₀ s : State} (hk : Keeps s₀ s) : Keeps s₀ (State.loadOver s) := by
  unfold State.loadOver
  repeat' (first
    | (intro s; refine keeps_cut (s₀ := s₀) (s := s) ?_ ?_ <;> [subst s; (intro hs; clear_value s)])
    | (intro x; clear_value x)
    | with_reducible assumption
    | with_reducible first | apply State.setEng_keeps | apply State.setF_keeps | apply State.setX_keeps
    | with_reducible first | apply State.discBegin_keeps
    | split
    | with_reducible refine keeps_mk rfl rfl rfl rfl rfl rfl rfl ?_
    | lift_lets)

theorem State.restoreThreads_keeps {s₀ s : State} {saved : List (Nat × Thread)} (hk : Keeps s₀ s) :
    Keeps s₀ (State.restoreThreads s saved) := by
  unfold State.restoreThreads
  repeat' (first
    | (intro s; refine keeps_cut (s₀ := s₀) (s := s) ?_ ?_ <;> [subst s; (intro hs; clear_value s)])
    | (intro x; clear_value x)
    | with_reducible assumption
    | with_reducible apply State.setTh_keeps
    | with_reducible refine keeps_foldl (fun s a h => ?_) ?_
    | split
    | with_reducible refine keeps_mk rfl rfl rfl rfl rfl rfl rfl ?_
    | lift_lets)

theorem State.loadFault_keeps {s₀ s : State} {result : Nat} (hk : Keeps s₀ s) :
    Keeps s₀ (State.loadFault s result) := by
  unfold State.loadFault
  repeat' (first
    | with_reducible assumption
    | with_reducible first | apply State.flashFail_keeps | apply State.raise_keeps
    | split)

theorem State.loadFail_keeps {s₀ s : State} {l : Load} {result : Nat} (hk : Keeps s₀ s) :
    Keeps s₀ (State.loadFail s l result) := by
  unfold State.loadFail
  repeat' (first
    | (intro s; refine keeps_cut (s₀ := s₀) (s := s) ?_ ?_ <;> [subst s; (intro hs; clear_value s)])
    | (intro x; clear_value x)
    | with_reducible assumption
    | with_reducible first | apply State.setF_keeps | apply State.loadFault_keeps | apply State.loadOver_keeps
    | with_reducible first | apply State.setStage_keeps | apply State.restoreThreads_keeps
    | split
    | with_reducible refine keeps_mk rfl rfl rfl rfl rfl rfl rfl ?_
    | lift_lets)

theorem State.fillPlan_keeps {s₀ s : State} {bytes : List Byte} (hk : Keeps s₀ s) : Keeps s₀ (s.fillPlan bytes) := by
  refine State.setBytes_keeps (hk.trans ⟨rfl, rfl, rfl, fun w => ?_, Nat.le_refl _, OtpLe.refl _⟩)
  simp only [State.wf, Bool.and_eq_true] at w ⊢
  exact ⟨w.1, twf_filter _ _ _ w.2⟩

theorem State.loadDone_keeps {s₀ s : State} {l : Load} {planid : Word} (hk : Keeps s₀ s) :
    Keeps s₀ (State.loadDone s l planid) := by
  unfold State.loadDone
  repeat' (first
    | (intro s; refine keeps_cut (s₀ := s₀) (s := s) ?_ ?_ <;> [subst s; (intro hs; clear_value s)])
    | (intro x; clear_value x)
    | with_reducible assumption
    | with_reducible first | apply State.setEng_keeps | apply State.wr_keeps | apply State.setF_keeps
    | with_reducible first | apply State.setFb_keeps | apply State.loadOver_keeps | apply State.setTh_keeps
    | with_reducible refine keeps_mk rfl rfl rfl rfl rfl rfl rfl ?_
    | lift_lets)

theorem State.loadHalted_keeps {s₀ s : State} (hk : Keeps s₀ s) : Keeps s₀ (State.loadHalted s) := by
  unfold State.loadHalted
  repeat' (first
    | with_reducible assumption
    | with_reducible apply State.setStage_keeps
    | split
    | with_reducible refine keeps_mk rfl rfl rfl rfl rfl rfl rfl ?_)

theorem State.loadHeader_keeps {s₀ s : State} {ok : Bool} (hk : Keeps s₀ s) : Keeps s₀ (State.loadHeader s ok) := by
  unfold State.loadHeader
  repeat' (first
    | with_reducible assumption
    | with_reducible first | apply State.loadFail_keeps | apply State.setStage_keeps
    | split
    | with_reducible refine keeps_mk rfl rfl rfl rfl rfl rfl rfl ?_)

theorem State.loadPass1_keeps {s₀ s : State} {ok : Bool} {o : OtpSense} (hk : Keeps s₀ s) : Keeps s₀ (s.loadPass1 ok o) := by
  have h := State.otpReads_keeps (o := o) (ws := otpWords 4) hk
  unfold State.loadPass1
  revert h
  generalize s.otpReads o (otpWords 4) = p
  intro h
  obtain ⟨t, ws⟩ := p
  dsimp only at h ⊢
  repeat' (first
    | with_reducible assumption
    | with_reducible first | apply State.loadFail_keeps | apply State.setStage_keeps
    | split)

theorem State.loadPass2_keeps {s₀ s : State} {read same : Bool} (hk : Keeps s₀ s) :
    Keeps s₀ (State.loadPass2 s read same) := by
  unfold State.loadPass2
  repeat' (first
    | (intro s; refine keeps_cut (s₀ := s₀) (s := s) ?_ ?_ <;> [subst s; (intro hs; clear_value s)])
    | (intro x; clear_value x)
    | with_reducible assumption
    | with_reducible first | apply State.loadFail_keeps | apply State.fillPlan_keeps | apply State.loadDone_keeps
    | split
    | with_reducible refine keeps_mk rfl rfl rfl rfl rfl rfl rfl ?_
    | lift_lets)

theorem State.otpHeader_keeps {s₀ s : State} {o : OtpSense} (hk : Keeps s₀ s) : Keeps s₀ (s.otpHeader o) := by
  have h := State.otpRead_keeps (o := o) (w := 1534) hk
  unfold State.otpHeader
  revert h
  generalize s.otpRead o 1534 = p
  intro h
  obtain ⟨t, d | d⟩ := p <;> dsimp only at h ⊢ <;> repeat' (first
    | with_reducible assumption
    | with_reducible first | apply State.loadFail_keeps | apply State.setStage_keeps
    | split)

theorem State.otpPlanRead_keeps {s₀ s : State} {o : OtpSense} (hk : Keeps s₀ s) : Keeps s₀ (s.otpPlanRead o) := by
  have h := State.otpReads_keeps (o := o) (ws := otpWords 3) hk
  unfold State.otpPlanRead
  revert h
  generalize s.otpReads o (otpWords 3) = p
  intro h
  obtain ⟨t, ws⟩ := p
  dsimp only at h ⊢
  repeat' (first
    | with_reducible assumption
    | with_reducible first | apply State.loadFail_keeps | apply State.setStage_keeps
    | split)

theorem State.otpPlanWritten_keeps {s₀ s : State} (hk : Keeps s₀ s) : Keeps s₀ (State.otpPlanWritten s) := by
  unfold State.otpPlanWritten
  repeat' (first
    | with_reducible assumption
    | with_reducible first | apply State.fillPlan_keeps | apply State.loadDone_keeps
    | split
    | with_reducible refine keeps_mk rfl rfl rfl rfl rfl rfl rfl ?_)

theorem State.engineReset_keeps {s₀ s : State} (hk : Keeps s₀ s) : Keeps s₀ (State.engineReset s) := by
  unfold State.engineReset
  repeat' (first
    | with_reducible assumption
    | with_reducible apply State.setEng_keeps
    | with_reducible refine keeps_mk rfl rfl rfl rfl rfl rfl rfl ?_)

end Sys2Proof.Machine
end

