-- ==== Sys2Proof/Laws/KeepsTimers.lean ====
section
/-! SUPPORT. `Keeps` for the timers and the CRC unit: one lemma per operation. -/

namespace Sys2Proof.Machine

theorem State.setTm_keeps {s₀ s : State} {t : Nat} {x : Timer} (hk : Keeps s₀ s) : Keeps s₀ (State.setTm s t x) := by
  unfold State.setTm
  repeat' first | with_reducible assumption | with_reducible refine keeps_mk rfl rfl rfl rfl rfl rfl rfl ?_

theorem State.timerEvent_keeps {s₀ s : State} {t b : Nat} (hk : Keeps s₀ s) : Keeps s₀ (State.timerEvent s t b) := by
  unfold State.timerEvent
  repeat' (first
    | (intro s; refine keeps_cut (s₀ := s₀) (s := s) ?_ ?_ <;> [subst s; (intro hs; clear_value s)])
    | (intro x; clear_value x)
    | with_reducible assumption
    | with_reducible first | apply State.orReg_keeps | apply State.pulse_keeps
    | split
    | lift_lets)

theorem State.timerMatch_keeps {s₀ s : State} {t x : Nat} (hk : Keeps s₀ s) : Keeps s₀ (State.timerMatch s t x) := by
  unfold State.timerMatch
  repeat' (first
    | (intro s; refine keeps_cut (s₀ := s₀) (s := s) ?_ ?_ <;> [subst s; (intro hs; clear_value s)])
    | (intro x; clear_value x)
    | with_reducible assumption
    | with_reducible first | apply State.timerEvent_keeps | apply State.setTm_keeps | apply State.wakeUp_keeps
    | split
    | with_reducible refine keeps_mk rfl rfl rfl rfl rfl rfl rfl ?_
    | lift_lets)

theorem State.matchIf_keeps {s₀ s : State} {c : Prop} [Decidable c] {t n : Nat} (hk : Keeps s₀ s) :
    Keeps s₀ (if c then s.timerMatch t n else s) := keeps_ite (State.timerMatch_keeps hk) hk

theorem State.timerIncrement_keeps {s₀ s : State} {t : Nat} (hk : Keeps s₀ s) : Keeps s₀ (s.timerIncrement t) := by
  unfold State.timerIncrement
  split
  · exact State.matchIf_keeps (State.matchIf_keeps (State.setTm_keeps hk))
  · exact hk

theorem State.timerCapture_keeps {s₀ s : State} {t : Nat} {rising late : Bool} (hk : Keeps s₀ s) :
    Keeps s₀ (State.timerCapture s t rising late) := by
  unfold State.timerCapture
  repeat' (first
    | (intro s; refine keeps_cut (s₀ := s₀) (s := s) ?_ ?_ <;> [subst s; (intro hs; clear_value s)])
    | (intro x; clear_value x)
    | with_reducible assumption
    | with_reducible first | apply State.setTm_keeps | apply State.timerEvent_keeps | apply State.incF_keeps
    | split
    | with_reducible refine keeps_mk rfl rfl rfl rfl rfl rfl rfl ?_
    | lift_lets)

theorem State.timerCmd_keeps {s₀ s : State} {w : Writer} {t op : Nat} (hk : Keeps s₀ s) :
    Keeps s₀ (State.timerCmd s w t op) := by
  unfold State.timerCmd
  repeat' (first
    | (intro s; refine keeps_cut (s₀ := s₀) (s := s) ?_ ?_ <;> [subst s; (intro hs; clear_value s)])
    | (intro x; clear_value x)
    | with_reducible assumption
    | with_reducible apply State.setTm_keeps
    | split
    | with_reducible refine keeps_mk rfl rfl rfl rfl rfl rfl rfl ?_
    | lift_lets)

theorem State.tioWrite_keeps {s₀ s : State} {t : Nat} {w : Word} (hk : Keeps s₀ s) :
    Keeps s₀ (State.tioWrite s t w) := by
  unfold State.tioWrite
  repeat' (first
    | (intro s; refine keeps_cut (s₀ := s₀) (s := s) ?_ ?_ <;> [subst s; (intro hs; clear_value s)])
    | (intro x; clear_value x)
    | with_reducible assumption
    | with_reducible first | apply State.wr_keeps | apply State.setTm_keeps
    | split
    | with_reducible refine keeps_mk rfl rfl rfl rfl rfl rfl rfl ?_
    | lift_lets)

theorem State.setCrc_keeps {s₀ s : State} {c : CrcUnit} (hk : Keeps s₀ s) : Keeps s₀ (State.setCrc s c) := by
  unfold State.setCrc
  repeat' first | with_reducible assumption | with_reducible refine keeps_mk rfl rfl rfl rfl rfl rfl rfl ?_

theorem State.crcForeign_keeps {s₀ s : State} {w : Writer} (hk : Keeps s₀ s) : Keeps s₀ (State.crcForeign s w) := by
  unfold State.crcForeign
  repeat' (first
    | (intro s; refine keeps_cut (s₀ := s₀) (s := s) ?_ ?_ <;> [subst s; (intro hs; clear_value s)])
    | (intro x; clear_value x)
    | with_reducible assumption
    | with_reducible apply State.setF_keeps
    | split
    | lift_lets)

theorem State.crcPush_keeps {s₀ s : State} {e : CrcEntry} (hk : Keeps s₀ s) : Keeps s₀ (State.crcPush s e) := by
  unfold State.crcPush
  repeat' (first
    | with_reducible assumption
    | with_reducible first | apply State.setCrc_keeps | apply State.setF_keeps | apply State.ev_keeps
    | split
    | with_reducible refine keeps_mk rfl rfl rfl rfl rfl rfl rfl ?_)

theorem State.crcDin_keeps {s₀ s : State} {w : Writer} {n : Nat} {d : Word} (hk : Keeps s₀ s) :
    Keeps s₀ (State.crcDin s w n d) := by
  unfold State.crcDin
  repeat' (first
    | with_reducible assumption
    | with_reducible first | apply State.crcForeign_keeps | apply State.crcPush_keeps)

theorem State.crcCtrl_keeps {s₀ s : State} {w : Writer} {d : Word} (hk : Keeps s₀ s) :
    Keeps s₀ (State.crcCtrl s w d) := by
  unfold State.crcCtrl
  repeat' (first
    | (intro s; refine keeps_cut (s₀ := s₀) (s := s) ?_ ?_ <;> [subst s; (intro hs; clear_value s)])
    | (intro x; clear_value x)
    | with_reducible assumption
    | with_reducible first | apply State.crcForeign_keeps | apply State.crcPush_keeps | apply State.setF_keeps
    | split
    | lift_lets)

theorem State.crcApply_keeps {s₀ s : State} (hk : Keeps s₀ s) : Keeps s₀ (State.crcApply s) := by
  unfold State.crcApply
  repeat' (first
    | with_reducible assumption
    | with_reducible apply State.setCrc_keeps
    | with_reducible refine keeps_foldl (fun s a h => ?_) ?_
    | split
    | with_reducible refine keeps_mk rfl rfl rfl rfl rfl rfl rfl ?_)

theorem State.crcOwner_keeps {s₀ s : State} {w : Writer} {d : Word} (hk : Keeps s₀ s) :
    Keeps s₀ (State.crcOwner s w d) := by
  unfold State.crcOwner
  repeat' (first
    | (intro s; refine keeps_cut (s₀ := s₀) (s := s) ?_ ?_ <;> [subst s; (intro hs; clear_value s)])
    | (intro x; clear_value x)
    | with_reducible assumption
    | with_reducible first | apply State.setF_keeps | apply State.ev_keeps | apply State.pulse_keeps
    | split
    | with_reducible refine keeps_mk rfl rfl rfl rfl rfl rfl rfl ?_
    | lift_lets)

theorem State.timersReset_keeps {s₀ s : State} (hk : Keeps s₀ s) : Keeps s₀ (State.timersReset s) := by
  unfold State.timersReset
  repeat' first | with_reducible assumption | with_reducible refine keeps_mk rfl rfl rfl rfl rfl rfl rfl ?_

end Sys2Proof.Machine
end

