-- ==== Sys2Proof/Laws/KeepsProbe.lean ====
section
/-! SUPPORT. `Keeps` for the health probe: one lemma per operation. -/

namespace Sys2Proof.Machine

theorem State.setHealth_keeps {s₀ s : State} {h : Health} (hk : Keeps s₀ s) : Keeps s₀ (State.setHealth s h) := by
  unfold State.setHealth
  repeat' first | with_reducible assumption | with_reducible refine keeps_mk rfl rfl rfl rfl rfl rfl rfl ?_

theorem State.setHl_keeps {s₀ s : State} {n : Nat} {x : HealthLoop} (hk : Keeps s₀ s) :
    Keeps s₀ (State.setHl s n x) := by
  unfold State.setHl
  repeat' (first
    | with_reducible assumption
    | with_reducible apply State.setHealth_keeps
    | with_reducible refine keeps_mk rfl rfl rfl rfl rfl rfl rfl ?_)

theorem State.probeAbort_keeps {s₀ s : State} {n cause : Nat} (hk : Keeps s₀ s) :
    Keeps s₀ (State.probeAbort s n cause) := by
  unfold State.probeAbort
  repeat' (first
    | (intro s; refine keeps_cut (s₀ := s₀) (s := s) ?_ ?_ <;> [subst s; (intro hs; clear_value s)])
    | (intro x; clear_value x)
    | with_reducible assumption
    | with_reducible first | apply State.setHealth_keeps | apply State.setF_keeps | apply State.setHl_keeps
    | with_reducible first | apply State.ev_keeps
    | split
    | with_reducible refine keeps_mk rfl rfl rfl rfl rfl rfl rfl ?_
    | lift_lets)

end Sys2Proof.Machine
end

