-- ==== Sys2Proof/Laws/KeepsConv.lean ====
section
/-! SUPPORT. `Keeps` for the converter loops: one lemma per operation. -/

namespace Sys2Proof.Machine

theorem State.setLoop_keeps {s₀ s : State} {n : Nat} {x : Loop} (hk : Keeps s₀ s) :
    Keeps s₀ (State.setLoop s n x) := by
  unfold State.setLoop
  repeat' first | with_reducible assumption | with_reducible refine keeps_mk rfl rfl rfl rfl rfl rfl rfl ?_

theorem State.setPh_keeps {s₀ s : State} {k st : Nat} (hk : Keeps s₀ s) : Keeps s₀ (State.setPh s k st) := by
  unfold State.setPh
  repeat' (first
    | (intro s; refine keeps_cut (s₀ := s₀) (s := s) ?_ ?_ <;> [subst s; (intro hs; clear_value s)])
    | (intro x; clear_value x)
    | with_reducible assumption
    | with_reducible first | apply State.setF_keeps | apply State.orReg_keeps | apply State.clrReg_keeps
    | split
    | lift_lets)

theorem State.respread_keeps {s₀ s : State} {n : Nat} (hk : Keeps s₀ s) : Keeps s₀ (State.respread s n) := by
  unfold State.respread
  repeat' first | with_reducible assumption | with_reducible apply State.setF_keeps

theorem State.placeSlots_keeps {s₀ s : State} {n : Nat} (hk : Keeps s₀ s) : Keeps s₀ (State.placeSlots s n) := by
  unfold State.placeSlots
  repeat' (first
    | (intro s; refine keeps_cut (s₀ := s₀) (s := s) ?_ ?_ <;> [subst s; (intro hs; clear_value s)])
    | (intro x; clear_value x)
    | with_reducible assumption
    | with_reducible apply State.setF_keeps
    | with_reducible refine keeps_foldl (fun s a h => ?_) ?_
    | lift_lets)

theorem State.setPhases_keeps {s₀ s : State} {ks : List Nat} {st : Nat} (hk : Keeps s₀ s) :
    Keeps s₀ (State.setPhases s ks st) := by
  unfold State.setPhases
  repeat' (first
    | with_reducible assumption
    | with_reducible apply State.setPh_keeps
    | with_reducible refine keeps_foldl (fun s a h => ?_) ?_)

theorem State.convRefuse_keeps {s₀ s : State} {reason loop phase : Nat} (hk : Keeps s₀ s) :
    Keeps s₀ (State.convRefuse s reason loop phase) := by
  unfold State.convRefuse
  repeat' (first
    | (intro s; refine keeps_cut (s₀ := s₀) (s := s) ?_ ?_ <;> [subst s; (intro hs; clear_value s)])
    | (intro x; clear_value x)
    | with_reducible assumption
    | with_reducible first | apply State.setF_keeps | apply State.ev_keeps
    | lift_lets)

theorem State.setRole_keeps {s₀ s : State} {k role : Nat} (hk : Keeps s₀ s) : Keeps s₀ (State.setRole s k role) := by
  unfold State.setRole
  repeat' (first
    | (intro s; refine keeps_cut (s₀ := s₀) (s := s) ?_ ?_ <;> [subst s; (intro hs; clear_value s)])
    | (intro x; clear_value x)
    | with_reducible assumption
    | with_reducible first | apply State.setF_keeps | apply State.raise_keeps
    | split
    | lift_lets)

theorem State.assignWrite_keeps {s₀ s : State} {k : Nat} {d : Word} (hk : Keeps s₀ s) :
    Keeps s₀ (State.assignWrite s k d) := by
  unfold State.assignWrite
  repeat' (first
    | (intro s; refine keeps_cut (s₀ := s₀) (s := s) ?_ ?_ <;> [subst s; (intro hs; clear_value s)])
    | (intro x; clear_value x)
    | with_reducible assumption
    | with_reducible first | apply State.setRole_keeps | apply State.setF_keeps | apply State.convRefuse_keeps
    | split
    | with_reducible refine keeps_mk rfl rfl rfl rfl rfl rfl rfl ?_
    | lift_lets)

theorem State.targetWrite_keeps {s₀ s : State} {n : Nat} {d : Word} (hk : Keeps s₀ s) :
    Keeps s₀ (State.targetWrite s n d) := by
  unfold State.targetWrite
  repeat' (first
    | (intro s; refine keeps_cut (s₀ := s₀) (s := s) ?_ ?_ <;> [subst s; (intro hs; clear_value s)])
    | (intro x; clear_value x)
    | with_reducible assumption
    | with_reducible first | apply State.setF_keeps | apply State.setLoop_keeps
    | split
    | with_reducible refine keeps_mk rfl rfl rfl rfl rfl rfl rfl ?_
    | lift_lets)

theorem State.setRef_keeps {s₀ s : State} {n fine : Nat} {down : Bool} (hk : Keeps s₀ s) :
    Keeps s₀ (State.setRef s n fine down) := by
  unfold State.setRef
  repeat' (first
    | with_reducible assumption
    | with_reducible first | apply State.setF_keeps | apply State.setLoop_keeps
    | with_reducible refine keeps_mk rfl rfl rfl rfl rfl rfl rfl ?_)

theorem State.refMove_keeps {s₀ s : State} {n : Nat} (hk : Keeps s₀ s) : Keeps s₀ (State.refMove s n) := by
  unfold State.refMove
  repeat' (first
    | (intro s; refine keeps_cut (s₀ := s₀) (s := s) ?_ ?_ <;> [subst s; (intro hs; clear_value s)])
    | (intro x; clear_value x)
    | with_reducible assumption
    | with_reducible apply State.setRef_keeps
    | split
    | lift_lets)

theorem State.refLand_keeps {s₀ s : State} {n : Nat} (hk : Keeps s₀ s) : Keeps s₀ (State.refLand s n) := by
  unfold State.refLand
  repeat' first | with_reducible assumption | with_reducible apply State.setRef_keeps

theorem State.slewDone_keeps {s₀ s : State} {n : Nat} (hk : Keeps s₀ s) : Keeps s₀ (State.slewDone s n) := by
  unfold State.slewDone
  repeat' (first
    | (intro s; refine keeps_cut (s₀ := s₀) (s := s) ?_ ?_ <;> [subst s; (intro hs; clear_value s)])
    | (intro x; clear_value x)
    | with_reducible assumption
    | with_reducible first | apply State.refLand_keeps | apply State.setLoop_keeps | apply State.ev_keeps
    | split
    | with_reducible refine keeps_mk rfl rfl rfl rfl rfl rfl rfl ?_
    | lift_lets)

theorem State.copyBank_keeps {s₀ s : State} {n : Nat} (hk : Keeps s₀ s) : Keeps s₀ (State.copyBank s n) := by
  unfold State.copyBank
  repeat' (first
    | with_reducible assumption
    | with_reducible apply State.setLoop_keeps
    | with_reducible refine keeps_mk rfl rfl rfl rfl rfl rfl rfl ?_)

theorem State.loopCapture_keeps {s₀ s : State} {n cause vout : Nat} (hk : Keeps s₀ s) :
    Keeps s₀ (State.loopCapture s n cause vout) := by
  unfold State.loopCapture
  repeat' (first
    | (intro s; refine keeps_cut (s₀ := s₀) (s := s) ?_ ?_ <;> [subst s; (intro hs; clear_value s)])
    | (intro x; clear_value x)
    | with_reducible assumption
    | with_reducible first | apply State.probeAbort_keeps | apply State.wr_keeps | apply State.setF_keeps
    | with_reducible first | apply State.ev_keeps | apply State.recLastFault_keeps
    | with_reducible refine keeps_foldl (fun s a h => ?_) ?_
    | lift_lets)

theorem State.loopFault_keeps {s₀ s : State} {n cause vout : Nat} (hk : Keeps s₀ s) :
    Keeps s₀ (State.loopFault s n cause vout) := by
  unfold State.loopFault
  repeat' (first
    | with_reducible assumption
    | with_reducible first | apply State.loopCapture_keeps | apply State.raise_keeps)

theorem State.pgoodDrop_keeps {s₀ s : State} {n : Nat} (hk : Keeps s₀ s) : Keeps s₀ (State.pgoodDrop s n) := by
  unfold State.pgoodDrop
  repeat' (first
    | with_reducible assumption
    | with_reducible first | apply State.setF_keeps | apply State.ev_keeps
    | split)

theorem State.rampFrom_keeps {s₀ s : State} {n vout : Nat} (hk : Keeps s₀ s) :
    Keeps s₀ (State.rampFrom s n vout) := by
  unfold State.rampFrom
  repeat' (first
    | with_reducible assumption
    | with_reducible first | apply State.setF_keeps | apply State.setLoop_keeps
    | with_reducible refine keeps_mk rfl rfl rfl rfl rfl rfl rfl ?_)

theorem State.loopStart_keeps {s₀ s : State} {n : Nat} (hk : Keeps s₀ s) : Keeps s₀ (State.loopStart s n) := by
  unfold State.loopStart
  repeat' (first
    | (intro s; refine keeps_cut (s₀ := s₀) (s := s) ?_ ?_ <;> [subst s; (intro hs; clear_value s)])
    | (intro x; clear_value x)
    | with_reducible assumption
    | with_reducible first | apply State.copyBank_keeps | apply State.setF_keeps | apply State.rampFrom_keeps
    | with_reducible first | apply State.setLoop_keeps | apply State.setPhases_keeps | apply State.respread_keeps
    | with_reducible first | apply State.placeSlots_keeps
    | with_reducible refine keeps_mk rfl rfl rfl rfl rfl rfl rfl ?_
    | lift_lets)

theorem State.loopOff_keeps {s₀ s : State} {n : Nat} (hk : Keeps s₀ s) : Keeps s₀ (State.loopOff s n) := by
  unfold State.loopOff
  repeat' (first
    | (intro s; refine keeps_cut (s₀ := s₀) (s := s) ?_ ?_ <;> [subst s; (intro hs; clear_value s)])
    | (intro x; clear_value x)
    | with_reducible assumption
    | with_reducible first | apply State.pgoodDrop_keeps | apply State.setF_keeps | apply State.rampFrom_keeps
    | with_reducible first | apply State.setPhases_keeps | apply State.respread_keeps | apply State.loopStart_keeps
    | split
    | lift_lets)

theorem State.loopTurnOn_keeps {s₀ s : State} {n : Nat} (hk : Keeps s₀ s) : Keeps s₀ (State.loopTurnOn s n) := by
  unfold State.loopTurnOn
  repeat' (first
    | with_reducible assumption
    | with_reducible first | apply State.loopStart_keeps | apply State.setF_keeps | apply State.setLoop_keeps
    | split
    | with_reducible refine keeps_mk rfl rfl rfl rfl rfl rfl rfl ?_)

theorem State.softoff_keeps {s₀ s : State} {n : Nat} (hk : Keeps s₀ s) : Keeps s₀ (State.softoff s n) := by
  unfold State.softoff
  repeat' (first
    | (intro s; refine keeps_cut (s₀ := s₀) (s := s) ?_ ?_ <;> [subst s; (intro hs; clear_value s)])
    | (intro x; clear_value x)
    | with_reducible assumption
    | with_reducible first | apply State.pgoodDrop_keeps | apply State.setF_keeps | apply State.setLoop_keeps
    | with_reducible first | apply State.setPhases_keeps | apply State.respread_keeps
    | with_reducible refine keeps_mk rfl rfl rfl rfl rfl rfl rfl ?_
    | lift_lets)

theorem State.loopTurnOff_keeps {s₀ s : State} {n : Nat} (hk : Keeps s₀ s) : Keeps s₀ (State.loopTurnOff s n) := by
  unfold State.loopTurnOff
  repeat' (first
    | (intro s; refine keeps_cut (s₀ := s₀) (s := s) ?_ ?_ <;> [subst s; (intro hs; clear_value s)])
    | (intro x; clear_value x)
    | with_reducible assumption
    | with_reducible first | apply State.setF_keeps | apply State.setLoop_keeps | apply State.softoff_keeps
    | with_reducible first | apply State.loopOff_keeps
    | split
    | with_reducible refine keeps_mk rfl rfl rfl rfl rfl rfl rfl ?_
    | lift_lets)

theorem State.loopKill_keeps {s₀ s : State} {n : Nat} (hk : Keeps s₀ s) : Keeps s₀ (State.loopKill s n) := by
  unfold State.loopKill
  repeat' (first
    | (intro s; refine keeps_cut (s₀ := s₀) (s := s) ?_ ?_ <;> [subst s; (intro hs; clear_value s)])
    | (intro x; clear_value x)
    | with_reducible assumption
    | with_reducible first | apply State.setLoop_keeps | apply State.setF_keeps | apply State.loopOff_keeps
    | with_reducible refine keeps_mk rfl rfl rfl rfl rfl rfl rfl ?_
    | lift_lets)

theorem State.loopStarted_keeps {s₀ s : State} {n vout : Nat} (hk : Keeps s₀ s) :
    Keeps s₀ (State.loopStarted s n vout) := by
  unfold State.loopStarted
  repeat' (first
    | (intro s; refine keeps_cut (s₀ := s₀) (s := s) ?_ ?_ <;> [subst s; (intro hs; clear_value s)])
    | (intro x; clear_value x)
    | with_reducible assumption
    | with_reducible first | apply State.setF_keeps | apply State.refLand_keeps | apply State.ev_keeps
    | with_reducible first | apply State.setLoop_keeps
    | split
    | with_reducible refine keeps_mk rfl rfl rfl rfl rfl rfl rfl ?_
    | lift_lets)

theorem State.softoffDone_keeps {s₀ s : State} {n : Nat} (hk : Keeps s₀ s) : Keeps s₀ (State.softoffDone s n) := by
  unfold State.softoffDone
  repeat' first | with_reducible assumption | with_reducible apply State.loopOff_keeps | split

theorem State.pgoodLost_keeps {s₀ s : State} {n vout : Nat} (hk : Keeps s₀ s) :
    Keeps s₀ (State.pgoodLost s n vout) := by
  unfold State.pgoodLost
  repeat' (first
    | with_reducible assumption
    | with_reducible first | apply State.setF_keeps | apply State.pgoodDrop_keeps
    | split)

theorem State.pgoodRegained_keeps {s₀ s : State} {n vout : Nat} (hk : Keeps s₀ s) :
    Keeps s₀ (State.pgoodRegained s n vout) := by
  unfold State.pgoodRegained
  repeat' (first
    | with_reducible assumption
    | with_reducible first | apply State.setF_keeps | apply State.ev_keeps
    | split)

theorem State.abortShed_keeps {s₀ s : State} {n : Nat} {inhibit : Bool} (hk : Keeps s₀ s) :
    Keeps s₀ (State.abortShed s n inhibit) := by
  unfold State.abortShed
  repeat' (first
    | (intro s; refine keeps_cut (s₀ := s₀) (s := s) ?_ ?_ <;> [subst s; (intro hs; clear_value s)])
    | (intro x; clear_value x)
    | with_reducible assumption
    | with_reducible first | apply State.setPhases_keeps | apply State.respread_keeps | apply State.ev_keeps
    | with_reducible first | apply State.setF_keeps
    | split
    | lift_lets)

theorem State.addPhases_keeps {s₀ s : State} {n want : Nat} (hk : Keeps s₀ s) :
    Keeps s₀ (State.addPhases s n want) := by
  unfold State.addPhases
  repeat' (first
    | (intro s; refine keeps_cut (s₀ := s₀) (s := s) ?_ ?_ <;> [subst s; (intro hs; clear_value s)])
    | (intro x; clear_value x)
    | with_reducible assumption
    | with_reducible first | apply State.setPhases_keeps | apply State.respread_keeps
    | split
    | lift_lets)

theorem State.leadOnly_keeps {s₀ s : State} {n : Nat} (hk : Keeps s₀ s) : Keeps s₀ (State.leadOnly s n) := by
  unfold State.leadOnly
  repeat' first | with_reducible assumption | with_reducible apply State.setPhases_keeps

theorem State.adoptLow_keeps {s₀ s : State} {n : Nat} (hk : Keeps s₀ s) : Keeps s₀ (State.adoptLow s n) := by
  unfold State.adoptLow
  repeat' (first
    | with_reducible assumption
    | with_reducible first | apply State.setPhases_keeps | apply State.respread_keeps)

theorem State.adoptRoles_keeps {s₀ s : State} {n : Nat} (hk : Keeps s₀ s) : Keeps s₀ (State.adoptRoles s n) := by
  unfold State.adoptRoles
  repeat' (first
    | (intro s; refine keeps_cut (s₀ := s₀) (s := s) ?_ ?_ <;> [subst s; (intro hs; clear_value s)])
    | (intro x; clear_value x)
    | with_reducible assumption
    | with_reducible first | apply State.setPhases_keeps | apply State.leadOnly_keeps | apply State.respread_keeps
    | split
    | lift_lets)

theorem State.addShed_keeps {s₀ s : State} {n : Nat} (hk : Keeps s₀ s) : Keeps s₀ (State.addShed s n) := by
  unfold State.addShed
  repeat' (first
    | (intro s; refine keeps_cut (s₀ := s₀) (s := s) ?_ ?_ <;> [subst s; (intro hs; clear_value s)])
    | (intro x; clear_value x)
    | with_reducible assumption
    | with_reducible first | apply State.setLoop_keeps | apply State.abortShed_keeps | apply State.addPhases_keeps
    | with_reducible first | apply State.setPh_keeps
    | split
    | with_reducible refine keeps_mk rfl rfl rfl rfl rfl rfl rfl ?_
    | lift_lets)

theorem State.shedCommit_keeps {s₀ s : State} {k : Nat} (hk : Keeps s₀ s) : Keeps s₀ (State.shedCommit s k) := by
  unfold State.shedCommit
  repeat' (first
    | (intro s; refine keeps_cut (s₀ := s₀) (s := s) ?_ ?_ <;> [subst s; (intro hs; clear_value s)])
    | (intro x; clear_value x)
    | with_reducible assumption
    | with_reducible first | apply State.wakeUp_keeps | apply State.setPh_keeps | apply State.respread_keeps
    | with_reducible first | apply State.ev_keeps
    | split
    | lift_lets)

theorem State.phaseAdded_keeps {s₀ s : State} {k : Nat} (hk : Keeps s₀ s) : Keeps s₀ (State.phaseAdded s k) := by
  unfold State.phaseAdded
  repeat' (first
    | (intro s; refine keeps_cut (s₀ := s₀) (s := s) ?_ ?_ <;> [subst s; (intro hs; clear_value s)])
    | (intro x; clear_value x)
    | with_reducible assumption
    | with_reducible first | apply State.wakeUp_keeps | apply State.setPh_keeps | apply State.respread_keeps
    | with_reducible first | apply State.ev_keeps
    | split
    | lift_lets)

theorem State.shedInhibitEnd_keeps {s₀ s : State} {n : Nat} (hk : Keeps s₀ s) :
    Keeps s₀ (State.shedInhibitEnd s n) := by
  unfold State.shedInhibitEnd
  repeat' (first
    | with_reducible assumption
    | with_reducible first | apply State.setF_keeps | apply State.setLoop_keeps
    | split
    | with_reducible refine keeps_mk rfl rfl rfl rfl rfl rfl rfl ?_)

theorem State.burstEntry_keeps {s₀ s : State} {n : Nat} (hk : Keeps s₀ s) : Keeps s₀ (State.burstEntry s n) := by
  unfold State.burstEntry
  repeat' (first
    | (intro s; refine keeps_cut (s₀ := s₀) (s := s) ?_ ?_ <;> [subst s; (intro hs; clear_value s)])
    | (intro x; clear_value x)
    | with_reducible assumption
    | with_reducible first | apply State.wakeUp_keeps | apply State.leadOnly_keeps | apply State.respread_keeps
    | with_reducible first | apply State.setLoop_keeps | apply State.setF_keeps | apply State.ev_keeps
    | split
    | with_reducible refine keeps_mk rfl rfl rfl rfl rfl rfl rfl ?_
    | lift_lets)

theorem State.burstExit_keeps {s₀ s : State} {n want : Nat} (hk : Keeps s₀ s) :
    Keeps s₀ (State.burstExit s n want) := by
  unfold State.burstExit
  repeat' (first
    | (intro s; refine keeps_cut (s₀ := s₀) (s := s) ?_ ?_ <;> [subst s; (intro hs; clear_value s)])
    | (intro x; clear_value x)
    | with_reducible assumption
    | with_reducible first | apply State.wakeUp_keeps | apply State.setF_keeps | apply State.ev_keeps
    | with_reducible first | apply State.setLoop_keeps | apply State.addPhases_keeps
    | split
    | with_reducible refine keeps_mk rfl rfl rfl rfl rfl rfl rfl ?_
    | lift_lets)

theorem State.gust_keeps {s₀ s : State} {n : Nat} (hk : Keeps s₀ s) : Keeps s₀ (State.gust s n) := by
  unfold State.gust
  repeat' (first
    | (intro s; refine keeps_cut (s₀ := s₀) (s := s) ?_ ?_ <;> [subst s; (intro hs; clear_value s)])
    | (intro x; clear_value x)
    | with_reducible assumption
    | with_reducible first | apply State.wakeUp_keeps | apply State.ev_keeps | apply State.probeAbort_keeps
    | with_reducible first | apply State.burstExit_keeps | apply State.setF_keeps | apply State.abortShed_keeps
    | with_reducible first | apply State.addPhases_keeps
    | split
    | lift_lets)

theorem State.gustTrip_keeps {s₀ s : State} {n vout : Nat} (hk : Keeps s₀ s) :
    Keeps s₀ (State.gustTrip s n vout) := by
  unfold State.gustTrip
  repeat' (first
    | with_reducible assumption
    | with_reducible first | apply State.setF_keeps | apply State.gust_keeps
    | split)

theorem State.burstPulse_keeps {s₀ s : State} {n vout : Nat} (hk : Keeps s₀ s) :
    Keeps s₀ (State.burstPulse s n vout) := by
  unfold State.burstPulse
  repeat' (first
    | with_reducible assumption
    | with_reducible apply State.setLoop_keeps
    | with_reducible refine keeps_mk rfl rfl rfl rfl rfl rfl rfl ?_)

theorem State.burstTick_keeps {s₀ s : State} {n vout : Nat} (hk : Keeps s₀ s) :
    Keeps s₀ (State.burstTick s n vout) := by
  unfold State.burstTick
  repeat' (first
    | (intro s; refine keeps_cut (s₀ := s₀) (s := s) ?_ ?_ <;> [subst s; (intro hs; clear_value s)])
    | (intro x; clear_value x)
    | with_reducible assumption
    | with_reducible first | apply State.setF_keeps | apply State.gust_keeps | apply State.burstExit_keeps
    | with_reducible first | apply State.burstPulse_keeps
    | split
    | lift_lets)

theorem State.forecastIn_keeps {s₀ s : State} {n mw : Nat} (hk : Keeps s₀ s) :
    Keeps s₀ (State.forecastIn s n mw) := by
  unfold State.forecastIn
  repeat' (first
    | (intro s; refine keeps_cut (s₀ := s₀) (s := s) ?_ ?_ <;> [subst s; (intro hs; clear_value s)])
    | (intro x; clear_value x)
    | with_reducible assumption
    | with_reducible first | apply State.setF_keeps | apply State.ev_keeps | apply State.burstExit_keeps
    | with_reducible first | apply State.abortShed_keeps
    | split
    | lift_lets)

theorem State.forecastOut_keeps {s₀ s : State} {n : Nat} (hk : Keeps s₀ s) : Keeps s₀ (State.forecastOut s n) := by
  unfold State.forecastOut
  repeat' first | with_reducible assumption | with_reducible apply State.setF_keeps

theorem State.setOnTime_keeps {s₀ s : State} {n k t : Nat} (hk : Keeps s₀ s) :
    Keeps s₀ (State.setOnTime s n k t) := by
  unfold State.setOnTime
  repeat' (first
    | with_reducible assumption
    | with_reducible apply State.setLoop_keeps
    | with_reducible refine keeps_mk rfl rfl rfl rfl rfl rfl rfl ?_)

theorem State.injectPeriod_keeps {s₀ s : State} {n : Nat} (hk : Keeps s₀ s) : Keeps s₀ (State.injectPeriod s n) := by
  unfold State.injectPeriod
  repeat' (first
    | (intro s; refine keeps_cut (s₀ := s₀) (s := s) ?_ ?_ <;> [subst s; (intro hs; clear_value s)])
    | (intro x; clear_value x)
    | with_reducible assumption
    | with_reducible apply State.setLoop_keeps
    | split
    | with_reducible refine keeps_mk rfl rfl rfl rfl rfl rfl rfl ?_
    | lift_lets)

theorem State.takePhase_keeps {s₀ s : State} {n : Nat} {p : PhaseMeas} (hk : Keeps s₀ s) :
    Keeps s₀ (State.takePhase s n p) := by
  unfold State.takePhase
  repeat' (first
    | (intro s; refine keeps_cut (s₀ := s₀) (s := s) ?_ ?_ <;> [subst s; (intro hs; clear_value s)])
    | (intro x; clear_value x)
    | with_reducible assumption
    | with_reducible first | apply State.setF_keeps | apply State.setOnTime_keeps
    | split
    | lift_lets)

theorem State.takePeriod_keeps {s₀ s : State} {n vout : Nat} {ms : List PhaseMeas} (hk : Keeps s₀ s) :
    Keeps s₀ (State.takePeriod s n vout ms) := by
  unfold State.takePeriod
  repeat' (first
    | (intro s; refine keeps_cut (s₀ := s₀) (s := s) ?_ ?_ <;> [subst s; (intro hs; clear_value s)])
    | (intro x; clear_value x)
    | with_reducible assumption
    | with_reducible first | apply State.takePhase_keeps | apply State.setF_keeps
    | with_reducible refine keeps_foldl (fun s a h => ?_) ?_
    | lift_lets)

theorem State.refPeriod_keeps {s₀ s : State} {n vout : Nat} (hk : Keeps s₀ s) :
    Keeps s₀ (State.refPeriod s n vout) := by
  unfold State.refPeriod
  repeat' (first
    | (intro s; refine keeps_cut (s₀ := s₀) (s := s) ?_ ?_ <;> [subst s; (intro hs; clear_value s)])
    | (intro x; clear_value x)
    | with_reducible assumption
    | with_reducible first | apply State.rampFrom_keeps | apply State.setLoop_keeps | apply State.refMove_keeps
    | split
    | with_reducible refine keeps_mk rfl rfl rfl rfl rfl rfl rfl ?_
    | lift_lets)

theorem State.nextPeriod_keeps {s₀ s : State} {n vout : Nat} (hk : Keeps s₀ s) :
    Keeps s₀ (State.nextPeriod s n vout) := by
  unfold State.nextPeriod
  repeat' (first
    | (intro s; refine keeps_cut (s₀ := s₀) (s := s) ?_ ?_ <;> [subst s; (intro hs; clear_value s)])
    | (intro x; clear_value x)
    | with_reducible assumption
    | with_reducible apply State.setLoop_keeps
    | split
    | with_reducible refine keeps_mk rfl rfl rfl rfl rfl rfl rfl ?_
    | lift_lets)

theorem State.burstPeriod_keeps {s₀ s : State} {n vout : Nat} (hk : Keeps s₀ s) :
    Keeps s₀ (State.burstPeriod s n vout) := by
  unfold State.burstPeriod
  repeat' (first
    | (intro s; refine keeps_cut (s₀ := s₀) (s := s) ?_ ?_ <;> [subst s; (intro hs; clear_value s)])
    | (intro x; clear_value x)
    | with_reducible assumption
    | with_reducible apply State.setLoop_keeps
    | with_reducible refine keeps_mk rfl rfl rfl rfl rfl rfl rfl ?_
    | lift_lets)

theorem State.periodStart_keeps {s₀ s : State} {n vout : Nat} {ms : List PhaseMeas} (hk : Keeps s₀ s) :
    Keeps s₀ (State.periodStart s n vout ms) := by
  unfold State.periodStart
  repeat' (first
    | (intro s; refine keeps_cut (s₀ := s₀) (s := s) ?_ ?_ <;> [subst s; (intro hs; clear_value s)])
    | (intro x; clear_value x)
    | with_reducible assumption
    | with_reducible first | apply State.takePeriod_keeps | apply State.refPeriod_keeps
    | with_reducible first | apply State.nextPeriod_keeps | apply State.injectPeriod_keeps
    | with_reducible first | apply State.adoptLow_keeps | apply State.adoptRoles_keeps | apply State.addShed_keeps
    | with_reducible first | apply State.burstPeriod_keeps | apply State.placeSlots_keeps
    | split
    | lift_lets)

theorem State.phaseLimit_keeps {s₀ s : State} {k t : Nat} {uv : Int} (hk : Keeps s₀ s) :
    Keeps s₀ (State.phaseLimit s k t uv) := by
  unfold State.phaseLimit
  repeat' (first
    | (intro s; refine keeps_cut (s₀ := s₀) (s := s) ?_ ?_ <;> [subst s; (intro hs; clear_value s)])
    | (intro x; clear_value x)
    | with_reducible assumption
    | with_reducible first | apply State.orReg_keeps | apply State.incF_keeps | apply State.probeAbort_keeps
    | with_reducible first | apply State.setOnTime_keeps | apply State.setLoop_keeps
    | split
    | with_reducible refine keeps_mk rfl rfl rfl rfl rfl rfl rfl ?_
    | lift_lets)

theorem State.loopOc_keeps {s₀ s : State} {n vout : Nat} (hk : Keeps s₀ s) : Keeps s₀ (State.loopOc s n vout) := by
  unfold State.loopOc
  repeat' (first
    | (intro s; refine keeps_cut (s₀ := s₀) (s := s) ?_ ?_ <;> [subst s; (intro hs; clear_value s)])
    | (intro x; clear_value x)
    | with_reducible assumption
    | with_reducible first | apply State.setLoop_keeps | apply State.loopFault_keeps
    | split
    | with_reducible refine keeps_mk rfl rfl rfl rfl rfl rfl rfl ?_
    | lift_lets)

theorem State.negLimit_keeps {s₀ s : State} {k : Nat} {uv : Int} (hk : Keeps s₀ s) :
    Keeps s₀ (State.negLimit s k uv) := by
  unfold State.negLimit
  repeat' (first
    | (intro s; refine keeps_cut (s₀ := s₀) (s := s) ?_ ?_ <;> [subst s; (intro hs; clear_value s)])
    | (intro x; clear_value x)
    | with_reducible assumption
    | with_reducible apply State.setLoop_keeps
    | split
    | with_reducible refine keeps_mk rfl rfl rfl rfl rfl rfl rfl ?_
    | lift_lets)

theorem State.crowbar_keeps {s₀ s : State} {n vout : Nat} (hk : Keeps s₀ s) : Keeps s₀ (State.crowbar s n vout) := by
  unfold State.crowbar
  repeat' (first
    | (intro s; refine keeps_cut (s₀ := s₀) (s := s) ?_ ?_ <;> [subst s; (intro hs; clear_value s)])
    | (intro x; clear_value x)
    | with_reducible assumption
    | with_reducible first | apply State.setF_keeps | apply State.loopFault_keeps | apply State.pgoodDrop_keeps
    | with_reducible first | apply State.setLoop_keeps | apply State.setPhases_keeps | apply State.respread_keeps
    | split
    | with_reducible refine keeps_mk rfl rfl rfl rfl rfl rfl rfl ?_
    | lift_lets)

theorem State.crowbarRelease_keeps {s₀ s : State} {n vout : Nat} (hk : Keeps s₀ s) :
    Keeps s₀ (State.crowbarRelease s n vout) := by
  unfold State.crowbarRelease
  repeat' (first
    | with_reducible assumption
    | with_reducible first | apply State.setF_keeps | apply State.loopOff_keeps
    | split)

theorem State.loopUv_keeps {s₀ s : State} {n vout : Nat} (hk : Keeps s₀ s) : Keeps s₀ (State.loopUv s n vout) := by
  unfold State.loopUv
  repeat' (first
    | (intro s; refine keeps_cut (s₀ := s₀) (s := s) ?_ ?_ <;> [subst s; (intro hs; clear_value s)])
    | (intro x; clear_value x)
    | with_reducible assumption
    | with_reducible first | apply State.setF_keeps | apply State.loopFault_keeps | apply State.burstExit_keeps
    | with_reducible first | apply State.abortShed_keeps | apply State.addPhases_keeps
    | split
    | lift_lets)

theorem State.stageFault_keeps {s₀ s : State} (hk : Keeps s₀ s) : Keeps s₀ (State.stageFault s) := by
  unfold State.stageFault
  repeat' (first
    | (intro s; refine keeps_cut (s₀ := s₀) (s := s) ?_ ?_ <;> [subst s; (intro hs; clear_value s)])
    | (intro x; clear_value x)
    | with_reducible assumption
    | with_reducible first | apply State.setF_keeps | apply State.ev_keeps | apply State.loopCapture_keeps
    | with_reducible first | apply State.raiseLevel_keeps | apply State.wakeUp_keeps
    | with_reducible refine keeps_foldl (fun s a h => ?_) ?_
    | split
    | lift_lets)

theorem State.loopsPwmLost_keeps {s₀ s : State} (hk : Keeps s₀ s) : Keeps s₀ (State.loopsPwmLost s) := by
  unfold State.loopsPwmLost
  repeat' (first
    | (intro s; refine keeps_cut (s₀ := s₀) (s := s) ?_ ?_ <;> [subst s; (intro hs; clear_value s)])
    | (intro x; clear_value x)
    | with_reducible assumption
    | with_reducible first | apply State.loopFault_keeps | apply State.setPhases_keeps | apply State.respread_keeps
    | with_reducible refine keeps_foldl (fun s a h => ?_) ?_
    | split
    | lift_lets)

theorem State.syncLock_keeps {s₀ s : State} {per : Nat} (hk : Keeps s₀ s) : Keeps s₀ (State.syncLock s per) := by
  unfold State.syncLock
  repeat' (first
    | (intro s; refine keeps_cut (s₀ := s₀) (s := s) ?_ ?_ <;> [subst s; (intro hs; clear_value s)])
    | (intro x; clear_value x)
    | with_reducible assumption
    | with_reducible first | apply State.setF_keeps | apply State.ev_keeps
    | split
    | with_reducible refine keeps_mk rfl rfl rfl rfl rfl rfl rfl ?_
    | lift_lets)

theorem State.syncLoss_keeps {s₀ s : State} (hk : Keeps s₀ s) : Keeps s₀ (State.syncLoss s) := by
  unfold State.syncLoss
  repeat' (first
    | with_reducible assumption
    | with_reducible first | apply State.setF_keeps | apply State.ev_keeps
    | split)

theorem State.convCtrlWrite_keeps {s₀ s : State} {new : Word} (hk : Keeps s₀ s) :
    Keeps s₀ (State.convCtrlWrite s new) := by
  unfold State.convCtrlWrite
  repeat' (first
    | (intro s; refine keeps_cut (s₀ := s₀) (s := s) ?_ ?_ <;> [subst s; (intro hs; clear_value s)])
    | (intro x; clear_value x)
    | with_reducible assumption
    | with_reducible first | apply State.wr_keeps | apply State.setF_keeps
    | split
    | with_reducible refine keeps_mk rfl rfl rfl rfl rfl rfl rfl ?_
    | lift_lets)

theorem State.loopCtrlWrite_keeps {s₀ s : State} {n : Nat} {d : Word} (hk : Keeps s₀ s) :
    Keeps s₀ (State.loopCtrlWrite s n d) := by
  unfold State.loopCtrlWrite
  repeat' (first
    | (intro s; refine keeps_cut (s₀ := s₀) (s := s) ?_ ?_ <;> [subst s; (intro hs; clear_value s)])
    | (intro x; clear_value x)
    | with_reducible assumption
    | with_reducible first | apply State.wr_keeps | apply State.setF_keeps | apply State.copyBank_keeps
    | split
    | lift_lets)

end Sys2Proof.Machine
end

