-- ==== Sys2Proof/Laws/KeepsPoints.lean ====
section
/-! SUPPORT. `Keeps` for the points of the ledger: one lemma per operation. -/

namespace Sys2Proof.Machine

theorem State.setPt_keeps {s₀ s : State} {gp : Nat} {f : PtFld} {v : Nat} (hk : Keeps s₀ s) :
    Keeps s₀ (State.setPt s gp f v) := by
  unfold State.setPt
  repeat' first | with_reducible assumption | with_reducible apply State.setF_keeps

theorem State.incPt_keeps {s₀ s : State} {gp : Nat} {f : PtFld} (hk : Keeps s₀ s) :
    Keeps s₀ (State.incPt s gp f) := by
  unfold State.incPt
  repeat' first | with_reducible assumption | with_reducible apply State.incF_keeps

theorem State.setResDue_keeps {s₀ s : State} {gp : Nat} {d : Option Nat} (hk : Keeps s₀ s) :
    Keeps s₀ (State.setResDue s gp d) := by
  unfold State.setResDue
  repeat' first | with_reducible assumption | with_reducible refine keeps_mk rfl rfl rfl rfl rfl rfl rfl ?_

theorem State.releaseRecord_keeps {s₀ s : State} {gp : Nat} (hk : Keeps s₀ s) :
    Keeps s₀ (State.releaseRecord s gp).1 := by
  unfold State.releaseRecord
  repeat' (first
    | (intro s; refine keeps_cut (s₀ := s₀) (s := s) ?_ ?_ <;> [subst s; (intro hs; clear_value s)])
    | (intro x; clear_value x)
    | with_reducible assumption
    | with_reducible first | apply State.setPt_keeps | apply State.setResDue_keeps
    | split
    | lift_lets)

theorem State.ledgerRemove_keeps {s₀ s : State} {gp : Nat} (hk : Keeps s₀ s) :
    Keeps s₀ (State.ledgerRemove s gp) := by
  unfold State.ledgerRemove
  repeat' (first
    | (intro s; refine keeps_cut (s₀ := s₀) (s := s) ?_ ?_ <;> [subst s; (intro hs; clear_value s)])
    | (intro x; clear_value x)
    | with_reducible assumption
    | with_reducible first | apply State.releaseRecord_keeps | apply State.ev_keeps | apply State.almanacBlock_keeps
    | split
    | with_reducible refine keeps_fst (by assumption) ?_
    | lift_lets)

theorem State.ledgerArrive_keeps {s₀ s : State} {gp : Nat} (hk : Keeps s₀ s) :
    Keeps s₀ (State.ledgerArrive s gp) := by
  unfold State.ledgerArrive
  repeat' (first
    | with_reducible assumption
    | with_reducible first | apply State.wr_keeps | apply State.setResDue_keeps
    | with_reducible refine keeps_foldl (fun s a h => ?_) ?_)

theorem State.ledgerLink_keeps {s₀ s : State} {op : LedgerOp} {now : State → State} (hn : ∀ s, Keeps s₀ s → Keeps s₀ (now s))
    (hk : Keeps s₀ s) : Keeps s₀ (s.ledgerLink op now) := by
  unfold State.ledgerLink
  split
  · exact hn s hk
  · exact keeps_mk rfl rfl rfl rfl rfl rfl rfl hk

theorem State.ledgerDraw_keeps {s₀ s : State} {gp : Nat} (hk : Keeps s₀ s) : Keeps s₀ (State.ledgerDraw s gp) := by
  unfold State.ledgerDraw
  repeat' (first
    | (intro s; refine keeps_cut (s₀ := s₀) (s := s) ?_ ?_ <;> [subst s; (intro hs; clear_value s)])
    | (intro x; clear_value x)
    | with_reducible assumption
    | with_reducible first | apply State.setPt_keeps | apply State.ev_keeps | apply State.incF_keeps
    | split
    | lift_lets)

theorem State.judgeOver_keeps {s₀ s : State} (hk : Keeps s₀ s) : Keeps s₀ (State.judgeOver s) := by
  unfold State.judgeOver
  repeat' (first
    | (intro s; refine keeps_cut (s₀ := s₀) (s := s) ?_ ?_ <;> [subst s; (intro hs; clear_value s)])
    | (intro x; clear_value x)
    | with_reducible assumption
    | with_reducible first | apply State.setF_keeps | apply State.ev_keeps | apply State.raise_keeps
    | split
    | with_reducible refine keeps_mk rfl rfl rfl rfl rfl rfl rfl ?_
    | lift_lets)

theorem State.judgeEnergy_keeps {s₀ s : State} (hk : Keeps s₀ s) : Keeps s₀ (State.judgeEnergy s) := by
  unfold State.judgeEnergy
  repeat' (first
    | (intro s; refine keeps_cut (s₀ := s₀) (s := s) ?_ ?_ <;> [subst s; (intro hs; clear_value s)])
    | (intro x; clear_value x)
    | with_reducible assumption
    | with_reducible first | apply State.setF_keeps | apply State.ev_keeps
    | split
    | with_reducible refine keeps_mk rfl rfl rfl rfl rfl rfl rfl ?_
    | lift_lets)

theorem State.ledgerJudge_keeps {s₀ s : State} (hk : Keeps s₀ s) : Keeps s₀ (State.ledgerJudge s) := by
  unfold State.ledgerJudge
  repeat' (first
    | with_reducible assumption
    | with_reducible first | apply State.judgeEnergy_keeps | apply State.judgeOver_keeps)

end Sys2Proof.Machine
end

