-- ==== Sys2Proof/Laws/KeepsHealth.lean ====
section
/-! SUPPORT. `Keeps` for the health block: one lemma per operation. -/

namespace Sys2Proof.Machine

theorem State.storeMeas_keeps {s₀ s : State} {n : Nat} {m : Measured} (hk : Keeps s₀ s) : Keeps s₀ (s.storeMeas n m) := by
  cases m <;> unfold State.storeMeas <;> repeat' (first
    | with_reducible assumption
    | with_reducible apply State.setF_keeps
    | with_reducible refine keeps_foldl (fun s a h => ?_) ?_
    | split)

theorem State.capturePhases_keeps {s₀ s : State} {ks : List Nat} (hk : Keeps s₀ s) :
    Keeps s₀ (State.capturePhases s ks) := by
  unfold State.capturePhases
  repeat' (first
    | with_reducible assumption
    | with_reducible apply State.setF_keeps
    | with_reducible refine keeps_foldl (fun s a h => ?_) ?_)

theorem State.captureLoop_keeps {s₀ s : State} {n : Nat} (hk : Keeps s₀ s) : Keeps s₀ (State.captureLoop s n) := by
  unfold State.captureLoop
  repeat' (first
    | (intro s; refine keeps_cut (s₀ := s₀) (s := s) ?_ ?_ <;> [subst s; (intro hs; clear_value s)])
    | (intro x; clear_value x)
    | with_reducible assumption
    | with_reducible first | apply State.capturePhases_keeps | apply State.setF_keeps
    | lift_lets)

theorem State.dropProposal_keeps {s₀ s : State} {n : Nat} (hk : Keeps s₀ s) : Keeps s₀ (State.dropProposal s n) := by
  unfold State.dropProposal
  repeat' (first
    | (intro s; refine keeps_cut (s₀ := s₀) (s := s) ?_ ?_ <;> [subst s; (intro hs; clear_value s)])
    | (intro x; clear_value x)
    | with_reducible assumption
    | with_reducible first | apply State.setF_keeps | apply State.clrReg_keeps
    | lift_lets)

theorem State.rebase_keeps {s₀ s : State} {n : Nat} (hk : Keeps s₀ s) : Keeps s₀ (State.rebase s n) := by
  unfold State.rebase
  repeat' (first
    | (intro s; refine keeps_cut (s₀ := s₀) (s := s) ?_ ?_ <;> [subst s; (intro hs; clear_value s)])
    | (intro x; clear_value x)
    | with_reducible assumption
    | with_reducible first | apply State.dropProposal_keeps | apply State.clrReg_keeps | apply State.setF_keeps
    | with_reducible first | apply State.setHl_keeps
    | with_reducible refine keeps_foldl (fun s a h => ?_) ?_
    | with_reducible refine keeps_mk rfl rfl rfl rfl rfl rfl rfl ?_
    | lift_lets)

theorem State.scorePhase_keeps {s₀ s : State} {k : Nat} {measured : Bool} (hk : Keeps s₀ s) :
    Keeps s₀ (State.scorePhase s k measured) := by
  unfold State.scorePhase
  repeat' (first
    | (intro s; refine keeps_cut (s₀ := s₀) (s := s) ?_ ?_ <;> [subst s; (intro hs; clear_value s)])
    | (intro x; clear_value x)
    | with_reducible assumption
    | with_reducible first | apply State.setF_keeps | refine State.when_keeps (fun s h => ?_) ?_
    | with_reducible first | apply State.nextFree_keeps | apply State.incF_keeps
    | split
    | lift_lets)

theorem State.capUpkeep_keeps {s₀ s : State} (hk : Keeps s₀ s) : Keeps s₀ (State.capUpkeep s) := by
  unfold State.capUpkeep
  repeat' (first
    | (intro s; refine keeps_cut (s₀ := s₀) (s := s) ?_ ?_ <;> [subst s; (intro hs; clear_value s)])
    | (intro x; clear_value x)
    | with_reducible assumption
    | with_reducible apply State.setF_keeps
    | with_reducible refine keeps_foldl (fun s a h => ?_) ?_
    | lift_lets)

theorem State.rederate_keeps {s₀ s : State} {n : Nat} {measured : Bool} (hk : Keeps s₀ s) :
    Keeps s₀ (State.rederate s n measured) := by
  unfold State.rederate
  repeat' (first
    | (intro s; refine keeps_cut (s₀ := s₀) (s := s) ?_ ?_ <;> [subst s; (intro hs; clear_value s)])
    | (intro x; clear_value x)
    | lift_lets
    | with_reducible assumption
    | with_reducible first | apply State.setF_keeps | apply State.setHl_keeps | apply State.ev_keeps
    | with_reducible first | apply State.raise_keeps
    | split
    | with_reducible refine keeps_mk rfl rfl rfl rfl rfl rfl rfl ?_)

theorem State.propose_keeps {s₀ s : State} {n : Nat} {i : Items} (hk : Keeps s₀ s) :
    Keeps s₀ (State.propose s n i) := by
  unfold State.propose
  repeat' (first
    | (intro s; refine keeps_cut (s₀ := s₀) (s := s) ?_ ?_ <;> [subst s; (intro hs; clear_value s)])
    | (intro x; clear_value x)
    | with_reducible assumption
    | with_reducible first | apply State.setF_keeps | apply State.wr_keeps | apply State.orReg_keeps
    | with_reducible first | apply State.clrReg_keeps | apply State.ev_keeps
    | lift_lets)

theorem State.phaseItems_keeps {s₀ s : State} {n : Nat} {i : Items} (hk : Keeps s₀ s) :
    Keeps s₀ (State.phaseItems s n i).1 := by
  unfold State.phaseItems
  repeat' (first
    | (intro s; refine keeps_cut (s₀ := s₀) (s := s) ?_ ?_ <;> [subst s; (intro hs; clear_value s)])
    | (intro x; clear_value x)
    | lift_lets
    | with_reducible assumption
    | with_reducible apply State.spareGone_keeps
    | split
    | with_reducible refine keeps_mk rfl rfl rfl rfl rfl rfl rfl ?_)

theorem State.ilimItem_keeps {s₀ s : State} {n : Nat} {i : Items} (hk : Keeps s₀ s) : Keeps s₀ (s.ilimItem n i).1 := by
  simp only [State.ilimItem]
  split
  · exact State.setHl_keeps hk
  · exact hk

theorem State.replanItems_keeps {s₀ s : State} {n : Nat} {has : Nat → Bool} {i : Items} (hk : Keeps s₀ s) :
    Keeps s₀ (s.replanItems n has i).1 := by
  unfold State.replanItems
  split
  · exact hk
  · extract_lets x s1
    have h : Keeps s₀ s1 := State.setHl_keeps hk
    split
    · exact State.ilimItem_keeps h
    · exact h

theorem State.revertItems_keeps {s₀ s : State} {n : Nat} {resp : Bool} {i : Items} (hk : Keeps s₀ s) :
    Keeps s₀ (State.revertItems s n resp i).1 := by
  unfold State.revertItems
  repeat' (first
    | (intro s; refine keeps_cut (s₀ := s₀) (s := s) ?_ ?_ <;> [subst s; (intro hs; clear_value s)])
    | (intro x; clear_value x)
    | lift_lets
    | with_reducible assumption
    | with_reducible first | apply State.setHl_keeps | apply State.orReg_keeps
    | split
    | with_reducible refine keeps_mk rfl rfl rfl rfl rfl rfl rfl ?_)

theorem State.nextRecSeq_keeps {s₀ s : State} {n : Nat} (hk : Keeps s₀ s) : Keeps s₀ (State.nextRecSeq s n) := by
  unfold State.nextRecSeq
  repeat' (first
    | with_reducible assumption
    | with_reducible apply State.setHl_keeps
    | with_reducible refine keeps_mk rfl rfl rfl rfl rfl rfl rfl ?_)

theorem State.probeRecord_keeps {s₀ s : State} {n : Nat} (hk : Keeps s₀ s) : Keeps s₀ (State.probeRecord s n) := by
  unfold State.probeRecord
  repeat' (first
    | (intro s; refine keeps_cut (s₀ := s₀) (s := s) ?_ ?_ <;> [subst s; (intro hs; clear_value s)])
    | (intro x; clear_value x)
    | with_reducible assumption
    | with_reducible first | apply State.nextRecSeq_keeps | apply State.setHealth_keeps | apply State.recRing_keeps
    | with_reducible first | apply State.flashAppend_keeps
    | with_reducible refine keeps_foldl (fun s a h => ?_) ?_
    | split
    | with_reducible refine keeps_mk rfl rfl rfl rfl rfl rfl rfl ?_
    | lift_lets)

theorem State.baseRecord_keeps {s₀ s : State} {n : Nat} (hk : Keeps s₀ s) : Keeps s₀ (State.baseRecord s n) := by
  unfold State.baseRecord
  repeat' (first
    | (intro s; refine keeps_cut (s₀ := s₀) (s := s) ?_ ?_ <;> [subst s; (intro hs; clear_value s)])
    | (intro x; clear_value x)
    | with_reducible assumption
    | with_reducible first | apply State.nextRecSeq_keeps | apply State.setHl_keeps | apply State.recPages_keeps
    | split
    | with_reducible refine keeps_mk rfl rfl rfl rfl rfl rfl rfl ?_
    | lift_lets)

theorem State.probeStore_keeps {s₀ s : State} {p : Probe} {whole : Bool} (hk : Keeps s₀ s) :
    Keeps s₀ (State.probeStore s p whole) := by
  unfold State.probeStore
  repeat' (first
    | (intro s; refine keeps_cut (s₀ := s₀) (s := s) ?_ ?_ <;> [subst s; (intro hs; clear_value s)])
    | (intro x; clear_value x)
    | with_reducible assumption
    | with_reducible first | apply State.storeMeas_keeps | apply State.captureLoop_keeps | apply State.setHl_keeps
    | with_reducible first | apply State.capturePhases_keeps
    | with_reducible refine keeps_foldl (fun s a h => ?_) ?_
    | split
    | with_reducible refine keeps_mk rfl rfl rfl rfl rfl rfl rfl ?_
    | lift_lets)

theorem State.judgePm_keeps {s₀ s : State} {n : Nat} (hk : Keeps s₀ s) : Keeps s₀ (State.judgePm s n) := by
  unfold State.judgePm
  repeat' (first
    | (intro s; refine keeps_cut (s₀ := s₀) (s := s) ?_ ?_ <;> [subst s; (intro hs; clear_value s)])
    | (intro x; clear_value x)
    | with_reducible assumption
    | with_reducible apply State.setHl_keeps
    | split
    | with_reducible refine keeps_mk rfl rfl rfl rfl rfl rfl rfl ?_
    | lift_lets)

theorem State.probeItems_keeps {s₀ s : State} {n : Nat} {has : Nat → Bool} (hk : Keeps s₀ s) :
    Keeps s₀ (State.probeItems s n has) := by
  unfold State.probeItems
  repeat' (first
    | (intro s; refine keeps_cut (s₀ := s₀) (s := s) ?_ ?_ <;> [subst s; (intro hs; clear_value s)])
    | (intro x; clear_value x)
    | with_reducible assumption
    | with_reducible first | apply State.phaseItems_keeps | apply State.replanItems_keeps
    | with_reducible first | apply State.revertItems_keeps | apply State.propose_keeps
    | split
    | with_reducible refine keeps_mk rfl rfl rfl rfl rfl rfl rfl ?_
    | with_reducible refine keeps_fst (by assumption) ?_
    | lift_lets)

theorem State.probeEnd_keeps {s₀ s : State} {p : Probe} (hk : Keeps s₀ s) : Keeps s₀ (State.probeEnd s p) := by
  unfold State.probeEnd
  repeat' (first
    | (intro s; refine keeps_cut (s₀ := s₀) (s := s) ?_ ?_ <;> [subst s; (intro hs; clear_value s)])
    | (intro x; clear_value x)
    | lift_lets
    | with_reducible assumption
    | with_reducible first | apply State.setHealth_keeps | apply State.setF_keeps | apply State.ev_keeps
    | with_reducible first | apply State.probeStore_keeps | apply State.scorePhase_keeps | apply State.judgePm_keeps
    | with_reducible first | apply State.rederate_keeps | apply State.probeItems_keeps | apply State.setHl_keeps
    | with_reducible first | apply State.probeRecord_keeps | apply State.baseRecord_keeps
    | with_reducible refine keeps_foldl (fun s a h => ?_) ?_
    | split
    | with_reducible refine keeps_mk rfl rfl rfl rfl rfl rfl rfl ?_)

theorem State.probeGo_keeps {s₀ s : State} {n meas : Nat} (hk : Keeps s₀ s) : Keeps s₀ (State.probeGo s n meas) := by
  unfold State.probeGo
  repeat' (first
    | (intro s; refine keeps_cut (s₀ := s₀) (s := s) ?_ ?_ <;> [subst s; (intro hs; clear_value s)])
    | (intro x; clear_value x)
    | with_reducible assumption
    | with_reducible first | apply State.wr_keeps | apply State.setF_keeps | apply State.clrReg_keeps
    | with_reducible first | apply State.probeEnd_keeps | apply State.setHealth_keeps
    | split
    | with_reducible refine keeps_mk rfl rfl rfl rfl rfl rfl rfl ?_
    | lift_lets)

theorem State.probeWrite_keeps {s₀ s : State} {d : Word} (hk : Keeps s₀ s) : Keeps s₀ (State.probeWrite s d) := by
  unfold State.probeWrite
  repeat' (first
    | (intro s; refine keeps_cut (s₀ := s₀) (s := s) ?_ ?_ <;> [subst s; (intro hs; clear_value s)])
    | (intro x; clear_value x)
    | with_reducible assumption
    | with_reducible first | apply State.probeAbort_keeps | apply State.probeGo_keeps
    | split
    | with_reducible refine keeps_mk rfl rfl rfl rfl rfl rfl rfl ?_
    | lift_lets)

theorem State.probeNext_keeps {s₀ s : State} {p : Probe} {q : Nat} {rest : List Nat} {got : Option Measured} (hk : Keeps s₀ s) :
    Keeps s₀ (State.probeNext s p q rest got) := by
  unfold State.probeNext
  repeat' (first
    | (intro s; refine keeps_cut (s₀ := s₀) (s := s) ?_ ?_ <;> [subst s; (intro hs; clear_value s)])
    | (intro x; clear_value x)
    | with_reducible assumption
    | with_reducible first | apply State.setF_keeps | apply State.setHealth_keeps | apply State.probeEnd_keeps
    | split
    | with_reducible refine keeps_mk rfl rfl rfl rfl rfl rfl rfl ?_
    | lift_lets)

theorem State.probeMeas_keeps {s₀ s : State} {m : Measured} (hk : Keeps s₀ s) : Keeps s₀ (State.probeMeas s m) := by
  unfold State.probeMeas
  repeat' (first
    | with_reducible assumption
    | with_reducible first | apply State.probeNext_keeps | apply State.probeAbort_keeps
    | split
    | with_reducible refine keeps_mk rfl rfl rfl rfl rfl rfl rfl ?_)

theorem State.probeWatch_keeps {s₀ s : State} {hot : Bool} (hk : Keeps s₀ s) : Keeps s₀ (State.probeWatch s hot) := by
  unfold State.probeWatch
  repeat' (first
    | (intro s; refine keeps_cut (s₀ := s₀) (s := s) ?_ ?_ <;> [subst s; (intro hs; clear_value s)])
    | (intro x; clear_value x)
    | with_reducible assumption
    | with_reducible apply State.probeAbort_keeps
    | split
    | with_reducible refine keeps_mk rfl rfl rfl rfl rfl rfl rfl ?_
    | lift_lets)

theorem State.healthDue_keeps {s₀ s : State} {n : Nat} (hk : Keeps s₀ s) : Keeps s₀ (State.healthDue s n) := by
  unfold State.healthDue
  repeat' (first
    | (intro s; refine keeps_cut (s₀ := s₀) (s := s) ?_ ?_ <;> [subst s; (intro hs; clear_value s)])
    | (intro x; clear_value x)
    | with_reducible assumption
    | with_reducible first | apply State.setHl_keeps | apply State.orReg_keeps | apply State.ev_keeps
    | split
    | with_reducible refine keeps_mk rfl rfl rfl rfl rfl rfl rfl ?_
    | lift_lets)

theorem State.healthBlockReset_keeps {s₀ s : State} (hk : Keeps s₀ s) : Keeps s₀ (State.healthBlockReset s) := by
  unfold State.healthBlockReset
  repeat' (first
    | (intro s; refine keeps_cut (s₀ := s₀) (s := s) ?_ ?_ <;> [subst s; (intro hs; clear_value s)])
    | (intro x; clear_value x)
    | with_reducible assumption
    | with_reducible first | apply State.probeAbort_keeps | apply State.dropProposal_keeps | apply State.wr_keeps
    | with_reducible refine keeps_foldl (fun s a h => ?_) ?_
    | split
    | with_reducible refine keeps_mk rfl rfl rfl rfl rfl rfl rfl ?_
    | lift_lets)

theorem State.restoreBase_keeps {s₀ s : State} {n : Nat} (hk : Keeps s₀ s) : Keeps s₀ (State.restoreBase s n) := by
  unfold State.restoreBase
  repeat' (first
    | (intro s; refine keeps_cut (s₀ := s₀) (s := s) ?_ ?_ <;> [subst s; (intro hs; clear_value s)])
    | (intro x; clear_value x)
    | with_reducible assumption
    | with_reducible first | apply State.setHl_keeps | apply State.setF_keeps
    | split
    | with_reducible refine keeps_mk rfl rfl rfl rfl rfl rfl rfl ?_
    | lift_lets)

theorem State.restorePhase_keeps {s₀ s : State} {k : Nat} (hk : Keeps s₀ s) : Keeps s₀ (State.restorePhase s k) := by
  unfold State.restorePhase
  repeat' (first
    | (intro s; refine keeps_cut (s₀ := s₀) (s := s) ?_ ?_ <;> [subst s; (intro hs; clear_value s)])
    | (intro x; clear_value x)
    | with_reducible assumption
    | with_reducible apply State.setF_keeps
    | split
    | with_reducible refine keeps_mk rfl rfl rfl rfl rfl rfl rfl ?_
    | lift_lets)

theorem State.restoreDerate_keeps {s₀ s : State} {n : Nat} (hk : Keeps s₀ s) :
    Keeps s₀ (State.restoreDerate s n) := by
  unfold State.restoreDerate
  repeat' (first
    | (intro s; refine keeps_cut (s₀ := s₀) (s := s) ?_ ?_ <;> [subst s; (intro hs; clear_value s)])
    | (intro x; clear_value x)
    | with_reducible assumption
    | with_reducible first | apply State.setF_keeps | apply State.setHl_keeps
    | split
    | with_reducible refine keeps_mk rfl rfl rfl rfl rfl rfl rfl ?_
    | lift_lets)

theorem State.healthRestore_keeps {s₀ s : State} (hk : Keeps s₀ s) : Keeps s₀ (State.healthRestore s) := by
  unfold State.healthRestore
  repeat' (first
    | (intro s; refine keeps_cut (s₀ := s₀) (s := s) ?_ ?_ <;> [subst s; (intro hs; clear_value s)])
    | (intro x; clear_value x)
    | with_reducible assumption
    | with_reducible first | apply State.restoreBase_keeps | apply State.restoreDerate_keeps
    | with_reducible first | apply State.restorePhase_keeps | apply State.setF_keeps
    | with_reducible refine keeps_foldl (fun s a h => ?_) ?_
    | lift_lets)

end Sys2Proof.Machine
end

