-- ==== Sys2Proof/Laws/KeepsRails.lean ====
section
/-! SUPPORT. `Keeps` for the rails block: one lemma per operation. -/

namespace Sys2Proof.Machine

theorem State.railExit_keeps {s₀ s : State} {k : Nat} (hk : Keeps s₀ s) : Keeps s₀ (State.railExit s k) := by
  unfold State.railExit
  repeat' (first
    | (intro s; refine keeps_cut (s₀ := s₀) (s := s) ?_ ?_ <;> [subst s; (intro hs; clear_value s)])
    | (intro x; clear_value x)
    | with_reducible assumption
    | with_reducible first | apply State.setF_keeps | apply State.clrReg_keeps | apply State.evBit_keeps
    | with_reducible first | apply State.wakeUp_keeps
    | split
    | lift_lets)

theorem State.setRail_keeps {s₀ s : State} {k : Nat} {x : Rail} (hk : Keeps s₀ s) :
    Keeps s₀ (State.setRail s k x) := by
  unfold State.setRail
  repeat' first | with_reducible assumption | with_reducible refine keeps_mk rfl rfl rfl rfl rfl rfl rfl ?_

theorem State.railSeen_keeps {s₀ s : State} {k mv : Nat} (hk : Keeps s₀ s) : Keeps s₀ (State.railSeen s k mv) := by
  unfold State.railSeen
  repeat' (first
    | with_reducible assumption
    | with_reducible apply State.setRail_keeps
    | with_reducible refine keeps_mk rfl rfl rfl rfl rfl rfl rfl ?_)

theorem State.railRamp_keeps {s₀ s : State} {k base : Nat} (hk : Keeps s₀ s) :
    Keeps s₀ (State.railRamp s k base) := by
  unfold State.railRamp
  repeat' (first
    | with_reducible assumption
    | with_reducible apply State.setRail_keeps
    | with_reducible refine keeps_mk rfl rfl rfl rfl rfl rfl rfl ?_)

theorem State.railOn_keeps {s₀ s : State} {k : Nat} (hk : Keeps s₀ s) : Keeps s₀ (State.railOn s k) := by
  unfold State.railOn
  repeat' (first
    | (intro s; refine keeps_cut (s₀ := s₀) (s := s) ?_ ?_ <;> [subst s; (intro hs; clear_value s)])
    | (intro x; clear_value x)
    | with_reducible assumption
    | with_reducible first | apply State.setF_keeps | apply State.railRamp_keeps | apply State.setRail_keeps
    | split
    | with_reducible refine keeps_mk rfl rfl rfl rfl rfl rfl rfl ?_
    | lift_lets)

theorem State.railUp_keeps {s₀ s : State} {k : Nat} (hk : Keeps s₀ s) : Keeps s₀ (State.railUp s k) := by
  unfold State.railUp
  repeat' first | with_reducible assumption | with_reducible apply State.setF_keeps | split

theorem State.railTick_keeps {s₀ s : State} (hk : Keeps s₀ s) : Keeps s₀ (State.railTick s) := by
  unfold State.railTick
  repeat' (first
    | with_reducible assumption
    | with_reducible apply State.railUp_keeps
    | with_reducible refine keeps_foldl (fun s a h => ?_) ?_)

theorem State.railCfgWrite_keeps {s₀ s : State} {k a : Nat} {new : Word} (hk : Keeps s₀ s) :
    Keeps s₀ (State.railCfgWrite s k a new) := by
  unfold State.railCfgWrite
  repeat' (first
    | (intro s; refine keeps_cut (s₀ := s₀) (s := s) ?_ ?_ <;> [subst s; (intro hs; clear_value s)])
    | (intro x; clear_value x)
    | with_reducible assumption
    | with_reducible first | apply State.wr_keeps | apply State.railRamp_keeps
    | split
    | lift_lets)

theorem State.railDischarge_keeps {s₀ s : State} {k : Nat} (hk : Keeps s₀ s) :
    Keeps s₀ (State.railDischarge s k) := by
  unfold State.railDischarge
  repeat' (first
    | with_reducible assumption
    | with_reducible first | apply State.setF_keeps | apply State.railExit_keeps)

theorem State.railOff_keeps {s₀ s : State} {k : Nat} (hk : Keeps s₀ s) : Keeps s₀ (State.railOff s k) := by
  unfold State.railOff
  repeat' (first
    | with_reducible assumption
    | with_reducible first | apply State.railExit_keeps | apply State.setF_keeps)

theorem State.railWindow_keeps {s₀ s : State} {k mv : Nat} (hk : Keeps s₀ s) :
    Keeps s₀ (State.railWindow s k mv) := by
  unfold State.railWindow
  repeat' (first
    | (intro s; refine keeps_cut (s₀ := s₀) (s := s) ?_ ?_ <;> [subst s; (intro hs; clear_value s)])
    | (intro x; clear_value x)
    | with_reducible assumption
    | with_reducible first | apply State.railSeen_keeps | apply State.railUp_keeps | apply State.setF_keeps
    | with_reducible first | apply State.orReg_keeps | apply State.railExit_keeps
    | split
    | lift_lets)

theorem State.buckCapture_keeps {s₀ s : State} {b cause vout vin : Nat} (hk : Keeps s₀ s) :
    Keeps s₀ (State.buckCapture s b cause vout vin) := by
  unfold State.buckCapture
  repeat' (first
    | (intro s; refine keeps_cut (s₀ := s₀) (s := s) ?_ ?_ <;> [subst s; (intro hs; clear_value s)])
    | (intro x; clear_value x)
    | with_reducible assumption
    | with_reducible first | apply State.wr_keeps | apply State.setF_keeps | apply State.recLastFault_keeps
    | split
    | lift_lets)

theorem State.railReport_keeps {s₀ s : State} {k cause vout vin : Nat} (hk : Keeps s₀ s) :
    Keeps s₀ (State.railReport s k cause vout vin) := by
  unfold State.railReport
  repeat' (first
    | (intro s; refine keeps_cut (s₀ := s₀) (s := s) ?_ ?_ <;> [subst s; (intro hs; clear_value s)])
    | (intro x; clear_value x)
    | with_reducible assumption
    | with_reducible first | apply State.setF_keeps | apply State.ev_keeps | apply State.buckCapture_keeps
    | with_reducible first | apply State.raise_keeps
    | split
    | lift_lets)

theorem State.linLow_keeps {s₀ s : State} {vout vin : Nat} (hk : Keeps s₀ s) :
    Keeps s₀ (State.linLow s vout vin) := by
  unfold State.linLow
  repeat' (first
    | with_reducible assumption
    | with_reducible apply State.railReport_keeps
    | with_reducible refine keeps_foldl (fun s a h => ?_) ?_
    | split
    | with_reducible refine keeps_mk rfl rfl rfl rfl rfl rfl rfl ?_)

theorem State.railFault_keeps {s₀ s : State} {k cause vout vin : Nat} (hk : Keeps s₀ s) :
    Keeps s₀ (State.railFault s k cause vout vin) := by
  unfold State.railFault
  repeat' (first
    | (intro s; refine keeps_cut (s₀ := s₀) (s := s) ?_ ?_ <;> [subst s; (intro hs; clear_value s)])
    | (intro x; clear_value x)
    | with_reducible assumption
    | with_reducible first | apply State.railSeen_keeps | apply State.railUp_keeps | apply State.railReport_keeps
    | with_reducible first | apply State.linLow_keeps
    | split
    | with_reducible refine keeps_mk rfl rfl rfl rfl rfl rfl rfl ?_
    | lift_lets)

theorem State.setSlot_keeps {s₀ s : State} {k : Nat} {x : Slot} (hk : Keeps s₀ s) :
    Keeps s₀ (State.setSlot s k x) := by
  unfold State.setSlot
  repeat' first | with_reducible assumption | with_reducible refine keeps_mk rfl rfl rfl rfl rfl rfl rfl ?_

theorem State.vmonChange_keeps {s₀ s : State} {n mv : Nat} (hk : Keeps s₀ s) :
    Keeps s₀ (State.vmonChange s n mv) := by
  unfold State.vmonChange
  repeat' (first
    | (intro s; refine keeps_cut (s₀ := s₀) (s := s) ?_ ?_ <;> [subst s; (intro hs; clear_value s)])
    | (intro x; clear_value x)
    | with_reducible assumption
    | with_reducible first | apply State.clrReg_keeps | apply State.evBit_keeps | apply State.wakeUp_keeps
    | with_reducible first | apply State.raise_keeps | apply State.orReg_keeps | apply State.setSlot_keeps
    | split
    | with_reducible refine keeps_mk rfl rfl rfl rfl rfl rfl rfl ?_
    | lift_lets)

theorem State.gpioEdge_keeps {s₀ s : State} {k : Nat} {level : Bool} (hk : Keeps s₀ s) :
    Keeps s₀ (State.gpioEdge s k level) := by
  unfold State.gpioEdge
  repeat' (first
    | (intro s; refine keeps_cut (s₀ := s₀) (s := s) ?_ ?_ <;> [subst s; (intro hs; clear_value s)])
    | (intro x; clear_value x)
    | with_reducible assumption
    | with_reducible first | apply State.setFb_keeps | apply State.orReg_keeps | apply State.wakeUp_keeps
    | split
    | lift_lets)

theorem State.scanBegin_keeps {s₀ s : State} (hk : Keeps s₀ s) : Keeps s₀ (State.scanBegin s) := by
  unfold State.scanBegin
  repeat' first | with_reducible assumption | with_reducible apply State.setF_keeps | split

theorem State.scanStart_keeps {s₀ s : State} (hk : Keeps s₀ s) : Keeps s₀ (State.scanStart s) := by
  unfold State.scanStart
  repeat' (first
    | (intro s; refine keeps_cut (s₀ := s₀) (s := s) ?_ ?_ <;> [subst s; (intro hs; clear_value s)])
    | (intro x; clear_value x)
    | with_reducible assumption
    | with_reducible first | apply State.scanBegin_keeps | apply State.wakeUp_keeps
    | split
    | with_reducible refine keeps_mk rfl rfl rfl rfl rfl rfl rfl ?_
    | lift_lets)

theorem State.noteSample_keeps {s₀ s : State} {ch mv : Nat} (hk : Keeps s₀ s) :
    Keeps s₀ (State.noteSample s ch mv) := by
  unfold State.noteSample
  repeat' (first
    | with_reducible assumption
    | with_reducible first | apply State.railSeen_keeps | apply State.setF_keeps
    | split
    | with_reducible refine keeps_mk rfl rfl rfl rfl rfl rfl rfl ?_)

theorem State.crossCheck_keeps {s₀ s : State} {x : AdcSample} (hk : Keeps s₀ s) :
    Keeps s₀ (State.crossCheck s x) := by
  unfold State.crossCheck
  repeat' (first
    | (intro s; refine keeps_cut (s₀ := s₀) (s := s) ?_ ?_ <;> [subst s; (intro hs; clear_value s)])
    | (intro x; clear_value x)
    | with_reducible assumption
    | with_reducible first | apply State.setF_keeps | apply State.ev_keeps | apply State.raise_keeps
    | split
    | with_reducible refine keeps_mk rfl rfl rfl rfl rfl rfl rfl ?_
    | lift_lets)

theorem State.storeSample_keeps {s₀ s : State} {x : AdcSample} (hk : Keeps s₀ s) :
    Keeps s₀ (State.storeSample s x) := by
  unfold State.storeSample
  repeat' (first
    | (intro s; refine keeps_cut (s₀ := s₀) (s := s) ?_ ?_ <;> [subst s; (intro hs; clear_value s)])
    | (intro x; clear_value x)
    | with_reducible assumption
    | with_reducible first | apply State.setF_keeps | apply State.setFb_keeps | apply State.noteSample_keeps
    | split
    | lift_lets)

theorem State.scanJudge_keeps {s₀ s : State} {xs : List AdcSample} (hk : Keeps s₀ s) :
    Keeps s₀ (State.scanJudge s xs) := by
  unfold State.scanJudge
  repeat' (first
    | (intro s; refine keeps_cut (s₀ := s₀) (s := s) ?_ ?_ <;> [subst s; (intro hs; clear_value s)])
    | (intro x; clear_value x)
    | with_reducible assumption
    | with_reducible apply State.crossCheck_keeps
    | with_reducible refine keeps_foldl (fun s a h => ?_) ?_
    | split
    | with_reducible refine keeps_mk rfl rfl rfl rfl rfl rfl rfl ?_
    | lift_lets)

theorem State.scanDone_keeps {s₀ s : State} {xs : List AdcSample} (hk : Keeps s₀ s) :
    Keeps s₀ (State.scanDone s xs) := by
  unfold State.scanDone
  repeat' (first
    | with_reducible assumption
    | with_reducible first | apply State.storeSample_keeps | apply State.scanJudge_keeps | apply State.setF_keeps
    | with_reducible first | apply State.ev_keeps
    | with_reducible refine keeps_foldl (fun s a h => ?_) ?_
    | split
    | with_reducible refine keeps_mk rfl rfl rfl rfl rfl rfl rfl ?_)

theorem State.adcGone_keeps {s₀ s : State} (hk : Keeps s₀ s) : Keeps s₀ (State.adcGone s) := by
  unfold State.adcGone
  repeat' (first
    | (intro s; refine keeps_cut (s₀ := s₀) (s := s) ?_ ?_ <;> [subst s; (intro hs; clear_value s)])
    | (intro x; clear_value x)
    | with_reducible assumption
    | with_reducible first | apply State.setF_keeps | apply State.spareGone_keeps
    | with_reducible refine keeps_foldl (fun s a h => ?_) ?_
    | lift_lets)

theorem State.selfTestDone_keeps {s₀ s : State} {a b : Nat × Nat} (hk : Keeps s₀ s) :
    Keeps s₀ (State.selfTestDone s a b) := by
  unfold State.selfTestDone
  repeat' (first
    | (intro s; refine keeps_cut (s₀ := s₀) (s := s) ?_ ?_ <;> [subst s; (intro hs; clear_value s)])
    | (intro x; clear_value x)
    | with_reducible assumption
    | with_reducible first | apply State.setF_keeps | apply State.ev_keeps | apply State.spareUsed_keeps
    | with_reducible first | apply State.adcGone_keeps
    | split
    | with_reducible refine keeps_mk rfl rfl rfl rfl rfl rfl rfl ?_
    | lift_lets)

end Sys2Proof.Machine
end

