-- ==== Sys2Proof/Laws/KeepsSeq.lean ====
section
/-! SUPPORT. `Keeps` for the sequencer: one lemma per operation. -/

namespace Sys2Proof.Machine

theorem State.setSeq_keeps {s₀ s : State} {q : Seq} (hk : Keeps s₀ s) : Keeps s₀ (State.setSeq s q) := by
  unfold State.setSeq
  repeat' first | with_reducible assumption | with_reducible refine keeps_mk rfl rfl rfl rfl rfl rfl rfl ?_

theorem State.setPend_keeps {s₀ s : State} {k : Nat} {b : Bool} (hk : Keeps s₀ s) :
    Keeps s₀ (State.setPend s k b) := by
  unfold State.setPend
  repeat' (first
    | (intro s; refine keeps_cut (s₀ := s₀) (s := s) ?_ ?_ <;> [subst s; (intro hs; clear_value s)])
    | (intro x; clear_value x)
    | with_reducible assumption
    | with_reducible apply State.setFb_keeps
    | split
    | lift_lets)

theorem State.setSlotSt_keeps {s₀ s : State} {k st : Nat} (hk : Keeps s₀ s) : Keeps s₀ (State.setSlotSt s k st) := by
  unfold State.setSlotSt
  repeat' (first
    | (intro s; refine keeps_cut (s₀ := s₀) (s := s) ?_ ?_ <;> [subst s; (intro hs; clear_value s)])
    | (intro x; clear_value x)
    | with_reducible assumption
    | with_reducible first | apply State.setF_keeps | apply State.setSlot_keeps
    | with_reducible refine keeps_mk rfl rfl rfl rfl rfl rfl rfl ?_
    | lift_lets)

theorem State.slotTurnOn_keeps {s₀ s : State} {k : Nat} (hk : Keeps s₀ s) : Keeps s₀ (State.slotTurnOn s k) := by
  unfold State.slotTurnOn
  repeat' (first
    | (intro s; refine keeps_cut (s₀ := s₀) (s := s) ?_ ?_ <;> [subst s; (intro hs; clear_value s)])
    | (intro x; clear_value x)
    | with_reducible assumption
    | with_reducible first | apply State.setSlot_keeps | apply State.loopTurnOn_keeps | apply State.railOn_keeps
    | split
    | with_reducible refine keeps_mk rfl rfl rfl rfl rfl rfl rfl ?_
    | lift_lets)

theorem State.slotTurnOff_keeps {s₀ s : State} {k : Nat} (hk : Keeps s₀ s) : Keeps s₀ (State.slotTurnOff s k) := by
  unfold State.slotTurnOff
  repeat' (first
    | (intro s; refine keeps_cut (s₀ := s₀) (s := s) ?_ ?_ <;> [subst s; (intro hs; clear_value s)])
    | (intro x; clear_value x)
    | with_reducible assumption
    | with_reducible first | apply State.setSlot_keeps | apply State.loopTurnOff_keeps
    | with_reducible first | apply State.railDischarge_keeps
    | split
    | with_reducible refine keeps_mk rfl rfl rfl rfl rfl rfl rfl ?_
    | lift_lets)

theorem State.slotStart_keeps {s₀ s : State} {k : Nat} (hk : Keeps s₀ s) : Keeps s₀ (State.slotStart s k) := by
  unfold State.slotStart
  repeat' (first
    | (intro s; refine keeps_cut (s₀ := s₀) (s := s) ?_ ?_ <;> [subst s; (intro hs; clear_value s)])
    | (intro x; clear_value x)
    | with_reducible assumption
    | with_reducible first | apply State.setSlotSt_keeps | apply State.setF_keeps | apply State.slotTurnOn_keeps
    | with_reducible first | apply State.setSlot_keeps
    | with_reducible refine keeps_mk rfl rfl rfl rfl rfl rfl rfl ?_
    | lift_lets)

theorem State.firstFail_keeps {s₀ s : State} {trigger : Nat} (hk : Keeps s₀ s) :
    Keeps s₀ (State.firstFail s trigger) := by
  unfold State.firstFail
  repeat' (first
    | (intro s; refine keeps_cut (s₀ := s₀) (s := s) ?_ ?_ <;> [subst s; (intro hs; clear_value s)])
    | (intro x; clear_value x)
    | with_reducible assumption
    | with_reducible first | apply State.setF_keeps | apply State.recRing_keeps | apply State.ev_keeps
    | split
    | lift_lets)

theorem State.ffArm_keeps {s₀ s : State} (hk : Keeps s₀ s) : Keeps s₀ (State.ffArm s) := by
  unfold State.ffArm
  repeat' first | with_reducible assumption | with_reducible apply State.setF_keeps

theorem State.rstoRelease_keeps {s₀ s : State} {failed : Bool} (hk : Keeps s₀ s) :
    Keeps s₀ (State.rstoRelease s failed) := by
  unfold State.rstoRelease
  repeat' (first
    | (intro s; refine keeps_cut (s₀ := s₀) (s := s) ?_ ?_ <;> [subst s; (intro hs; clear_value s)])
    | (intro x; clear_value x)
    | with_reducible assumption
    | with_reducible first | apply State.setSeq_keeps | apply State.setF_keeps | apply State.ev_keeps
    | with_reducible first | apply State.ffArm_keeps
    | split
    | with_reducible refine keeps_mk rfl rfl rfl rfl rfl rfl rfl ?_
    | lift_lets)

theorem State.rstoJudge_keeps {s₀ s : State} (hk : Keeps s₀ s) : Keeps s₀ (State.rstoJudge s) := by
  unfold State.rstoJudge
  repeat' (first
    | with_reducible assumption
    | with_reducible apply State.setSeq_keeps
    | split
    | with_reducible refine keeps_mk rfl rfl rfl rfl rfl rfl rfl ?_)

theorem State.rstoExpire_keeps {s₀ s : State} (hk : Keeps s₀ s) : Keeps s₀ (State.rstoExpire s) := by
  unfold State.rstoExpire
  repeat' (first
    | with_reducible assumption
    | with_reducible apply State.rstoRelease_keeps
    | split
    | with_reducible refine keeps_mk rfl rfl rfl rfl rfl rfl rfl ?_)

theorem State.slotFail_keeps {s₀ s : State} {k cause : Nat} (hk : Keeps s₀ s) :
    Keeps s₀ (State.slotFail s k cause) := by
  unfold State.slotFail
  repeat' (first
    | (intro s; refine keeps_cut (s₀ := s₀) (s := s) ?_ ?_ <;> [subst s; (intro hs; clear_value s)])
    | (intro x; clear_value x)
    | with_reducible assumption
    | with_reducible first | apply State.setSlotSt_keeps | apply State.setF_keeps | apply State.ev_keeps
    | with_reducible first | apply State.raise_keeps | apply State.rstoRelease_keeps
    | split
    | lift_lets)

theorem State.slotStop_keeps {s₀ s : State} {k : Nat} (hk : Keeps s₀ s) : Keeps s₀ (State.slotStop s k) := by
  unfold State.slotStop
  repeat' (first
    | (intro s; refine keeps_cut (s₀ := s₀) (s := s) ?_ ?_ <;> [subst s; (intro hs; clear_value s)])
    | (intro x; clear_value x)
    | with_reducible assumption
    | with_reducible first | apply State.setSlotSt_keeps | apply State.setF_keeps | apply State.slotTurnOff_keeps
    | with_reducible first | apply State.setSlot_keeps
    | with_reducible refine keeps_mk rfl rfl rfl rfl rfl rfl rfl ?_
    | lift_lets)

theorem State.slotReachOff_keeps {s₀ s : State} {k : Nat} (hk : Keeps s₀ s) : Keeps s₀ (State.slotReachOff s k) := by
  unfold State.slotReachOff
  repeat' (first
    | (intro s; refine keeps_cut (s₀ := s₀) (s := s) ?_ ?_ <;> [subst s; (intro hs; clear_value s)])
    | (intro x; clear_value x)
    | with_reducible assumption
    | with_reducible first | apply State.setSlotSt_keeps | apply State.setF_keeps | apply State.setSlot_keeps
    | with_reducible first | apply State.railOff_keeps
    | split
    | with_reducible refine keeps_mk rfl rfl rfl rfl rfl rfl rfl ?_
    | lift_lets)

theorem State.slotKill_keeps {s₀ s : State} {k : Nat} (hk : Keeps s₀ s) : Keeps s₀ (State.slotKill s k) := by
  unfold State.slotKill
  repeat' (first
    | (intro s; refine keeps_cut (s₀ := s₀) (s := s) ?_ ?_ <;> [subst s; (intro hs; clear_value s)])
    | (intro x; clear_value x)
    | with_reducible assumption
    | with_reducible first | apply State.setPend_keeps | apply State.loopKill_keeps | apply State.setSlotSt_keeps
    | with_reducible first | apply State.slotReachOff_keeps
    | split
    | with_reducible refine keeps_mk rfl rfl rfl rfl rfl rfl rfl ?_
    | lift_lets)

theorem State.slotRefuse_keeps {s₀ s : State} {k reason : Nat} (hk : Keeps s₀ s) :
    Keeps s₀ (State.slotRefuse s k reason) := by
  unfold State.slotRefuse
  repeat' (first
    | (intro s; refine keeps_cut (s₀ := s₀) (s := s) ?_ ?_ <;> [subst s; (intro hs; clear_value s)])
    | (intro x; clear_value x)
    | with_reducible assumption
    | with_reducible first | apply State.setF_keeps | apply State.ev_keeps
    | lift_lets)

theorem State.slotOn_keeps {s₀ s : State} {k : Nat} (hk : Keeps s₀ s) : Keeps s₀ (State.slotOn s k).1 := by
  unfold State.slotOn
  repeat' (first
    | (intro s; refine keeps_cut (s₀ := s₀) (s := s) ?_ ?_ <;> [subst s; (intro hs; clear_value s)])
    | (intro x; clear_value x)
    | lift_lets
    | with_reducible assumption
    | with_reducible first | apply State.slotRefuse_keeps | apply State.setPend_keeps | apply State.convRefuse_keeps
    | with_reducible first | apply State.slotStart_keeps | apply State.setSlotSt_keeps
    | split)

theorem State.downRun_keeps {s₀ s : State} {ks : List Nat} (hk : Keeps s₀ s) : Keeps s₀ (State.downRun s ks) := by
  unfold State.downRun
  repeat' (first
    | (intro s; refine keeps_cut (s₀ := s₀) (s := s) ?_ ?_ <;> [subst s; (intro hs; clear_value s)])
    | (intro x; clear_value x)
    | with_reducible assumption
    | with_reducible first | apply State.setF_keeps | apply State.setPend_keeps | apply State.setSlotSt_keeps
    | with_reducible first | apply State.setSlot_keeps
    | with_reducible refine keeps_foldl (fun s a h => ?_) ?_
    | split
    | with_reducible refine keeps_mk rfl rfl rfl rfl rfl rfl rfl ?_
    | lift_lets)

theorem State.slotOffReq_keeps {s₀ s : State} {k : Nat} (hk : Keeps s₀ s) : Keeps s₀ (State.slotOffReq s k) := by
  unfold State.slotOffReq
  repeat' (first
    | (intro s; refine keeps_cut (s₀ := s₀) (s := s) ?_ ?_ <;> [subst s; (intro hs; clear_value s)])
    | (intro x; clear_value x)
    | with_reducible assumption
    | with_reducible first | apply State.setPend_keeps | apply State.setSlotSt_keeps | apply State.downRun_keeps
    | split
    | lift_lets)

theorem State.seqDown_keeps {s₀ s : State} {mask : Word} (hk : Keeps s₀ s) : Keeps s₀ (State.seqDown s mask) := by
  unfold State.seqDown
  repeat' first | with_reducible assumption | with_reducible apply State.downRun_keeps | split

theorem State.seqReq_keeps {s₀ s : State} {d : Word} (hk : Keeps s₀ s) : Keeps s₀ (State.seqReq s d) := by
  unfold State.seqReq
  repeat' (first
    | (intro s; refine keeps_cut (s₀ := s₀) (s := s) ?_ ?_ <;> [subst s; (intro hs; clear_value s)])
    | (intro x; clear_value x)
    | with_reducible assumption
    | with_reducible first | apply State.slotOn_keeps | apply State.slotOffReq_keeps
    | split
    | lift_lets)

theorem State.depWrite_keeps {s₀ s : State} {k : Nat} {d : Word} (hk : Keeps s₀ s) :
    Keeps s₀ (State.depWrite s k d) := by
  unfold State.depWrite
  repeat' (first
    | (intro s; refine keeps_cut (s₀ := s₀) (s := s) ?_ ?_ <;> [subst s; (intro hs; clear_value s)])
    | (intro x; clear_value x)
    | with_reducible assumption
    | with_reducible first | apply State.slotRefuse_keeps | apply State.wr_keeps
    | split
    | lift_lets)

theorem State.slotQualified_keeps {s₀ s : State} {k : Nat} (hk : Keeps s₀ s) :
    Keeps s₀ (State.slotQualified s k) := by
  unfold State.slotQualified
  repeat' (first
    | (intro s; refine keeps_cut (s₀ := s₀) (s := s) ?_ ?_ <;> [subst s; (intro hs; clear_value s)])
    | (intro x; clear_value x)
    | with_reducible assumption
    | with_reducible first | apply State.setSlotSt_keeps | apply State.setF_keeps | apply State.ev_keeps
    | split
    | lift_lets)

theorem State.runFault_keeps {s₀ s : State} {k : Nat} (hk : Keeps s₀ s) : Keeps s₀ (State.runFault s k) := by
  unfold State.runFault
  repeat' (first
    | with_reducible assumption
    | with_reducible first | apply State.ev_keeps | apply State.almanacBlock_keeps)

theorem State.slotStartTimeout_keeps {s₀ s : State} {k : Nat} (hk : Keeps s₀ s) :
    Keeps s₀ (State.slotStartTimeout s k) := by
  unfold State.slotStartTimeout
  repeat' (first
    | with_reducible assumption
    | with_reducible first | apply State.setSlot_keeps | apply State.runFault_keeps | apply State.slotFail_keeps
    | split
    | with_reducible refine keeps_mk rfl rfl rfl rfl rfl rfl rfl ?_)

theorem State.slotDischarged_keeps {s₀ s : State} {k mv : Nat} (hk : Keeps s₀ s) :
    Keeps s₀ (State.slotDischarged s k mv) := by
  unfold State.slotDischarged
  repeat' (first
    | (intro s; refine keeps_cut (s₀ := s₀) (s := s) ?_ ?_ <;> [subst s; (intro hs; clear_value s)])
    | (intro x; clear_value x)
    | with_reducible assumption
    | with_reducible first | apply State.setF_keeps | apply State.railSeen_keeps | apply State.slotReachOff_keeps
    | split
    | lift_lets)

theorem State.slotDischargeTimeout_keeps {s₀ s : State} {k : Nat} (hk : Keeps s₀ s) :
    Keeps s₀ (State.slotDischargeTimeout s k) := by
  unfold State.slotDischargeTimeout
  repeat' (first
    | (intro s; refine keeps_cut (s₀ := s₀) (s := s) ?_ ?_ <;> [subst s; (intro hs; clear_value s)])
    | (intro x; clear_value x)
    | with_reducible assumption
    | with_reducible first | apply State.slotReachOff_keeps | apply State.setFb_keeps | apply State.ev_keeps
    | with_reducible first | apply State.almanacBlock_keeps | apply State.raise_keeps
    | split
    | lift_lets)

theorem State.slotPendDue_keeps {s₀ s : State} {k : Nat} (hk : Keeps s₀ s) : Keeps s₀ (State.slotPendDue s k) := by
  unfold State.slotPendDue
  repeat' (first
    | with_reducible assumption
    | with_reducible first | apply State.setPend_keeps | apply State.slotOn_keeps
    | split)

theorem State.chatter_keeps {s₀ s : State} {k n : Nat} (hk : Keeps s₀ s) : Keeps s₀ (State.chatter s k n) := by
  unfold State.chatter
  repeat' (first
    | (intro s; refine keeps_cut (s₀ := s₀) (s := s) ?_ ?_ <;> [subst s; (intro hs; clear_value s)])
    | (intro x; clear_value x)
    | with_reducible assumption
    | with_reducible first | apply State.setF_keeps | apply State.slotFail_keeps
    | split
    | lift_lets)

theorem State.goodLost_keeps {s₀ s : State} {k : Nat} (hk : Keeps s₀ s) : Keeps s₀ (State.goodLost s k) := by
  unfold State.goodLost
  repeat' (first
    | (intro s; refine keeps_cut (s₀ := s₀) (s := s) ?_ ?_ <;> [subst s; (intro hs; clear_value s)])
    | (intro x; clear_value x)
    | with_reducible assumption
    | with_reducible first | apply State.firstFail_keeps | apply State.setSeq_keeps | apply State.setSlotSt_keeps
    | with_reducible first | apply State.ev_keeps | apply State.setSlot_keeps | apply State.chatter_keeps
    | with_reducible refine keeps_mk rfl rfl rfl rfl rfl rfl rfl ?_
    | lift_lets)

theorem State.takeWindow_keeps {s₀ s : State} {k : Nat} {win : Bool} (hk : Keeps s₀ s) :
    Keeps s₀ (State.takeWindow s k win) := by
  unfold State.takeWindow
  repeat' (first
    | (intro s; refine keeps_cut (s₀ := s₀) (s := s) ?_ ?_ <;> [subst s; (intro hs; clear_value s)])
    | (intro x; clear_value x)
    | with_reducible assumption
    | with_reducible first | apply State.setSlot_keeps | apply State.runFault_keeps | apply State.goodLost_keeps
    | with_reducible first | apply State.chatter_keeps
    | split
    | with_reducible refine keeps_mk rfl rfl rfl rfl rfl rfl rfl ?_
    | lift_lets)

theorem State.seqMove_keeps {s₀ s t : State} (hk : Keeps s₀ s) (e : s.seqMove = some t) : Keeps s₀ t := by
  obtain ⟨k, -, h⟩ := List.exists_of_findSome?_eq_some e
  simp only at h
  split at h
  · cases h; exact State.takeWindow_keeps hk
  · split at h
    · cases h; exact State.slotStart_keeps hk
    · split at h
      · cases h; exact State.slotFail_keeps hk
      · split at h
        · cases h; exact State.slotStop_keeps hk
        · cases h

theorem seqSettleN_keeps {s₀ : State} {n : Nat} {s : State} (hk : Keeps s₀ s) : Keeps s₀ (seqSettleN n s) := by
  induction n generalizing s with
  | zero => exact hk
  | succ n ih =>
    unfold seqSettleN
    split
    next t e => exact ih (State.seqMove_keeps hk e)
    next => exact hk

theorem State.runEnd_keeps {s₀ s : State} (hk : Keeps s₀ s) : Keeps s₀ (State.runEnd s) := by
  unfold State.runEnd
  repeat' (first
    | with_reducible assumption
    | with_reducible first | apply State.setF_keeps | apply State.ev_keeps
    | split)

theorem State.loopPend_keeps {s₀ s : State} {n : Nat} (hk : Keeps s₀ s) : Keeps s₀ (State.loopPend s n) := by
  unfold State.loopPend
  repeat' first | with_reducible assumption | with_reducible apply State.setPend_keeps | split

theorem State.seqSettle_keeps {s₀ s : State} (hk : Keeps s₀ s) : Keeps s₀ (State.seqSettle s) := by
  unfold State.seqSettle
  repeat' (first
    | with_reducible assumption
    | with_reducible first | apply State.loopPend_keeps | apply seqSettleN_keeps | apply State.runEnd_keeps
    | with_reducible first | apply State.rstoJudge_keeps
    | with_reducible refine keeps_foldl (fun s a h => ?_) ?_
    | with_reducible refine keeps_mk rfl rfl rfl rfl rfl rfl rfl ?_)

theorem State.seeVsys_keeps {s₀ s : State} {vsys : Nat} (hk : Keeps s₀ s) : Keeps s₀ (State.seeVsys s vsys) := by
  unfold State.seeVsys
  repeat' first | with_reducible assumption | with_reducible refine keeps_mk rfl rfl rfl rfl rfl rfl rfl ?_

theorem State.vsysCollapse_keeps {s₀ s : State} {vsys : Nat} (hk : Keeps s₀ s) :
    Keeps s₀ (State.vsysCollapse s vsys) := by
  unfold State.vsysCollapse
  repeat' (first
    | (intro s; refine keeps_cut (s₀ := s₀) (s := s) ?_ ?_ <;> [subst s; (intro hs; clear_value s)])
    | (intro x; clear_value x)
    | with_reducible assumption
    | with_reducible first | apply State.seeVsys_keeps | apply State.setSeq_keeps | apply State.ev_keeps
    | with_reducible first | apply State.firstFail_keeps | apply State.raise_keeps | apply State.gaugeOwe_keeps
    | split
    | with_reducible refine keeps_mk rfl rfl rfl rfl rfl rfl rfl ?_
    | lift_lets)

theorem State.firstFailRearm_keeps {s₀ s : State} {vsys since : Nat} (hk : Keeps s₀ s) :
    Keeps s₀ (State.firstFailRearm s vsys since) := by
  unfold State.firstFailRearm
  repeat' (first
    | with_reducible assumption
    | with_reducible first | apply State.seeVsys_keeps | apply State.ffArm_keeps
    | split)

end Sys2Proof.Machine
end

