-- ==== Sys2Proof/Laws/KeepsApply.lean ====
section
/-! SUPPORT. `Keeps` for writes that act on a loop, and the application of a proposal: one lemma per operation. -/

namespace Sys2Proof.Machine

theorem State.loopCtrl_keeps {s₀ s : State} {n : Nat} {d : Word} (hk : Keeps s₀ s) : Keeps s₀ (s.loopCtrl n d) := by
  unfold State.loopCtrl
  split
  · have h := State.slotOn_keeps (k := n) (State.loopCtrlWrite_keeps (n := n) (d := d) hk)
    have h' := State.slotOn_keeps (k := n) hk
    revert h
    generalize (s.loopCtrlWrite n d).slotOn n = r
    intro h
    obtain ⟨t, b⟩ := r
    dsimp only at h ⊢
    exact keeps_ite (State.setPend_keeps h) (keeps_ite h' h)
  · have h := State.slotOffReq_keeps (k := n) (State.loopCtrlWrite_keeps (n := n) (d := d) hk)
    exact keeps_ite (State.setLoop_keeps h) h

theorem State.writeLoop_keeps {s₀ s : State} {n off : Nat} {v new : Word} (hk : Keeps s₀ s) : Keeps s₀ (s.writeLoop n off v new) := by
  unfold State.writeLoop
  extract_lets k abort
  have ha {t : State} (h : Keeps s₀ t) : Keeps s₀ (abort t) := State.probeAbort_keeps h
  clear_value k abort
  repeat' (first
    | with_reducible assumption
    | with_reducible first | apply ha | apply State.loopCtrl_keeps | apply State.targetWrite_keeps | apply State.wr_keeps
    | split)

theorem State.bankWrite_keeps {s₀ s : State} {k : Nat} {new : Word} (hk : Keeps s₀ s) :
    Keeps s₀ (State.bankWrite s k new) := by
  unfold State.bankWrite
  repeat' (first
    | (intro s; refine keeps_cut (s₀ := s₀) (s := s) ?_ ?_ <;> [subst s; (intro hs; clear_value s)])
    | (intro x; clear_value x)
    | with_reducible assumption
    | with_reducible first | apply State.wr_keeps | apply State.probeAbort_keeps
    | with_reducible refine keeps_foldl (fun s a h => ?_) ?_
    | split
    | lift_lets)

theorem State.phaseAssign_keeps {s₀ s : State} {k : Nat} {d : Word} (hk : Keeps s₀ s) :
    Keeps s₀ (State.phaseAssign s k d) := by
  unfold State.phaseAssign
  repeat' (first
    | (intro s; refine keeps_cut (s₀ := s₀) (s := s) ?_ ?_ <;> [subst s; (intro hs; clear_value s)])
    | (intro x; clear_value x)
    | with_reducible assumption
    | with_reducible first | apply State.assignWrite_keeps | apply State.probeAbort_keeps
    | split
    | lift_lets)

theorem State.dueItem_keeps {s₀ s : State} {n : Nat} {i : DueItems} (hk : Keeps s₀ s) : Keeps s₀ (s.dueItem n i) := by
  unfold State.dueItem
  extract_lets put s1 t2 x2 s2
  have hp {t : State} {off : Nat} {w : Word} (h : Keeps s₀ t) : Keeps s₀ (put t off w) := State.writeLoop_keeps h
  have h1 : Keeps s₀ s1 := keeps_ite (hp hk) hk
  have h2 : Keeps s₀ s2 := keeps_ite (State.setHl_keeps (hp h1)) h1
  exact keeps_ite (State.probeAbort_keeps (State.setF_keeps h2)) h2

theorem State.takeItems_keeps {s₀ s : State} {n : Nat} (hk : Keeps s₀ s) : Keeps s₀ (State.takeItems s n) := by
  unfold State.takeItems
  repeat' (first
    | (intro s; refine keeps_cut (s₀ := s₀) (s := s) ?_ ?_ <;> [subst s; (intro hs; clear_value s)])
    | (intro x; clear_value x)
    | with_reducible assumption
    | with_reducible first | apply State.dueItem_keeps | apply State.setHl_keeps
    | with_reducible refine keeps_foldl (fun s a h => ?_) ?_
    | split
    | with_reducible refine keeps_mk rfl rfl rfl rfl rfl rfl rfl ?_
    | lift_lets)

theorem State.periodBegin_keeps {s₀ s : State} {n vout : Nat} {ms : List PhaseMeas} (hk : Keeps s₀ s) :
    Keeps s₀ (State.periodBegin s n vout ms) := by
  unfold State.periodBegin
  repeat' (first
    | with_reducible assumption
    | with_reducible first | apply State.takeItems_keeps | apply State.periodStart_keeps
    | split)

theorem State.roleItems_keeps {s₀ s : State} {n : Nat} {i : Items} {mask : Nat} (hk : Keeps s₀ s) : Keeps s₀ (s.roleItems n i mask) := by
  unfold State.roleItems
  extract_lets t x s1
  have h1 : Keeps s₀ s1 := keeps_ite (State.setHl_keeps (State.spareUsed_keeps (State.setRole_keeps (State.setRole_keeps hk)))) hk
  exact keeps_ite (State.setRole_keeps h1) h1

theorem State.applyItems_keeps {s₀ s : State} {n mask : Nat} (hk : Keeps s₀ s) : Keeps s₀ (s.applyItems n mask) := by
  unfold State.applyItems
  extract_lets i x rev s1 s2 v s3 y s4 s5
  have h1 : Keeps s₀ s1 := keeps_ite (State.copyBank_keeps (State.setF_keeps (State.bankWrite_keeps hk))) hk
  have h2 : Keeps s₀ s2 := State.roleItems_keeps h1
  have h3 : Keeps s₀ s3 := keeps_ite (State.writeLoop_keeps h2) h2
  have h4 : Keeps s₀ s4 := State.setHl_keeps h3
  have h5 : Keeps s₀ s5 := keeps_ite h4 (State.takeItems_keeps h4)
  exact keeps_ite h5 (State.almanacBlock_keeps (State.ev_keeps h5))

theorem State.healthApply_keeps {s₀ s : State} {d : Word} (hk : Keeps s₀ s) : Keeps s₀ (State.healthApply s d) := by
  unfold State.healthApply
  repeat' (first
    | (intro s; refine keeps_cut (s₀ := s₀) (s := s) ?_ ?_ <;> [subst s; (intro hs; clear_value s)])
    | (intro x; clear_value x)
    | with_reducible assumption
    | with_reducible first | apply State.wr_keeps | apply State.setF_keeps | apply State.applyItems_keeps
    | with_reducible first | apply State.dropProposal_keeps | apply State.orReg_keeps
    | split
    | with_reducible refine keeps_mk rfl rfl rfl rfl rfl rfl rfl ?_
    | lift_lets)

end Sys2Proof.Machine
end

