-- ==== Sys2Proof/Laws/KeepsLink.lean ====
section
/-! SUPPORT. `Keeps` for the ports: one lemma per operation. -/

namespace Sys2Proof.Machine

theorem State.setLk_keeps {s₀ s : State} {p : Nat} {x : LinkPort} (hk : Keeps s₀ s) :
    Keeps s₀ (State.setLk s p x) := by
  unfold State.setLk
  repeat' first | with_reducible assumption | with_reducible refine keeps_mk rfl rfl rfl rfl rfl rfl rfl ?_

theorem State.modLk_keeps {s₀ s : State} {p : Nat} {g : LinkPort → LinkPort} (hk : Keeps s₀ s) :
    Keeps s₀ (State.modLk s p g) := by
  unfold State.modLk
  repeat' first | with_reducible assumption | with_reducible apply State.setLk_keeps

theorem State.setPairBit_keeps {s₀ s : State} {reg : Nat → Nat} {a : Nat} (hk : Keeps s₀ s) :
    Keeps s₀ (State.setPairBit s reg a) := by
  unfold State.setPairBit
  repeat' first | with_reducible assumption | with_reducible apply State.orReg_keeps

theorem State.clrPairBit_keeps {s₀ s : State} {reg : Nat → Nat} {a : Nat} (hk : Keeps s₀ s) :
    Keeps s₀ (State.clrPairBit s reg a) := by
  unfold State.clrPairBit
  repeat' first | with_reducible assumption | with_reducible apply State.clrReg_keeps

theorem State.setDs_keeps {s₀ s : State} {p q d : Nat} {f : Nat × Nat × Nat} {v : Nat} (hk : Keeps s₀ s) :
    Keeps s₀ (State.setDs s p q d f v) := by
  unfold State.setDs
  repeat' first | with_reducible assumption | with_reducible apply State.setF_keeps

theorem State.hostQ_keeps {s₀ s : State} {p : Nat} (hk : Keeps s₀ s) : Keeps s₀ (State.hostQ s p) := by
  unfold State.hostQ
  repeat' first | with_reducible assumption | with_reducible apply State.ev_keeps

theorem State.descDone_keeps {s₀ s : State} {p q d status : Nat} (hk : Keeps s₀ s) :
    Keeps s₀ (State.descDone s p q d status) := by
  unfold State.descDone
  repeat' (first
    | (intro s; refine keeps_cut (s₀ := s₀) (s := s) ?_ ?_ <;> [subst s; (intro hs; clear_value s)])
    | (intro x; clear_value x)
    | with_reducible assumption
    | with_reducible first | apply State.setDs_keeps | apply State.setF_keeps | apply State.ev_keeps
    | with_reducible first | apply State.hostQ_keeps
    | split
    | lift_lets)

theorem State.xactDone_keeps {s₀ s : State} {p : Nat} {x : LinkXact} {status : Nat} (hk : Keeps s₀ s) :
    Keeps s₀ (State.xactDone s p x status) := by
  unfold State.xactDone
  repeat' (first
    | with_reducible assumption
    | with_reducible first | apply State.setDs_keeps | apply State.descDone_keeps
    | split
    | with_reducible refine keeps_mk rfl rfl rfl rfl rfl rfl rfl ?_)

theorem State.flushDescs_keeps {s₀ s : State} {p status : Nat} {c : State → Nat → Nat → Bool} (hk : Keeps s₀ s) :
    Keeps s₀ (State.flushDescs s p status c) := by
  unfold State.flushDescs
  repeat' (first
    | with_reducible assumption
    | with_reducible apply State.descDone_keeps
    | with_reducible refine keeps_foldl (fun s a h => ?_) ?_
    | split)

theorem State.dropDue_keeps {s₀ s : State} {p a : Nat} (hk : Keeps s₀ s) : Keeps s₀ (State.dropDue s p a) := by
  unfold State.dropDue
  repeat' (first
    | with_reducible assumption
    | with_reducible apply State.modLk_keeps
    | with_reducible refine keeps_mk rfl rfl rfl rfl rfl rfl rfl ?_)

theorem State.markStopping_keeps {s₀ s : State} {p a : Nat} (hk : Keeps s₀ s) :
    Keeps s₀ (State.markStopping s p a) := by
  unfold State.markStopping
  repeat' (first
    | (intro s; refine keeps_cut (s₀ := s₀) (s := s) ?_ ?_ <;> [subst s; (intro hs; clear_value s)])
    | (intro x; clear_value x)
    | with_reducible assumption
    | with_reducible first | apply State.setPt_keeps | apply State.dropDue_keeps | apply State.flushDescs_keeps
    | lift_lets)

theorem State.arrive_keeps {s₀ s : State} {p a vendor model serial : Nat} (hk : Keeps s₀ s) :
    Keeps s₀ (State.arrive s p a vendor model serial) := by
  unfold State.arrive
  repeat' (first
    | (intro s; refine keeps_cut (s₀ := s₀) (s := s) ?_ ?_ <;> [subst s; (intro hs; clear_value s)])
    | (intro x; clear_value x)
    | with_reducible assumption
    | with_reducible first | apply State.wr_keeps | apply State.setPt_keeps
    | with_reducible first | refine State.ledgerLink_keeps (fun s h => ?_) ?_ | apply State.ledgerArrive_keeps
    | with_reducible first | apply State.setPairBit_keeps | apply State.ev_keeps
    | with_reducible refine keeps_foldl (fun s a h => ?_) ?_
    | lift_lets)

theorem State.leave_keeps {s₀ s : State} {p a pres : Nat} (hk : Keeps s₀ s) : Keeps s₀ (State.leave s p a pres) := by
  unfold State.leave
  repeat' (first
    | (intro s; refine keeps_cut (s₀ := s₀) (s := s) ?_ ?_ <;> [subst s; (intro hs; clear_value s)])
    | (intro x; clear_value x)
    | with_reducible assumption
    | with_reducible first | apply State.setPt_keeps | apply State.dropDue_keeps
    | with_reducible first | refine State.ledgerLink_keeps (fun s h => ?_) ?_ | apply State.ledgerRemove_keeps
    | with_reducible first | apply State.setPairBit_keeps | apply State.ev_keeps
    | lift_lets)

theorem State.missed_keeps {s₀ s : State} {p a : Nat} (hk : Keeps s₀ s) : Keeps s₀ (State.missed s p a) := by
  unfold State.missed
  repeat' (first
    | (intro s; refine keeps_cut (s₀ := s₀) (s := s) ?_ ?_ <;> [subst s; (intro hs; clear_value s)])
    | (intro x; clear_value x)
    | with_reducible assumption
    | with_reducible first | apply State.setPt_keeps | apply State.leave_keeps
    | split
    | lift_lets)

theorem State.pointFault_keeps {s₀ s : State} {p a cause : Nat} (hk : Keeps s₀ s) :
    Keeps s₀ (State.pointFault s p a cause) := by
  unfold State.pointFault
  repeat' (first
    | (intro s; refine keeps_cut (s₀ := s₀) (s := s) ?_ ?_ <;> [subst s; (intro hs; clear_value s)])
    | (intro x; clear_value x)
    | with_reducible assumption
    | with_reducible first | apply State.setF_keeps | apply State.raise_keeps
    | lift_lets)

theorem State.linkFault_keeps {s₀ s : State} {p cause : Nat} (hk : Keeps s₀ s) :
    Keeps s₀ (State.linkFault s p cause) := by
  unfold State.linkFault
  repeat' (first
    | (intro s; refine keeps_cut (s₀ := s₀) (s := s) ?_ ?_ <;> [subst s; (intro hs; clear_value s)])
    | (intro x; clear_value x)
    | with_reducible assumption
    | with_reducible first | apply State.modLk_keeps | apply State.setF_keeps | apply State.ev_keeps
    | with_reducible first | apply State.raise_keeps
    | split
    | with_reducible refine keeps_mk rfl rfl rfl rfl rfl rfl rfl ?_
    | lift_lets)

theorem State.noteError_keeps {s₀ s : State} {p a : Nat} (hk : Keeps s₀ s) : Keeps s₀ (State.noteError s p a) := by
  unfold State.noteError
  repeat' (first
    | (intro s; refine keeps_cut (s₀ := s₀) (s := s) ?_ ?_ <;> [subst s; (intro hs; clear_value s)])
    | (intro x; clear_value x)
    | with_reducible assumption
    | with_reducible first | apply State.modLk_keeps | apply State.linkFault_keeps
    | split
    | with_reducible refine keeps_mk rfl rfl rfl rfl rfl rfl rfl ?_
    | lift_lets)

theorem State.noteGood_keeps {s₀ s : State} {p : Nat} (hk : Keeps s₀ s) : Keeps s₀ (State.noteGood s p) := by
  unfold State.noteGood
  repeat' (first
    | with_reducible assumption
    | with_reducible first | apply State.modLk_keeps | apply State.setF_keeps
    | with_reducible refine keeps_mk rfl rfl rfl rfl rfl rfl rfl ?_)

theorem State.nextSeq_keeps {s₀ s : State} {gp : Nat} (hk : Keeps s₀ s) : Keeps s₀ (State.nextSeq s gp).1 := by
  unfold State.nextSeq
  repeat' (first
    | (intro s; refine keeps_cut (s₀ := s₀) (s := s) ?_ ?_ <;> [subst s; (intro hs; clear_value s)])
    | (intro x; clear_value x)
    | with_reducible assumption
    | with_reducible apply State.setPt_keeps
    | lift_lets)

theorem State.sendSeq_keeps {s₀ s : State} {p a : Nat} {src : LinkSrc} (hk : Keeps s₀ s) :
    Keeps s₀ (State.sendSeq s p a src).1 := by
  unfold State.sendSeq
  repeat' (first
    | with_reducible assumption
    | with_reducible first | apply State.modLk_keeps | apply State.nextSeq_keeps
    | split
    | with_reducible refine keeps_mk rfl rfl rfl rfl rfl rfl rfl ?_)

theorem State.unicast_keeps {s₀ s : State} {p a rank kind : Nat} {src : LinkSrc} {payload : List Byte} (hk : Keeps s₀ s) :
    Keeps s₀ (State.unicast s p a rank kind src payload).1 := by
  unfold State.unicast
  repeat' (first
    | (intro s; refine keeps_cut (s₀ := s₀) (s := s) ?_ ?_ <;> [subst s; (intro hs; clear_value s)])
    | (intro x; clear_value x)
    | with_reducible assumption
    | with_reducible apply State.sendSeq_keeps
    | split
    | with_reducible refine keeps_fst (by assumption) ?_
    | lift_lets)

theorem State.dequeue_keeps {s₀ s : State} {p q d rank : Nat} (hk : Keeps s₀ s) : Keeps s₀ (s.dequeue p q d rank).1 := by
  unfold State.dequeue
  extract_lets a gp kind bc payload release stamp s1 s2 s3
  have h1 : Keeps s₀ s1 := State.setPt_keeps (State.setPt_keeps hk)
  have h2 : Keeps s₀ s2 := State.dropDue_keeps (State.setPt_keeps (State.setPt_keeps h1))
  have h3 : Keeps s₀ s3 := State.setDs_keeps hk
  clear_value s1 s2 s3
  split
  · exact State.descDone_keeps hk
  · split
    · exact State.descDone_keeps (State.ev_keeps (State.incF_keeps hk))
    · split
      · exact State.descDone_keeps hk
      · split
        · exact State.descDone_keeps h2
        · split
          · exact h3
          · exact State.sendSeq_keeps h3

theorem takeDesc_keeps {s₀ : State} {p q rank n : Nat} {quiet : Bool} {s : State} (hk : Keeps s₀ s) :
    Keeps s₀ (takeDesc p q rank quiet n s).1 := by
  induction n generalizing s with
  | zero => exact hk
  | succ n ih =>
    unfold takeDesc
    split
    · exact hk
    next d _ =>
      split
      · exact hk
      · extract_lets s1
        have h : Keeps s₀ s1 := State.modLk_keeps hk
        clear_value s1
        have h2 := State.dequeue_keeps (p := p) (q := q) (d := d) (rank := rank) h
        revert h2
        generalize s1.dequeue p q d rank = r
        intro h2
        obtain ⟨t, x | x⟩ := r
        · exact ih h2
        · exact h2

theorem State.takeAgain_keeps {s₀ s : State} {p rank : Nat} (hk : Keeps s₀ s) :
    Keeps s₀ (State.takeAgain s p rank).1 := by
  unfold State.takeAgain
  repeat' (first
    | with_reducible assumption
    | with_reducible apply State.modLk_keeps
    | split
    | with_reducible refine keeps_mk rfl rfl rfl rfl rfl rfl rfl ?_)

theorem State.takeShed_keeps {s₀ s : State} {p : Nat} (hk : Keeps s₀ s) : Keeps s₀ (s.takeShed p).1 := by
  unfold State.takeShed
  extract_lets fresh again
  split
  next a _ =>
    extract_lets n s1 s2 s3
    have h1 : Keeps s₀ s1 := State.modLk_keeps hk
    have h2 : Keeps s₀ s2 := keeps_ite (State.clrPairBit_keeps h1) h1
    have h3 : Keeps s₀ s3 := keeps_ite (State.ev_keeps h2) h2
    exact State.markStopping_keeps (State.unicast_keeps h3)
  next => exact hk

theorem State.takeOwn_keeps {s₀ s : State} {p rank kind : Nat} {src : LinkSrc} {payload : List Byte} {as : List Nat} {rest : LinkPort → List Nat → LinkPort} (hk : Keeps s₀ s) :
    Keeps s₀ (State.takeOwn s p rank kind src payload as rest).1 := by
  unfold State.takeOwn
  repeat' (first
    | (intro s; refine keeps_cut (s₀ := s₀) (s := s) ?_ ?_ <;> [subst s; (intro hs; clear_value s)])
    | (intro x; clear_value x)
    | with_reducible assumption
    | with_reducible first | apply State.modLk_keeps | apply State.unicast_keeps
    | split
    | with_reducible refine keeps_mk rfl rfl rfl rfl rfl rfl rfl ?_
    | with_reducible refine keeps_fst (by assumption) ?_
    | lift_lets)

theorem State.takeScan_keeps {s₀ s : State} {p : Nat} (hk : Keeps s₀ s) : Keeps s₀ (State.takeScan s p).1 := by
  unfold State.takeScan
  repeat' (first
    | (intro s; refine keeps_cut (s₀ := s₀) (s := s) ?_ ?_ <;> [subst s; (intro hs; clear_value s)])
    | (intro x; clear_value x)
    | with_reducible assumption
    | with_reducible first | apply State.modLk_keeps | apply State.takeOwn_keeps
    | split
    | with_reducible refine keeps_mk rfl rfl rfl rfl rfl rfl rfl ?_
    | lift_lets)

theorem State.takeRank_keeps {s₀ s : State} {p rank : Nat} (hk : Keeps s₀ s) : Keeps s₀ (s.takeRank p rank).1 := by
  have h := State.takeAgain_keeps (p := p) (rank := rank) hk
  unfold State.takeRank
  revert h
  generalize s.takeAgain p rank = r
  intro h
  obtain ⟨t, x | x⟩ := r
  · have hd (q r : Nat) : Keeps s₀ (takeDesc p q r false 16 t).1 := takeDesc_keeps h
    dsimp -zeta only at h ⊢
    split
    · split
      · exact h
      · dsimp only
        exact State.modLk_keeps h
    · exact State.takeShed_keeps h
    · have h2 := takeDesc_keeps (p := p) (q := 0) (rank := 2) (n := 16) (quiet := false) h
      revert h2
      generalize takeDesc p 0 2 false 16 t = y
      intro h2
      obtain ⟨u, x | x⟩ := y
      · exact State.takeOwn_keeps h2
      · exact h2
    · split
      · exact h
      · dsimp only
        exact State.unicast_keeps (State.modLk_keeps h)
    · split
      · exact State.takeOwn_keeps h
      · split
        · dsimp only
          exact State.modLk_keeps h
        · exact h
    · split
      · exact h
      · exact State.takeOwn_keeps (State.setPt_keeps h)
    · exact hd 1 _
    · exact hd 2 _
    · exact hd 3 _
    · have h2 := State.takeScan_keeps (p := p) h
      revert h2
      generalize t.takeScan p = y
      intro h2
      obtain ⟨u, x | x⟩ := y
      · exact takeDesc_keeps h2
      · exact h2
    · split
      · exact State.takeOwn_keeps h
      · exact hd 5 _
    · exact hd 6 _
    · exact hd 7 _
    · exact h
  · exact h

theorem takeFrom_keeps {s₀ : State} {p : Nat} {rs : List Nat} {s : State} (hk : Keeps s₀ s) : Keeps s₀ (takeFrom p rs s).1 := by
  induction rs generalizing s with
  | nil => exact hk
  | cons r rs ih =>
    have h := State.takeRank_keeps (p := p) (rank := r) hk
    unfold takeFrom
    revert h
    generalize s.takeRank p r = y
    intro h
    obtain ⟨t, x | x⟩ := y
    · exact ih h
    · exact h

theorem State.xactBegin_keeps {s₀ s : State} {p : Nat} {x : LinkXact} {later : Bool} (hk : Keeps s₀ s) :
    Keeps s₀ (State.xactBegin s p x later) := by
  unfold State.xactBegin
  repeat' (first
    | (intro s; refine keeps_cut (s₀ := s₀) (s := s) ?_ ?_ <;> [subst s; (intro hs; clear_value s)])
    | (intro x; clear_value x)
    | with_reducible assumption
    | with_reducible first | apply State.modLk_keeps | apply State.setF_keeps | apply State.setFb_keeps
    | with_reducible first | apply State.markStopping_keeps
    | with_reducible refine keeps_foldl (fun s a h => ?_) ?_
    | split
    | with_reducible refine keeps_mk rfl rfl rfl rfl rfl rfl rfl ?_
    | lift_lets)

theorem State.linkStart_keeps {s₀ s : State} {p : Nat} (hk : Keeps s₀ s) : Keeps s₀ (s.linkStart p) := by
  unfold State.linkStart
  split
  · generalize (if (s.lk p).opening then [0] else s.rankOrder p) = rs
    have h := takeFrom_keeps (p := p) (rs := rs) hk
    revert h
    generalize takeFrom p rs s = r
    intro h
    obtain ⟨t, x | x⟩ := r
    · exact h
    · exact State.xactBegin_keeps h
  · exact hk

theorem State.trainNext_keeps {s₀ s : State} {p : Nat} (hk : Keeps s₀ s) : Keeps s₀ (s.trainNext p).1 := by
  have h := State.takeShed_keeps (p := p) hk
  unfold State.trainNext
  revert h
  generalize s.takeShed p = r
  intro h
  obtain ⟨t, x | x⟩ := r
  · dsimp only at h ⊢
    split
    · exact h
    · exact takeDesc_keeps h
  · exact h

theorem State.roundBegin_keeps {s₀ s : State} {p : Nat} (hk : Keeps s₀ s) : Keeps s₀ (State.roundBegin s p) := by
  unfold State.roundBegin
  repeat' (first
    | (intro s; refine keeps_cut (s₀ := s₀) (s := s) ?_ ?_ <;> [subst s; (intro hs; clear_value s)])
    | (intro x; clear_value x)
    | with_reducible assumption
    | with_reducible first | apply State.modLk_keeps | apply State.setF_keeps
    | split
    | with_reducible refine keeps_mk rfl rfl rfl rfl rfl rfl rfl ?_
    | lift_lets)

theorem State.roundCheck_keeps {s₀ s : State} {p : Nat} (hk : Keeps s₀ s) : Keeps s₀ (State.roundCheck s p) := by
  unfold State.roundCheck
  repeat' (first
    | (intro s; refine keeps_cut (s₀ := s₀) (s := s) ?_ ?_ <;> [subst s; (intro hs; clear_value s)])
    | (intro x; clear_value x)
    | with_reducible assumption
    | with_reducible first | apply State.setF_keeps | apply State.ev_keeps | apply State.modLk_keeps
    | with_reducible first | apply State.roundBegin_keeps
    | split
    | with_reducible refine keeps_mk rfl rfl rfl rfl rfl rfl rfl ?_
    | lift_lets)

theorem State.scanRound_keeps {s₀ s : State} {p : Nat} (hk : Keeps s₀ s) : Keeps s₀ (State.scanRound s p) := by
  unfold State.scanRound
  repeat' (first
    | (intro s; refine keeps_cut (s₀ := s₀) (s := s) ?_ ?_ <;> [subst s; (intro hs; clear_value s)])
    | (intro x; clear_value x)
    | with_reducible assumption
    | with_reducible first | apply State.modLk_keeps | apply State.wakeUp_keeps | apply State.incF_keeps
    | with_reducible first | apply State.ev_keeps | apply State.roundBegin_keeps | apply State.roundCheck_keeps
    | split
    | with_reducible refine keeps_mk rfl rfl rfl rfl rfl rfl rfl ?_
    | lift_lets)

theorem State.linkOpen_keeps {s₀ s : State} {p : Nat} (hk : Keeps s₀ s) : Keeps s₀ (State.linkOpen s p) := by
  unfold State.linkOpen
  repeat' (first
    | with_reducible assumption
    | with_reducible apply State.modLk_keeps
    | with_reducible refine keeps_mk rfl rfl rfl rfl rfl rfl rfl ?_)

theorem State.linkEnable_keeps {s₀ s : State} {p : Nat} (hk : Keeps s₀ s) : Keeps s₀ (State.linkEnable s p) := by
  unfold State.linkEnable
  repeat' (first
    | (intro s; refine keeps_cut (s₀ := s₀) (s := s) ?_ ?_ <;> [subst s; (intro hs; clear_value s)])
    | (intro x; clear_value x)
    | with_reducible assumption
    | with_reducible first | apply State.ledgerRemove_keeps | apply State.modLk_keeps | apply State.setF_keeps
    | with_reducible refine keeps_regs (fun k => twf_filter _ _ _ k) ?_
    | with_reducible refine keeps_foldl (fun s a h => ?_) ?_
    | with_reducible refine keeps_mk rfl rfl rfl rfl rfl rfl rfl ?_
    | lift_lets)

theorem State.linkClosed_keeps {s₀ s : State} {p : Nat} (hk : Keeps s₀ s) : Keeps s₀ (State.linkClosed s p) := by
  unfold State.linkClosed
  repeat' (first
    | (intro s; refine keeps_cut (s₀ := s₀) (s := s) ?_ ?_ <;> [subst s; (intro hs; clear_value s)])
    | (intro x; clear_value x)
    | with_reducible assumption
    | with_reducible first | apply State.flushDescs_keeps | apply State.setPt_keeps | apply State.modLk_keeps
    | with_reducible first | apply State.setF_keeps
    | with_reducible refine keeps_foldl (fun s a h => ?_) ?_
    | split
    | with_reducible refine keeps_mk rfl rfl rfl rfl rfl rfl rfl ?_
    | lift_lets)

theorem State.closeOn_keeps {s₀ s : State} {p : Nat} (hk : Keeps s₀ s) : Keeps s₀ (s.closeOn p) := by
  unfold State.closeOn
  split
  · split
    · exact State.xactBegin_keeps (State.modLk_keeps hk)
    · have h := State.takeShed_keeps (p := p) hk
      revert h
      generalize s.takeShed p = r
      intro h
      obtain ⟨t, x | x⟩ := r
      · exact State.linkClosed_keeps h
      · exact State.xactBegin_keeps h
  · exact hk

theorem State.dropAgain_keeps {s₀ s : State} {p : Nat} {x : LinkXact} (hk : Keeps s₀ s) :
    Keeps s₀ (State.dropAgain s p x) := by
  unfold State.dropAgain
  repeat' (first
    | with_reducible assumption
    | with_reducible first | apply State.setDs_keeps | apply State.descDone_keeps
    | split
    | with_reducible refine keeps_mk rfl rfl rfl rfl rfl rfl rfl ?_)

theorem State.linkClosing_keeps {s₀ s : State} {p : Nat} (hk : Keeps s₀ s) : Keeps s₀ (State.linkClosing s p) := by
  unfold State.linkClosing
  repeat' (first
    | (intro s; refine keeps_cut (s₀ := s₀) (s := s) ?_ ?_ <;> [subst s; (intro hs; clear_value s)])
    | (intro x; clear_value x)
    | with_reducible assumption
    | with_reducible first | apply State.dropAgain_keeps | apply State.modLk_keeps | apply State.closeOn_keeps
    | with_reducible refine keeps_foldl (fun s a h => ?_) ?_
    | with_reducible refine keeps_mk rfl rfl rfl rfl rfl rfl rfl ?_
    | lift_lets)

theorem State.linkEnWrite_keeps {s₀ s : State} {p : Nat} {en : Bool} (hk : Keeps s₀ s) :
    Keeps s₀ (State.linkEnWrite s p en) := by
  unfold State.linkEnWrite
  repeat' (first
    | (intro s; refine keeps_cut (s₀ := s₀) (s := s) ?_ ?_ <;> [subst s; (intro hs; clear_value s)])
    | (intro x; clear_value x)
    | with_reducible assumption
    | with_reducible first | apply State.setFb_keeps | apply State.linkClosing_keeps
    | split
    | lift_lets)

theorem State.linkCtrlWrite_keeps {s₀ s : State} {p : Nat} {d : Word} (hk : Keeps s₀ s) :
    Keeps s₀ (State.linkCtrlWrite s p d) := by
  unfold State.linkCtrlWrite
  repeat' (first
    | (intro s; refine keeps_cut (s₀ := s₀) (s := s) ?_ ?_ <;> [subst s; (intro hs; clear_value s)])
    | (intro x; clear_value x)
    | with_reducible assumption
    | with_reducible first | apply State.ev_keeps | apply State.wr_keeps | apply State.linkEnWrite_keeps
    | split
    | lift_lets)

theorem State.linkAwait_keeps {s₀ s : State} {p : Nat} (hk : Keeps s₀ s) : Keeps s₀ (State.linkAwait s p) := by
  unfold State.linkAwait
  repeat' (first
    | with_reducible assumption
    | with_reducible first | apply State.closeOn_keeps | apply State.linkOpen_keeps
    | split)

theorem State.linkSettle_keeps {s₀ s : State} (hk : Keeps s₀ s) : Keeps s₀ (State.linkSettle s) := by
  unfold State.linkSettle
  repeat' (first
    | with_reducible assumption
    | with_reducible apply State.linkAwait_keeps
    | with_reducible refine keeps_foldl (fun s a h => ?_) ?_)

theorem State.linkBlockReset_keeps {s₀ s : State} {p : Nat} (hk : Keeps s₀ s) :
    Keeps s₀ (State.linkBlockReset s p) := by
  unfold State.linkBlockReset
  repeat' first | with_reducible assumption | with_reducible apply State.linkEnWrite_keeps | split

theorem State.xactEnd_keeps {s₀ s : State} {p : Nat} (hk : Keeps s₀ s) : Keeps s₀ (State.xactEnd s p) := by
  unfold State.xactEnd
  repeat' (first
    | with_reducible assumption
    | with_reducible first | apply State.modLk_keeps | apply State.setF_keeps
    | with_reducible refine keeps_mk rfl rfl rfl rfl rfl rfl rfl ?_)

theorem State.afterXact_keeps {s₀ s : State} {p : Nat} (hk : Keeps s₀ s) : Keeps s₀ (State.afterXact s p) := by
  unfold State.afterXact
  repeat' (first
    | with_reducible assumption
    | with_reducible first | apply State.roundCheck_keeps | apply State.closeOn_keeps)

theorem State.noCollision_keeps {s₀ s : State} {p : Nat} (hk : Keeps s₀ s) : Keeps s₀ (State.noCollision s p) := by
  unfold State.noCollision
  repeat' (first
    | with_reducible assumption
    | with_reducible apply State.modLk_keeps
    | with_reducible refine keeps_mk rfl rfl rfl rfl rfl rfl rfl ?_)

theorem State.attemptFailed_keeps {s₀ s : State} {p : Nat} {x : LinkXact} (hk : Keeps s₀ s) :
    Keeps s₀ (State.attemptFailed s p x) := by
  unfold State.attemptFailed
  repeat' (first
    | (intro s; refine keeps_cut (s₀ := s₀) (s := s) ?_ ?_ <;> [subst s; (intro hs; clear_value s)])
    | (intro x; clear_value x)
    | with_reducible assumption
    | with_reducible first | apply State.xactEnd_keeps | apply State.noCollision_keeps | apply State.modLk_keeps
    | with_reducible first | apply State.noteError_keeps | apply State.xactDone_keeps | apply State.missed_keeps
    | with_reducible first | apply State.afterXact_keeps
    | split
    | with_reducible refine keeps_mk rfl rfl rfl rfl rfl rfl rfl ?_
    | lift_lets)

theorem State.replyTimeout_keeps {s₀ s : State} {p : Nat} (hk : Keeps s₀ s) : Keeps s₀ (State.replyTimeout s p) := by
  unfold State.replyTimeout
  repeat' (first
    | with_reducible assumption
    | with_reducible first | apply State.incF_keeps | apply State.incPt_keeps | apply State.attemptFailed_keeps
    | split
    | with_reducible refine keeps_mk rfl rfl rfl rfl rfl rfl rfl ?_)

theorem State.replyInvalid_keeps {s₀ s : State} {p : Nat} {r : RxFrame} (hk : Keeps s₀ s) :
    Keeps s₀ (State.replyInvalid s p r) := by
  unfold State.replyInvalid
  repeat' (first
    | (intro s; refine keeps_cut (s₀ := s₀) (s := s) ?_ ?_ <;> [subst s; (intro hs; clear_value s)])
    | (intro x; clear_value x)
    | with_reducible assumption
    | with_reducible first | apply State.incF_keeps | apply State.incPt_keeps | apply State.attemptFailed_keeps
    | split
    | with_reducible refine keeps_mk rfl rfl rfl rfl rfl rfl rfl ?_
    | lift_lets)

theorem State.replyStale_keeps {s₀ s : State} {p : Nat} {x : LinkXact} (hk : Keeps s₀ s) :
    Keeps s₀ (State.replyStale s p x) := by
  unfold State.replyStale
  repeat' (first
    | (intro s; refine keeps_cut (s₀ := s₀) (s := s) ?_ ?_ <;> [subst s; (intro hs; clear_value s)])
    | (intro x; clear_value x)
    | with_reducible assumption
    | with_reducible first | apply State.incPt_keeps | apply State.incF_keeps | apply State.ev_keeps
    | with_reducible first | apply State.attemptFailed_keeps
    | lift_lets)

theorem State.replyUnexpected_keeps {s₀ s : State} {p : Nat} {x : LinkXact} (hk : Keeps s₀ s) :
    Keeps s₀ (State.replyUnexpected s p x) := by
  unfold State.replyUnexpected
  repeat' (first
    | (intro s; refine keeps_cut (s₀ := s₀) (s := s) ?_ ?_ <;> [subst s; (intro hs; clear_value s)])
    | (intro x; clear_value x)
    | with_reducible assumption
    | with_reducible first | apply State.xactEnd_keeps | apply State.noCollision_keeps | apply State.noteError_keeps
    | with_reducible first | apply State.xactDone_keeps | apply State.missed_keeps | apply State.afterXact_keeps
    | lift_lets)

theorem State.storeReply_keeps {s₀ s : State} {p : Nat} {x : LinkXact} {rkind : Nat} {payload : List Byte} (hk : Keeps s₀ s) :
    Keeps s₀ (State.storeReply s p x rkind payload) := by
  unfold State.storeReply
  repeat' (first
    | (intro s; refine keeps_cut (s₀ := s₀) (s := s) ?_ ?_ <;> [subst s; (intro hs; clear_value s)])
    | (intro x; clear_value x)
    | with_reducible assumption
    | with_reducible first | apply State.setDs_keeps | apply State.wr_keeps
    | split
    | with_reducible refine keeps_mk rfl rfl rfl rfl rfl rfl rfl ?_
    | lift_lets)

theorem State.replyTaken_keeps {s₀ s : State} {p : Nat} {x : LinkXact} {k : State → State} (hf : ∀ s, Keeps s₀ s → Keeps s₀ (k s))
    (hk : Keeps s₀ s) : Keeps s₀ (s.replyTaken p x k) :=
  State.afterXact_keeps (hf _ (State.setPt_keeps (State.noteGood_keeps (State.xactEnd_keeps hk))))

theorem State.reply_keeps {s₀ s : State} {p rkind epoch : Nat} {k : LinkXact → State → State}
    (hf : ∀ x s, Keeps s₀ s → Keeps s₀ (k x s)) (hk : Keeps s₀ s) : Keeps s₀ (s.reply p rkind epoch k) := by
  unfold State.reply
  split
  · extract_lets want
    split
    · exact hk
    · split
      · exact State.replyStale_keeps hk
      · split
        · exact State.replyUnexpected_keeps hk
        · exact State.replyTaken_keeps (hf _) hk
  · exact hk

theorem State.verified_keeps {s₀ s : State} {p a n : Nat} {confirmed : Bool} (hk : Keeps s₀ s) :
    Keeps s₀ (State.verified s p a n confirmed) := by
  unfold State.verified
  repeat' (first
    | with_reducible assumption
    | with_reducible first | apply State.modLk_keeps | apply State.pointFault_keeps
    | split
    | with_reducible refine keeps_mk rfl rfl rfl rfl rfl rfl rfl ?_)

theorem State.takeStatus_keeps {s₀ s : State} {p a : Nat} {payload : List Byte} (hk : Keeps s₀ s) :
    Keeps s₀ (State.takeStatus s p a payload) := by
  unfold State.takeStatus
  repeat' (first
    | (intro s; refine keeps_cut (s₀ := s₀) (s := s) ?_ ?_ <;> [subst s; (intro hs; clear_value s)])
    | (intro x; clear_value x)
    | with_reducible assumption
    | with_reducible first | apply State.setPt_keeps | apply State.setPairBit_keeps | apply State.ev_keeps
    | with_reducible first | apply State.pointFault_keeps | apply State.ledgerDraw_keeps
    | split
    | lift_lets)

theorem State.statusReply_keeps {s₀ s : State} {p epoch : Nat} {query : Bool} {payload : List Byte} (hk : Keeps s₀ s) :
    Keeps s₀ (State.statusReply s p epoch query payload) := by
  unfold State.statusReply
  repeat' (first
    | (intro s; refine keeps_cut (s₀ := s₀) (s := s) ?_ ?_ <;> [subst s; (intro hs; clear_value s)])
    | (intro x; clear_value x)
    | with_reducible assumption
    | with_reducible first | refine State.reply_keeps (fun x s h => ?_) ?_ | apply State.takeStatus_keeps
    | with_reducible first | apply State.storeReply_keeps | apply State.xactDone_keeps | apply State.hostQ_keeps
    | with_reducible first | apply State.verified_keeps
    | split
    | with_reducible refine keeps_mk rfl rfl rfl rfl rfl rfl rfl ?_
    | lift_lets)

theorem State.ackReply_keeps {s₀ s : State} {p epoch out : Nat} (hk : Keeps s₀ s) :
    Keeps s₀ (State.ackReply s p epoch out) := by
  unfold State.ackReply
  repeat' (first
    | (intro s; refine keeps_cut (s₀ := s₀) (s := s) ?_ ?_ <;> [subst s; (intro hs; clear_value s)])
    | (intro x; clear_value x)
    | with_reducible assumption
    | with_reducible first | refine State.reply_keeps (fun x s h => ?_) ?_ | apply State.setPt_keeps
    | with_reducible first | apply State.storeReply_keeps | apply State.xactDone_keeps | apply State.dropDue_keeps
    | split
    | lift_lets)

theorem State.nakReply_keeps {s₀ s : State} {p epoch reason : Nat} (hk : Keeps s₀ s) :
    Keeps s₀ (State.nakReply s p epoch reason) := by
  unfold State.nakReply
  repeat' (first
    | (intro s; refine keeps_cut (s₀ := s₀) (s := s) ?_ ?_ <;> [subst s; (intro hs; clear_value s)])
    | (intro x; clear_value x)
    | with_reducible assumption
    | with_reducible first | refine State.reply_keeps (fun x s h => ?_) ?_ | apply State.incPt_keeps
    | with_reducible first | apply State.storeReply_keeps | apply State.setDs_keeps | apply State.verified_keeps
    | with_reducible first | apply State.xactDone_keeps
    | split
    | with_reducible refine keeps_mk rfl rfl rfl rfl rfl rfl rfl ?_
    | lift_lets)

theorem State.nakEpochReply_keeps {s₀ s : State} {p epoch : Nat} (hk : Keeps s₀ s) :
    Keeps s₀ (State.nakEpochReply s p epoch) := by
  unfold State.nakEpochReply
  repeat' (first
    | (intro s; refine keeps_cut (s₀ := s₀) (s := s) ?_ ?_ <;> [subst s; (intro hs; clear_value s)])
    | (intro x; clear_value x)
    | with_reducible assumption
    | with_reducible first | refine State.replyTaken_keeps (fun s h => ?_) ?_ | apply State.storeReply_keeps
    | with_reducible first | apply State.xactDone_keeps | apply State.leave_keeps | apply State.arrive_keeps
    | with_reducible first | apply State.pointFault_keeps | apply State.modLk_keeps
    | split
    | with_reducible refine keeps_mk rfl rfl rfl rfl rfl rfl rfl ?_
    | lift_lets)

theorem State.dataReply_keeps {s₀ s : State} {p epoch : Nat} {query : Bool} {payload : List Byte} (hk : Keeps s₀ s) :
    Keeps s₀ (State.dataReply s p epoch query payload) := by
  unfold State.dataReply
  repeat' (first
    | (intro s; refine keeps_cut (s₀ := s₀) (s := s) ?_ ?_ <;> [subst s; (intro hs; clear_value s)])
    | (intro x; clear_value x)
    | with_reducible assumption
    | with_reducible first | refine State.reply_keeps (fun x s h => ?_) ?_ | apply State.storeReply_keeps
    | with_reducible first | apply State.xactDone_keeps | apply State.hostQ_keeps
    | split
    | lift_lets)

theorem State.identReply_keeps {s₀ s : State} {p epoch vendor model serial : Nat} (hk : Keeps s₀ s) :
    Keeps s₀ (State.identReply s p epoch vendor model serial) := by
  unfold State.identReply
  repeat' (first
    | (intro s; refine keeps_cut (s₀ := s₀) (s := s) ?_ ?_ <;> [subst s; (intro hs; clear_value s)])
    | (intro x; clear_value x)
    | with_reducible assumption
    | with_reducible first | refine State.reply_keeps (fun x s h => ?_) ?_ | apply State.arrive_keeps
    | with_reducible first | apply State.storeReply_keeps | apply State.xactDone_keeps
    | split
    | lift_lets)

theorem State.trainDone_keeps {s₀ s : State} {p : Nat} (hk : Keeps s₀ s) : Keeps s₀ (State.trainDone s p) := by
  unfold State.trainDone
  repeat' (first
    | with_reducible assumption
    | with_reducible apply State.modLk_keeps
    | split
    | with_reducible refine keeps_mk rfl rfl rfl rfl rfl rfl rfl ?_)

theorem State.quietSent_keeps {s₀ s : State} {p : Nat} {x : LinkXact} (hk : Keeps s₀ s) :
    Keeps s₀ (State.quietSent s p x) := by
  unfold State.quietSent
  repeat' (first
    | with_reducible assumption
    | with_reducible first | refine State.ledgerLink_keeps (fun s h => ?_) ?_ | apply State.linkEnable_keeps
    | with_reducible first | apply State.modLk_keeps
    | split
    | with_reducible refine keeps_mk rfl rfl rfl rfl rfl rfl rfl ?_)

theorem State.frameSent_keeps {s₀ s : State} {p : Nat} (hk : Keeps s₀ s) : Keeps s₀ (s.frameSent p) := by
  unfold State.frameSent
  split
  next x _ =>
    split
    · exact State.modLk_keeps hk
    · extract_lets s1
      have h1 : Keeps s₀ s1 := State.quietSent_keeps (State.xactDone_keeps (State.noCollision_keeps (State.xactEnd_keeps hk)))
      clear_value s1
      split
      · have h := State.trainNext_keeps (p := p) h1
        revert h
        generalize s1.trainNext p = r
        intro h
        obtain ⟨t, y | y⟩ := r
        · exact State.afterXact_keeps (State.trainDone_keeps h)
        · exact State.xactBegin_keeps h
      · exact State.afterXact_keeps h1
  next => exact hk

theorem State.alertSeen_keeps {s₀ s : State} {p : Nat} (hk : Keeps s₀ s) : Keeps s₀ (State.alertSeen s p) := by
  unfold State.alertSeen
  repeat' (first
    | with_reducible assumption
    | with_reducible first | apply State.ev_keeps | apply State.modLk_keeps
    | split
    | with_reducible refine keeps_mk rfl rfl rfl rfl rfl rfl rfl ?_)

theorem State.lineAlert_keeps {s₀ s : State} {p : Nat} (hk : Keeps s₀ s) : Keeps s₀ (State.lineAlert s p) := by
  unfold State.lineAlert
  repeat' (first
    | with_reducible assumption
    | with_reducible first | apply State.alertSeen_keeps | apply State.wakeUp_keeps
    | split)

theorem State.alertSlots_keeps {s₀ s : State} {p : Nat} {lo hi : Word} (hk : Keeps s₀ s) :
    Keeps s₀ (State.alertSlots s p lo hi) := by
  unfold State.alertSlots
  repeat' (first
    | (intro s; refine keeps_cut (s₀ := s₀) (s := s) ?_ ?_ <;> [subst s; (intro hs; clear_value s)])
    | (intro x; clear_value x)
    | with_reducible assumption
    | with_reducible first | apply State.wr_keeps | apply State.incF_keeps | apply State.modLk_keeps
    | with_reducible first | apply State.xactEnd_keeps | apply State.noCollision_keeps | apply State.afterXact_keeps
    | split
    | with_reducible refine keeps_mk rfl rfl rfl rfl rfl rfl rfl ?_
    | lift_lets)

theorem State.sendAgain_keeps {s₀ s : State} {p : Nat} {x : LinkXact} (hk : Keeps s₀ s) :
    Keeps s₀ (State.sendAgain s p x) := by
  unfold State.sendAgain
  repeat' (first
    | with_reducible assumption
    | with_reducible apply State.modLk_keeps
    | split
    | with_reducible refine keeps_mk rfl rfl rfl rfl rfl rfl rfl ?_)

theorem State.collision_keeps {s₀ s : State} {p : Nat} (hk : Keeps s₀ s) : Keeps s₀ (State.collision s p) := by
  unfold State.collision
  repeat' (first
    | (intro s; refine keeps_cut (s₀ := s₀) (s := s) ?_ ?_ <;> [subst s; (intro hs; clear_value s)])
    | (intro x; clear_value x)
    | with_reducible assumption
    | with_reducible first | apply State.incF_keeps | apply State.xactEnd_keeps | apply State.sendAgain_keeps
    | with_reducible first | apply State.modLk_keeps | apply State.alertSeen_keeps | apply State.linkFault_keeps
    | split
    | with_reducible refine keeps_mk rfl rfl rfl rfl rfl rfl rfl ?_
    | lift_lets)

theorem State.stuck_keeps {s₀ s : State} {p : Nat} (hk : Keeps s₀ s) : Keeps s₀ (State.stuck s p) := by
  unfold State.stuck
  repeat' (first
    | with_reducible assumption
    | with_reducible first | apply State.setF_keeps | apply State.linkFault_keeps
    | split)

theorem State.requeue_keeps {s₀ s : State} {p : Nat} {x : LinkXact} (hk : Keeps s₀ s) :
    Keeps s₀ (State.requeue s p x) := by
  unfold State.requeue
  repeat' (first
    | with_reducible assumption
    | with_reducible first | apply State.setDs_keeps | apply State.modLk_keeps | apply State.setPt_keeps
    | with_reducible first | apply State.sendAgain_keeps
    | split
    | with_reducible refine keeps_mk rfl rfl rfl rfl rfl rfl rfl ?_)

theorem State.abandon_keeps {s₀ s : State} {p lowest : Nat} (hk : Keeps s₀ s) :
    Keeps s₀ (State.abandon s p lowest) := by
  unfold State.abandon
  repeat' (first
    | with_reducible assumption
    | with_reducible first | apply State.xactEnd_keeps | apply State.requeue_keeps
    | split
    | with_reducible refine keeps_mk rfl rfl rfl rfl rfl rfl rfl ?_)

theorem State.shedSet_keeps {s₀ s : State} {p m : Nat} {mask : Word} (hk : Keeps s₀ s) :
    Keeps s₀ (State.shedSet s p m mask) := by
  unfold State.shedSet
  repeat' (first
    | (intro s; refine keeps_cut (s₀ := s₀) (s := s) ?_ ?_ <;> [subst s; (intro hs; clear_value s)])
    | (intro x; clear_value x)
    | with_reducible assumption
    | with_reducible first | apply State.orReg_keeps | apply State.abandon_keeps
    | split
    | lift_lets)

theorem State.grantDue_keeps {s₀ s : State} {p a : Nat} (hk : Keeps s₀ s) : Keeps s₀ (State.grantDue s p a) := by
  unfold State.grantDue
  repeat' (first
    | (intro s; refine keeps_cut (s₀ := s₀) (s := s) ?_ ?_ <;> [subst s; (intro hs; clear_value s)])
    | (intro x; clear_value x)
    | with_reducible assumption
    | with_reducible first | apply State.modLk_keeps | apply State.wakeUp_keeps | apply State.setPt_keeps
    | with_reducible first | apply State.incF_keeps
    | split
    | with_reducible refine keeps_mk rfl rfl rfl rfl rfl rfl rfl ?_
    | lift_lets)

theorem State.push_keeps {s₀ s : State} {p a : Nat} {w0 w1 w2 w3 : Word} {bc : Bool} (hk : Keeps s₀ s) :
    Keeps s₀ (State.push s p a w0 w1 w2 w3 bc).1 := by
  unfold State.push
  repeat' (first
    | (intro s; refine keeps_cut (s₀ := s₀) (s := s) ?_ ?_ <;> [subst s; (intro hs; clear_value s)])
    | (intro x; clear_value x)
    | with_reducible assumption
    | with_reducible first | apply State.wr_keeps | apply State.modLk_keeps | apply State.abandon_keeps
    | split
    | with_reducible refine keeps_mk rfl rfl rfl rfl rfl rfl rfl ?_
    | lift_lets)

theorem State.hostPush_keeps {s₀ s : State} {p : Nat} {d : Word} (hk : Keeps s₀ s) :
    Keeps s₀ (State.hostPush s p d) := by
  unfold State.hostPush
  repeat' (first
    | (intro s; refine keeps_cut (s₀ := s₀) (s := s) ?_ ?_ <;> [subst s; (intro hs; clear_value s)])
    | (intro x; clear_value x)
    | with_reducible assumption
    | with_reducible first | apply State.push_keeps | apply State.wr_keeps
    | split
    | with_reducible refine keeps_fst (by assumption) ?_
    | lift_lets)

theorem State.descWrite_keeps {s₀ s : State} {p q d w : Nat} {v : Word} (hk : Keeps s₀ s) :
    Keeps s₀ (State.descWrite s p q d w v) := by
  unfold State.descWrite
  repeat' (first
    | (intro s; refine keeps_cut (s₀ := s₀) (s := s) ?_ ?_ <;> [subst s; (intro hs; clear_value s)])
    | (intro x; clear_value x)
    | with_reducible assumption
    | with_reducible apply State.wr_keeps
    | split
    | with_reducible refine keeps_mk rfl rfl rfl rfl rfl rfl rfl ?_
    | lift_lets)

end Sys2Proof.Machine
end

