-- ==== Sys2Proof/Laws/KeepsLedger.lean ====
section
/-! SUPPORT. `Keeps` for the ledger: one lemma per operation. -/

namespace Sys2Proof.Machine

theorem State.lres_keeps {s₀ s : State} {gp mw : Nat} (hk : Keeps s₀ s) : Keeps s₀ (State.lres s gp mw).1 := by
  unfold State.lres
  repeat' (first
    | (intro s; refine keeps_cut (s₀ := s₀) (s := s) ?_ ?_ <;> [subst s; (intro hs; clear_value s)])
    | (intro x; clear_value x)
    | with_reducible assumption
    | with_reducible first | apply State.setPt_keeps | apply State.setResDue_keeps
    | split
    | with_reducible refine keeps_mk rfl rfl rfl rfl rfl rfl rfl ?_
    | lift_lets)

theorem State.forecast_keeps {s₀ s : State} {n mw : Nat} (hk : Keeps s₀ s) : Keeps s₀ (State.forecast s n mw) := by
  unfold State.forecast
  repeat' (first
    | (intro s; refine keeps_cut (s₀ := s₀) (s := s) ?_ ?_ <;> [subst s; (intro hs; clear_value s)])
    | (intro x; clear_value x)
    | with_reducible assumption
    | with_reducible first | apply State.setF_keeps | apply State.setLoop_keeps | apply State.forecastIn_keeps
    | with_reducible refine keeps_mk rfl rfl rfl rfl rfl rfl rfl ?_
    | lift_lets)

theorem State.lcom_keeps {s₀ s : State} {gp b : Nat} (hk : Keeps s₀ s) : Keeps s₀ (State.lcom s gp b).1 := by
  unfold State.lcom
  repeat' (first
    | (intro s; refine keeps_cut (s₀ := s₀) (s := s) ?_ ?_ <;> [subst s; (intro hs; clear_value s)])
    | (intro x; clear_value x)
    | with_reducible assumption
    | with_reducible first | apply State.setPt_keeps | apply State.setResDue_keeps | apply State.forecast_keeps
    | split
    | lift_lets)

theorem State.lrel_keeps {s₀ s : State} {gp : Nat} (hk : Keeps s₀ s) : Keeps s₀ (State.lrel s gp).1 := by
  unfold State.lrel
  repeat' (first
    | (intro s; refine keeps_cut (s₀ := s₀) (s := s) ?_ ?_ <;> [subst s; (intro hs; clear_value s)])
    | (intro x; clear_value x)
    | with_reducible assumption
    | with_reducible apply State.releaseRecord_keeps
    | split
    | with_reducible refine keeps_fst (by assumption) ?_
    | lift_lets)

theorem State.shedPoint_keeps {s₀ s : State} {gp : Nat} (hk : Keeps s₀ s) : Keeps s₀ (State.shedPoint s gp) := by
  unfold State.shedPoint
  repeat' (first
    | (intro s; refine keeps_cut (s₀ := s₀) (s := s) ?_ ?_ <;> [subst s; (intro hs; clear_value s)])
    | (intro x; clear_value x)
    | with_reducible assumption
    | with_reducible first | apply State.setPt_keeps | apply State.shedSet_keeps
    | lift_lets)

theorem shedUntil_keeps {s₀ : State} {need : Int} {gps : List Nat} {s : State} {freed n : Nat} (hk : Keeps s₀ s) :
    Keeps s₀ (shedUntil need gps s freed n).1 := by
  induction gps generalizing s freed n with
  | nil => exact hk
  | cons g gps ih =>
    unfold shedUntil
    split
    · exact hk
    · exact ih (State.shedPoint_keeps hk)

theorem State.lshed_keeps {s₀ s : State} {need : Int} {prio : Nat} (hk : Keeps s₀ s) : Keeps s₀ (s.lshed need prio).1 := by
  have h := shedUntil_keeps (need := need) (gps := s.shedOrder prio) (freed := 0) (n := 0) hk
  unfold State.lshed
  revert h
  generalize shedUntil need (s.shedOrder prio) s 0 0 = r
  intro h
  obtain ⟨t, freed, n⟩ := r
  exact keeps_ite h (State.raise_keeps (State.ev_keeps (State.incF_keeps (State.setF_keeps (State.setF_keeps h)))))

theorem State.ledgerRun_keeps {s₀ s : State} {op : LedgerOp} (hk : Keeps s₀ s) :
    Keeps s₀ (State.ledgerRun s op).1 := by
  unfold State.ledgerRun
  repeat' (first
    | (intro s; refine keeps_cut (s₀ := s₀) (s := s) ?_ ?_ <;> [subst s; (intro hs; clear_value s)])
    | (intro x; clear_value x)
    | with_reducible assumption
    | with_reducible first | apply State.lres_keeps | apply State.lcom_keeps | apply State.lrel_keeps
    | with_reducible first | apply State.lshed_keeps | apply State.arrive_keeps | apply State.ledgerArrive_keeps
    | with_reducible first | apply State.ledgerRemove_keeps | apply State.linkEnable_keeps
    | with_reducible first | apply State.ledgerJudge_keeps
    | split
    | with_reducible refine keeps_mk rfl rfl rfl rfl rfl rfl rfl ?_
    | with_reducible refine keeps_fst (by assumption) ?_
    | lift_lets)

theorem State.setLedgerBusy_keeps {s₀ s : State} {b : Option LedgerBy} (hk : Keeps s₀ s) :
    Keeps s₀ (State.setLedgerBusy s b) := by
  unfold State.setLedgerBusy
  repeat' (first
    | with_reducible assumption
    | with_reducible apply State.setFb_keeps
    | with_reducible refine keeps_mk rfl rfl rfl rfl rfl rfl rfl ?_)

theorem State.ledgerTake_keeps {s₀ s : State} {who : LedgerBy} {op : LedgerOp} (hk : Keeps s₀ s) : Keeps s₀ (s.ledgerTake who op) := by
  have h := State.ledgerRun_keeps (op := op) hk
  unfold State.ledgerTake
  revert h
  generalize s.ledgerRun op = r
  intro h
  obtain ⟨t, r⟩ := r
  cases who with
  | row t => exact State.setBusy_keeps (State.setLedgerBusy_keeps h)
  | host => exact State.setF_keeps (State.setF_keeps (State.setFb_keeps (State.wr_keeps (State.wr_keeps h))))
  | link => exact h

theorem State.ledgerIssue_keeps {s₀ s : State} {who : LedgerBy} {op : LedgerOp} (hk : Keeps s₀ s) :
    Keeps s₀ (State.ledgerIssue s who op) := by
  unfold State.ledgerIssue
  repeat' (first
    | (intro s; refine keeps_cut (s₀ := s₀) (s := s) ?_ ?_ <;> [subst s; (intro hs; clear_value s)])
    | (intro x; clear_value x)
    | with_reducible assumption
    | with_reducible first | apply State.ledgerTake_keeps | apply State.setBusy_keeps
    | split
    | with_reducible refine keeps_mk rfl rfl rfl rfl rfl rfl rfl ?_
    | lift_lets)

theorem State.ledgerDequeue_keeps {s₀ s : State} (hk : Keeps s₀ s) : Keeps s₀ (State.ledgerDequeue s) := by
  unfold State.ledgerDequeue
  repeat' (first
    | with_reducible assumption
    | with_reducible apply State.ledgerTake_keeps
    | split
    | with_reducible refine keeps_mk rfl rfl rfl rfl rfl rfl rfl ?_)

theorem State.ledgerLeave_keeps {s₀ s : State} {t : Nat} (hk : Keeps s₀ s) : Keeps s₀ (State.ledgerLeave s t) := by
  unfold State.ledgerLeave
  repeat' (first
    | with_reducible assumption
    | with_reducible apply State.setLedgerBusy_keeps
    | split
    | with_reducible refine keeps_mk rfl rfl rfl rfl rfl rfl rfl ?_)

theorem State.hostOp_keeps {s₀ s : State} {op gp b : Nat} (hk : Keeps s₀ s) : Keeps s₀ (State.hostOp s op gp b) := by
  unfold State.hostOp
  repeat' (first
    | with_reducible assumption
    | with_reducible first | apply State.setF_keeps | apply State.ledgerIssue_keeps
    | split
    | with_reducible refine keeps_mk rfl rfl rfl rfl rfl rfl rfl ?_)

theorem State.reservationTimeout_keeps {s₀ s : State} {gp : Nat} (hk : Keeps s₀ s) :
    Keeps s₀ (State.reservationTimeout s gp) := by
  unfold State.reservationTimeout
  repeat' (first
    | (intro s; refine keeps_cut (s₀ := s₀) (s := s) ?_ ?_ <;> [subst s; (intro hs; clear_value s)])
    | (intro x; clear_value x)
    | with_reducible assumption
    | with_reducible first | apply State.releaseRecord_keeps | apply State.ev_keeps | apply State.almanacBlock_keeps
    | split
    | with_reducible refine keeps_mk rfl rfl rfl rfl rfl rfl rfl ?_
    | with_reducible refine keeps_fst (by assumption) ?_
    | lift_lets)

theorem State.forecastHoldEnd_keeps {s₀ s : State} {n : Nat} (hk : Keeps s₀ s) :
    Keeps s₀ (State.forecastHoldEnd s n) := by
  unfold State.forecastHoldEnd
  repeat' (first
    | with_reducible assumption
    | with_reducible first | apply State.setF_keeps | apply State.ev_keeps | apply State.forecastOut_keeps
    | split)

theorem rowLres_keeps {s₀ s : State} {t : Fin 16} (hk : Keeps s₀ s) : Keeps s₀ (rowLres s t) := by
  unfold rowLres
  repeat' (first
    | with_reducible assumption
    | with_reducible first | refine State.issue_keeps (fun r s h => ?_) ?_ | apply State.outOfRange_keeps
    | with_reducible first | apply State.ledgerIssue_keeps | apply State.lres_keeps
    | split
    | with_reducible refine keeps_mk rfl rfl rfl rfl rfl rfl rfl ?_)

theorem rowLcom_keeps {s₀ s : State} {t : Fin 16} (hk : Keeps s₀ s) : Keeps s₀ (rowLcom s t) := by
  unfold rowLcom
  repeat' (first
    | with_reducible assumption
    | with_reducible first | refine State.issue_keeps (fun r s h => ?_) ?_ | apply State.ledgerIssue_keeps
    | with_reducible first | apply State.lcom_keeps | apply State.outOfRange_keeps
    | split
    | with_reducible refine keeps_mk rfl rfl rfl rfl rfl rfl rfl ?_)

theorem rowLrel_keeps {s₀ s : State} {t : Fin 16} (hk : Keeps s₀ s) : Keeps s₀ (rowLrel s t) := by
  unfold rowLrel
  repeat' (first
    | with_reducible assumption
    | with_reducible first | refine State.issue_keeps (fun r s h => ?_) ?_ | apply State.outOfRange_keeps
    | with_reducible first | apply State.ledgerIssue_keeps | apply State.lrel_keeps
    | split
    | with_reducible refine keeps_mk rfl rfl rfl rfl rfl rfl rfl ?_)

theorem rowLshed_keeps {s₀ s : State} {t : Fin 16} (hk : Keeps s₀ s) : Keeps s₀ (rowLshed s t) := by
  unfold rowLshed
  repeat' (first
    | with_reducible assumption
    | with_reducible first | refine State.issue_keeps (fun r s h => ?_) ?_ | apply State.outOfRange_keeps
    | with_reducible first | apply State.ledgerIssue_keeps | apply State.lshed_keeps
    | split
    | with_reducible refine keeps_mk rfl rfl rfl rfl rfl rfl rfl ?_)

theorem State.ledgerBlockReset_keeps {s₀ s : State} (hk : Keeps s₀ s) : Keeps s₀ (State.ledgerBlockReset s) := by
  unfold State.ledgerBlockReset
  repeat' (first
    | (intro s; refine keeps_cut (s₀ := s₀) (s := s) ?_ ?_ <;> [subst s; (intro hs; clear_value s)])
    | (intro x; clear_value x)
    | with_reducible assumption
    | with_reducible first | apply State.setF_keeps | apply State.forecastOut_keeps | apply State.setResDue_keeps
    | with_reducible refine keeps_foldl (fun s a h => ?_) ?_
    | split
    | lift_lets)

end Sys2Proof.Machine
end

