-- ==== Sys2Proof/Laws/KeepsBus.lean ====
section
/-! SUPPORT. `Keeps` for register writes: one lemma per operation. -/

namespace Sys2Proof.Machine

theorem State.wdRestart_keeps {s₀ s : State} {p : Proc} {period : Nat} (hk : Keeps s₀ s) :
    Keeps s₀ (State.wdRestart s p period) := by
  unfold State.wdRestart
  repeat' (first
    | with_reducible assumption
    | with_reducible apply State.setPort_keeps
    | with_reducible refine keeps_mk rfl rfl rfl rfl rfl rfl rfl ?_)

theorem State.wdExpire_keeps {s₀ s : State} {p : Proc} (hk : Keeps s₀ s) : Keeps s₀ (State.wdExpire s p) := by
  unfold State.wdExpire
  repeat' (first
    | (intro s; refine keeps_cut (s₀ := s₀) (s := s) ?_ ?_ <;> [subst s; (intro hs; clear_value s)])
    | (intro x; clear_value x)
    | with_reducible assumption
    | with_reducible first | apply State.setF_keeps | apply State.incF_keeps | apply State.raise_keeps
    | with_reducible first | apply State.wdRestart_keeps
    | lift_lets)

theorem State.wdCtrl_keeps {s₀ s : State} {p : Proc} {v : Word} (hk : Keeps s₀ s) :
    Keeps s₀ (State.wdCtrl s p v) := by
  unfold State.wdCtrl
  repeat' (first
    | (intro s; refine keeps_cut (s₀ := s₀) (s := s) ?_ ?_ <;> [subst s; (intro hs; clear_value s)])
    | (intro x; clear_value x)
    | with_reducible assumption
    | with_reducible first | apply State.wr_keeps | apply State.wdRestart_keeps
    | split
    | lift_lets)

theorem State.wdKick_keeps {s₀ s : State} {p : Proc} {d : Word} (hk : Keeps s₀ s) :
    Keeps s₀ (State.wdKick s p d) := by
  unfold State.wdKick
  repeat' (first
    | with_reducible assumption
    | with_reducible first | apply State.wdRestart_keeps | apply State.wdExpire_keeps
    | split)

theorem State.mboxOut_keeps {s₀ s : State} {p : Proc} {d : Word} (hk : Keeps s₀ s) :
    Keeps s₀ (State.mboxOut s p d) := by
  unfold State.mboxOut
  repeat' (first
    | (intro s; refine keeps_cut (s₀ := s₀) (s := s) ?_ ?_ <;> [subst s; (intro hs; clear_value s)])
    | (intro x; clear_value x)
    | with_reducible assumption
    | with_reducible first | apply State.setF_keeps | apply State.wr_keeps | apply State.pulse_keeps
    | split
    | lift_lets)

theorem State.mboxIn_keeps {s₀ s : State} {p : Proc} (hk : Keeps s₀ s) : Keeps s₀ (State.mboxIn s p) := by
  unfold State.mboxIn
  repeat' (first
    | with_reducible assumption
    | with_reducible first | apply State.wr_keeps | apply State.setF_keeps)

theorem State.timeCap_keeps {s₀ s : State} {w : Writer} (hk : Keeps s₀ s) : Keeps s₀ (State.timeCap s w) := by
  unfold State.timeCap
  repeat' (first
    | with_reducible assumption
    | with_reducible apply State.setPort_keeps
    | split
    | with_reducible refine keeps_mk rfl rfl rfl rfl rfl rfl rfl ?_)

theorem State.rocClear_keeps {s₀ s : State} {w : Writer} {a : Nat} (hk : Keeps s₀ s) :
    Keeps s₀ (State.rocClear s w a) := by
  unfold State.rocClear
  repeat' (first
    | with_reducible assumption
    | with_reducible first | apply State.mboxIn_keeps | apply State.clrReg_keeps
    | split
    | with_reducible refine keeps_mk rfl rfl rfl rfl rfl rfl rfl ?_)

theorem State.scWrite_keeps {s₀ s : State} {k : Nat} {new : Word} (hk : Keeps s₀ s) :
    Keeps s₀ (State.scWrite s k new) := by
  unfold State.scWrite
  repeat' (first
    | (intro s; refine keeps_cut (s₀ := s₀) (s := s) ?_ ?_ <;> [subst s; (intro hs; clear_value s)])
    | (intro x; clear_value x)
    | with_reducible assumption
    | with_reducible first | apply State.enWrite_keeps | apply State.pendWrite_keeps | apply State.nmiWrite_keeps
    | with_reducible first | apply State.wr_keeps | apply State.shedSet_keeps | apply State.ev_keeps
    | split
    | lift_lets)

theorem State.releaseSems_keeps {s₀ s : State} {mask : Word} (hk : Keeps s₀ s) :
    Keeps s₀ (State.releaseSems s mask) := by
  unfold State.releaseSems
  repeat' (first
    | with_reducible assumption
    | with_reducible apply State.freeSem_keeps
    | with_reducible refine keeps_foldl (fun s a h => ?_) ?_)

theorem State.writeRails_keeps {s₀ s : State} {k off : Nat} {d new : Word} (hk : Keeps s₀ s) :
    Keeps s₀ (State.writeRails s k off d new) := by
  unfold State.writeRails
  repeat' (first
    | (intro s; refine keeps_cut (s₀ := s₀) (s := s) ?_ ?_ <;> [subst s; (intro hs; clear_value s)])
    | (intro x; clear_value x)
    | with_reducible assumption
    | with_reducible first | apply State.wr_keeps | apply State.scanBegin_keeps | apply State.clrReg_keeps
    | with_reducible first | apply State.railCfgWrite_keeps
    | split
    | with_reducible refine keeps_mk rfl rfl rfl rfl rfl rfl rfl ?_
    | lift_lets)

theorem State.writeSeq_keeps {s₀ s : State} {k off : Nat} {d new : Word} (hk : Keeps s₀ s) :
    Keeps s₀ (State.writeSeq s k off d new) := by
  unfold State.writeSeq
  repeat' (first
    | with_reducible assumption
    | with_reducible first | apply State.ffArm_keeps | apply State.seqReq_keeps | apply State.seqDown_keeps
    | with_reducible first | apply State.depWrite_keeps | apply State.wr_keeps
    | split)

theorem State.writeHealth_keeps {s₀ s : State} {k off : Nat} {v d new : Word} (hk : Keeps s₀ s) :
    Keeps s₀ (State.writeHealth s k off v d new) := by
  unfold State.writeHealth
  repeat' (first
    | (intro s; refine keeps_cut (s₀ := s₀) (s := s) ?_ ?_ <;> [subst s; (intro hs; clear_value s)])
    | (intro x; clear_value x)
    | with_reducible assumption
    | with_reducible first | apply State.wr_keeps | apply State.rebase_keeps | apply State.probeWrite_keeps
    | with_reducible first | apply State.healthApply_keeps
    | split
    | lift_lets)

theorem State.writePath_keeps {s₀ s : State} {w : Writer} {k off : Nat} {d new : Word} (hk : Keeps s₀ s) :
    Keeps s₀ (State.writePath s w k off d new) := by
  unfold State.writePath
  repeat' (first
    | with_reducible assumption
    | with_reducible first | apply State.pathCtrlWrite_keeps | apply State.wr_keeps | apply State.qualJudge_keeps
    | split)

theorem State.writeGauge_keeps {s₀ s : State} {k off : Nat} {v d new : Word} (hk : Keeps s₀ s) :
    Keeps s₀ (State.writeGauge s k off v d new) := by
  unfold State.writeGauge
  repeat' (first
    | with_reducible assumption
    | with_reducible first | apply State.gaugeCtrl_keeps | apply State.designWrite_keeps
    | with_reducible first | apply State.proveWrite_keeps | apply State.rmWrite_keeps | apply State.fccWrite_keeps
    | with_reducible first | apply State.wr_keeps
    | split)

theorem State.writeFault_keeps {s₀ s : State} {w : Writer} {k off : Nat} {v d new : Word} (hk : Keeps s₀ s) :
    Keeps s₀ (State.writeFault s w k off v d new) := by
  unfold State.writeFault
  repeat' (first
    | with_reducible assumption
    | with_reducible first | apply State.historyClear_keeps | apply State.extinWrite_keeps
    | with_reducible first | apply State.clearWrite_keeps | apply State.reactWrite_keeps | apply State.wr_keeps
    | split)

theorem State.writeIntc_keeps {s₀ s : State} {k off : Nat} {v new : Word} (hk : Keeps s₀ s) :
    Keeps s₀ (State.writeIntc s k off v new) := by
  unfold State.writeIntc
  repeat' (first
    | with_reducible assumption
    | with_reducible first | apply State.cfgWrite_keeps | apply State.wr_keeps
    | split)

theorem State.writeOtp_keeps {s₀ s : State} {w : Writer} {k off : Nat} {d new : Word} (hk : Keeps s₀ s) :
    Keeps s₀ (State.writeOtp s w k off d new) := by
  unfold State.writeOtp
  repeat' (first
    | with_reducible assumption
    | with_reducible first | apply State.overrideClear_keeps | apply State.otpCmd_keeps
    | with_reducible first | apply State.stickyLock_keeps | apply State.wr_keeps
    | split)

theorem State.writeTimer_keeps {s₀ s : State} {w : Writer} {k off : Nat} {d new : Word} (hk : Keeps s₀ s) :
    Keeps s₀ (State.writeTimer s w k off d new) := by
  unfold State.writeTimer
  repeat' (first
    | (intro s; refine keeps_cut (s₀ := s₀) (s := s) ?_ ?_ <;> [subst s; (intro hs; clear_value s)])
    | (intro x; clear_value x)
    | with_reducible assumption
    | with_reducible first | apply State.wr_keeps | apply State.tioWrite_keeps | apply State.timerCmd_keeps
    | split
    | with_reducible refine keeps_mk rfl rfl rfl rfl rfl rfl rfl ?_
    | lift_lets)

theorem State.writeCrc_keeps {s₀ s : State} {w : Writer} {k off : Nat} {d new : Word} (hk : Keeps s₀ s) :
    Keeps s₀ (State.writeCrc s w k off d new) := by
  unfold State.writeCrc
  repeat' (first
    | with_reducible assumption
    | with_reducible first | apply State.crcCtrl_keeps | apply State.crcDin_keeps | apply State.crcOwner_keeps
    | with_reducible first | apply State.wr_keeps
    | split
    | with_reducible refine keeps_mk rfl rfl rfl rfl rfl rfl rfl ?_)

theorem State.writeLink_keeps {s₀ s : State} {p k off : Nat} {v new : Word} (hk : Keeps s₀ s) :
    Keeps s₀ (State.writeLink s p k off v new) := by
  unfold State.writeLink
  repeat' (first
    | with_reducible assumption
    | with_reducible first | apply State.linkCtrlWrite_keeps | apply State.hostPush_keeps | apply State.wr_keeps
    | split
    | with_reducible refine keeps_mk rfl rfl rfl rfl rfl rfl rfl ?_)

theorem State.writeLedger_keeps {s₀ s : State} {k off : Nat} {d new : Word} (hk : Keeps s₀ s) :
    Keeps s₀ (State.writeLedger s k off d new) := by
  unfold State.writeLedger
  repeat' (first
    | with_reducible assumption
    | with_reducible first | apply State.wr_keeps | apply State.hostOp_keeps
    | with_reducible refine keeps_foldl (fun s a h => ?_) ?_
    | split
    | with_reducible refine keeps_mk rfl rfl rfl rfl rfl rfl rfl ?_)

theorem State.writeSys_keeps {s₀ s : State} {w : Writer} {k off : Nat} {d new : Word} (hk : Keeps s₀ s) :
    Keeps s₀ (State.writeSys s w k off d new) := by
  unfold State.writeSys
  repeat' (first
    | with_reducible assumption
    | with_reducible first | apply State.orReg_keeps | apply State.wr_keeps | apply State.timeCap_keeps
    | split
    | with_reducible refine keeps_mk rfl rfl rfl rfl rfl rfl rfl ?_)

theorem State.writeHostif_keeps {s₀ s : State} {p : Proc} {k off : Nat} {v d new : Word} (hk : Keeps s₀ s) :
    Keeps s₀ (State.writeHostif s p k off v d new) := by
  unfold State.writeHostif
  repeat' (first
    | with_reducible assumption
    | with_reducible first | apply State.wdCtrl_keeps | apply State.wdKick_keeps | apply State.mboxOut_keeps
    | with_reducible first | apply State.wr_keeps
    | split
    | with_reducible refine keeps_mk rfl rfl rfl rfl rfl rfl rfl ?_)

theorem State.writePlan_keeps {s₀ s : State} {k off : Nat} {d new : Word} (hk : Keeps s₀ s) :
    Keeps s₀ (State.writePlan s k off d new) := by
  unfold State.writePlan
  repeat' (first
    | with_reducible assumption
    | with_reducible first | apply State.orReg_keeps | apply thcmdWrite_keeps | apply State.loadWrite_keeps
    | with_reducible first | apply thwWrite_keeps | apply State.wr_keeps
    | split)

theorem State.writeRecord_keeps {s₀ s : State} {k off : Nat} {d new : Word} (hk : Keeps s₀ s) :
    Keeps s₀ (State.writeRecord s k off d new) := by
  unfold State.writeRecord
  repeat' (first
    | with_reducible assumption
    | with_reducible first | apply State.recordCmd_keeps | apply State.wr_keeps
    | split)

theorem State.writeFlash_keeps {s₀ s : State} {w : Writer} {k off : Nat} {v new : Word} (hk : Keeps s₀ s) :
    Keeps s₀ (State.writeFlash s w k off v new) := by
  unfold State.writeFlash
  repeat' (first
    | with_reducible assumption
    | with_reducible first | apply State.flashCtrlWrite_keeps | apply State.hostFlash_keeps | apply State.wr_keeps
    | split
    | with_reducible refine keeps_mk rfl rfl rfl rfl rfl rfl rfl ?_)

theorem State.writeTherm_keeps {s₀ s : State} {k off : Nat} {d new : Word} (hk : Keeps s₀ s) :
    Keeps s₀ (State.writeTherm s k off d new) := by
  unfold State.writeTherm
  repeat' (first
    | with_reducible assumption
    | with_reducible first | apply State.thaw_keeps | apply State.wr_keeps | apply State.tdCfgWrite_keeps
    | split
    | with_reducible refine keeps_mk rfl rfl rfl rfl rfl rfl rfl ?_)

theorem State.baseWrite_keeps {s₀ s : State} {w : Writer} {k : Nat} {v d new : Word} (hk : Keeps s₀ s) :
    Keeps s₀ (State.baseWrite s w k v d new) := by
  unfold State.baseWrite
  repeat' (first
    | (intro s; refine keeps_cut (s₀ := s₀) (s := s) ?_ ?_ <;> [subst s; (intro hs; clear_value s)])
    | (intro x; clear_value x)
    | with_reducible assumption
    | with_reducible first | apply State.writeSys_keeps | apply State.writeHostif_keeps
    | with_reducible first | apply State.writePlan_keeps | apply State.writeLedger_keeps
    | with_reducible first | apply State.bankWrite_keeps | apply State.convCtrlWrite_keeps | apply State.wr_keeps
    | with_reducible first | apply State.writeLoop_keeps | apply State.phaseAssign_keeps
    | with_reducible first | apply State.writeHealth_keeps | apply State.writeRails_keeps
    | with_reducible first | apply State.writeSeq_keeps | apply State.writePath_keeps | apply State.writeGauge_keeps
    | with_reducible first | apply State.writeTherm_keeps | apply State.writeFault_keeps
    | with_reducible first | apply State.writeIntc_keeps | apply State.writeRecord_keeps
    | with_reducible first | apply State.writeFlash_keeps | apply State.writeOtp_keeps
    | with_reducible first | apply State.writeTimer_keeps | apply State.writeCrc_keeps | apply State.writeLink_keeps
    | split
    | with_reducible refine keeps_mk rfl rfl rfl rfl rfl rfl rfl ?_
    | lift_lets)

theorem State.pointWrite_keeps {s₀ s : State} {a : Nat} {d : Word} (hk : Keeps s₀ s) :
    Keeps s₀ (State.pointWrite s a d) := by
  unfold State.pointWrite
  repeat' (first
    | (intro s; refine keeps_cut (s₀ := s₀) (s := s) ?_ ?_ <;> [subst s; (intro hs; clear_value s)])
    | (intro x; clear_value x)
    | with_reducible assumption
    | with_reducible apply State.wr_keeps
    | split
    | lift_lets)

theorem State.planLower_keeps {s₀ s : State} {p : Proc} {r : Nat} {d : Word} (hk : Keeps s₀ s) :
    Keeps s₀ (State.planLower s p r d) := by
  unfold State.planLower
  repeat' (first
    | with_reducible assumption
    | with_reducible first | apply State.setPort_keeps | apply State.setF_keeps
    | with_reducible refine keeps_mk rfl rfl rfl rfl rfl rfl rfl ?_)

theorem State.planUpper_keeps {s₀ s : State} {p : Proc} {r : Nat} {d : Word} (hk : Keeps s₀ s) :
    Keeps s₀ (State.planUpper s p r d) := by
  unfold State.planUpper
  repeat' (first
    | (intro s; refine keeps_cut (s₀ := s₀) (s := s) ?_ ?_ <;> [subst s; (intro hs; clear_value s)])
    | (intro x; clear_value x)
    | with_reducible assumption
    | with_reducible first | apply State.setPort_keeps | apply State.setRow_keeps | apply State.setF_keeps
    | split
    | with_reducible refine keeps_mk rfl rfl rfl rfl rfl rfl rfl ?_
    | lift_lets)

theorem State.planWrite_keeps {s₀ s : State} {w : Writer} {a : Nat} {d : Word} (hk : Keeps s₀ s) :
    Keeps s₀ (State.planWrite s w a d) := by
  unfold State.planWrite
  repeat' (first
    | (intro s; refine keeps_cut (s₀ := s₀) (s := s) ?_ ?_ <;> [subst s; (intro hs; clear_value s)])
    | (intro x; clear_value x)
    | with_reducible assumption
    | with_reducible first | apply State.planLower_keeps | apply State.planUpper_keeps
    | split
    | with_reducible refine keeps_mk rfl rfl rfl rfl rfl rfl rfl ?_
    | lift_lets)

theorem State.queueWrite_keeps {s₀ s : State} {a : Nat} {d : Word} (hk : Keeps s₀ s) :
    Keeps s₀ (State.queueWrite s a d) := by
  unfold State.queueWrite
  repeat' (first
    | (intro s; refine keeps_cut (s₀ := s₀) (s := s) ?_ ?_ <;> [subst s; (intro hs; clear_value s)])
    | (intro x; clear_value x)
    | with_reducible assumption
    | with_reducible apply State.descWrite_keeps
    | lift_lets)

theorem State.busWrite_keeps {s₀ s : State} {w : Writer} {a : Nat} {d : Word} (hk : Keeps s₀ s) :
    Keeps s₀ (State.busWrite s w a d) := by
  unfold State.busWrite
  repeat' (first
    | (intro s; refine keeps_cut (s₀ := s₀) (s := s) ?_ ?_ <;> [subst s; (intro hs; clear_value s)])
    | (intro x; clear_value x)
    | with_reducible assumption
    | with_reducible first | apply State.scWrite_keeps | apply State.baseWrite_keeps | apply State.releaseSems_keeps
    | with_reducible first | apply State.planWrite_keeps | apply State.pointWrite_keeps
    | with_reducible first | apply State.shadowWrite_keeps | apply State.queueWrite_keeps
    | with_reducible first | apply State.logbook_keeps
    | split
    | with_reducible refine keeps_mk rfl rfl rfl rfl rfl rfl rfl ?_
    | lift_lets)

end Sys2Proof.Machine
end

