-- ==== Sys2Proof/Laws/KeepsPower.lean ====
section
/-! SUPPORT. `Keeps` for the power controller: one lemma per operation. -/

namespace Sys2Proof.Machine

theorem State.idleTick_keeps {s₀ s : State} (hk : Keeps s₀ s) : Keeps s₀ (State.idleTick s) := by
  unfold State.idleTick
  repeat' (first
    | with_reducible assumption
    | with_reducible refine State.setPower_keeps rfl ?_
    | split
    | with_reducible refine keeps_mk rfl rfl rfl rfl rfl rfl rfl ?_)

theorem State.fallowEntry_keeps {s₀ s : State} (hk : Keeps s₀ s) : Keeps s₀ (State.fallowEntry s) := by
  unfold State.fallowEntry
  repeat' (first
    | with_reducible assumption
    | with_reducible refine State.setPower_keeps rfl ?_
    | split
    | with_reducible refine keeps_mk rfl rfl rfl rfl rfl rfl rfl ?_)

theorem State.clockLost_keeps {s₀ s : State} {b : Nat} (hk : Keeps s₀ s) : Keeps s₀ (State.clockLost s b) := by
  unfold State.clockLost
  repeat' (first
    | (intro s; refine keeps_cut (s₀ := s₀) (s := s) ?_ ?_ <;> [subst s; (intro hs; clear_value s)])
    | (intro x; clear_value x)
    | with_reducible assumption
    | with_reducible first | apply State.orReg_keeps | apply State.ev_keeps | apply State.raise_keeps
    | split
    | lift_lets)

theorem State.wakeTakeIn_keeps {s₀ s : State} (hk : Keeps s₀ s) : Keeps s₀ (State.wakeTakeIn s) := by
  unfold State.wakeTakeIn
  repeat' (first
    | with_reducible assumption
    | with_reducible first | apply State.almanacCatchUp_keeps | apply State.intcWake_keeps)

theorem State.wakeStable_keeps {s₀ s : State} (hk : Keeps s₀ s) : Keeps s₀ (State.wakeStable s) := by
  unfold State.wakeStable
  repeat' (first
    | with_reducible assumption
    | with_reducible first | refine State.setPower_keeps rfl ?_ | apply State.wakeTakeIn_keeps
    | split
    | with_reducible refine keeps_mk rfl rfl rfl rfl rfl rfl rfl ?_)

theorem State.engLock_keeps {s₀ s : State} (hk : Keeps s₀ s) : Keeps s₀ (State.engLock s) := by
  unfold State.engLock
  repeat' (first
    | with_reducible assumption
    | with_reducible refine State.setPower_keeps rfl ?_
    | split
    | with_reducible refine keeps_mk rfl rfl rfl rfl rfl rfl rfl ?_)

theorem State.pllTimeout_keeps {s₀ s : State} (hk : Keeps s₀ s) : Keeps s₀ (State.pllTimeout s) := by
  unfold State.pllTimeout
  repeat' (first
    | with_reducible assumption
    | with_reducible first | refine State.setPower_keeps rfl ?_ | apply State.clockLost_keeps
    | split
    | with_reducible refine keeps_mk rfl rfl rfl rfl rfl rfl rfl ?_)

theorem State.pllRetry_keeps {s₀ s : State} (hk : Keeps s₀ s) : Keeps s₀ (State.pllRetry s) := by
  unfold State.pllRetry
  repeat' (first
    | with_reducible assumption
    | with_reducible refine State.setPower_keeps rfl ?_
    | split
    | with_reducible refine keeps_mk rfl rfl rfl rfl rfl rfl rfl ?_)

theorem State.xtalLost_keeps {s₀ s : State} (hk : Keeps s₀ s) : Keeps s₀ (State.xtalLost s) := by
  unfold State.xtalLost
  repeat' (first
    | with_reducible assumption
    | with_reducible first | apply State.setF_keeps | apply State.clockLost_keeps
    | split)

theorem State.xtalReturn_keeps {s₀ s : State} (hk : Keeps s₀ s) : Keeps s₀ (State.xtalReturn s) := by
  unfold State.xtalReturn
  repeat' first | with_reducible assumption | with_reducible apply State.setF_keeps | split

theorem State.pwmLost_keeps {s₀ s : State} (hk : Keeps s₀ s) : Keeps s₀ (State.pwmLost s) := by
  unfold State.pwmLost
  repeat' (first
    | with_reducible assumption
    | with_reducible first | apply State.clockLost_keeps | apply State.loopsPwmLost_keeps)

theorem State.gaugeLost_keeps {s₀ s : State} (hk : Keeps s₀ s) : Keeps s₀ (State.gaugeLost s) := by
  unfold State.gaugeLost
  repeat' (first
    | with_reducible assumption
    | with_reducible first | refine State.setPower_keeps rfl ?_ | apply State.clockLost_keeps
    | with_reducible first | apply State.gaugeOscLost_keeps
    | split
    | with_reducible refine keeps_mk rfl rfl rfl rfl rfl rfl rfl ?_)

theorem State.wakeFailed_keeps {s₀ s : State} (hk : Keeps s₀ s) : Keeps s₀ (State.wakeFailed s) := by
  unfold State.wakeFailed
  repeat' (first
    | (intro s; refine keeps_cut (s₀ := s₀) (s := s) ?_ ?_ <;> [subst s; (intro hs; clear_value s)])
    | (intro x; clear_value x)
    | with_reducible assumption
    | with_reducible first | apply State.clockLost_keeps | refine State.setPower_keeps rfl ?_
    | split
    | with_reducible refine keeps_mk rfl rfl rfl rfl rfl rfl rfl ?_
    | lift_lets)

theorem State.wakeRetry_keeps {s₀ s : State} (hk : Keeps s₀ s) : Keeps s₀ (State.wakeRetry s) := by
  unfold State.wakeRetry
  repeat' (first
    | with_reducible assumption
    | with_reducible first | refine State.setPower_keeps rfl ?_ | apply State.wakeUp_keeps
    | split
    | with_reducible refine keeps_mk rfl rfl rfl rfl rfl rfl rfl ?_)

end Sys2Proof.Machine
end

