-- ==== Sys2Proof/Laws/KeepsEngineBus.lean ====
section
/-! SUPPORT. `Keeps` for the rows that write registers: one lemma per operation. -/

namespace Sys2Proof.Machine

theorem State.eccFetch_keeps {s₀ s : State} {a t : Nat} {ecc : Ecc} (hk : Keeps s₀ s) :
    Keeps s₀ (State.eccFetch s a t ecc).1 := by
  unfold State.eccFetch
  repeat' (first
    | with_reducible assumption
    | with_reducible first | apply State.nextFree_keeps | apply State.raise_keeps | apply State.incF_keeps
    | split
    | with_reducible refine keeps_mk rfl rfl rfl rfl rfl rfl rfl ?_)

theorem fetchWords_keeps {s₀ : State} {w : Writer} {t : Nat} {es : List Ecc} {l : List Nat} {s : State} (hk : Keeps s₀ s) :
    Keeps s₀ (fetchWords w t es l s).1 := by
  induction l generalizing es s with
  | nil => exact hk
  | cons a l ih => exact ih (State.eccFetch_keeps hk)

theorem rowLd_keeps {s₀ s : State} {t : Nat} (hk : Keeps s₀ s) : Keeps s₀ (rowLd s t) := by
  unfold rowLd
  repeat' (first
    | (intro s; refine keeps_cut (s₀ := s₀) (s := s) ?_ ?_ <;> [subst s; (intro hs; clear_value s)])
    | (intro x; clear_value x)
    | with_reducible assumption
    | with_reducible first | refine State.issue_keeps (fun r s h => ?_) ?_ | apply State.threadFault_keeps
    | with_reducible first | apply State.setBusy_keeps
    | split
    | lift_lets)

theorem rowSt_keeps {s₀ s : State} {t : Fin 16} (hk : Keeps s₀ s) : Keeps s₀ (rowSt s t) := by
  unfold rowSt
  repeat' (first
    | (intro s; refine keeps_cut (s₀ := s₀) (s := s) ?_ ?_ <;> [subst s; (intro hs; clear_value s)])
    | (intro x; clear_value x)
    | with_reducible assumption
    | with_reducible first | refine State.issue_keeps (fun r s h => ?_) ?_ | apply State.threadFault_keeps
    | with_reducible first | apply State.endRow_keeps
    | split
    | with_reducible refine keeps_mk rfl rfl rfl rfl rfl rfl rfl ?_
    | lift_lets)

theorem rowSync_keeps {s₀ s : State} {t : Fin 16} (hk : Keeps s₀ s) : Keeps s₀ (rowSync s t) := by
  unfold rowSync
  repeat' (first
    | with_reducible assumption
    | with_reducible first | refine State.issue_keeps (fun r s h => ?_) ?_ | apply State.setBusy_keeps
    | with_reducible first | apply State.endRow_keeps
    | split)

theorem rowLsend_keeps {s₀ s : State} {t : Fin 16} {ecc : List Ecc} (hk : Keeps s₀ s) : Keeps s₀ (rowLsend s t ecc) := by
  unfold rowLsend
  refine State.issue_keeps (fun r s h => ?_) hk
  split
  · exact State.outOfRange_keeps h
  · extract_lets a addrs
    split
    · exact State.threadFault_keeps h
    · have h2 := fetchWords_keeps (w := .row t) (t := t) (es := ecc) (l := addrs) h
      revert h2
      generalize fetchWords (.row t) t ecc addrs s = x
      intro h2
      exact State.setBusy_keeps (State.push_keeps h2)

theorem rowRail_keeps {s₀ s : State} {t : Nat} (hk : Keeps s₀ s) : Keeps s₀ (rowRail s t) := by
  unfold rowRail
  repeat' (first
    | (intro s; refine keeps_cut (s₀ := s₀) (s := s) ?_ ?_ <;> [subst s; (intro hs; clear_value s)])
    | (intro x; clear_value x)
    | with_reducible assumption
    | with_reducible first | refine State.issue_keeps (fun r s h => ?_) ?_ | apply State.slotOffReq_keeps
    | with_reducible first | apply State.slotOn_keeps | apply State.setBusy_keeps | apply State.outOfRange_keeps
    | split
    | with_reducible refine keeps_mk rfl rfl rfl rfl rfl rfl rfl ?_
    | with_reducible refine keeps_fst (by assumption) ?_
    | lift_lets)

theorem State.storeApply_keeps {s₀ s : State} {t : Fin 16} (hk : Keeps s₀ s) : Keeps s₀ (State.storeApply s t) := by
  unfold State.storeApply
  repeat' (first
    | (intro s; refine keeps_cut (s₀ := s₀) (s := s) ?_ ?_ <;> [subst s; (intro hs; clear_value s)])
    | (intro x; clear_value x)
    | with_reducible assumption
    | with_reducible apply State.busWrite_keeps
    | split
    | with_reducible refine keeps_mk rfl rfl rfl rfl rfl rfl rfl ?_
    | lift_lets)

theorem State.loadEnd_keeps {s₀ s : State} {t : Fin 16} {a addr : Nat} {ecc : Ecc} (hk : Keeps s₀ s) :
    Keeps s₀ (State.loadEnd s t a addr ecc) := by
  unfold State.loadEnd
  repeat' (first
    | (intro s; refine keeps_cut (s₀ := s₀) (s := s) ?_ ?_ <;> [subst s; (intro hs; clear_value s)])
    | (intro x; clear_value x)
    | with_reducible assumption
    | with_reducible first | apply State.eccFetch_keeps | apply State.rocClear_keeps | apply State.finishRow_keeps
    | split
    | with_reducible refine keeps_fst (by assumption) ?_
    | lift_lets)

theorem State.rowComplete_keeps {s₀ s : State} {t : Fin 16} {ecc : Ecc} (hk : Keeps s₀ s) :
    Keeps s₀ (State.rowComplete s t ecc) := by
  unfold State.rowComplete
  repeat' (first
    | with_reducible assumption
    | with_reducible first | apply State.finishRow_keeps | apply State.ledgerLeave_keeps | apply State.loadEnd_keeps
    | with_reducible first | apply State.endRow_keeps
    | split
    | with_reducible refine keeps_mk rfl rfl rfl rfl rfl rfl rfl ?_)

end Sys2Proof.Machine
end

