-- ==== Sys2Proof/Laws/KeepsHostPort.lean ====
section
/-! SUPPORT. `Keeps` for the host ports: one lemma per operation. -/

namespace Sys2Proof.Machine

theorem State.drive_keeps {s₀ s : State} {p : Proc} {head clocked : Nat} {dev : List Byte} (hk : Keeps s₀ s) :
    Keeps s₀ (State.drive s p head clocked dev) := by
  unfold State.drive
  repeat' (first
    | with_reducible assumption
    | with_reducible apply State.setPort_keeps
    | with_reducible refine keeps_mk rfl rfl rfl rfl rfl rfl rfl ?_)

theorem State.silent_keeps {s₀ s : State} {p : Proc} {f : Frame} (hk : Keeps s₀ s) :
    Keeps s₀ (State.silent s p f) := by
  unfold State.silent
  repeat' first | with_reducible assumption | with_reducible apply State.drive_keeps

theorem State.discardOn_keeps {s₀ s : State} {p : Proc} {reason : Nat} {f : Frame} (hk : Keeps s₀ s) :
    Keeps s₀ (State.discardOn s p reason f) := by
  unfold State.discardOn
  repeat' (first
    | (intro s; refine keeps_cut (s₀ := s₀) (s := s) ?_ ?_ <;> [subst s; (intro hs; clear_value s)])
    | (intro x; clear_value x)
    | with_reducible assumption
    | with_reducible first | apply State.silent_keeps | apply State.incF_keeps | apply State.setF_keeps
    | with_reducible first | apply State.ev_keeps | apply State.setPort_keeps | apply State.raise_keeps
    | split
    | with_reducible refine keeps_mk rfl rfl rfl rfl rfl rfl rfl ?_
    | lift_lets)

theorem State.answer_keeps {s₀ s : State} {f : Frame} {c whole : Nat} {ws : List Word} (hk : Keeps s₀ s) :
    Keeps s₀ (State.answer s f c whole ws) := by
  unfold State.answer
  repeat' (first
    | (intro s; refine keeps_cut (s₀ := s₀) (s := s) ?_ ?_ <;> [subst s; (intro hs; clear_value s)])
    | (intro x; clear_value x)
    | with_reducible assumption
    | with_reducible apply State.drive_keeps
    | split
    | lift_lets)

theorem State.readShifted_keeps {s₀ s : State} {p : Proc} {a : Nat} {v : Word} (hk : Keeps s₀ s) :
    Keeps s₀ (State.readShifted s p a v) := by
  unfold State.readShifted
  repeat' (first
    | with_reducible assumption
    | with_reducible first | apply State.rocClear_keeps | apply State.logbook_keeps
    | split)

theorem State.countFrame_keeps {s₀ s : State} {p : Proc} (hk : Keeps s₀ s) : Keeps s₀ (State.countFrame s p) := by
  unfold State.countFrame
  repeat' (first
    | (intro s; refine keeps_cut (s₀ := s₀) (s := s) ?_ ?_ <;> [subst s; (intro hs; clear_value s)])
    | (intro x; clear_value x)
    | with_reducible assumption
    | with_reducible apply State.setF_keeps
    | lift_lets)

theorem State.readFrame_keeps {s₀ s : State} {f : Frame} {c a n m : Nat} (hk : Keeps s₀ s) :
    Keeps s₀ (State.readFrame s f c a n m) := by
  unfold State.readFrame
  repeat' (first
    | (intro s; refine keeps_cut (s₀ := s₀) (s := s) ?_ ?_ <;> [subst s; (intro hs; clear_value s)])
    | (intro x; clear_value x)
    | with_reducible assumption
    | with_reducible first | apply fetchWords_keeps | apply State.answer_keeps | apply State.countFrame_keeps
    | with_reducible first | apply State.readShifted_keeps
    | with_reducible refine keeps_foldl (fun s a h => ?_) ?_
    | split
    | with_reducible refine keeps_mk rfl rfl rfl rfl rfl rfl rfl ?_
    | with_reducible refine keeps_fst (by assumption) ?_
    | lift_lets)

theorem State.hostWrite_keeps {s₀ s : State} {p : Proc} {a : Nat} {d : Word} (hk : Keeps s₀ s) :
    Keeps s₀ (State.hostWrite s p a d) := by
  unfold State.hostWrite
  repeat' (first
    | with_reducible assumption
    | with_reducible apply State.busWrite_keeps
    | split
    | with_reducible refine keeps_mk rfl rfl rfl rfl rfl rfl rfl ?_)

theorem State.heldApply_keeps {s₀ s : State} (hk : Keeps s₀ s) : Keeps s₀ (State.heldApply s) := by
  unfold State.heldApply
  repeat' (first
    | with_reducible assumption
    | with_reducible apply State.hostWrite_keeps
    | with_reducible refine keeps_foldl (fun s a h => ?_) ?_
    | with_reducible refine keeps_mk rfl rfl rfl rfl rfl rfl rfl ?_)

theorem State.acceptFrame_keeps {s₀ s : State} {f : Frame} {c : Nat} (hk : Keeps s₀ s) :
    Keeps s₀ (State.acceptFrame s f c) := by
  unfold State.acceptFrame
  repeat' (first
    | (intro s; refine keeps_cut (s₀ := s₀) (s := s) ?_ ?_ <;> [subst s; (intro hs; clear_value s)])
    | (intro x; clear_value x)
    | with_reducible assumption
    | with_reducible first | apply State.answer_keeps | apply State.readFrame_keeps | apply State.silent_keeps
    | with_reducible first | apply State.countFrame_keeps | apply State.logbook_keeps | apply State.hostWrite_keeps
    | with_reducible first | apply State.logbookAt_keeps | apply State.busWrite_keeps
    | split
    | with_reducible refine keeps_mk rfl rfl rfl rfl rfl rfl rfl ?_
    | lift_lets)

theorem State.takeFrame_keeps {s₀ s : State} {f : Frame} {c : Nat} (hk : Keeps s₀ s) :
    Keeps s₀ (State.takeFrame s f c) := by
  unfold State.takeFrame
  repeat' (first
    | with_reducible assumption
    | with_reducible first | apply State.silent_keeps | apply State.countFrame_keeps | apply State.acceptFrame_keeps
    | split
    | with_reducible refine keeps_mk rfl rfl rfl rfl rfl rfl rfl ?_)

theorem State.hostFrame_keeps {s₀ s : State} {f : Frame} (hk : Keeps s₀ s) : Keeps s₀ (State.hostFrame s f) := by
  unfold State.hostFrame
  repeat' (first
    | (intro s; refine keeps_cut (s₀ := s₀) (s := s) ?_ ?_ <;> [subst s; (intro hs; clear_value s)])
    | (intro x; clear_value x)
    | with_reducible assumption
    | with_reducible first | apply State.wakeUp_keeps | apply State.takeFrame_keeps | apply State.discardOn_keeps
    | split
    | with_reducible refine keeps_mk rfl rfl rfl rfl rfl rfl rfl ?_
    | lift_lets)

theorem State.frameOf_keeps {s₀ s : State} {c : Nat} {f : Frame} (hk : Keeps s₀ s) :
    Keeps s₀ (State.frameOf s c f) := by
  unfold State.frameOf
  repeat' (first
    | with_reducible assumption
    | with_reducible apply State.hostFrame_keeps
    | split
    | with_reducible refine keeps_mk rfl rfl rfl rfl rfl rfl rfl ?_)

theorem State.serveReads_keeps {s₀ s : State} (hk : Keeps s₀ s) : Keeps s₀ (State.serveReads s) := by
  unfold State.serveReads
  repeat' (first
    | with_reducible assumption
    | with_reducible apply State.acceptFrame_keeps
    | with_reducible refine keeps_foldl (fun s a h => ?_) ?_
    | split
    | with_reducible refine keeps_mk rfl rfl rfl rfl rfl rfl rfl ?_)

theorem State.burstApply_keeps {s₀ s : State} (hk : Keeps s₀ s) : Keeps s₀ (State.burstApply s) := by
  unfold State.burstApply
  repeat' (first
    | (intro s; refine keeps_cut (s₀ := s₀) (s := s) ?_ ?_ <;> [subst s; (intro hs; clear_value s)])
    | (intro x; clear_value x)
    | with_reducible assumption
    | with_reducible first | apply State.logbookAt_keeps | apply State.busWrite_keeps | apply State.serveReads_keeps
    | split
    | with_reducible refine keeps_mk rfl rfl rfl rfl rfl rfl rfl ?_
    | lift_lets)

theorem State.wdWarn_keeps {s₀ s : State} {p : Proc} (hk : Keeps s₀ s) : Keeps s₀ (State.wdWarn s p) := by
  unfold State.wdWarn
  repeat' (first
    | (intro s; refine keeps_cut (s₀ := s₀) (s := s) ?_ ?_ <;> [subst s; (intro hs; clear_value s)])
    | (intro x; clear_value x)
    | with_reducible assumption
    | with_reducible first | apply State.setPort_keeps | apply State.setF_keeps | apply State.pulse_keeps
    | split
    | with_reducible refine keeps_mk rfl rfl rfl rfl rfl rfl rfl ?_
    | lift_lets)

theorem State.wdTimeout_keeps {s₀ s : State} {p : Proc} (hk : Keeps s₀ s) : Keeps s₀ (State.wdTimeout s p) := by
  unfold State.wdTimeout
  repeat' (first
    | (intro s; refine keeps_cut (s₀ := s₀) (s := s) ?_ ?_ <;> [subst s; (intro hs; clear_value s)])
    | (intro x; clear_value x)
    | with_reducible assumption
    | with_reducible apply State.wdExpire_keeps
    | split
    | lift_lets)

end Sys2Proof.Machine
end

