-- ==== Sys2Proof/Laws/KeepsReset.lean ====
section
/-! SUPPORT. `Keeps` for resets and the boot flow: one lemma per operation. -/

namespace Sys2Proof.Machine

theorem applyRecords_fold_keeps {s₀ : State} {rs : List (Nat × Word)} {acc : State × Nat × Nat} (hk : Keeps s₀ acc.1) :
    Keeps s₀ (rs.foldl (fun (acc : State × Nat × Nat) r =>
      let (s, n, m) := acc
      if s.recordable r.1 then (s.busWrite .boot (busWordAddr r.1) r.2, n + 1, m) else (s, n, m + 1)) acc).1 := by
  induction rs generalizing acc with
  | nil => exact hk
  | cons r rs ih =>
    obtain ⟨s, n, m⟩ := acc
    refine ih ?_
    simp only
    split
    · exact State.busWrite_keeps hk
    · exact hk

theorem State.applyRecords_keeps {s₀ s : State} {rs : List (Nat × Word)} (hk : Keeps s₀ s) : Keeps s₀ (s.applyRecords rs) :=
  State.setF_keeps (State.setF_keeps (applyRecords_fold_keeps hk))

theorem State.otpDone_keeps {s₀ s : State} {o : OtpSense} (hk : Keeps s₀ s) : Keeps s₀ (State.otpDone s o) := by
  unfold State.otpDone
  repeat' (first
    | with_reducible assumption
    | with_reducible first | apply State.applyRecords_keeps | apply State.otpComplete_keeps
    | split
    | with_reducible refine keeps_mk rfl rfl rfl rfl rfl rfl rfl ?_)

theorem State.reloadPage_keeps {s₀ s : State} {page : Nat} {skip : Nat → Word} (hk : Keeps s₀ s) :
    Keeps s₀ (State.reloadPage s page skip) := by
  unfold State.reloadPage
  repeat' (first
    | (intro s; refine keeps_cut (s₀ := s₀) (s := s) ?_ ?_ <;> [subst s; (intro hs; clear_value s)])
    | (intro x; clear_value x)
    | with_reducible assumption
    | with_reducible apply State.applyRecords_keeps
    | with_reducible refine keeps_regs (fun k => twf_resetRegs k) ?_
    | split
    | with_reducible refine keeps_mk rfl rfl rfl rfl rfl rfl rfl ?_
    | lift_lets)

theorem State.outputsOff_keeps {s₀ s : State} (hk : Keeps s₀ s) : Keeps s₀ (State.outputsOff s) := by
  unfold State.outputsOff
  repeat' (first
    | (intro s; refine keeps_cut (s₀ := s₀) (s := s) ?_ ?_ <;> [subst s; (intro hs; clear_value s)])
    | (intro x; clear_value x)
    | with_reducible assumption
    | with_reducible first | apply State.slotKill_keeps | apply State.loopKill_keeps | apply State.pathKill_keeps
    | with_reducible first | apply State.wr_keeps | apply State.setF_keeps | apply State.setSeq_keeps
    | with_reducible refine keeps_foldl (fun s a h => ?_) ?_
    | with_reducible refine keeps_mk rfl rfl rfl rfl rfl rfl rfl ?_
    | lift_lets)

theorem State.recReset_keeps {s₀ s : State} (hk : Keeps s₀ s) : Keeps s₀ (State.recReset s) := by
  unfold State.recReset
  repeat' (first
    | (intro s; refine keeps_cut (s₀ := s₀) (s := s) ?_ ?_ <;> [subst s; (intro hs; clear_value s)])
    | (intro x; clear_value x)
    | with_reducible assumption
    | with_reducible apply State.setRec_keeps
    | split
    | with_reducible refine keeps_mk rfl rfl rfl rfl rfl rfl rfl ?_
    | lift_lets)

theorem State.xflashReset_keeps {s₀ s : State} (hk : Keeps s₀ s) : Keeps s₀ (State.xflashReset s) := by
  unfold State.xflashReset
  repeat' (first
    | (intro s; refine keeps_cut (s₀ := s₀) (s := s) ?_ ?_ <;> [subst s; (intro hs; clear_value s)])
    | (intro x; clear_value x)
    | with_reducible assumption
    | with_reducible first | apply State.flashCommit_keeps | apply State.setX_keeps | apply State.setBusy_keeps
    | split
    | with_reducible refine keeps_mk rfl rfl rfl rfl rfl rfl rfl ?_
    | lift_lets)

theorem State.slotsReset_keeps {s₀ s : State} (hk : Keeps s₀ s) : Keeps s₀ (State.slotsReset s) := by
  unfold State.slotsReset
  repeat' (first
    | with_reducible assumption
    | with_reducible apply State.setSeq_keeps
    | with_reducible refine keeps_foldl (fun s a h => ?_) ?_
    | with_reducible refine keeps_mk rfl rfl rfl rfl rfl rfl rfl ?_)

theorem State.chipStop_keeps {s₀ s : State} (hk : Keeps s₀ s) : Keeps s₀ (State.chipStop s) := by
  unfold State.chipStop
  repeat' (first
    | (intro s; refine keeps_cut (s₀ := s₀) (s := s) ?_ ?_ <;> [subst s; (intro hs; clear_value s)])
    | (intro x; clear_value x)
    | with_reducible assumption
    | with_reducible first | apply State.proveEnd_keeps | apply State.outputsOff_keeps | apply State.otpCut_keeps
    | with_reducible first | apply State.engineReset_keeps | apply State.recReset_keeps
    | with_reducible first | apply State.xflashReset_keeps | apply State.slotsReset_keeps
    | lift_lets)

theorem State.chipFields_keeps {s₀ s : State} {hold charging : Bool} (hk : Keeps s₀ s) :
    Keeps s₀ (State.chipFields s hold charging) := by
  unfold State.chipFields
  repeat' (first
    | with_reducible assumption
    | with_reducible refine keeps_mkw rfl rfl rfl (fun k => twf_resetRegs k) rfl rfl rfl ?_
    | split
    | with_reducible refine keeps_mk rfl rfl rfl rfl rfl rfl rfl ?_)

theorem State.chipTail_keeps {s₀ s : State} {hold : Bool} (hk : Keeps s₀ s) : Keeps s₀ (State.chipTail s hold) := by
  unfold State.chipTail
  repeat' (first
    | (intro s; refine keeps_cut (s₀ := s₀) (s := s) ?_ ?_ <;> [subst s; (intro hs; clear_value s)])
    | (intro x; clear_value x)
    | with_reducible assumption
    | with_reducible first | apply State.timersReset_keeps | apply State.intcReset_keeps
    | with_reducible first | apply State.endLevel_keeps | apply State.setTherm_keeps | apply State.thermHold_keeps
    | with_reducible first | apply State.setF_keeps | apply State.setFb_keeps
    | split
    | with_reducible refine keeps_mk rfl rfl rfl rfl rfl rfl rfl ?_
    | lift_lets)

theorem State.chipClear_keeps {s₀ s : State} {hold : Bool} (hk : Keeps s₀ s) : Keeps s₀ (State.chipClear s hold) := by
  unfold State.chipClear
  repeat' (first
    | with_reducible assumption
    | with_reducible first | apply State.chipStop_keeps | apply State.chipFields_keeps | apply State.chipTail_keeps)

theorem State.bootClocks_keeps {s₀ s : State} (hk : Keeps s₀ s) : Keeps s₀ (State.bootClocks s) := by
  unfold State.bootClocks
  repeat' (first
    | with_reducible assumption
    | with_reducible first | refine State.setPower_keeps rfl ?_ | apply State.almanacCatchUp_keeps
    | with_reducible refine keeps_mk rfl rfl rfl rfl rfl rfl rfl ?_)

theorem State.chipReset_keeps {s₀ s : State} (hk : Keeps s₀ s) : Keeps s₀ (State.chipReset s) := by
  unfold State.chipReset
  repeat' (first
    | (intro s; refine keeps_cut (s₀ := s₀) (s := s) ?_ ?_ <;> [subst s; (intro hs; clear_value s)])
    | (intro x; clear_value x)
    | with_reducible assumption
    | with_reducible first | apply State.setRec_keeps | apply State.chipClear_keeps | apply State.bootClocks_keeps
    | with_reducible first | apply State.setSeq_keeps
    | with_reducible refine keeps_mk rfl rfl rfl rfl rfl rfl rfl ?_
    | lift_lets)

theorem State.resetPin_keeps {s₀ s : State} (hk : Keeps s₀ s) : Keeps s₀ (State.resetPin s) := by
  unfold State.resetPin
  repeat' (first
    | (intro s; refine keeps_cut (s₀ := s₀) (s := s) ?_ ?_ <;> [subst s; (intro hs; clear_value s)])
    | (intro x; clear_value x)
    | with_reducible assumption
    | with_reducible first | apply State.setSeq_keeps | apply State.orReg_keeps
    | split
    | with_reducible refine keeps_mk rfl rfl rfl rfl rfl rfl rfl ?_
    | lift_lets)

theorem State.resetPinHigh_keeps {s₀ s : State} (hk : Keeps s₀ s) : Keeps s₀ (State.resetPinHigh s) := by
  unfold State.resetPinHigh
  repeat' (first
    | with_reducible assumption
    | with_reducible first | apply State.setSeq_keeps | apply State.resetPin_keeps
    | with_reducible refine keeps_mk rfl rfl rfl rfl rfl rfl rfl ?_)

theorem State.collapse_keeps {s₀ s : State} {vin : Nat} (hk : Keeps s₀ s) : Keeps s₀ (State.collapse s vin) := by
  unfold State.collapse
  repeat' (first
    | (intro s; refine keeps_cut (s₀ := s₀) (s := s) ?_ ?_ <;> [subst s; (intro hs; clear_value s)])
    | (intro x; clear_value x)
    | with_reducible assumption
    | with_reducible first | apply State.orReg_keeps | apply State.setRec_keeps | apply State.chipClear_keeps
    | with_reducible first | apply State.setX_keeps | apply State.setGauge_keeps | apply State.setF_keeps
    | with_reducible first | refine State.setPower_keeps rfl ?_ | apply State.setSeq_keeps
    | split
    | with_reducible refine keeps_mk rfl rfl rfl rfl rfl rfl rfl ?_
    | lift_lets)

theorem State.dieShutdown_keeps {s₀ s : State} {k : Nat} (hk : Keeps s₀ s) : Keeps s₀ (State.dieShutdown s k) := by
  unfold State.dieShutdown
  repeat' (first
    | (intro s; refine keeps_cut (s₀ := s₀) (s := s) ?_ ?_ <;> [subst s; (intro hs; clear_value s)])
    | (intro x; clear_value x)
    | with_reducible assumption
    | with_reducible first | apply State.outputsOff_keeps | apply State.haltAll_keeps | apply State.raise_keeps
    | with_reducible first | apply State.setF_keeps | apply State.incF_keeps | apply State.setRec_keeps
    | with_reducible first | apply State.setTherm_keeps | apply State.recRing_keeps | apply State.recStart_keeps
    | split
    | with_reducible refine keeps_mk rfl rfl rfl rfl rfl rfl rfl ?_
    | lift_lets)

theorem State.holdBegin_keeps {s₀ s : State} (hk : Keeps s₀ s) : Keeps s₀ (State.holdBegin s) := by
  unfold State.holdBegin
  repeat' (first
    | (intro s; refine keeps_cut (s₀ := s₀) (s := s) ?_ ?_ <;> [subst s; (intro hs; clear_value s)])
    | (intro x; clear_value x)
    | with_reducible assumption
    | with_reducible first | apply State.chipClear_keeps | apply State.bootClocks_keeps | apply State.setF_keeps
    | with_reducible first | apply State.setTherm_keeps | apply State.setSeq_keeps
    | split
    | with_reducible refine keeps_mk rfl rfl rfl rfl rfl rfl rfl ?_
    | lift_lets)

theorem State.thaw_keeps {s₀ s : State} (hk : Keeps s₀ s) : Keeps s₀ (State.thaw s) := by
  unfold State.thaw
  repeat' (first
    | (intro s; refine keeps_cut (s₀ := s₀) (s := s) ?_ ?_ <;> [subst s; (intro hs; clear_value s)])
    | (intro x; clear_value x)
    | with_reducible assumption
    | with_reducible first | apply State.setTherm_keeps | apply State.thermHold_keeps | apply State.setSeq_keeps
    | with_reducible refine keeps_regs (fun k => twf_resetRegs k) ?_
    | split
    | with_reducible refine keeps_mk rfl rfl rfl rfl rfl rfl rfl ?_
    | lift_lets)

theorem State.thawAuto_keeps {s₀ s : State} (hk : Keeps s₀ s) : Keeps s₀ (State.thawAuto s) := by
  unfold State.thawAuto
  repeat' (first
    | with_reducible assumption
    | with_reducible first | apply State.thaw_keeps | apply State.countThaw_keeps
    | split)

theorem State.bootStart_keeps {s₀ s : State} (hk : Keeps s₀ s) : Keeps s₀ (State.bootStart s) := by
  unfold State.bootStart
  repeat' (first
    | with_reducible assumption
    | with_reducible apply State.setSeq_keeps
    | split
    | with_reducible refine keeps_mk rfl rfl rfl rfl rfl rfl rfl ?_)

theorem State.bootSupplies_keeps {s₀ s : State} (hk : Keeps s₀ s) : Keeps s₀ (State.bootSupplies s) := by
  unfold State.bootSupplies
  repeat' (first
    | with_reducible assumption
    | with_reducible first | apply State.setSeq_keeps | apply State.bootClocks_keeps
    | split
    | with_reducible refine keeps_mk rfl rfl rfl rfl rfl rfl rfl ?_)

theorem State.bootTrimDone_keeps {s₀ s : State} {o : OtpSense} {bad : List Nat} (hk : Keeps s₀ s) :
    Keeps s₀ (State.bootTrimDone s o bad) := by
  unfold State.bootTrimDone
  repeat' (first
    | (intro s; refine keeps_cut (s₀ := s₀) (s := s) ?_ ?_ <;> [subst s; (intro hs; clear_value s)])
    | (intro x; clear_value x)
    | with_reducible assumption
    | with_reducible first | apply State.bootTrim_keeps | apply State.setSeq_keeps
    | split
    | with_reducible refine keeps_mk rfl rfl rfl rfl rfl rfl rfl ?_
    | lift_lets)

theorem State.recoverRecords_keeps {s₀ s : State} (hk : Keeps s₀ s) : Keeps s₀ (State.recoverRecords s) := by
  unfold State.recoverRecords
  repeat' (first
    | (intro s; refine keeps_cut (s₀ := s₀) (s := s) ?_ ?_ <;> [subst s; (intro hs; clear_value s)])
    | (intro x; clear_value x)
    | with_reducible assumption
    | with_reducible first | apply State.collapse_keeps | apply State.setRec_keeps | apply State.setF_keeps
    | with_reducible first | apply State.recCounters_keeps
    | split
    | with_reducible refine keeps_mk rfl rfl rfl rfl rfl rfl rfl ?_
    | with_reducible refine keeps_fst (by assumption) ?_
    | lift_lets)

theorem State.refreeze_keeps {s₀ s : State} (hk : Keeps s₀ s) : Keeps s₀ (State.refreeze s) := by
  unfold State.refreeze
  repeat' (first
    | with_reducible assumption
    | with_reducible apply State.queueTails_keeps
    | split
    | with_reducible refine keeps_mk rfl rfl rfl rfl rfl rfl rfl ?_)

theorem State.bootApply_keeps {s₀ s : State} {o : OtpSense} (hk : Keeps s₀ s) : Keeps s₀ (State.bootApply s o) := by
  unfold State.bootApply
  repeat' (first
    | (intro s; refine keeps_cut (s₀ := s₀) (s := s) ?_ ?_ <;> [subst s; (intro hs; clear_value s)])
    | (intro x; clear_value x)
    | with_reducible assumption
    | with_reducible first | apply State.bootShadow_keeps | apply State.setF_keeps
    | with_reducible first | apply State.recoverRecords_keeps | apply State.setSeq_keeps
    | with_reducible first | apply State.applyRecords_keeps | apply State.slotOn_keeps
    | with_reducible refine keeps_foldl (fun s a h => ?_) ?_
    | split
    | with_reducible refine keeps_mk rfl rfl rfl rfl rfl rfl rfl ?_
    | lift_lets)

theorem State.bootRestore_keeps {s₀ s : State} {cold : Bool} (hk : Keeps s₀ s) :
    Keeps s₀ (State.bootRestore s cold) := by
  unfold State.bootRestore
  repeat' (first
    | (intro s; refine keeps_cut (s₀ := s₀) (s := s) ?_ ?_ <;> [subst s; (intro hs; clear_value s)])
    | (intro x; clear_value x)
    | with_reducible assumption
    | with_reducible first | apply State.almanacMark_keeps | apply State.healthRestore_keeps
    | with_reducible first | apply State.gaugeRestore_keeps | apply State.intcBoot_keeps
    | with_reducible first | apply State.refreeze_keeps
    | split
    | lift_lets)

theorem State.bootThawed_keeps {s₀ s : State} (hk : Keeps s₀ s) : Keeps s₀ (State.bootThawed s) := by
  unfold State.bootThawed
  repeat' (first
    | with_reducible assumption
    | with_reducible first | apply State.ev_keeps | apply State.setTherm_keeps
    | split
    | with_reducible refine keeps_mk rfl rfl rfl rfl rfl rfl rfl ?_)

theorem State.bootShadowDone_keeps {s₀ s : State} {o : OtpSense} (hk : Keeps s₀ s) :
    Keeps s₀ (State.bootShadowDone s o) := by
  unfold State.bootShadowDone
  repeat' (first
    | with_reducible assumption
    | with_reducible first | apply State.bootApply_keeps | apply State.bootRestore_keeps
    | with_reducible first | apply State.bootThawed_keeps | apply State.loadStart_keeps | apply State.recStart_keeps
    | split)

theorem State.step6Judge_keeps {s₀ s : State} (hk : Keeps s₀ s) : Keeps s₀ (State.step6Judge s) := by
  unfold State.step6Judge
  repeat' (first
    | with_reducible assumption
    | with_reducible apply State.setSeq_keeps
    | split
    | with_reducible refine keeps_mk rfl rfl rfl rfl rfl rfl rfl ?_)

theorem State.vinUv_keeps {s₀ s : State} {vin : Nat} (hk : Keeps s₀ s) : Keeps s₀ (State.vinUv s vin) := by
  unfold State.vinUv
  repeat' (first
    | with_reducible assumption
    | with_reducible apply State.raiseLevel_keeps
    | split
    | with_reducible refine keeps_mk rfl rfl rfl rfl rfl rfl rfl ?_)

theorem State.vinOv_keeps {s₀ s : State} {vin : Nat} (hk : Keeps s₀ s) : Keeps s₀ (State.vinOv s vin) := by
  unfold State.vinOv
  repeat' (first
    | with_reducible assumption
    | with_reducible apply State.raiseLevel_keeps
    | split
    | with_reducible refine keeps_mk rfl rfl rfl rfl rfl rfl rfl ?_)

theorem State.vholdLow_keeps {s₀ s : State} {vhold : Nat} (hk : Keeps s₀ s) : Keeps s₀ (State.vholdLow s vhold) := by
  unfold State.vholdLow
  repeat' (first
    | with_reducible assumption
    | with_reducible apply State.raiseLevel_keeps
    | split
    | with_reducible refine keeps_mk rfl rfl rfl rfl rfl rfl rfl ?_)

theorem State.vholdCharged_keeps {s₀ s : State} (hk : Keeps s₀ s) : Keeps s₀ (State.vholdCharged s) := by
  unfold State.vholdCharged
  repeat' (first
    | (intro s; refine keeps_cut (s₀ := s₀) (s := s) ?_ ?_ <;> [subst s; (intro hs; clear_value s)])
    | (intro x; clear_value x)
    | with_reducible assumption
    | with_reducible first | apply State.setSeq_keeps | apply State.recStart_keeps
    | with_reducible refine keeps_mk rfl rfl rfl rfl rfl rfl rfl ?_
    | lift_lets)

theorem State.railsReset_keeps {s₀ s : State} (hk : Keeps s₀ s) : Keeps s₀ (State.railsReset s) := by
  unfold State.railsReset
  repeat' (first
    | (intro s; refine keeps_cut (s₀ := s₀) (s := s) ?_ ?_ <;> [subst s; (intro hs; clear_value s)])
    | (intro x; clear_value x)
    | with_reducible assumption
    | with_reducible first | apply State.slotKill_keeps | apply State.reloadPage_keeps | apply State.clrReg_keeps
    | with_reducible refine keeps_foldl (fun s a h => ?_) ?_
    | split
    | with_reducible refine keeps_mk rfl rfl rfl rfl rfl rfl rfl ?_
    | lift_lets)

theorem State.planBlockReset_keeps {s₀ s : State} (hk : Keeps s₀ s) : Keeps s₀ (State.planBlockReset s) := by
  unfold State.planBlockReset
  repeat' (first
    | (intro s; refine keeps_cut (s₀ := s₀) (s := s) ?_ ?_ <;> [subst s; (intro hs; clear_value s)])
    | (intro x; clear_value x)
    | with_reducible assumption
    | with_reducible first | apply State.loadStart_keeps | apply State.ledgerLeave_keeps | apply State.setEng_keeps
    | with_reducible refine keeps_foldl (fun s a h => ?_) ?_
    | split
    | with_reducible refine keeps_mk rfl rfl rfl rfl rfl rfl rfl ?_
    | lift_lets)

theorem State.blockReset_keeps {s₀ s : State} {b : Block} (hk : Keeps s₀ s) : Keeps s₀ (State.blockReset s b) := by
  unfold State.blockReset
  repeat' (first
    | (intro s; refine keeps_cut (s₀ := s₀) (s := s) ?_ ?_ <;> [subst s; (intro hs; clear_value s)])
    | (intro x; clear_value x)
    | with_reducible assumption
    | with_reducible first | apply State.downRun_keeps | apply State.setPend_keeps | apply State.setSeq_keeps
    | with_reducible first | apply State.railsReset_keeps | apply State.slotOffReq_keeps
    | with_reducible first | apply State.reloadPage_keeps | apply State.thermBlockReset_keeps
    | with_reducible first | apply State.healthBlockReset_keeps | apply State.gaugeBlockReset_keeps
    | with_reducible first | apply State.linkBlockReset_keeps | apply State.ledgerBlockReset_keeps
    | with_reducible first | apply State.planBlockReset_keeps | apply State.setX_keeps | apply State.discBegin_keeps
    | with_reducible refine keeps_foldl (fun s a h => ?_) ?_
    | split
    | with_reducible refine keeps_mk rfl rfl rfl rfl rfl rfl rfl ?_
    | lift_lets)

theorem State.seqReload_keeps {s₀ s : State} (hk : Keeps s₀ s) : Keeps s₀ (State.seqReload s) := by
  unfold State.seqReload
  repeat' (first
    | with_reducible assumption
    | with_reducible first | apply State.setSeq_keeps | apply State.reloadPage_keeps
    | split
    | with_reducible refine keeps_mk rfl rfl rfl rfl rfl rfl rfl ?_)

end Sys2Proof.Machine
end

