-- ==== Sys2Proof/Laws/KeepsSettle.lean ====
section
/-! SUPPORT. `Keeps` for what follows a command: one lemma per operation. -/

namespace Sys2Proof.Machine

theorem State.doResets_keeps {s₀ s : State} (hk : Keeps s₀ s) : Keeps s₀ (State.doResets s) := by
  unfold State.doResets
  repeat' (first
    | (intro s; refine keeps_cut (s₀ := s₀) (s := s) ?_ ?_ <;> [subst s; (intro hs; clear_value s)])
    | (intro x; clear_value x)
    | with_reducible assumption
    | with_reducible first | apply State.thaw_keeps | apply State.chipReset_keeps | apply State.blockReset_keeps
    | with_reducible refine keeps_foldl (fun s a h => ?_) ?_
    | split
    | with_reducible refine keeps_mk rfl rfl rfl rfl rfl rfl rfl ?_
    | lift_lets)

theorem State.settleBlocks_keeps {s₀ s : State} (hk : Keeps s₀ s) : Keeps s₀ (State.settleBlocks s) := by
  unfold State.settleBlocks
  repeat' (first
    | (intro s; refine keeps_cut (s₀ := s₀) (s := s) ?_ ?_ <;> [subst s; (intro hs; clear_value s)])
    | (intro x; clear_value x)
    | with_reducible assumption
    | with_reducible first | apply State.heldApply_keeps | apply State.seqSettle_keeps | apply State.seqReload_keeps
    | with_reducible first | apply State.pathSettle_keeps | apply State.capUpkeep_keeps
    | with_reducible first | apply State.linkSettle_keeps | apply State.ledgerJudge_keeps
    | with_reducible first | apply State.proveRule_keeps | apply State.gStoreTake_keeps
    | with_reducible first | apply State.probeWatch_keeps | apply State.step6Judge_keeps
    | with_reducible first | apply State.mirrorUpkeep_keeps | apply State.almanacSpent_keeps
    | with_reducible first | apply State.recStart_keeps | apply State.archUpkeep_keeps | apply State.otpStat_keeps
    | with_reducible first | apply State.otpBusy_keeps
    | split
    | lift_lets)

theorem State.settleIdle_keeps {s₀ s : State} (hk : Keeps s₀ s) : Keeps s₀ (State.settleIdle s) := by
  unfold State.settleIdle
  repeat' (first
    | with_reducible assumption
    | with_reducible refine State.setPower_keeps rfl ?_
    | split
    | with_reducible refine keeps_mk rfl rfl rfl rfl rfl rfl rfl ?_)

theorem settleN_keeps {s₀ : State} {n : Nat} {s : State} (hk : Keeps s₀ s) : Keeps s₀ (settleN n s) := by
  induction n generalizing s with
  | zero => exact hk
  | succ n ih =>
    have h : Keeps s₀ s.doResets.settleBlocks := State.settleBlocks_keeps (State.doResets_keeps hk)
    simp only [settleN]
    split
    · exact ih h
    · exact h

theorem State.settle_keeps {s₀ s : State} (hk : Keeps s₀ s) : Keeps s₀ (State.settle s) := by
  unfold State.settle
  repeat' (first
    | with_reducible assumption
    | with_reducible first | apply settleN_keeps | apply State.settleIdle_keeps)

theorem State.regWrite_keeps {s₀ s : State} {w : Writer} {a : Nat} {d : Word} (hk : Keeps s₀ s) :
    Keeps s₀ (State.regWrite s w a d) := by
  unfold State.regWrite
  repeat' first | with_reducible assumption | with_reducible apply State.busWrite_keeps | split

end Sys2Proof.Machine
end

