-- ==== Sys2Proof/Laws/KeepsCmdLink.lean ====
section
/-! SUPPORT. `Keeps` for commands of the ports: one lemma per operation. -/

namespace Sys2Proof.Machine

theorem State.badReply_keeps {s₀ s : State} {p : Nat} {bad : BadReply} (hk : Keeps s₀ s) :
    Keeps s₀ (State.badReply s p bad) := by
  unfold State.badReply
  repeat' (first
    | with_reducible assumption
    | with_reducible first | apply State.replyInvalid_keeps | apply State.replyStale_keeps
    | with_reducible first | apply State.replyUnexpected_keeps
    | split
    | with_reducible refine keeps_mk rfl rfl rfl rfl rfl rfl rfl ?_)

theorem State.shedWrite_keeps {s₀ s : State} {w : Writer} {p m : Nat} {mask : Word} (hk : Keeps s₀ s) :
    Keeps s₀ (State.shedWrite s w p m mask) := by
  unfold State.shedWrite
  repeat' first | with_reducible assumption | with_reducible apply State.shedSet_keeps | split

end Sys2Proof.Machine
end

