-- ==== Sys2Proof/Laws/KeepsCmdTherm.lean ====
section
/-! SUPPORT. `Keeps` for commands of the thermal block: one lemma per operation. -/

namespace Sys2Proof.Machine

theorem State.sampleAll_keeps {s₀ s : State} {die : List Int} {ends : Nat} {td : List TdReading} (hk : Keeps s₀ s) :
    Keeps s₀ (State.sampleAll s die ends td) := by
  unfold State.sampleAll
  repeat' (first
    | (intro s; refine keeps_cut (s₀ := s₀) (s := s) ?_ ?_ <;> [subst s; (intro hs; clear_value s)])
    | (intro x; clear_value x)
    | with_reducible assumption
    | with_reducible first | apply State.thermalSample_keeps | apply State.dieShutdown_keeps
    | split
    | with_reducible refine keeps_mk rfl rfl rfl rfl rfl rfl rfl ?_
    | lift_lets)

end Sys2Proof.Machine
end

