-- ==== Sys2Proof/Laws/KeepsExec.lean ====
section
/-! SUPPORT. `Keeps` for the shapes of a command, and what the AO domain's power-on, its power loss and the clock keep. -/

namespace Sys2Proof.Machine

variable {s t : State}

/-! ## Commands -/

theorem act_keeps {f : State → State} (hf : ∀ s', Keeps s s' → Keeps s (f s')) (e : act s f = .next t) : Keeps s t := by
  unfold act at e
  cases e
  split
  · exact State.settle_keeps (hf s (.refl s))
  · exact .refl s

theorem row_keeps {f : State → State} (hf : ∀ s', Keeps s s' → Keeps s (f s')) (e : row s f = .next t) : Keeps s t := by
  unfold row at e
  cases e
  exact keeps_ite (hf s (.refl s)) (.refl s)

theorem live_keeps {f : State → State} (hf : ∀ s', Keeps s s' → Keeps s (f s')) (e : live s f = .next t) : Keeps s t :=
  act_keeps (fun s' h => keeps_ite (hf s' h) h) e

theorem awake_keeps {f : State → State} (hf : ∀ s', Keeps s s' → Keeps s (f s')) (e : awake s f = .next t) : Keeps s t :=
  act_keeps (fun s' h => keeps_ite h (hf s' h)) e

theorem write_keeps {w : Writer} {a : Nat} {d : Word} (e : write s w a d = .next t) : Keeps s t :=
  act_keeps (fun _ h => State.regWrite_keeps h) e

theorem ready_keeps {f : State → State} (hf : ∀ s', Keeps s s' → Keeps s (f s')) (e : ready s f = .next t) : Keeps s t := by
  unfold ready at e
  cases e
  exact keeps_ite (State.settleIdle_keeps (hf s (.refl s))) (.refl s)

theorem thcmd_keeps {p : Proc} {d : Word} (e : thcmd s p d = .next t) : Keeps s t :=
  act_keeps (fun _ h => keeps_ite (State.busWrite_keeps (State.logbook_keeps h)) h) e

/-! ## Power-on and power loss of the AO domain: everything is as after reset but the non-volatile stores -/

theorem State.rflashTorn_keeps (h : Keeps s t) : Keeps s t.rflashTorn := by
  unfold State.rflashTorn
  split
  · exact State.setRec_keeps (State.recTorn_keeps h)
  · exact h

/-- What an AO power-on reset leaves of the queue, the canonical forms and the OTP array. -/
theorem State.aoReset_parts (ao : Bool) :
    (s.aoReset ao).pending = s.pending ∧ (s.aoReset ao).wf = true ∧ OtpLe s.otp (s.aoReset ao).otp := by
  have h : Keeps s (((s.otpCut.rflashTorn).xflashTorn 0).xflashTorn 1) :=
    State.xflashTorn_keeps (State.xflashTorn_keeps (State.rflashTorn_keeps (State.otpCut_keeps (.refl s))))
  have hr : (s.aoReset ao).regs = [] := rfl
  have hm : (s.aoReset ao).mem = [] := rfl
  exact ⟨h.pending, by rw [State.wf, hr, hm]; rfl, h.burned.trans (.same rfl rfl rfl rfl)⟩

theorem State.aoPowerOn_parts :
    s.aoPowerOn.pending = s.pending ∧ (s.wf = true → s.aoPowerOn.wf = true) ∧ OtpLe s.otp s.aoPowerOn.otp := by
  unfold State.aoPowerOn
  split
  · exact ⟨rfl, id, .refl _⟩
  · exact ⟨(State.aoReset_parts true).1, fun _ => (State.aoReset_parts true).2.1, (State.aoReset_parts true).2.2⟩

theorem State.aoPowerLoss_parts :
    s.aoPowerLoss.pending = s.pending ∧ (s.wf = true → s.aoPowerLoss.wf = true) ∧ OtpLe s.otp s.aoPowerLoss.otp := by
  unfold State.aoPowerLoss
  split
  · exact ⟨(State.aoReset_parts false).1, fun _ => (State.aoReset_parts false).2.1, (State.aoReset_parts false).2.2⟩
  · exact ⟨rfl, id, .refl _⟩

/-! ## The clock of an idle block -/

/-- An AO tick edge keeps all that a command keeps, and chip time goes on by one tick. -/
theorem State.tickEdge_parts (s : State) :
    s.tickEdge.pending = s.pending ∧ (s.wf = true → s.tickEdge.wf = true) ∧ OtpLe s.otp s.tickEdge.otp ∧
      (s.tickEdge.ticks = s.ticks ∨ s.tickEdge.ticks = s.ticks + 1) := by
  have h : Keeps { s with ticks := s.ticks + 1, sub := 0 } s.tickEdge :=
    State.railTick_keeps (State.safetyTick_keeps (State.lullEdge_keeps (State.idleTick_keeps (State.setPower_keeps rfl (.refl _)))))
  exact ⟨h.pending, h.wf, h.burned, .inr h.ticks⟩

/-- SUBTICK_ALIGN is an AO tick edge: it keeps what that keeps. -/
theorem subtickAlign_parts (e : execSubtickAlign s = .next t) :
    t.pending = s.pending ∧ (s.wf = true → t.wf = true) ∧ OtpLe s.otp t.otp := by
  unfold execSubtickAlign act State.subtickAlign at e
  cases e
  have h := s.tickEdge_parts
  have k := fun u : State => State.settle_keeps (Keeps.refl u)
  split
  · split
    · exact ⟨(k _).pending.trans h.1, fun w => (k _).wf (h.2.1 w), h.2.2.1.trans (k _).burned⟩
    · exact ⟨(k s).pending, (k s).wf, (k s).burned⟩
  · exact ⟨rfl, id, .refl _⟩

/-- A clock cycle keeps all that a command keeps, but that chip time goes on. -/
theorem State.clock_parts :
    s.clock.pending = s.pending ∧ (s.wf = true → s.clock.wf = true) ∧ OtpLe s.otp s.clock.otp ∧
      (s.clock.ticks = s.ticks ∨ s.clock.ticks = s.ticks + 1) := by
  unfold State.clock
  split
  · exact ⟨rfl, id, .refl _, .inl rfl⟩
  · split
    · exact ⟨rfl, id, .refl _, .inl rfl⟩
    · exact s.tickEdge_parts

end Sys2Proof.Machine
end

