-- ==== Sys2Proof/Laws/State.lean ====
section
/-! SUPPORT. What each update of a part of the state leaves of every other part, and what it puts in its own. -/

namespace Sys2Proof.Machine

variable (s : State)

/-! ## `wr` -/

@[simp] theorem State.wr_pending (a : Nat) (w : Word) : (s.wr a w).pending = s.pending := rfl
@[simp] theorem State.wr_ticks (a : Nat) (w : Word) : (s.wr a w).ticks = s.ticks := rfl
@[simp] theorem State.wr_sub (a : Nat) (w : Word) : (s.wr a w).sub = s.sub := rfl
@[simp] theorem State.wr_power (a : Nat) (w : Word) : (s.wr a w).power = s.power := rfl
@[simp] theorem State.wr_regs (a : Nat) (w : Word) : (s.wr a w).regs = tset resetWord s.regs a w := rfl
@[simp] theorem State.wr_mem (a : Nat) (w : Word) : (s.wr a w).mem = s.mem := rfl
@[simp] theorem State.wr_hostA (a : Nat) (w : Word) : (s.wr a w).hostA = s.hostA := rfl
@[simp] theorem State.wr_hostB (a : Nat) (w : Word) : (s.wr a w).hostB = s.hostB := rfl
@[simp] theorem State.wr_burst (a : Nat) (w : Word) : (s.wr a w).burst = s.burst := rfl
@[simp] theorem State.wr_held (a : Nat) (w : Word) : (s.wr a w).held = s.held := rfl
@[simp] theorem State.wr_reads (a : Nat) (w : Word) : (s.wr a w).reads = s.reads := rfl
@[simp] theorem State.wr_eng (a : Nat) (w : Word) : (s.wr a w).eng = s.eng := rfl
@[simp] theorem State.wr_faults (a : Nat) (w : Word) : (s.wr a w).faults = s.faults := rfl
@[simp] theorem State.wr_resetReq (a : Nat) (w : Word) : (s.wr a w).resetReq = s.resetReq := rfl
@[simp] theorem State.wr_intc (a : Nat) (w : Word) : (s.wr a w).intc = s.intc := rfl
@[simp] theorem State.wr_almanac (a : Nat) (w : Word) : (s.wr a w).almanac = s.almanac := rfl
@[simp] theorem State.wr_plant (a : Nat) (w : Word) : (s.wr a w).plant = s.plant := rfl
@[simp] theorem State.wr_loops (a : Nat) (w : Word) : (s.wr a w).loops = s.loops := rfl
@[simp] theorem State.wr_trim (a : Nat) (w : Word) : (s.wr a w).trim = s.trim := rfl
@[simp] theorem State.wr_rflash (a : Nat) (w : Word) : (s.wr a w).rflash = s.rflash := rfl
@[simp] theorem State.wr_xflash (a : Nat) (w : Word) : (s.wr a w).xflash = s.xflash := rfl
@[simp] theorem State.wr_seq (a : Nat) (w : Word) : (s.wr a w).seq = s.seq := rfl
@[simp] theorem State.wr_rails (a : Nat) (w : Word) : (s.wr a w).rails = s.rails := rfl
@[simp] theorem State.wr_adc (a : Nat) (w : Word) : (s.wr a w).adc = s.adc := rfl
@[simp] theorem State.wr_health (a : Nat) (w : Word) : (s.wr a w).health = s.health := rfl
@[simp] theorem State.wr_otp (a : Nat) (w : Word) : (s.wr a w).otp = s.otp := rfl
@[simp] theorem State.wr_path (a : Nat) (w : Word) : (s.wr a w).path = s.path := rfl
@[simp] theorem State.wr_therm (a : Nat) (w : Word) : (s.wr a w).therm = s.therm := rfl
@[simp] theorem State.wr_timers (a : Nat) (w : Word) : (s.wr a w).timers = s.timers := rfl
@[simp] theorem State.wr_crc (a : Nat) (w : Word) : (s.wr a w).crc = s.crc := rfl
@[simp] theorem State.wr_links (a : Nat) (w : Word) : (s.wr a w).links = s.links := rfl
@[simp] theorem State.wr_gauged (a : Nat) (w : Word) : (s.wr a w).gauged = s.gauged := rfl
@[simp] theorem State.wr_gauge (a : Nat) (w : Word) : (s.wr a w).gauge = s.gauge := rfl
@[simp] theorem State.wr_resTimers (a : Nat) (w : Word) : (s.wr a w).resTimers = s.resTimers := rfl
@[simp] theorem State.wr_freeCtr (a : Nat) (w : Word) : (s.wr a w).freeCtr = s.freeCtr := rfl
@[simp] theorem State.byte_wr (a : Nat) (w : Word) (i : Nat) : (s.wr a w).byte i = s.byte i := rfl

/-! ## `setF` -/

@[simp] theorem State.setF_pending (fd : Fld) (v : Nat) : (s.setF fd v).pending = s.pending := rfl
@[simp] theorem State.setF_ticks (fd : Fld) (v : Nat) : (s.setF fd v).ticks = s.ticks := rfl
@[simp] theorem State.setF_sub (fd : Fld) (v : Nat) : (s.setF fd v).sub = s.sub := rfl
@[simp] theorem State.setF_power (fd : Fld) (v : Nat) : (s.setF fd v).power = s.power := rfl
@[simp] theorem State.setF_mem (fd : Fld) (v : Nat) : (s.setF fd v).mem = s.mem := rfl
@[simp] theorem State.setF_hostA (fd : Fld) (v : Nat) : (s.setF fd v).hostA = s.hostA := rfl
@[simp] theorem State.setF_hostB (fd : Fld) (v : Nat) : (s.setF fd v).hostB = s.hostB := rfl
@[simp] theorem State.setF_burst (fd : Fld) (v : Nat) : (s.setF fd v).burst = s.burst := rfl
@[simp] theorem State.setF_held (fd : Fld) (v : Nat) : (s.setF fd v).held = s.held := rfl
@[simp] theorem State.setF_reads (fd : Fld) (v : Nat) : (s.setF fd v).reads = s.reads := rfl
@[simp] theorem State.setF_eng (fd : Fld) (v : Nat) : (s.setF fd v).eng = s.eng := rfl
@[simp] theorem State.setF_faults (fd : Fld) (v : Nat) : (s.setF fd v).faults = s.faults := rfl
@[simp] theorem State.setF_resetReq (fd : Fld) (v : Nat) : (s.setF fd v).resetReq = s.resetReq := rfl
@[simp] theorem State.setF_intc (fd : Fld) (v : Nat) : (s.setF fd v).intc = s.intc := rfl
@[simp] theorem State.setF_almanac (fd : Fld) (v : Nat) : (s.setF fd v).almanac = s.almanac := rfl
@[simp] theorem State.setF_plant (fd : Fld) (v : Nat) : (s.setF fd v).plant = s.plant := rfl
@[simp] theorem State.setF_loops (fd : Fld) (v : Nat) : (s.setF fd v).loops = s.loops := rfl
@[simp] theorem State.setF_trim (fd : Fld) (v : Nat) : (s.setF fd v).trim = s.trim := rfl
@[simp] theorem State.setF_rflash (fd : Fld) (v : Nat) : (s.setF fd v).rflash = s.rflash := rfl
@[simp] theorem State.setF_xflash (fd : Fld) (v : Nat) : (s.setF fd v).xflash = s.xflash := rfl
@[simp] theorem State.setF_seq (fd : Fld) (v : Nat) : (s.setF fd v).seq = s.seq := rfl
@[simp] theorem State.setF_rails (fd : Fld) (v : Nat) : (s.setF fd v).rails = s.rails := rfl
@[simp] theorem State.setF_adc (fd : Fld) (v : Nat) : (s.setF fd v).adc = s.adc := rfl
@[simp] theorem State.setF_health (fd : Fld) (v : Nat) : (s.setF fd v).health = s.health := rfl
@[simp] theorem State.setF_otp (fd : Fld) (v : Nat) : (s.setF fd v).otp = s.otp := rfl
@[simp] theorem State.setF_path (fd : Fld) (v : Nat) : (s.setF fd v).path = s.path := rfl
@[simp] theorem State.setF_therm (fd : Fld) (v : Nat) : (s.setF fd v).therm = s.therm := rfl
@[simp] theorem State.setF_timers (fd : Fld) (v : Nat) : (s.setF fd v).timers = s.timers := rfl
@[simp] theorem State.setF_crc (fd : Fld) (v : Nat) : (s.setF fd v).crc = s.crc := rfl
@[simp] theorem State.setF_links (fd : Fld) (v : Nat) : (s.setF fd v).links = s.links := rfl
@[simp] theorem State.setF_gauged (fd : Fld) (v : Nat) : (s.setF fd v).gauged = s.gauged := rfl
@[simp] theorem State.setF_gauge (fd : Fld) (v : Nat) : (s.setF fd v).gauge = s.gauge := rfl
@[simp] theorem State.setF_resTimers (fd : Fld) (v : Nat) : (s.setF fd v).resTimers = s.resTimers := rfl
@[simp] theorem State.setF_freeCtr (fd : Fld) (v : Nat) : (s.setF fd v).freeCtr = s.freeCtr := rfl
@[simp] theorem State.byte_setF (fd : Fld) (v : Nat) (i : Nat) : (s.setF fd v).byte i = s.byte i := rfl

/-! ## `ev` -/

@[simp] theorem State.ev_pending (fd : Fld) : (s.ev fd).pending = s.pending := rfl
@[simp] theorem State.ev_ticks (fd : Fld) : (s.ev fd).ticks = s.ticks := rfl
@[simp] theorem State.ev_sub (fd : Fld) : (s.ev fd).sub = s.sub := rfl
@[simp] theorem State.ev_power (fd : Fld) : (s.ev fd).power = s.power := rfl
@[simp] theorem State.ev_mem (fd : Fld) : (s.ev fd).mem = s.mem := rfl
@[simp] theorem State.ev_hostA (fd : Fld) : (s.ev fd).hostA = s.hostA := rfl
@[simp] theorem State.ev_hostB (fd : Fld) : (s.ev fd).hostB = s.hostB := rfl
@[simp] theorem State.ev_burst (fd : Fld) : (s.ev fd).burst = s.burst := rfl
@[simp] theorem State.ev_held (fd : Fld) : (s.ev fd).held = s.held := rfl
@[simp] theorem State.ev_reads (fd : Fld) : (s.ev fd).reads = s.reads := rfl
@[simp] theorem State.ev_eng (fd : Fld) : (s.ev fd).eng = s.eng := rfl
@[simp] theorem State.ev_faults (fd : Fld) : (s.ev fd).faults = s.faults := rfl
@[simp] theorem State.ev_resetReq (fd : Fld) : (s.ev fd).resetReq = s.resetReq := rfl
@[simp] theorem State.ev_intc (fd : Fld) : (s.ev fd).intc = s.intc := rfl
@[simp] theorem State.ev_almanac (fd : Fld) : (s.ev fd).almanac = s.almanac := rfl
@[simp] theorem State.ev_plant (fd : Fld) : (s.ev fd).plant = s.plant := rfl
@[simp] theorem State.ev_loops (fd : Fld) : (s.ev fd).loops = s.loops := rfl
@[simp] theorem State.ev_trim (fd : Fld) : (s.ev fd).trim = s.trim := rfl
@[simp] theorem State.ev_rflash (fd : Fld) : (s.ev fd).rflash = s.rflash := rfl
@[simp] theorem State.ev_xflash (fd : Fld) : (s.ev fd).xflash = s.xflash := rfl
@[simp] theorem State.ev_seq (fd : Fld) : (s.ev fd).seq = s.seq := rfl
@[simp] theorem State.ev_rails (fd : Fld) : (s.ev fd).rails = s.rails := rfl
@[simp] theorem State.ev_adc (fd : Fld) : (s.ev fd).adc = s.adc := rfl
@[simp] theorem State.ev_health (fd : Fld) : (s.ev fd).health = s.health := rfl
@[simp] theorem State.ev_otp (fd : Fld) : (s.ev fd).otp = s.otp := rfl
@[simp] theorem State.ev_path (fd : Fld) : (s.ev fd).path = s.path := rfl
@[simp] theorem State.ev_therm (fd : Fld) : (s.ev fd).therm = s.therm := rfl
@[simp] theorem State.ev_timers (fd : Fld) : (s.ev fd).timers = s.timers := rfl
@[simp] theorem State.ev_crc (fd : Fld) : (s.ev fd).crc = s.crc := rfl
@[simp] theorem State.ev_links (fd : Fld) : (s.ev fd).links = s.links := rfl
@[simp] theorem State.ev_gauged (fd : Fld) : (s.ev fd).gauged = s.gauged := rfl
@[simp] theorem State.ev_gauge (fd : Fld) : (s.ev fd).gauge = s.gauge := rfl
@[simp] theorem State.ev_resTimers (fd : Fld) : (s.ev fd).resTimers = s.resTimers := rfl
@[simp] theorem State.ev_freeCtr (fd : Fld) : (s.ev fd).freeCtr = s.freeCtr := rfl
@[simp] theorem State.byte_ev (fd : Fld) (i : Nat) : (s.ev fd).byte i = s.byte i := rfl

/-! ## `setByte` -/

@[simp] theorem State.setByte_pending (a : Nat) (b : Byte) : (s.setByte a b).pending = s.pending := rfl
@[simp] theorem State.setByte_ticks (a : Nat) (b : Byte) : (s.setByte a b).ticks = s.ticks := rfl
@[simp] theorem State.setByte_sub (a : Nat) (b : Byte) : (s.setByte a b).sub = s.sub := rfl
@[simp] theorem State.setByte_power (a : Nat) (b : Byte) : (s.setByte a b).power = s.power := rfl
@[simp] theorem State.setByte_regs (a : Nat) (b : Byte) : (s.setByte a b).regs = s.regs := rfl
@[simp] theorem State.setByte_mem (a : Nat) (b : Byte) : (s.setByte a b).mem = tset memDefault s.mem a b := rfl
@[simp] theorem State.setByte_hostA (a : Nat) (b : Byte) : (s.setByte a b).hostA = s.hostA := rfl
@[simp] theorem State.setByte_hostB (a : Nat) (b : Byte) : (s.setByte a b).hostB = s.hostB := rfl
@[simp] theorem State.setByte_burst (a : Nat) (b : Byte) : (s.setByte a b).burst = s.burst := rfl
@[simp] theorem State.setByte_held (a : Nat) (b : Byte) : (s.setByte a b).held = s.held := rfl
@[simp] theorem State.setByte_reads (a : Nat) (b : Byte) : (s.setByte a b).reads = s.reads := rfl
@[simp] theorem State.setByte_eng (a : Nat) (b : Byte) : (s.setByte a b).eng = s.eng := rfl
@[simp] theorem State.setByte_faults (a : Nat) (b : Byte) : (s.setByte a b).faults = s.faults := rfl
@[simp] theorem State.setByte_resetReq (a : Nat) (b : Byte) : (s.setByte a b).resetReq = s.resetReq := rfl
@[simp] theorem State.setByte_intc (a : Nat) (b : Byte) : (s.setByte a b).intc = s.intc := rfl
@[simp] theorem State.setByte_almanac (a : Nat) (b : Byte) : (s.setByte a b).almanac = s.almanac := rfl
@[simp] theorem State.setByte_plant (a : Nat) (b : Byte) : (s.setByte a b).plant = s.plant := rfl
@[simp] theorem State.setByte_loops (a : Nat) (b : Byte) : (s.setByte a b).loops = s.loops := rfl
@[simp] theorem State.setByte_trim (a : Nat) (b : Byte) : (s.setByte a b).trim = s.trim := rfl
@[simp] theorem State.setByte_rflash (a : Nat) (b : Byte) : (s.setByte a b).rflash = s.rflash := rfl
@[simp] theorem State.setByte_xflash (a : Nat) (b : Byte) : (s.setByte a b).xflash = s.xflash := rfl
@[simp] theorem State.setByte_seq (a : Nat) (b : Byte) : (s.setByte a b).seq = s.seq := rfl
@[simp] theorem State.setByte_rails (a : Nat) (b : Byte) : (s.setByte a b).rails = s.rails := rfl
@[simp] theorem State.setByte_adc (a : Nat) (b : Byte) : (s.setByte a b).adc = s.adc := rfl
@[simp] theorem State.setByte_health (a : Nat) (b : Byte) : (s.setByte a b).health = s.health := rfl
@[simp] theorem State.setByte_otp (a : Nat) (b : Byte) : (s.setByte a b).otp = s.otp := rfl
@[simp] theorem State.setByte_path (a : Nat) (b : Byte) : (s.setByte a b).path = s.path := rfl
@[simp] theorem State.setByte_therm (a : Nat) (b : Byte) : (s.setByte a b).therm = s.therm := rfl
@[simp] theorem State.setByte_timers (a : Nat) (b : Byte) : (s.setByte a b).timers = s.timers := rfl
@[simp] theorem State.setByte_crc (a : Nat) (b : Byte) : (s.setByte a b).crc = s.crc := rfl
@[simp] theorem State.setByte_links (a : Nat) (b : Byte) : (s.setByte a b).links = s.links := rfl
@[simp] theorem State.setByte_gauged (a : Nat) (b : Byte) : (s.setByte a b).gauged = s.gauged := rfl
@[simp] theorem State.setByte_gauge (a : Nat) (b : Byte) : (s.setByte a b).gauge = s.gauge := rfl
@[simp] theorem State.setByte_resTimers (a : Nat) (b : Byte) : (s.setByte a b).resTimers = s.resTimers := rfl
@[simp] theorem State.setByte_freeCtr (a : Nat) (b : Byte) : (s.setByte a b).freeCtr = s.freeCtr := rfl
@[simp] theorem State.rd_setByte (a : Nat) (b : Byte) (i : Nat) : (s.setByte a b).rd i = s.rd i := rfl
@[simp] theorem State.f_setByte (a : Nat) (b : Byte) (fd : Fld) : (s.setByte a b).f fd = s.f fd := rfl
@[simp] theorem State.fb_setByte (a : Nat) (b : Byte) (fd : Fld) : (s.setByte a b).fb fd = s.fb fd := rfl

/-! ## `nextFree` -/

@[simp] theorem State.nextFree_pending : (s.nextFree).pending = s.pending := rfl
@[simp] theorem State.nextFree_ticks : (s.nextFree).ticks = s.ticks := rfl
@[simp] theorem State.nextFree_sub : (s.nextFree).sub = s.sub := rfl
@[simp] theorem State.nextFree_power : (s.nextFree).power = s.power := rfl
@[simp] theorem State.nextFree_regs : (s.nextFree).regs = s.regs := rfl
@[simp] theorem State.nextFree_mem : (s.nextFree).mem = s.mem := rfl
@[simp] theorem State.nextFree_hostA : (s.nextFree).hostA = s.hostA := rfl
@[simp] theorem State.nextFree_hostB : (s.nextFree).hostB = s.hostB := rfl
@[simp] theorem State.nextFree_burst : (s.nextFree).burst = s.burst := rfl
@[simp] theorem State.nextFree_held : (s.nextFree).held = s.held := rfl
@[simp] theorem State.nextFree_reads : (s.nextFree).reads = s.reads := rfl
@[simp] theorem State.nextFree_eng : (s.nextFree).eng = s.eng := rfl
@[simp] theorem State.nextFree_faults : (s.nextFree).faults = s.faults := rfl
@[simp] theorem State.nextFree_resetReq : (s.nextFree).resetReq = s.resetReq := rfl
@[simp] theorem State.nextFree_intc : (s.nextFree).intc = s.intc := rfl
@[simp] theorem State.nextFree_almanac : (s.nextFree).almanac = s.almanac := rfl
@[simp] theorem State.nextFree_plant : (s.nextFree).plant = s.plant := rfl
@[simp] theorem State.nextFree_loops : (s.nextFree).loops = s.loops := rfl
@[simp] theorem State.nextFree_trim : (s.nextFree).trim = s.trim := rfl
@[simp] theorem State.nextFree_rflash : (s.nextFree).rflash = s.rflash := rfl
@[simp] theorem State.nextFree_xflash : (s.nextFree).xflash = s.xflash := rfl
@[simp] theorem State.nextFree_seq : (s.nextFree).seq = s.seq := rfl
@[simp] theorem State.nextFree_rails : (s.nextFree).rails = s.rails := rfl
@[simp] theorem State.nextFree_adc : (s.nextFree).adc = s.adc := rfl
@[simp] theorem State.nextFree_health : (s.nextFree).health = s.health := rfl
@[simp] theorem State.nextFree_otp : (s.nextFree).otp = s.otp := rfl
@[simp] theorem State.nextFree_path : (s.nextFree).path = s.path := rfl
@[simp] theorem State.nextFree_therm : (s.nextFree).therm = s.therm := rfl
@[simp] theorem State.nextFree_timers : (s.nextFree).timers = s.timers := rfl
@[simp] theorem State.nextFree_crc : (s.nextFree).crc = s.crc := rfl
@[simp] theorem State.nextFree_links : (s.nextFree).links = s.links := rfl
@[simp] theorem State.nextFree_gauged : (s.nextFree).gauged = s.gauged := rfl
@[simp] theorem State.nextFree_gauge : (s.nextFree).gauge = s.gauge := rfl
@[simp] theorem State.nextFree_resTimers : (s.nextFree).resTimers = s.resTimers := rfl
@[simp] theorem State.nextFree_freeCtr : (s.nextFree).freeCtr = s.freeCtr + 1 := rfl
@[simp] theorem State.rd_nextFree  (i : Nat) : (s.nextFree).rd i = s.rd i := rfl
@[simp] theorem State.f_nextFree  (fd : Fld) : (s.nextFree).f fd = s.f fd := rfl
@[simp] theorem State.fb_nextFree  (fd : Fld) : (s.nextFree).fb fd = s.fb fd := rfl
@[simp] theorem State.byte_nextFree  (i : Nat) : (s.nextFree).byte i = s.byte i := rfl

/-! ## `setTh` -/

@[simp] theorem State.setTh_pending (t : Nat) (x : Thread) : (s.setTh t x).pending = s.pending := rfl
@[simp] theorem State.setTh_ticks (t : Nat) (x : Thread) : (s.setTh t x).ticks = s.ticks := rfl
@[simp] theorem State.setTh_sub (t : Nat) (x : Thread) : (s.setTh t x).sub = s.sub := rfl
@[simp] theorem State.setTh_power (t : Nat) (x : Thread) : (s.setTh t x).power = s.power := rfl
@[simp] theorem State.setTh_regs (t : Nat) (x : Thread) : (s.setTh t x).regs = s.regs := rfl
@[simp] theorem State.setTh_mem (t : Nat) (x : Thread) : (s.setTh t x).mem = s.mem := rfl
@[simp] theorem State.setTh_hostA (t : Nat) (x : Thread) : (s.setTh t x).hostA = s.hostA := rfl
@[simp] theorem State.setTh_hostB (t : Nat) (x : Thread) : (s.setTh t x).hostB = s.hostB := rfl
@[simp] theorem State.setTh_burst (t : Nat) (x : Thread) : (s.setTh t x).burst = s.burst := rfl
@[simp] theorem State.setTh_held (t : Nat) (x : Thread) : (s.setTh t x).held = s.held := rfl
@[simp] theorem State.setTh_reads (t : Nat) (x : Thread) : (s.setTh t x).reads = s.reads := rfl
@[simp] theorem State.setTh_faults (t : Nat) (x : Thread) : (s.setTh t x).faults = s.faults := rfl
@[simp] theorem State.setTh_resetReq (t : Nat) (x : Thread) : (s.setTh t x).resetReq = s.resetReq := rfl
@[simp] theorem State.setTh_intc (t : Nat) (x : Thread) : (s.setTh t x).intc = s.intc := rfl
@[simp] theorem State.setTh_almanac (t : Nat) (x : Thread) : (s.setTh t x).almanac = s.almanac := rfl
@[simp] theorem State.setTh_plant (t : Nat) (x : Thread) : (s.setTh t x).plant = s.plant := rfl
@[simp] theorem State.setTh_loops (t : Nat) (x : Thread) : (s.setTh t x).loops = s.loops := rfl
@[simp] theorem State.setTh_trim (t : Nat) (x : Thread) : (s.setTh t x).trim = s.trim := rfl
@[simp] theorem State.setTh_rflash (t : Nat) (x : Thread) : (s.setTh t x).rflash = s.rflash := rfl
@[simp] theorem State.setTh_xflash (t : Nat) (x : Thread) : (s.setTh t x).xflash = s.xflash := rfl
@[simp] theorem State.setTh_seq (t : Nat) (x : Thread) : (s.setTh t x).seq = s.seq := rfl
@[simp] theorem State.setTh_rails (t : Nat) (x : Thread) : (s.setTh t x).rails = s.rails := rfl
@[simp] theorem State.setTh_adc (t : Nat) (x : Thread) : (s.setTh t x).adc = s.adc := rfl
@[simp] theorem State.setTh_health (t : Nat) (x : Thread) : (s.setTh t x).health = s.health := rfl
@[simp] theorem State.setTh_otp (t : Nat) (x : Thread) : (s.setTh t x).otp = s.otp := rfl
@[simp] theorem State.setTh_path (t : Nat) (x : Thread) : (s.setTh t x).path = s.path := rfl
@[simp] theorem State.setTh_therm (t : Nat) (x : Thread) : (s.setTh t x).therm = s.therm := rfl
@[simp] theorem State.setTh_timers (t : Nat) (x : Thread) : (s.setTh t x).timers = s.timers := rfl
@[simp] theorem State.setTh_crc (t : Nat) (x : Thread) : (s.setTh t x).crc = s.crc := rfl
@[simp] theorem State.setTh_links (t : Nat) (x : Thread) : (s.setTh t x).links = s.links := rfl
@[simp] theorem State.setTh_gauged (t : Nat) (x : Thread) : (s.setTh t x).gauged = s.gauged := rfl
@[simp] theorem State.setTh_gauge (t : Nat) (x : Thread) : (s.setTh t x).gauge = s.gauge := rfl
@[simp] theorem State.setTh_resTimers (t : Nat) (x : Thread) : (s.setTh t x).resTimers = s.resTimers := rfl
@[simp] theorem State.setTh_freeCtr (t : Nat) (x : Thread) : (s.setTh t x).freeCtr = s.freeCtr := rfl
@[simp] theorem State.rd_setTh (t : Nat) (x : Thread) (i : Nat) : (s.setTh t x).rd i = s.rd i := rfl
@[simp] theorem State.f_setTh (t : Nat) (x : Thread) (fd : Fld) : (s.setTh t x).f fd = s.f fd := rfl
@[simp] theorem State.fb_setTh (t : Nat) (x : Thread) (fd : Fld) : (s.setTh t x).fb fd = s.fb fd := rfl
@[simp] theorem State.byte_setTh (t : Nat) (x : Thread) (i : Nat) : (s.setTh t x).byte i = s.byte i := rfl

/-! ## `setEng` -/

@[simp] theorem State.setEng_pending (e : Engine) : (s.setEng e).pending = s.pending := rfl
@[simp] theorem State.setEng_ticks (e : Engine) : (s.setEng e).ticks = s.ticks := rfl
@[simp] theorem State.setEng_sub (e : Engine) : (s.setEng e).sub = s.sub := rfl
@[simp] theorem State.setEng_power (e : Engine) : (s.setEng e).power = s.power := rfl
@[simp] theorem State.setEng_regs (e : Engine) : (s.setEng e).regs = s.regs := rfl
@[simp] theorem State.setEng_mem (e : Engine) : (s.setEng e).mem = s.mem := rfl
@[simp] theorem State.setEng_hostA (e : Engine) : (s.setEng e).hostA = s.hostA := rfl
@[simp] theorem State.setEng_hostB (e : Engine) : (s.setEng e).hostB = s.hostB := rfl
@[simp] theorem State.setEng_burst (e : Engine) : (s.setEng e).burst = s.burst := rfl
@[simp] theorem State.setEng_held (e : Engine) : (s.setEng e).held = s.held := rfl
@[simp] theorem State.setEng_reads (e : Engine) : (s.setEng e).reads = s.reads := rfl
@[simp] theorem State.setEng_eng (e : Engine) : (s.setEng e).eng = e := rfl
@[simp] theorem State.setEng_faults (e : Engine) : (s.setEng e).faults = s.faults := rfl
@[simp] theorem State.setEng_resetReq (e : Engine) : (s.setEng e).resetReq = s.resetReq := rfl
@[simp] theorem State.setEng_intc (e : Engine) : (s.setEng e).intc = s.intc := rfl
@[simp] theorem State.setEng_almanac (e : Engine) : (s.setEng e).almanac = s.almanac := rfl
@[simp] theorem State.setEng_plant (e : Engine) : (s.setEng e).plant = s.plant := rfl
@[simp] theorem State.setEng_loops (e : Engine) : (s.setEng e).loops = s.loops := rfl
@[simp] theorem State.setEng_trim (e : Engine) : (s.setEng e).trim = s.trim := rfl
@[simp] theorem State.setEng_rflash (e : Engine) : (s.setEng e).rflash = s.rflash := rfl
@[simp] theorem State.setEng_xflash (e : Engine) : (s.setEng e).xflash = s.xflash := rfl
@[simp] theorem State.setEng_seq (e : Engine) : (s.setEng e).seq = s.seq := rfl
@[simp] theorem State.setEng_rails (e : Engine) : (s.setEng e).rails = s.rails := rfl
@[simp] theorem State.setEng_adc (e : Engine) : (s.setEng e).adc = s.adc := rfl
@[simp] theorem State.setEng_health (e : Engine) : (s.setEng e).health = s.health := rfl
@[simp] theorem State.setEng_otp (e : Engine) : (s.setEng e).otp = s.otp := rfl
@[simp] theorem State.setEng_path (e : Engine) : (s.setEng e).path = s.path := rfl
@[simp] theorem State.setEng_therm (e : Engine) : (s.setEng e).therm = s.therm := rfl
@[simp] theorem State.setEng_timers (e : Engine) : (s.setEng e).timers = s.timers := rfl
@[simp] theorem State.setEng_crc (e : Engine) : (s.setEng e).crc = s.crc := rfl
@[simp] theorem State.setEng_links (e : Engine) : (s.setEng e).links = s.links := rfl
@[simp] theorem State.setEng_gauged (e : Engine) : (s.setEng e).gauged = s.gauged := rfl
@[simp] theorem State.setEng_gauge (e : Engine) : (s.setEng e).gauge = s.gauge := rfl
@[simp] theorem State.setEng_resTimers (e : Engine) : (s.setEng e).resTimers = s.resTimers := rfl
@[simp] theorem State.setEng_freeCtr (e : Engine) : (s.setEng e).freeCtr = s.freeCtr := rfl
@[simp] theorem State.rd_setEng (e : Engine) (i : Nat) : (s.setEng e).rd i = s.rd i := rfl
@[simp] theorem State.f_setEng (e : Engine) (fd : Fld) : (s.setEng e).f fd = s.f fd := rfl
@[simp] theorem State.fb_setEng (e : Engine) (fd : Fld) : (s.setEng e).fb fd = s.fb fd := rfl
@[simp] theorem State.byte_setEng (e : Engine) (i : Nat) : (s.setEng e).byte i = s.byte i := rfl

/-! ## `setSrc` -/

@[simp] theorem State.setSrc_pending (k : Nat) (x : FaultSrc) : (s.setSrc k x).pending = s.pending := rfl
@[simp] theorem State.setSrc_ticks (k : Nat) (x : FaultSrc) : (s.setSrc k x).ticks = s.ticks := rfl
@[simp] theorem State.setSrc_sub (k : Nat) (x : FaultSrc) : (s.setSrc k x).sub = s.sub := rfl
@[simp] theorem State.setSrc_power (k : Nat) (x : FaultSrc) : (s.setSrc k x).power = s.power := rfl
@[simp] theorem State.setSrc_regs (k : Nat) (x : FaultSrc) : (s.setSrc k x).regs = s.regs := rfl
@[simp] theorem State.setSrc_mem (k : Nat) (x : FaultSrc) : (s.setSrc k x).mem = s.mem := rfl
@[simp] theorem State.setSrc_hostA (k : Nat) (x : FaultSrc) : (s.setSrc k x).hostA = s.hostA := rfl
@[simp] theorem State.setSrc_hostB (k : Nat) (x : FaultSrc) : (s.setSrc k x).hostB = s.hostB := rfl
@[simp] theorem State.setSrc_burst (k : Nat) (x : FaultSrc) : (s.setSrc k x).burst = s.burst := rfl
@[simp] theorem State.setSrc_held (k : Nat) (x : FaultSrc) : (s.setSrc k x).held = s.held := rfl
@[simp] theorem State.setSrc_reads (k : Nat) (x : FaultSrc) : (s.setSrc k x).reads = s.reads := rfl
@[simp] theorem State.setSrc_eng (k : Nat) (x : FaultSrc) : (s.setSrc k x).eng = s.eng := rfl
@[simp] theorem State.setSrc_faults (k : Nat) (x : FaultSrc) : (s.setSrc k x).faults = tset (fun _ => FaultSrc.init) s.faults k x := rfl
@[simp] theorem State.setSrc_resetReq (k : Nat) (x : FaultSrc) : (s.setSrc k x).resetReq = s.resetReq := rfl
@[simp] theorem State.setSrc_intc (k : Nat) (x : FaultSrc) : (s.setSrc k x).intc = s.intc := rfl
@[simp] theorem State.setSrc_almanac (k : Nat) (x : FaultSrc) : (s.setSrc k x).almanac = s.almanac := rfl
@[simp] theorem State.setSrc_plant (k : Nat) (x : FaultSrc) : (s.setSrc k x).plant = s.plant := rfl
@[simp] theorem State.setSrc_loops (k : Nat) (x : FaultSrc) : (s.setSrc k x).loops = s.loops := rfl
@[simp] theorem State.setSrc_trim (k : Nat) (x : FaultSrc) : (s.setSrc k x).trim = s.trim := rfl
@[simp] theorem State.setSrc_rflash (k : Nat) (x : FaultSrc) : (s.setSrc k x).rflash = s.rflash := rfl
@[simp] theorem State.setSrc_xflash (k : Nat) (x : FaultSrc) : (s.setSrc k x).xflash = s.xflash := rfl
@[simp] theorem State.setSrc_seq (k : Nat) (x : FaultSrc) : (s.setSrc k x).seq = s.seq := rfl
@[simp] theorem State.setSrc_rails (k : Nat) (x : FaultSrc) : (s.setSrc k x).rails = s.rails := rfl
@[simp] theorem State.setSrc_adc (k : Nat) (x : FaultSrc) : (s.setSrc k x).adc = s.adc := rfl
@[simp] theorem State.setSrc_health (k : Nat) (x : FaultSrc) : (s.setSrc k x).health = s.health := rfl
@[simp] theorem State.setSrc_otp (k : Nat) (x : FaultSrc) : (s.setSrc k x).otp = s.otp := rfl
@[simp] theorem State.setSrc_path (k : Nat) (x : FaultSrc) : (s.setSrc k x).path = s.path := rfl
@[simp] theorem State.setSrc_therm (k : Nat) (x : FaultSrc) : (s.setSrc k x).therm = s.therm := rfl
@[simp] theorem State.setSrc_timers (k : Nat) (x : FaultSrc) : (s.setSrc k x).timers = s.timers := rfl
@[simp] theorem State.setSrc_crc (k : Nat) (x : FaultSrc) : (s.setSrc k x).crc = s.crc := rfl
@[simp] theorem State.setSrc_links (k : Nat) (x : FaultSrc) : (s.setSrc k x).links = s.links := rfl
@[simp] theorem State.setSrc_gauged (k : Nat) (x : FaultSrc) : (s.setSrc k x).gauged = s.gauged := rfl
@[simp] theorem State.setSrc_gauge (k : Nat) (x : FaultSrc) : (s.setSrc k x).gauge = s.gauge := rfl
@[simp] theorem State.setSrc_resTimers (k : Nat) (x : FaultSrc) : (s.setSrc k x).resTimers = s.resTimers := rfl
@[simp] theorem State.setSrc_freeCtr (k : Nat) (x : FaultSrc) : (s.setSrc k x).freeCtr = s.freeCtr := rfl
@[simp] theorem State.rd_setSrc (k : Nat) (x : FaultSrc) (i : Nat) : (s.setSrc k x).rd i = s.rd i := rfl
@[simp] theorem State.f_setSrc (k : Nat) (x : FaultSrc) (fd : Fld) : (s.setSrc k x).f fd = s.f fd := rfl
@[simp] theorem State.fb_setSrc (k : Nat) (x : FaultSrc) (fd : Fld) : (s.setSrc k x).fb fd = s.fb fd := rfl
@[simp] theorem State.byte_setSrc (k : Nat) (x : FaultSrc) (i : Nat) : (s.setSrc k x).byte i = s.byte i := rfl

/-! ## `setRec` -/

@[simp] theorem State.setRec_pending (r : RecFlash) : (s.setRec r).pending = s.pending := rfl
@[simp] theorem State.setRec_ticks (r : RecFlash) : (s.setRec r).ticks = s.ticks := rfl
@[simp] theorem State.setRec_sub (r : RecFlash) : (s.setRec r).sub = s.sub := rfl
@[simp] theorem State.setRec_power (r : RecFlash) : (s.setRec r).power = s.power := rfl
@[simp] theorem State.setRec_regs (r : RecFlash) : (s.setRec r).regs = s.regs := rfl
@[simp] theorem State.setRec_mem (r : RecFlash) : (s.setRec r).mem = s.mem := rfl
@[simp] theorem State.setRec_hostA (r : RecFlash) : (s.setRec r).hostA = s.hostA := rfl
@[simp] theorem State.setRec_hostB (r : RecFlash) : (s.setRec r).hostB = s.hostB := rfl
@[simp] theorem State.setRec_burst (r : RecFlash) : (s.setRec r).burst = s.burst := rfl
@[simp] theorem State.setRec_held (r : RecFlash) : (s.setRec r).held = s.held := rfl
@[simp] theorem State.setRec_reads (r : RecFlash) : (s.setRec r).reads = s.reads := rfl
@[simp] theorem State.setRec_eng (r : RecFlash) : (s.setRec r).eng = s.eng := rfl
@[simp] theorem State.setRec_faults (r : RecFlash) : (s.setRec r).faults = s.faults := rfl
@[simp] theorem State.setRec_resetReq (r : RecFlash) : (s.setRec r).resetReq = s.resetReq := rfl
@[simp] theorem State.setRec_intc (r : RecFlash) : (s.setRec r).intc = s.intc := rfl
@[simp] theorem State.setRec_almanac (r : RecFlash) : (s.setRec r).almanac = s.almanac := rfl
@[simp] theorem State.setRec_plant (r : RecFlash) : (s.setRec r).plant = s.plant := rfl
@[simp] theorem State.setRec_loops (r : RecFlash) : (s.setRec r).loops = s.loops := rfl
@[simp] theorem State.setRec_trim (r : RecFlash) : (s.setRec r).trim = s.trim := rfl
@[simp] theorem State.setRec_rflash (r : RecFlash) : (s.setRec r).rflash = r := rfl
@[simp] theorem State.setRec_xflash (r : RecFlash) : (s.setRec r).xflash = s.xflash := rfl
@[simp] theorem State.setRec_seq (r : RecFlash) : (s.setRec r).seq = s.seq := rfl
@[simp] theorem State.setRec_rails (r : RecFlash) : (s.setRec r).rails = s.rails := rfl
@[simp] theorem State.setRec_adc (r : RecFlash) : (s.setRec r).adc = s.adc := rfl
@[simp] theorem State.setRec_health (r : RecFlash) : (s.setRec r).health = s.health := rfl
@[simp] theorem State.setRec_otp (r : RecFlash) : (s.setRec r).otp = s.otp := rfl
@[simp] theorem State.setRec_path (r : RecFlash) : (s.setRec r).path = s.path := rfl
@[simp] theorem State.setRec_therm (r : RecFlash) : (s.setRec r).therm = s.therm := rfl
@[simp] theorem State.setRec_timers (r : RecFlash) : (s.setRec r).timers = s.timers := rfl
@[simp] theorem State.setRec_crc (r : RecFlash) : (s.setRec r).crc = s.crc := rfl
@[simp] theorem State.setRec_links (r : RecFlash) : (s.setRec r).links = s.links := rfl
@[simp] theorem State.setRec_gauged (r : RecFlash) : (s.setRec r).gauged = s.gauged := rfl
@[simp] theorem State.setRec_gauge (r : RecFlash) : (s.setRec r).gauge = s.gauge := rfl
@[simp] theorem State.setRec_resTimers (r : RecFlash) : (s.setRec r).resTimers = s.resTimers := rfl
@[simp] theorem State.setRec_freeCtr (r : RecFlash) : (s.setRec r).freeCtr = s.freeCtr := rfl
@[simp] theorem State.rd_setRec (r : RecFlash) (i : Nat) : (s.setRec r).rd i = s.rd i := rfl
@[simp] theorem State.f_setRec (r : RecFlash) (fd : Fld) : (s.setRec r).f fd = s.f fd := rfl
@[simp] theorem State.fb_setRec (r : RecFlash) (fd : Fld) : (s.setRec r).fb fd = s.fb fd := rfl
@[simp] theorem State.byte_setRec (r : RecFlash) (i : Nat) : (s.setRec r).byte i = s.byte i := rfl

/-! ## `setTherm` -/

@[simp] theorem State.setTherm_pending (t : Therm) : (s.setTherm t).pending = s.pending := rfl
@[simp] theorem State.setTherm_ticks (t : Therm) : (s.setTherm t).ticks = s.ticks := rfl
@[simp] theorem State.setTherm_sub (t : Therm) : (s.setTherm t).sub = s.sub := rfl
@[simp] theorem State.setTherm_power (t : Therm) : (s.setTherm t).power = s.power := rfl
@[simp] theorem State.setTherm_regs (t : Therm) : (s.setTherm t).regs = s.regs := rfl
@[simp] theorem State.setTherm_mem (t : Therm) : (s.setTherm t).mem = s.mem := rfl
@[simp] theorem State.setTherm_hostA (t : Therm) : (s.setTherm t).hostA = s.hostA := rfl
@[simp] theorem State.setTherm_hostB (t : Therm) : (s.setTherm t).hostB = s.hostB := rfl
@[simp] theorem State.setTherm_burst (t : Therm) : (s.setTherm t).burst = s.burst := rfl
@[simp] theorem State.setTherm_held (t : Therm) : (s.setTherm t).held = s.held := rfl
@[simp] theorem State.setTherm_reads (t : Therm) : (s.setTherm t).reads = s.reads := rfl
@[simp] theorem State.setTherm_eng (t : Therm) : (s.setTherm t).eng = s.eng := rfl
@[simp] theorem State.setTherm_faults (t : Therm) : (s.setTherm t).faults = s.faults := rfl
@[simp] theorem State.setTherm_resetReq (t : Therm) : (s.setTherm t).resetReq = s.resetReq := rfl
@[simp] theorem State.setTherm_intc (t : Therm) : (s.setTherm t).intc = s.intc := rfl
@[simp] theorem State.setTherm_almanac (t : Therm) : (s.setTherm t).almanac = s.almanac := rfl
@[simp] theorem State.setTherm_plant (t : Therm) : (s.setTherm t).plant = s.plant := rfl
@[simp] theorem State.setTherm_loops (t : Therm) : (s.setTherm t).loops = s.loops := rfl
@[simp] theorem State.setTherm_trim (t : Therm) : (s.setTherm t).trim = s.trim := rfl
@[simp] theorem State.setTherm_rflash (t : Therm) : (s.setTherm t).rflash = s.rflash := rfl
@[simp] theorem State.setTherm_xflash (t : Therm) : (s.setTherm t).xflash = s.xflash := rfl
@[simp] theorem State.setTherm_seq (t : Therm) : (s.setTherm t).seq = s.seq := rfl
@[simp] theorem State.setTherm_rails (t : Therm) : (s.setTherm t).rails = s.rails := rfl
@[simp] theorem State.setTherm_adc (t : Therm) : (s.setTherm t).adc = s.adc := rfl
@[simp] theorem State.setTherm_health (t : Therm) : (s.setTherm t).health = s.health := rfl
@[simp] theorem State.setTherm_otp (t : Therm) : (s.setTherm t).otp = s.otp := rfl
@[simp] theorem State.setTherm_path (t : Therm) : (s.setTherm t).path = s.path := rfl
@[simp] theorem State.setTherm_therm (t : Therm) : (s.setTherm t).therm = t := rfl
@[simp] theorem State.setTherm_timers (t : Therm) : (s.setTherm t).timers = s.timers := rfl
@[simp] theorem State.setTherm_crc (t : Therm) : (s.setTherm t).crc = s.crc := rfl
@[simp] theorem State.setTherm_links (t : Therm) : (s.setTherm t).links = s.links := rfl
@[simp] theorem State.setTherm_gauged (t : Therm) : (s.setTherm t).gauged = s.gauged := rfl
@[simp] theorem State.setTherm_gauge (t : Therm) : (s.setTherm t).gauge = s.gauge := rfl
@[simp] theorem State.setTherm_resTimers (t : Therm) : (s.setTherm t).resTimers = s.resTimers := rfl
@[simp] theorem State.setTherm_freeCtr (t : Therm) : (s.setTherm t).freeCtr = s.freeCtr := rfl
@[simp] theorem State.rd_setTherm (t : Therm) (i : Nat) : (s.setTherm t).rd i = s.rd i := rfl
@[simp] theorem State.f_setTherm (t : Therm) (fd : Fld) : (s.setTherm t).f fd = s.f fd := rfl
@[simp] theorem State.fb_setTherm (t : Therm) (fd : Fld) : (s.setTherm t).fb fd = s.fb fd := rfl
@[simp] theorem State.byte_setTherm (t : Therm) (i : Nat) : (s.setTherm t).byte i = s.byte i := rfl

/-! ## `setPath` -/

@[simp] theorem State.setPath_pending (p : Path) : (s.setPath p).pending = s.pending := rfl
@[simp] theorem State.setPath_ticks (p : Path) : (s.setPath p).ticks = s.ticks := rfl
@[simp] theorem State.setPath_sub (p : Path) : (s.setPath p).sub = s.sub := rfl
@[simp] theorem State.setPath_power (p : Path) : (s.setPath p).power = s.power := rfl
@[simp] theorem State.setPath_regs (p : Path) : (s.setPath p).regs = s.regs := rfl
@[simp] theorem State.setPath_mem (p : Path) : (s.setPath p).mem = s.mem := rfl
@[simp] theorem State.setPath_hostA (p : Path) : (s.setPath p).hostA = s.hostA := rfl
@[simp] theorem State.setPath_hostB (p : Path) : (s.setPath p).hostB = s.hostB := rfl
@[simp] theorem State.setPath_burst (p : Path) : (s.setPath p).burst = s.burst := rfl
@[simp] theorem State.setPath_held (p : Path) : (s.setPath p).held = s.held := rfl
@[simp] theorem State.setPath_reads (p : Path) : (s.setPath p).reads = s.reads := rfl
@[simp] theorem State.setPath_eng (p : Path) : (s.setPath p).eng = s.eng := rfl
@[simp] theorem State.setPath_faults (p : Path) : (s.setPath p).faults = s.faults := rfl
@[simp] theorem State.setPath_resetReq (p : Path) : (s.setPath p).resetReq = s.resetReq := rfl
@[simp] theorem State.setPath_intc (p : Path) : (s.setPath p).intc = s.intc := rfl
@[simp] theorem State.setPath_almanac (p : Path) : (s.setPath p).almanac = s.almanac := rfl
@[simp] theorem State.setPath_plant (p : Path) : (s.setPath p).plant = s.plant := rfl
@[simp] theorem State.setPath_loops (p : Path) : (s.setPath p).loops = s.loops := rfl
@[simp] theorem State.setPath_trim (p : Path) : (s.setPath p).trim = s.trim := rfl
@[simp] theorem State.setPath_rflash (p : Path) : (s.setPath p).rflash = s.rflash := rfl
@[simp] theorem State.setPath_xflash (p : Path) : (s.setPath p).xflash = s.xflash := rfl
@[simp] theorem State.setPath_seq (p : Path) : (s.setPath p).seq = s.seq := rfl
@[simp] theorem State.setPath_rails (p : Path) : (s.setPath p).rails = s.rails := rfl
@[simp] theorem State.setPath_adc (p : Path) : (s.setPath p).adc = s.adc := rfl
@[simp] theorem State.setPath_health (p : Path) : (s.setPath p).health = s.health := rfl
@[simp] theorem State.setPath_otp (p : Path) : (s.setPath p).otp = s.otp := rfl
@[simp] theorem State.setPath_path (p : Path) : (s.setPath p).path = p := rfl
@[simp] theorem State.setPath_therm (p : Path) : (s.setPath p).therm = s.therm := rfl
@[simp] theorem State.setPath_timers (p : Path) : (s.setPath p).timers = s.timers := rfl
@[simp] theorem State.setPath_crc (p : Path) : (s.setPath p).crc = s.crc := rfl
@[simp] theorem State.setPath_links (p : Path) : (s.setPath p).links = s.links := rfl
@[simp] theorem State.setPath_gauged (p : Path) : (s.setPath p).gauged = s.gauged := rfl
@[simp] theorem State.setPath_gauge (p : Path) : (s.setPath p).gauge = s.gauge := rfl
@[simp] theorem State.setPath_resTimers (p : Path) : (s.setPath p).resTimers = s.resTimers := rfl
@[simp] theorem State.setPath_freeCtr (p : Path) : (s.setPath p).freeCtr = s.freeCtr := rfl
@[simp] theorem State.rd_setPath (p : Path) (i : Nat) : (s.setPath p).rd i = s.rd i := rfl
@[simp] theorem State.f_setPath (p : Path) (fd : Fld) : (s.setPath p).f fd = s.f fd := rfl
@[simp] theorem State.fb_setPath (p : Path) (fd : Fld) : (s.setPath p).fb fd = s.fb fd := rfl
@[simp] theorem State.byte_setPath (p : Path) (i : Nat) : (s.setPath p).byte i = s.byte i := rfl

/-! ## `setX` -/

@[simp] theorem State.setX_pending (x : XFlash) : (s.setX x).pending = s.pending := rfl
@[simp] theorem State.setX_ticks (x : XFlash) : (s.setX x).ticks = s.ticks := rfl
@[simp] theorem State.setX_sub (x : XFlash) : (s.setX x).sub = s.sub := rfl
@[simp] theorem State.setX_power (x : XFlash) : (s.setX x).power = s.power := rfl
@[simp] theorem State.setX_regs (x : XFlash) : (s.setX x).regs = s.regs := rfl
@[simp] theorem State.setX_mem (x : XFlash) : (s.setX x).mem = s.mem := rfl
@[simp] theorem State.setX_hostA (x : XFlash) : (s.setX x).hostA = s.hostA := rfl
@[simp] theorem State.setX_hostB (x : XFlash) : (s.setX x).hostB = s.hostB := rfl
@[simp] theorem State.setX_burst (x : XFlash) : (s.setX x).burst = s.burst := rfl
@[simp] theorem State.setX_held (x : XFlash) : (s.setX x).held = s.held := rfl
@[simp] theorem State.setX_reads (x : XFlash) : (s.setX x).reads = s.reads := rfl
@[simp] theorem State.setX_eng (x : XFlash) : (s.setX x).eng = s.eng := rfl
@[simp] theorem State.setX_faults (x : XFlash) : (s.setX x).faults = s.faults := rfl
@[simp] theorem State.setX_resetReq (x : XFlash) : (s.setX x).resetReq = s.resetReq := rfl
@[simp] theorem State.setX_intc (x : XFlash) : (s.setX x).intc = s.intc := rfl
@[simp] theorem State.setX_almanac (x : XFlash) : (s.setX x).almanac = s.almanac := rfl
@[simp] theorem State.setX_plant (x : XFlash) : (s.setX x).plant = s.plant := rfl
@[simp] theorem State.setX_loops (x : XFlash) : (s.setX x).loops = s.loops := rfl
@[simp] theorem State.setX_trim (x : XFlash) : (s.setX x).trim = s.trim := rfl
@[simp] theorem State.setX_rflash (x : XFlash) : (s.setX x).rflash = s.rflash := rfl
@[simp] theorem State.setX_xflash (x : XFlash) : (s.setX x).xflash = x := rfl
@[simp] theorem State.setX_seq (x : XFlash) : (s.setX x).seq = s.seq := rfl
@[simp] theorem State.setX_rails (x : XFlash) : (s.setX x).rails = s.rails := rfl
@[simp] theorem State.setX_adc (x : XFlash) : (s.setX x).adc = s.adc := rfl
@[simp] theorem State.setX_health (x : XFlash) : (s.setX x).health = s.health := rfl
@[simp] theorem State.setX_otp (x : XFlash) : (s.setX x).otp = s.otp := rfl
@[simp] theorem State.setX_path (x : XFlash) : (s.setX x).path = s.path := rfl
@[simp] theorem State.setX_therm (x : XFlash) : (s.setX x).therm = s.therm := rfl
@[simp] theorem State.setX_timers (x : XFlash) : (s.setX x).timers = s.timers := rfl
@[simp] theorem State.setX_crc (x : XFlash) : (s.setX x).crc = s.crc := rfl
@[simp] theorem State.setX_links (x : XFlash) : (s.setX x).links = s.links := rfl
@[simp] theorem State.setX_gauged (x : XFlash) : (s.setX x).gauged = s.gauged := rfl
@[simp] theorem State.setX_gauge (x : XFlash) : (s.setX x).gauge = s.gauge := rfl
@[simp] theorem State.setX_resTimers (x : XFlash) : (s.setX x).resTimers = s.resTimers := rfl
@[simp] theorem State.setX_freeCtr (x : XFlash) : (s.setX x).freeCtr = s.freeCtr := rfl
@[simp] theorem State.rd_setX (x : XFlash) (i : Nat) : (s.setX x).rd i = s.rd i := rfl
@[simp] theorem State.f_setX (x : XFlash) (fd : Fld) : (s.setX x).f fd = s.f fd := rfl
@[simp] theorem State.fb_setX (x : XFlash) (fd : Fld) : (s.setX x).fb fd = s.fb fd := rfl
@[simp] theorem State.byte_setX (x : XFlash) (i : Nat) : (s.setX x).byte i = s.byte i := rfl

/-! ## `setGauge` -/

@[simp] theorem State.setGauge_pending (g : Gauge) : (s.setGauge g).pending = s.pending := rfl
@[simp] theorem State.setGauge_ticks (g : Gauge) : (s.setGauge g).ticks = s.ticks := rfl
@[simp] theorem State.setGauge_sub (g : Gauge) : (s.setGauge g).sub = s.sub := rfl
@[simp] theorem State.setGauge_power (g : Gauge) : (s.setGauge g).power = s.power := rfl
@[simp] theorem State.setGauge_regs (g : Gauge) : (s.setGauge g).regs = s.regs := rfl
@[simp] theorem State.setGauge_mem (g : Gauge) : (s.setGauge g).mem = s.mem := rfl
@[simp] theorem State.setGauge_hostA (g : Gauge) : (s.setGauge g).hostA = s.hostA := rfl
@[simp] theorem State.setGauge_hostB (g : Gauge) : (s.setGauge g).hostB = s.hostB := rfl
@[simp] theorem State.setGauge_burst (g : Gauge) : (s.setGauge g).burst = s.burst := rfl
@[simp] theorem State.setGauge_held (g : Gauge) : (s.setGauge g).held = s.held := rfl
@[simp] theorem State.setGauge_reads (g : Gauge) : (s.setGauge g).reads = s.reads := rfl
@[simp] theorem State.setGauge_eng (g : Gauge) : (s.setGauge g).eng = s.eng := rfl
@[simp] theorem State.setGauge_faults (g : Gauge) : (s.setGauge g).faults = s.faults := rfl
@[simp] theorem State.setGauge_resetReq (g : Gauge) : (s.setGauge g).resetReq = s.resetReq := rfl
@[simp] theorem State.setGauge_intc (g : Gauge) : (s.setGauge g).intc = s.intc := rfl
@[simp] theorem State.setGauge_almanac (g : Gauge) : (s.setGauge g).almanac = s.almanac := rfl
@[simp] theorem State.setGauge_plant (g : Gauge) : (s.setGauge g).plant = s.plant := rfl
@[simp] theorem State.setGauge_loops (g : Gauge) : (s.setGauge g).loops = s.loops := rfl
@[simp] theorem State.setGauge_trim (g : Gauge) : (s.setGauge g).trim = s.trim := rfl
@[simp] theorem State.setGauge_rflash (g : Gauge) : (s.setGauge g).rflash = s.rflash := rfl
@[simp] theorem State.setGauge_xflash (g : Gauge) : (s.setGauge g).xflash = s.xflash := rfl
@[simp] theorem State.setGauge_seq (g : Gauge) : (s.setGauge g).seq = s.seq := rfl
@[simp] theorem State.setGauge_rails (g : Gauge) : (s.setGauge g).rails = s.rails := rfl
@[simp] theorem State.setGauge_adc (g : Gauge) : (s.setGauge g).adc = s.adc := rfl
@[simp] theorem State.setGauge_health (g : Gauge) : (s.setGauge g).health = s.health := rfl
@[simp] theorem State.setGauge_otp (g : Gauge) : (s.setGauge g).otp = s.otp := rfl
@[simp] theorem State.setGauge_path (g : Gauge) : (s.setGauge g).path = s.path := rfl
@[simp] theorem State.setGauge_therm (g : Gauge) : (s.setGauge g).therm = s.therm := rfl
@[simp] theorem State.setGauge_timers (g : Gauge) : (s.setGauge g).timers = s.timers := rfl
@[simp] theorem State.setGauge_crc (g : Gauge) : (s.setGauge g).crc = s.crc := rfl
@[simp] theorem State.setGauge_links (g : Gauge) : (s.setGauge g).links = s.links := rfl
@[simp] theorem State.setGauge_gauged (g : Gauge) : (s.setGauge g).gauged = s.gauged := rfl
@[simp] theorem State.setGauge_gauge (g : Gauge) : (s.setGauge g).gauge = g := rfl
@[simp] theorem State.setGauge_resTimers (g : Gauge) : (s.setGauge g).resTimers = s.resTimers := rfl
@[simp] theorem State.setGauge_freeCtr (g : Gauge) : (s.setGauge g).freeCtr = s.freeCtr := rfl
@[simp] theorem State.rd_setGauge (g : Gauge) (i : Nat) : (s.setGauge g).rd i = s.rd i := rfl
@[simp] theorem State.f_setGauge (g : Gauge) (fd : Fld) : (s.setGauge g).f fd = s.f fd := rfl
@[simp] theorem State.fb_setGauge (g : Gauge) (fd : Fld) : (s.setGauge g).fb fd = s.fb fd := rfl
@[simp] theorem State.byte_setGauge (g : Gauge) (i : Nat) : (s.setGauge g).byte i = s.byte i := rfl

/-! ## `setOtp` -/

@[simp] theorem State.setOtp_pending (o : Otp) : (s.setOtp o).pending = s.pending := rfl
@[simp] theorem State.setOtp_ticks (o : Otp) : (s.setOtp o).ticks = s.ticks := rfl
@[simp] theorem State.setOtp_sub (o : Otp) : (s.setOtp o).sub = s.sub := rfl
@[simp] theorem State.setOtp_power (o : Otp) : (s.setOtp o).power = s.power := rfl
@[simp] theorem State.setOtp_regs (o : Otp) : (s.setOtp o).regs = s.regs := rfl
@[simp] theorem State.setOtp_mem (o : Otp) : (s.setOtp o).mem = s.mem := rfl
@[simp] theorem State.setOtp_hostA (o : Otp) : (s.setOtp o).hostA = s.hostA := rfl
@[simp] theorem State.setOtp_hostB (o : Otp) : (s.setOtp o).hostB = s.hostB := rfl
@[simp] theorem State.setOtp_burst (o : Otp) : (s.setOtp o).burst = s.burst := rfl
@[simp] theorem State.setOtp_held (o : Otp) : (s.setOtp o).held = s.held := rfl
@[simp] theorem State.setOtp_reads (o : Otp) : (s.setOtp o).reads = s.reads := rfl
@[simp] theorem State.setOtp_eng (o : Otp) : (s.setOtp o).eng = s.eng := rfl
@[simp] theorem State.setOtp_faults (o : Otp) : (s.setOtp o).faults = s.faults := rfl
@[simp] theorem State.setOtp_resetReq (o : Otp) : (s.setOtp o).resetReq = s.resetReq := rfl
@[simp] theorem State.setOtp_intc (o : Otp) : (s.setOtp o).intc = s.intc := rfl
@[simp] theorem State.setOtp_almanac (o : Otp) : (s.setOtp o).almanac = s.almanac := rfl
@[simp] theorem State.setOtp_plant (o : Otp) : (s.setOtp o).plant = s.plant := rfl
@[simp] theorem State.setOtp_loops (o : Otp) : (s.setOtp o).loops = s.loops := rfl
@[simp] theorem State.setOtp_trim (o : Otp) : (s.setOtp o).trim = s.trim := rfl
@[simp] theorem State.setOtp_rflash (o : Otp) : (s.setOtp o).rflash = s.rflash := rfl
@[simp] theorem State.setOtp_xflash (o : Otp) : (s.setOtp o).xflash = s.xflash := rfl
@[simp] theorem State.setOtp_seq (o : Otp) : (s.setOtp o).seq = s.seq := rfl
@[simp] theorem State.setOtp_rails (o : Otp) : (s.setOtp o).rails = s.rails := rfl
@[simp] theorem State.setOtp_adc (o : Otp) : (s.setOtp o).adc = s.adc := rfl
@[simp] theorem State.setOtp_health (o : Otp) : (s.setOtp o).health = s.health := rfl
@[simp] theorem State.setOtp_otp (o : Otp) : (s.setOtp o).otp = o := rfl
@[simp] theorem State.setOtp_path (o : Otp) : (s.setOtp o).path = s.path := rfl
@[simp] theorem State.setOtp_therm (o : Otp) : (s.setOtp o).therm = s.therm := rfl
@[simp] theorem State.setOtp_timers (o : Otp) : (s.setOtp o).timers = s.timers := rfl
@[simp] theorem State.setOtp_crc (o : Otp) : (s.setOtp o).crc = s.crc := rfl
@[simp] theorem State.setOtp_links (o : Otp) : (s.setOtp o).links = s.links := rfl
@[simp] theorem State.setOtp_gauged (o : Otp) : (s.setOtp o).gauged = s.gauged := rfl
@[simp] theorem State.setOtp_gauge (o : Otp) : (s.setOtp o).gauge = s.gauge := rfl
@[simp] theorem State.setOtp_resTimers (o : Otp) : (s.setOtp o).resTimers = s.resTimers := rfl
@[simp] theorem State.setOtp_freeCtr (o : Otp) : (s.setOtp o).freeCtr = s.freeCtr := rfl
@[simp] theorem State.rd_setOtp (o : Otp) (i : Nat) : (s.setOtp o).rd i = s.rd i := rfl
@[simp] theorem State.f_setOtp (o : Otp) (fd : Fld) : (s.setOtp o).f fd = s.f fd := rfl
@[simp] theorem State.fb_setOtp (o : Otp) (fd : Fld) : (s.setOtp o).fb fd = s.fb fd := rfl
@[simp] theorem State.byte_setOtp (o : Otp) (i : Nat) : (s.setOtp o).byte i = s.byte i := rfl

/-! ## `setTm` -/

@[simp] theorem State.setTm_pending (t : Nat) (x : Timer) : (s.setTm t x).pending = s.pending := rfl
@[simp] theorem State.setTm_ticks (t : Nat) (x : Timer) : (s.setTm t x).ticks = s.ticks := rfl
@[simp] theorem State.setTm_sub (t : Nat) (x : Timer) : (s.setTm t x).sub = s.sub := rfl
@[simp] theorem State.setTm_power (t : Nat) (x : Timer) : (s.setTm t x).power = s.power := rfl
@[simp] theorem State.setTm_regs (t : Nat) (x : Timer) : (s.setTm t x).regs = s.regs := rfl
@[simp] theorem State.setTm_mem (t : Nat) (x : Timer) : (s.setTm t x).mem = s.mem := rfl
@[simp] theorem State.setTm_hostA (t : Nat) (x : Timer) : (s.setTm t x).hostA = s.hostA := rfl
@[simp] theorem State.setTm_hostB (t : Nat) (x : Timer) : (s.setTm t x).hostB = s.hostB := rfl
@[simp] theorem State.setTm_burst (t : Nat) (x : Timer) : (s.setTm t x).burst = s.burst := rfl
@[simp] theorem State.setTm_held (t : Nat) (x : Timer) : (s.setTm t x).held = s.held := rfl
@[simp] theorem State.setTm_reads (t : Nat) (x : Timer) : (s.setTm t x).reads = s.reads := rfl
@[simp] theorem State.setTm_eng (t : Nat) (x : Timer) : (s.setTm t x).eng = s.eng := rfl
@[simp] theorem State.setTm_faults (t : Nat) (x : Timer) : (s.setTm t x).faults = s.faults := rfl
@[simp] theorem State.setTm_resetReq (t : Nat) (x : Timer) : (s.setTm t x).resetReq = s.resetReq := rfl
@[simp] theorem State.setTm_intc (t : Nat) (x : Timer) : (s.setTm t x).intc = s.intc := rfl
@[simp] theorem State.setTm_almanac (t : Nat) (x : Timer) : (s.setTm t x).almanac = s.almanac := rfl
@[simp] theorem State.setTm_plant (t : Nat) (x : Timer) : (s.setTm t x).plant = s.plant := rfl
@[simp] theorem State.setTm_loops (t : Nat) (x : Timer) : (s.setTm t x).loops = s.loops := rfl
@[simp] theorem State.setTm_trim (t : Nat) (x : Timer) : (s.setTm t x).trim = s.trim := rfl
@[simp] theorem State.setTm_rflash (t : Nat) (x : Timer) : (s.setTm t x).rflash = s.rflash := rfl
@[simp] theorem State.setTm_xflash (t : Nat) (x : Timer) : (s.setTm t x).xflash = s.xflash := rfl
@[simp] theorem State.setTm_seq (t : Nat) (x : Timer) : (s.setTm t x).seq = s.seq := rfl
@[simp] theorem State.setTm_rails (t : Nat) (x : Timer) : (s.setTm t x).rails = s.rails := rfl
@[simp] theorem State.setTm_adc (t : Nat) (x : Timer) : (s.setTm t x).adc = s.adc := rfl
@[simp] theorem State.setTm_health (t : Nat) (x : Timer) : (s.setTm t x).health = s.health := rfl
@[simp] theorem State.setTm_otp (t : Nat) (x : Timer) : (s.setTm t x).otp = s.otp := rfl
@[simp] theorem State.setTm_path (t : Nat) (x : Timer) : (s.setTm t x).path = s.path := rfl
@[simp] theorem State.setTm_therm (t : Nat) (x : Timer) : (s.setTm t x).therm = s.therm := rfl
@[simp] theorem State.setTm_timers (t : Nat) (x : Timer) : (s.setTm t x).timers = tset (fun _ => Timer.init) s.timers t x := rfl
@[simp] theorem State.setTm_crc (t : Nat) (x : Timer) : (s.setTm t x).crc = s.crc := rfl
@[simp] theorem State.setTm_links (t : Nat) (x : Timer) : (s.setTm t x).links = s.links := rfl
@[simp] theorem State.setTm_gauged (t : Nat) (x : Timer) : (s.setTm t x).gauged = s.gauged := rfl
@[simp] theorem State.setTm_gauge (t : Nat) (x : Timer) : (s.setTm t x).gauge = s.gauge := rfl
@[simp] theorem State.setTm_resTimers (t : Nat) (x : Timer) : (s.setTm t x).resTimers = s.resTimers := rfl
@[simp] theorem State.setTm_freeCtr (t : Nat) (x : Timer) : (s.setTm t x).freeCtr = s.freeCtr := rfl
@[simp] theorem State.rd_setTm (t : Nat) (x : Timer) (i : Nat) : (s.setTm t x).rd i = s.rd i := rfl
@[simp] theorem State.f_setTm (t : Nat) (x : Timer) (fd : Fld) : (s.setTm t x).f fd = s.f fd := rfl
@[simp] theorem State.fb_setTm (t : Nat) (x : Timer) (fd : Fld) : (s.setTm t x).fb fd = s.fb fd := rfl
@[simp] theorem State.byte_setTm (t : Nat) (x : Timer) (i : Nat) : (s.setTm t x).byte i = s.byte i := rfl

/-! ## `setCrc` -/

@[simp] theorem State.setCrc_pending (c : CrcUnit) : (s.setCrc c).pending = s.pending := rfl
@[simp] theorem State.setCrc_ticks (c : CrcUnit) : (s.setCrc c).ticks = s.ticks := rfl
@[simp] theorem State.setCrc_sub (c : CrcUnit) : (s.setCrc c).sub = s.sub := rfl
@[simp] theorem State.setCrc_power (c : CrcUnit) : (s.setCrc c).power = s.power := rfl
@[simp] theorem State.setCrc_regs (c : CrcUnit) : (s.setCrc c).regs = s.regs := rfl
@[simp] theorem State.setCrc_mem (c : CrcUnit) : (s.setCrc c).mem = s.mem := rfl
@[simp] theorem State.setCrc_hostA (c : CrcUnit) : (s.setCrc c).hostA = s.hostA := rfl
@[simp] theorem State.setCrc_hostB (c : CrcUnit) : (s.setCrc c).hostB = s.hostB := rfl
@[simp] theorem State.setCrc_burst (c : CrcUnit) : (s.setCrc c).burst = s.burst := rfl
@[simp] theorem State.setCrc_held (c : CrcUnit) : (s.setCrc c).held = s.held := rfl
@[simp] theorem State.setCrc_reads (c : CrcUnit) : (s.setCrc c).reads = s.reads := rfl
@[simp] theorem State.setCrc_eng (c : CrcUnit) : (s.setCrc c).eng = s.eng := rfl
@[simp] theorem State.setCrc_faults (c : CrcUnit) : (s.setCrc c).faults = s.faults := rfl
@[simp] theorem State.setCrc_resetReq (c : CrcUnit) : (s.setCrc c).resetReq = s.resetReq := rfl
@[simp] theorem State.setCrc_intc (c : CrcUnit) : (s.setCrc c).intc = s.intc := rfl
@[simp] theorem State.setCrc_almanac (c : CrcUnit) : (s.setCrc c).almanac = s.almanac := rfl
@[simp] theorem State.setCrc_plant (c : CrcUnit) : (s.setCrc c).plant = s.plant := rfl
@[simp] theorem State.setCrc_loops (c : CrcUnit) : (s.setCrc c).loops = s.loops := rfl
@[simp] theorem State.setCrc_trim (c : CrcUnit) : (s.setCrc c).trim = s.trim := rfl
@[simp] theorem State.setCrc_rflash (c : CrcUnit) : (s.setCrc c).rflash = s.rflash := rfl
@[simp] theorem State.setCrc_xflash (c : CrcUnit) : (s.setCrc c).xflash = s.xflash := rfl
@[simp] theorem State.setCrc_seq (c : CrcUnit) : (s.setCrc c).seq = s.seq := rfl
@[simp] theorem State.setCrc_rails (c : CrcUnit) : (s.setCrc c).rails = s.rails := rfl
@[simp] theorem State.setCrc_adc (c : CrcUnit) : (s.setCrc c).adc = s.adc := rfl
@[simp] theorem State.setCrc_health (c : CrcUnit) : (s.setCrc c).health = s.health := rfl
@[simp] theorem State.setCrc_otp (c : CrcUnit) : (s.setCrc c).otp = s.otp := rfl
@[simp] theorem State.setCrc_path (c : CrcUnit) : (s.setCrc c).path = s.path := rfl
@[simp] theorem State.setCrc_therm (c : CrcUnit) : (s.setCrc c).therm = s.therm := rfl
@[simp] theorem State.setCrc_timers (c : CrcUnit) : (s.setCrc c).timers = s.timers := rfl
@[simp] theorem State.setCrc_crc (c : CrcUnit) : (s.setCrc c).crc = c := rfl
@[simp] theorem State.setCrc_links (c : CrcUnit) : (s.setCrc c).links = s.links := rfl
@[simp] theorem State.setCrc_gauged (c : CrcUnit) : (s.setCrc c).gauged = s.gauged := rfl
@[simp] theorem State.setCrc_gauge (c : CrcUnit) : (s.setCrc c).gauge = s.gauge := rfl
@[simp] theorem State.setCrc_resTimers (c : CrcUnit) : (s.setCrc c).resTimers = s.resTimers := rfl
@[simp] theorem State.setCrc_freeCtr (c : CrcUnit) : (s.setCrc c).freeCtr = s.freeCtr := rfl
@[simp] theorem State.rd_setCrc (c : CrcUnit) (i : Nat) : (s.setCrc c).rd i = s.rd i := rfl
@[simp] theorem State.f_setCrc (c : CrcUnit) (fd : Fld) : (s.setCrc c).f fd = s.f fd := rfl
@[simp] theorem State.fb_setCrc (c : CrcUnit) (fd : Fld) : (s.setCrc c).fb fd = s.fb fd := rfl
@[simp] theorem State.byte_setCrc (c : CrcUnit) (i : Nat) : (s.setCrc c).byte i = s.byte i := rfl

/-! ## `setHealth` -/

@[simp] theorem State.setHealth_pending (h : Health) : (s.setHealth h).pending = s.pending := rfl
@[simp] theorem State.setHealth_ticks (h : Health) : (s.setHealth h).ticks = s.ticks := rfl
@[simp] theorem State.setHealth_sub (h : Health) : (s.setHealth h).sub = s.sub := rfl
@[simp] theorem State.setHealth_power (h : Health) : (s.setHealth h).power = s.power := rfl
@[simp] theorem State.setHealth_regs (h : Health) : (s.setHealth h).regs = s.regs := rfl
@[simp] theorem State.setHealth_mem (h : Health) : (s.setHealth h).mem = s.mem := rfl
@[simp] theorem State.setHealth_hostA (h : Health) : (s.setHealth h).hostA = s.hostA := rfl
@[simp] theorem State.setHealth_hostB (h : Health) : (s.setHealth h).hostB = s.hostB := rfl
@[simp] theorem State.setHealth_burst (h : Health) : (s.setHealth h).burst = s.burst := rfl
@[simp] theorem State.setHealth_held (h : Health) : (s.setHealth h).held = s.held := rfl
@[simp] theorem State.setHealth_reads (h : Health) : (s.setHealth h).reads = s.reads := rfl
@[simp] theorem State.setHealth_eng (h : Health) : (s.setHealth h).eng = s.eng := rfl
@[simp] theorem State.setHealth_faults (h : Health) : (s.setHealth h).faults = s.faults := rfl
@[simp] theorem State.setHealth_resetReq (h : Health) : (s.setHealth h).resetReq = s.resetReq := rfl
@[simp] theorem State.setHealth_intc (h : Health) : (s.setHealth h).intc = s.intc := rfl
@[simp] theorem State.setHealth_almanac (h : Health) : (s.setHealth h).almanac = s.almanac := rfl
@[simp] theorem State.setHealth_plant (h : Health) : (s.setHealth h).plant = s.plant := rfl
@[simp] theorem State.setHealth_loops (h : Health) : (s.setHealth h).loops = s.loops := rfl
@[simp] theorem State.setHealth_trim (h : Health) : (s.setHealth h).trim = s.trim := rfl
@[simp] theorem State.setHealth_rflash (h : Health) : (s.setHealth h).rflash = s.rflash := rfl
@[simp] theorem State.setHealth_xflash (h : Health) : (s.setHealth h).xflash = s.xflash := rfl
@[simp] theorem State.setHealth_seq (h : Health) : (s.setHealth h).seq = s.seq := rfl
@[simp] theorem State.setHealth_rails (h : Health) : (s.setHealth h).rails = s.rails := rfl
@[simp] theorem State.setHealth_adc (h : Health) : (s.setHealth h).adc = s.adc := rfl
@[simp] theorem State.setHealth_health (h : Health) : (s.setHealth h).health = h := rfl
@[simp] theorem State.setHealth_otp (h : Health) : (s.setHealth h).otp = s.otp := rfl
@[simp] theorem State.setHealth_path (h : Health) : (s.setHealth h).path = s.path := rfl
@[simp] theorem State.setHealth_therm (h : Health) : (s.setHealth h).therm = s.therm := rfl
@[simp] theorem State.setHealth_timers (h : Health) : (s.setHealth h).timers = s.timers := rfl
@[simp] theorem State.setHealth_crc (h : Health) : (s.setHealth h).crc = s.crc := rfl
@[simp] theorem State.setHealth_links (h : Health) : (s.setHealth h).links = s.links := rfl
@[simp] theorem State.setHealth_gauged (h : Health) : (s.setHealth h).gauged = s.gauged := rfl
@[simp] theorem State.setHealth_gauge (h : Health) : (s.setHealth h).gauge = s.gauge := rfl
@[simp] theorem State.setHealth_resTimers (h : Health) : (s.setHealth h).resTimers = s.resTimers := rfl
@[simp] theorem State.setHealth_freeCtr (h : Health) : (s.setHealth h).freeCtr = s.freeCtr := rfl
@[simp] theorem State.rd_setHealth (h : Health) (i : Nat) : (s.setHealth h).rd i = s.rd i := rfl
@[simp] theorem State.f_setHealth (h : Health) (fd : Fld) : (s.setHealth h).f fd = s.f fd := rfl
@[simp] theorem State.fb_setHealth (h : Health) (fd : Fld) : (s.setHealth h).fb fd = s.fb fd := rfl
@[simp] theorem State.byte_setHealth (h : Health) (i : Nat) : (s.setHealth h).byte i = s.byte i := rfl

/-! ## `setLoop` -/

@[simp] theorem State.setLoop_pending (n : Nat) (x : Loop) : (s.setLoop n x).pending = s.pending := rfl
@[simp] theorem State.setLoop_ticks (n : Nat) (x : Loop) : (s.setLoop n x).ticks = s.ticks := rfl
@[simp] theorem State.setLoop_sub (n : Nat) (x : Loop) : (s.setLoop n x).sub = s.sub := rfl
@[simp] theorem State.setLoop_power (n : Nat) (x : Loop) : (s.setLoop n x).power = s.power := rfl
@[simp] theorem State.setLoop_regs (n : Nat) (x : Loop) : (s.setLoop n x).regs = s.regs := rfl
@[simp] theorem State.setLoop_mem (n : Nat) (x : Loop) : (s.setLoop n x).mem = s.mem := rfl
@[simp] theorem State.setLoop_hostA (n : Nat) (x : Loop) : (s.setLoop n x).hostA = s.hostA := rfl
@[simp] theorem State.setLoop_hostB (n : Nat) (x : Loop) : (s.setLoop n x).hostB = s.hostB := rfl
@[simp] theorem State.setLoop_burst (n : Nat) (x : Loop) : (s.setLoop n x).burst = s.burst := rfl
@[simp] theorem State.setLoop_held (n : Nat) (x : Loop) : (s.setLoop n x).held = s.held := rfl
@[simp] theorem State.setLoop_reads (n : Nat) (x : Loop) : (s.setLoop n x).reads = s.reads := rfl
@[simp] theorem State.setLoop_eng (n : Nat) (x : Loop) : (s.setLoop n x).eng = s.eng := rfl
@[simp] theorem State.setLoop_faults (n : Nat) (x : Loop) : (s.setLoop n x).faults = s.faults := rfl
@[simp] theorem State.setLoop_resetReq (n : Nat) (x : Loop) : (s.setLoop n x).resetReq = s.resetReq := rfl
@[simp] theorem State.setLoop_intc (n : Nat) (x : Loop) : (s.setLoop n x).intc = s.intc := rfl
@[simp] theorem State.setLoop_almanac (n : Nat) (x : Loop) : (s.setLoop n x).almanac = s.almanac := rfl
@[simp] theorem State.setLoop_plant (n : Nat) (x : Loop) : (s.setLoop n x).plant = s.plant := rfl
@[simp] theorem State.setLoop_loops (n : Nat) (x : Loop) : (s.setLoop n x).loops = tset (fun _ => Loop.init) s.loops n x := rfl
@[simp] theorem State.setLoop_trim (n : Nat) (x : Loop) : (s.setLoop n x).trim = s.trim := rfl
@[simp] theorem State.setLoop_rflash (n : Nat) (x : Loop) : (s.setLoop n x).rflash = s.rflash := rfl
@[simp] theorem State.setLoop_xflash (n : Nat) (x : Loop) : (s.setLoop n x).xflash = s.xflash := rfl
@[simp] theorem State.setLoop_seq (n : Nat) (x : Loop) : (s.setLoop n x).seq = s.seq := rfl
@[simp] theorem State.setLoop_rails (n : Nat) (x : Loop) : (s.setLoop n x).rails = s.rails := rfl
@[simp] theorem State.setLoop_adc (n : Nat) (x : Loop) : (s.setLoop n x).adc = s.adc := rfl
@[simp] theorem State.setLoop_health (n : Nat) (x : Loop) : (s.setLoop n x).health = s.health := rfl
@[simp] theorem State.setLoop_otp (n : Nat) (x : Loop) : (s.setLoop n x).otp = s.otp := rfl
@[simp] theorem State.setLoop_path (n : Nat) (x : Loop) : (s.setLoop n x).path = s.path := rfl
@[simp] theorem State.setLoop_therm (n : Nat) (x : Loop) : (s.setLoop n x).therm = s.therm := rfl
@[simp] theorem State.setLoop_timers (n : Nat) (x : Loop) : (s.setLoop n x).timers = s.timers := rfl
@[simp] theorem State.setLoop_crc (n : Nat) (x : Loop) : (s.setLoop n x).crc = s.crc := rfl
@[simp] theorem State.setLoop_links (n : Nat) (x : Loop) : (s.setLoop n x).links = s.links := rfl
@[simp] theorem State.setLoop_gauged (n : Nat) (x : Loop) : (s.setLoop n x).gauged = s.gauged := rfl
@[simp] theorem State.setLoop_gauge (n : Nat) (x : Loop) : (s.setLoop n x).gauge = s.gauge := rfl
@[simp] theorem State.setLoop_resTimers (n : Nat) (x : Loop) : (s.setLoop n x).resTimers = s.resTimers := rfl
@[simp] theorem State.setLoop_freeCtr (n : Nat) (x : Loop) : (s.setLoop n x).freeCtr = s.freeCtr := rfl
@[simp] theorem State.rd_setLoop (n : Nat) (x : Loop) (i : Nat) : (s.setLoop n x).rd i = s.rd i := rfl
@[simp] theorem State.f_setLoop (n : Nat) (x : Loop) (fd : Fld) : (s.setLoop n x).f fd = s.f fd := rfl
@[simp] theorem State.fb_setLoop (n : Nat) (x : Loop) (fd : Fld) : (s.setLoop n x).fb fd = s.fb fd := rfl
@[simp] theorem State.byte_setLoop (n : Nat) (x : Loop) (i : Nat) : (s.setLoop n x).byte i = s.byte i := rfl

/-! ## `setResDue` -/

@[simp] theorem State.setResDue_pending (gp : Nat) (d : Option Nat) : (s.setResDue gp d).pending = s.pending := rfl
@[simp] theorem State.setResDue_ticks (gp : Nat) (d : Option Nat) : (s.setResDue gp d).ticks = s.ticks := rfl
@[simp] theorem State.setResDue_sub (gp : Nat) (d : Option Nat) : (s.setResDue gp d).sub = s.sub := rfl
@[simp] theorem State.setResDue_power (gp : Nat) (d : Option Nat) : (s.setResDue gp d).power = s.power := rfl
@[simp] theorem State.setResDue_regs (gp : Nat) (d : Option Nat) : (s.setResDue gp d).regs = s.regs := rfl
@[simp] theorem State.setResDue_mem (gp : Nat) (d : Option Nat) : (s.setResDue gp d).mem = s.mem := rfl
@[simp] theorem State.setResDue_hostA (gp : Nat) (d : Option Nat) : (s.setResDue gp d).hostA = s.hostA := rfl
@[simp] theorem State.setResDue_hostB (gp : Nat) (d : Option Nat) : (s.setResDue gp d).hostB = s.hostB := rfl
@[simp] theorem State.setResDue_burst (gp : Nat) (d : Option Nat) : (s.setResDue gp d).burst = s.burst := rfl
@[simp] theorem State.setResDue_held (gp : Nat) (d : Option Nat) : (s.setResDue gp d).held = s.held := rfl
@[simp] theorem State.setResDue_reads (gp : Nat) (d : Option Nat) : (s.setResDue gp d).reads = s.reads := rfl
@[simp] theorem State.setResDue_eng (gp : Nat) (d : Option Nat) : (s.setResDue gp d).eng = s.eng := rfl
@[simp] theorem State.setResDue_faults (gp : Nat) (d : Option Nat) : (s.setResDue gp d).faults = s.faults := rfl
@[simp] theorem State.setResDue_resetReq (gp : Nat) (d : Option Nat) : (s.setResDue gp d).resetReq = s.resetReq := rfl
@[simp] theorem State.setResDue_intc (gp : Nat) (d : Option Nat) : (s.setResDue gp d).intc = s.intc := rfl
@[simp] theorem State.setResDue_almanac (gp : Nat) (d : Option Nat) : (s.setResDue gp d).almanac = s.almanac := rfl
@[simp] theorem State.setResDue_plant (gp : Nat) (d : Option Nat) : (s.setResDue gp d).plant = s.plant := rfl
@[simp] theorem State.setResDue_loops (gp : Nat) (d : Option Nat) : (s.setResDue gp d).loops = s.loops := rfl
@[simp] theorem State.setResDue_trim (gp : Nat) (d : Option Nat) : (s.setResDue gp d).trim = s.trim := rfl
@[simp] theorem State.setResDue_rflash (gp : Nat) (d : Option Nat) : (s.setResDue gp d).rflash = s.rflash := rfl
@[simp] theorem State.setResDue_xflash (gp : Nat) (d : Option Nat) : (s.setResDue gp d).xflash = s.xflash := rfl
@[simp] theorem State.setResDue_seq (gp : Nat) (d : Option Nat) : (s.setResDue gp d).seq = s.seq := rfl
@[simp] theorem State.setResDue_rails (gp : Nat) (d : Option Nat) : (s.setResDue gp d).rails = s.rails := rfl
@[simp] theorem State.setResDue_adc (gp : Nat) (d : Option Nat) : (s.setResDue gp d).adc = s.adc := rfl
@[simp] theorem State.setResDue_health (gp : Nat) (d : Option Nat) : (s.setResDue gp d).health = s.health := rfl
@[simp] theorem State.setResDue_otp (gp : Nat) (d : Option Nat) : (s.setResDue gp d).otp = s.otp := rfl
@[simp] theorem State.setResDue_path (gp : Nat) (d : Option Nat) : (s.setResDue gp d).path = s.path := rfl
@[simp] theorem State.setResDue_therm (gp : Nat) (d : Option Nat) : (s.setResDue gp d).therm = s.therm := rfl
@[simp] theorem State.setResDue_timers (gp : Nat) (d : Option Nat) : (s.setResDue gp d).timers = s.timers := rfl
@[simp] theorem State.setResDue_crc (gp : Nat) (d : Option Nat) : (s.setResDue gp d).crc = s.crc := rfl
@[simp] theorem State.setResDue_links (gp : Nat) (d : Option Nat) : (s.setResDue gp d).links = s.links := rfl
@[simp] theorem State.setResDue_gauged (gp : Nat) (d : Option Nat) : (s.setResDue gp d).gauged = s.gauged := rfl
@[simp] theorem State.setResDue_gauge (gp : Nat) (d : Option Nat) : (s.setResDue gp d).gauge = s.gauge := rfl
@[simp] theorem State.setResDue_resTimers (gp : Nat) (d : Option Nat) : (s.setResDue gp d).resTimers = tset (fun _ => none) s.resTimers gp d := rfl
@[simp] theorem State.setResDue_freeCtr (gp : Nat) (d : Option Nat) : (s.setResDue gp d).freeCtr = s.freeCtr := rfl
@[simp] theorem State.rd_setResDue (gp : Nat) (d : Option Nat) (i : Nat) : (s.setResDue gp d).rd i = s.rd i := rfl
@[simp] theorem State.f_setResDue (gp : Nat) (d : Option Nat) (fd : Fld) : (s.setResDue gp d).f fd = s.f fd := rfl
@[simp] theorem State.fb_setResDue (gp : Nat) (d : Option Nat) (fd : Fld) : (s.setResDue gp d).fb fd = s.fb fd := rfl
@[simp] theorem State.byte_setResDue (gp : Nat) (d : Option Nat) (i : Nat) : (s.setResDue gp d).byte i = s.byte i := rfl

/-! ## `setSlot` -/

@[simp] theorem State.setSlot_pending (k : Nat) (x : Slot) : (s.setSlot k x).pending = s.pending := rfl
@[simp] theorem State.setSlot_ticks (k : Nat) (x : Slot) : (s.setSlot k x).ticks = s.ticks := rfl
@[simp] theorem State.setSlot_sub (k : Nat) (x : Slot) : (s.setSlot k x).sub = s.sub := rfl
@[simp] theorem State.setSlot_power (k : Nat) (x : Slot) : (s.setSlot k x).power = s.power := rfl
@[simp] theorem State.setSlot_regs (k : Nat) (x : Slot) : (s.setSlot k x).regs = s.regs := rfl
@[simp] theorem State.setSlot_mem (k : Nat) (x : Slot) : (s.setSlot k x).mem = s.mem := rfl
@[simp] theorem State.setSlot_hostA (k : Nat) (x : Slot) : (s.setSlot k x).hostA = s.hostA := rfl
@[simp] theorem State.setSlot_hostB (k : Nat) (x : Slot) : (s.setSlot k x).hostB = s.hostB := rfl
@[simp] theorem State.setSlot_burst (k : Nat) (x : Slot) : (s.setSlot k x).burst = s.burst := rfl
@[simp] theorem State.setSlot_held (k : Nat) (x : Slot) : (s.setSlot k x).held = s.held := rfl
@[simp] theorem State.setSlot_reads (k : Nat) (x : Slot) : (s.setSlot k x).reads = s.reads := rfl
@[simp] theorem State.setSlot_eng (k : Nat) (x : Slot) : (s.setSlot k x).eng = s.eng := rfl
@[simp] theorem State.setSlot_faults (k : Nat) (x : Slot) : (s.setSlot k x).faults = s.faults := rfl
@[simp] theorem State.setSlot_resetReq (k : Nat) (x : Slot) : (s.setSlot k x).resetReq = s.resetReq := rfl
@[simp] theorem State.setSlot_intc (k : Nat) (x : Slot) : (s.setSlot k x).intc = s.intc := rfl
@[simp] theorem State.setSlot_almanac (k : Nat) (x : Slot) : (s.setSlot k x).almanac = s.almanac := rfl
@[simp] theorem State.setSlot_plant (k : Nat) (x : Slot) : (s.setSlot k x).plant = s.plant := rfl
@[simp] theorem State.setSlot_loops (k : Nat) (x : Slot) : (s.setSlot k x).loops = s.loops := rfl
@[simp] theorem State.setSlot_trim (k : Nat) (x : Slot) : (s.setSlot k x).trim = s.trim := rfl
@[simp] theorem State.setSlot_rflash (k : Nat) (x : Slot) : (s.setSlot k x).rflash = s.rflash := rfl
@[simp] theorem State.setSlot_xflash (k : Nat) (x : Slot) : (s.setSlot k x).xflash = s.xflash := rfl
@[simp] theorem State.setSlot_rails (k : Nat) (x : Slot) : (s.setSlot k x).rails = s.rails := rfl
@[simp] theorem State.setSlot_adc (k : Nat) (x : Slot) : (s.setSlot k x).adc = s.adc := rfl
@[simp] theorem State.setSlot_health (k : Nat) (x : Slot) : (s.setSlot k x).health = s.health := rfl
@[simp] theorem State.setSlot_otp (k : Nat) (x : Slot) : (s.setSlot k x).otp = s.otp := rfl
@[simp] theorem State.setSlot_path (k : Nat) (x : Slot) : (s.setSlot k x).path = s.path := rfl
@[simp] theorem State.setSlot_therm (k : Nat) (x : Slot) : (s.setSlot k x).therm = s.therm := rfl
@[simp] theorem State.setSlot_timers (k : Nat) (x : Slot) : (s.setSlot k x).timers = s.timers := rfl
@[simp] theorem State.setSlot_crc (k : Nat) (x : Slot) : (s.setSlot k x).crc = s.crc := rfl
@[simp] theorem State.setSlot_links (k : Nat) (x : Slot) : (s.setSlot k x).links = s.links := rfl
@[simp] theorem State.setSlot_gauged (k : Nat) (x : Slot) : (s.setSlot k x).gauged = s.gauged := rfl
@[simp] theorem State.setSlot_gauge (k : Nat) (x : Slot) : (s.setSlot k x).gauge = s.gauge := rfl
@[simp] theorem State.setSlot_resTimers (k : Nat) (x : Slot) : (s.setSlot k x).resTimers = s.resTimers := rfl
@[simp] theorem State.setSlot_freeCtr (k : Nat) (x : Slot) : (s.setSlot k x).freeCtr = s.freeCtr := rfl
@[simp] theorem State.rd_setSlot (k : Nat) (x : Slot) (i : Nat) : (s.setSlot k x).rd i = s.rd i := rfl
@[simp] theorem State.f_setSlot (k : Nat) (x : Slot) (fd : Fld) : (s.setSlot k x).f fd = s.f fd := rfl
@[simp] theorem State.fb_setSlot (k : Nat) (x : Slot) (fd : Fld) : (s.setSlot k x).fb fd = s.fb fd := rfl
@[simp] theorem State.byte_setSlot (k : Nat) (x : Slot) (i : Nat) : (s.setSlot k x).byte i = s.byte i := rfl

/-! ## `setSeq` -/

@[simp] theorem State.setSeq_pending (q : Seq) : (s.setSeq q).pending = s.pending := rfl
@[simp] theorem State.setSeq_ticks (q : Seq) : (s.setSeq q).ticks = s.ticks := rfl
@[simp] theorem State.setSeq_sub (q : Seq) : (s.setSeq q).sub = s.sub := rfl
@[simp] theorem State.setSeq_power (q : Seq) : (s.setSeq q).power = s.power := rfl
@[simp] theorem State.setSeq_regs (q : Seq) : (s.setSeq q).regs = s.regs := rfl
@[simp] theorem State.setSeq_mem (q : Seq) : (s.setSeq q).mem = s.mem := rfl
@[simp] theorem State.setSeq_hostA (q : Seq) : (s.setSeq q).hostA = s.hostA := rfl
@[simp] theorem State.setSeq_hostB (q : Seq) : (s.setSeq q).hostB = s.hostB := rfl
@[simp] theorem State.setSeq_burst (q : Seq) : (s.setSeq q).burst = s.burst := rfl
@[simp] theorem State.setSeq_held (q : Seq) : (s.setSeq q).held = s.held := rfl
@[simp] theorem State.setSeq_reads (q : Seq) : (s.setSeq q).reads = s.reads := rfl
@[simp] theorem State.setSeq_eng (q : Seq) : (s.setSeq q).eng = s.eng := rfl
@[simp] theorem State.setSeq_faults (q : Seq) : (s.setSeq q).faults = s.faults := rfl
@[simp] theorem State.setSeq_resetReq (q : Seq) : (s.setSeq q).resetReq = s.resetReq := rfl
@[simp] theorem State.setSeq_intc (q : Seq) : (s.setSeq q).intc = s.intc := rfl
@[simp] theorem State.setSeq_almanac (q : Seq) : (s.setSeq q).almanac = s.almanac := rfl
@[simp] theorem State.setSeq_plant (q : Seq) : (s.setSeq q).plant = s.plant := rfl
@[simp] theorem State.setSeq_loops (q : Seq) : (s.setSeq q).loops = s.loops := rfl
@[simp] theorem State.setSeq_trim (q : Seq) : (s.setSeq q).trim = s.trim := rfl
@[simp] theorem State.setSeq_rflash (q : Seq) : (s.setSeq q).rflash = s.rflash := rfl
@[simp] theorem State.setSeq_xflash (q : Seq) : (s.setSeq q).xflash = s.xflash := rfl
@[simp] theorem State.setSeq_seq (q : Seq) : (s.setSeq q).seq = q := rfl
@[simp] theorem State.setSeq_rails (q : Seq) : (s.setSeq q).rails = s.rails := rfl
@[simp] theorem State.setSeq_adc (q : Seq) : (s.setSeq q).adc = s.adc := rfl
@[simp] theorem State.setSeq_health (q : Seq) : (s.setSeq q).health = s.health := rfl
@[simp] theorem State.setSeq_otp (q : Seq) : (s.setSeq q).otp = s.otp := rfl
@[simp] theorem State.setSeq_path (q : Seq) : (s.setSeq q).path = s.path := rfl
@[simp] theorem State.setSeq_therm (q : Seq) : (s.setSeq q).therm = s.therm := rfl
@[simp] theorem State.setSeq_timers (q : Seq) : (s.setSeq q).timers = s.timers := rfl
@[simp] theorem State.setSeq_crc (q : Seq) : (s.setSeq q).crc = s.crc := rfl
@[simp] theorem State.setSeq_links (q : Seq) : (s.setSeq q).links = s.links := rfl
@[simp] theorem State.setSeq_gauged (q : Seq) : (s.setSeq q).gauged = s.gauged := rfl
@[simp] theorem State.setSeq_gauge (q : Seq) : (s.setSeq q).gauge = s.gauge := rfl
@[simp] theorem State.setSeq_resTimers (q : Seq) : (s.setSeq q).resTimers = s.resTimers := rfl
@[simp] theorem State.setSeq_freeCtr (q : Seq) : (s.setSeq q).freeCtr = s.freeCtr := rfl
@[simp] theorem State.rd_setSeq (q : Seq) (i : Nat) : (s.setSeq q).rd i = s.rd i := rfl
@[simp] theorem State.f_setSeq (q : Seq) (fd : Fld) : (s.setSeq q).f fd = s.f fd := rfl
@[simp] theorem State.fb_setSeq (q : Seq) (fd : Fld) : (s.setSeq q).fb fd = s.fb fd := rfl
@[simp] theorem State.byte_setSeq (q : Seq) (i : Nat) : (s.setSeq q).byte i = s.byte i := rfl

/-! ## `setRail` -/

@[simp] theorem State.setRail_pending (k : Nat) (x : Rail) : (s.setRail k x).pending = s.pending := rfl
@[simp] theorem State.setRail_ticks (k : Nat) (x : Rail) : (s.setRail k x).ticks = s.ticks := rfl
@[simp] theorem State.setRail_sub (k : Nat) (x : Rail) : (s.setRail k x).sub = s.sub := rfl
@[simp] theorem State.setRail_power (k : Nat) (x : Rail) : (s.setRail k x).power = s.power := rfl
@[simp] theorem State.setRail_regs (k : Nat) (x : Rail) : (s.setRail k x).regs = s.regs := rfl
@[simp] theorem State.setRail_mem (k : Nat) (x : Rail) : (s.setRail k x).mem = s.mem := rfl
@[simp] theorem State.setRail_hostA (k : Nat) (x : Rail) : (s.setRail k x).hostA = s.hostA := rfl
@[simp] theorem State.setRail_hostB (k : Nat) (x : Rail) : (s.setRail k x).hostB = s.hostB := rfl
@[simp] theorem State.setRail_burst (k : Nat) (x : Rail) : (s.setRail k x).burst = s.burst := rfl
@[simp] theorem State.setRail_held (k : Nat) (x : Rail) : (s.setRail k x).held = s.held := rfl
@[simp] theorem State.setRail_reads (k : Nat) (x : Rail) : (s.setRail k x).reads = s.reads := rfl
@[simp] theorem State.setRail_eng (k : Nat) (x : Rail) : (s.setRail k x).eng = s.eng := rfl
@[simp] theorem State.setRail_faults (k : Nat) (x : Rail) : (s.setRail k x).faults = s.faults := rfl
@[simp] theorem State.setRail_resetReq (k : Nat) (x : Rail) : (s.setRail k x).resetReq = s.resetReq := rfl
@[simp] theorem State.setRail_intc (k : Nat) (x : Rail) : (s.setRail k x).intc = s.intc := rfl
@[simp] theorem State.setRail_almanac (k : Nat) (x : Rail) : (s.setRail k x).almanac = s.almanac := rfl
@[simp] theorem State.setRail_plant (k : Nat) (x : Rail) : (s.setRail k x).plant = s.plant := rfl
@[simp] theorem State.setRail_loops (k : Nat) (x : Rail) : (s.setRail k x).loops = s.loops := rfl
@[simp] theorem State.setRail_trim (k : Nat) (x : Rail) : (s.setRail k x).trim = s.trim := rfl
@[simp] theorem State.setRail_rflash (k : Nat) (x : Rail) : (s.setRail k x).rflash = s.rflash := rfl
@[simp] theorem State.setRail_xflash (k : Nat) (x : Rail) : (s.setRail k x).xflash = s.xflash := rfl
@[simp] theorem State.setRail_seq (k : Nat) (x : Rail) : (s.setRail k x).seq = s.seq := rfl
@[simp] theorem State.setRail_rails (k : Nat) (x : Rail) : (s.setRail k x).rails = tset (fun _ => Rail.init) s.rails k x := rfl
@[simp] theorem State.setRail_adc (k : Nat) (x : Rail) : (s.setRail k x).adc = s.adc := rfl
@[simp] theorem State.setRail_health (k : Nat) (x : Rail) : (s.setRail k x).health = s.health := rfl
@[simp] theorem State.setRail_otp (k : Nat) (x : Rail) : (s.setRail k x).otp = s.otp := rfl
@[simp] theorem State.setRail_path (k : Nat) (x : Rail) : (s.setRail k x).path = s.path := rfl
@[simp] theorem State.setRail_therm (k : Nat) (x : Rail) : (s.setRail k x).therm = s.therm := rfl
@[simp] theorem State.setRail_timers (k : Nat) (x : Rail) : (s.setRail k x).timers = s.timers := rfl
@[simp] theorem State.setRail_crc (k : Nat) (x : Rail) : (s.setRail k x).crc = s.crc := rfl
@[simp] theorem State.setRail_links (k : Nat) (x : Rail) : (s.setRail k x).links = s.links := rfl
@[simp] theorem State.setRail_gauged (k : Nat) (x : Rail) : (s.setRail k x).gauged = s.gauged := rfl
@[simp] theorem State.setRail_gauge (k : Nat) (x : Rail) : (s.setRail k x).gauge = s.gauge := rfl
@[simp] theorem State.setRail_resTimers (k : Nat) (x : Rail) : (s.setRail k x).resTimers = s.resTimers := rfl
@[simp] theorem State.setRail_freeCtr (k : Nat) (x : Rail) : (s.setRail k x).freeCtr = s.freeCtr := rfl
@[simp] theorem State.rd_setRail (k : Nat) (x : Rail) (i : Nat) : (s.setRail k x).rd i = s.rd i := rfl
@[simp] theorem State.f_setRail (k : Nat) (x : Rail) (fd : Fld) : (s.setRail k x).f fd = s.f fd := rfl
@[simp] theorem State.fb_setRail (k : Nat) (x : Rail) (fd : Fld) : (s.setRail k x).fb fd = s.fb fd := rfl
@[simp] theorem State.byte_setRail (k : Nat) (x : Rail) (i : Nat) : (s.setRail k x).byte i = s.byte i := rfl

/-! ## `setLk` -/

@[simp] theorem State.setLk_pending (p : Nat) (x : LinkPort) : (s.setLk p x).pending = s.pending := rfl
@[simp] theorem State.setLk_ticks (p : Nat) (x : LinkPort) : (s.setLk p x).ticks = s.ticks := rfl
@[simp] theorem State.setLk_sub (p : Nat) (x : LinkPort) : (s.setLk p x).sub = s.sub := rfl
@[simp] theorem State.setLk_power (p : Nat) (x : LinkPort) : (s.setLk p x).power = s.power := rfl
@[simp] theorem State.setLk_regs (p : Nat) (x : LinkPort) : (s.setLk p x).regs = s.regs := rfl
@[simp] theorem State.setLk_mem (p : Nat) (x : LinkPort) : (s.setLk p x).mem = s.mem := rfl
@[simp] theorem State.setLk_hostA (p : Nat) (x : LinkPort) : (s.setLk p x).hostA = s.hostA := rfl
@[simp] theorem State.setLk_hostB (p : Nat) (x : LinkPort) : (s.setLk p x).hostB = s.hostB := rfl
@[simp] theorem State.setLk_burst (p : Nat) (x : LinkPort) : (s.setLk p x).burst = s.burst := rfl
@[simp] theorem State.setLk_held (p : Nat) (x : LinkPort) : (s.setLk p x).held = s.held := rfl
@[simp] theorem State.setLk_reads (p : Nat) (x : LinkPort) : (s.setLk p x).reads = s.reads := rfl
@[simp] theorem State.setLk_eng (p : Nat) (x : LinkPort) : (s.setLk p x).eng = s.eng := rfl
@[simp] theorem State.setLk_faults (p : Nat) (x : LinkPort) : (s.setLk p x).faults = s.faults := rfl
@[simp] theorem State.setLk_resetReq (p : Nat) (x : LinkPort) : (s.setLk p x).resetReq = s.resetReq := rfl
@[simp] theorem State.setLk_intc (p : Nat) (x : LinkPort) : (s.setLk p x).intc = s.intc := rfl
@[simp] theorem State.setLk_almanac (p : Nat) (x : LinkPort) : (s.setLk p x).almanac = s.almanac := rfl
@[simp] theorem State.setLk_plant (p : Nat) (x : LinkPort) : (s.setLk p x).plant = s.plant := rfl
@[simp] theorem State.setLk_loops (p : Nat) (x : LinkPort) : (s.setLk p x).loops = s.loops := rfl
@[simp] theorem State.setLk_trim (p : Nat) (x : LinkPort) : (s.setLk p x).trim = s.trim := rfl
@[simp] theorem State.setLk_rflash (p : Nat) (x : LinkPort) : (s.setLk p x).rflash = s.rflash := rfl
@[simp] theorem State.setLk_xflash (p : Nat) (x : LinkPort) : (s.setLk p x).xflash = s.xflash := rfl
@[simp] theorem State.setLk_seq (p : Nat) (x : LinkPort) : (s.setLk p x).seq = s.seq := rfl
@[simp] theorem State.setLk_rails (p : Nat) (x : LinkPort) : (s.setLk p x).rails = s.rails := rfl
@[simp] theorem State.setLk_adc (p : Nat) (x : LinkPort) : (s.setLk p x).adc = s.adc := rfl
@[simp] theorem State.setLk_health (p : Nat) (x : LinkPort) : (s.setLk p x).health = s.health := rfl
@[simp] theorem State.setLk_otp (p : Nat) (x : LinkPort) : (s.setLk p x).otp = s.otp := rfl
@[simp] theorem State.setLk_path (p : Nat) (x : LinkPort) : (s.setLk p x).path = s.path := rfl
@[simp] theorem State.setLk_therm (p : Nat) (x : LinkPort) : (s.setLk p x).therm = s.therm := rfl
@[simp] theorem State.setLk_timers (p : Nat) (x : LinkPort) : (s.setLk p x).timers = s.timers := rfl
@[simp] theorem State.setLk_crc (p : Nat) (x : LinkPort) : (s.setLk p x).crc = s.crc := rfl
@[simp] theorem State.setLk_links (p : Nat) (x : LinkPort) : (s.setLk p x).links = tset (fun _ => LinkPort.init) s.links p x := rfl
@[simp] theorem State.setLk_gauged (p : Nat) (x : LinkPort) : (s.setLk p x).gauged = s.gauged := rfl
@[simp] theorem State.setLk_gauge (p : Nat) (x : LinkPort) : (s.setLk p x).gauge = s.gauge := rfl
@[simp] theorem State.setLk_resTimers (p : Nat) (x : LinkPort) : (s.setLk p x).resTimers = s.resTimers := rfl
@[simp] theorem State.setLk_freeCtr (p : Nat) (x : LinkPort) : (s.setLk p x).freeCtr = s.freeCtr := rfl
@[simp] theorem State.rd_setLk (p : Nat) (x : LinkPort) (i : Nat) : (s.setLk p x).rd i = s.rd i := rfl
@[simp] theorem State.f_setLk (p : Nat) (x : LinkPort) (fd : Fld) : (s.setLk p x).f fd = s.f fd := rfl
@[simp] theorem State.fb_setLk (p : Nat) (x : LinkPort) (fd : Fld) : (s.setLk p x).fb fd = s.fb fd := rfl
@[simp] theorem State.byte_setLk (p : Nat) (x : LinkPort) (i : Nat) : (s.setLk p x).byte i = s.byte i := rfl

/-! ## `setPower` -/

@[simp] theorem State.setPower_pending (p : Power) : (s.setPower p).pending = s.pending := rfl
@[simp] theorem State.setPower_ticks (p : Power) : (s.setPower p).ticks = s.ticks := rfl
@[simp] theorem State.setPower_sub (p : Power) : (s.setPower p).sub = s.sub := rfl
@[simp] theorem State.setPower_power (p : Power) : (s.setPower p).power = p := rfl
@[simp] theorem State.setPower_regs (p : Power) : (s.setPower p).regs = s.regs := rfl
@[simp] theorem State.setPower_mem (p : Power) : (s.setPower p).mem = s.mem := rfl
@[simp] theorem State.setPower_hostA (p : Power) : (s.setPower p).hostA = s.hostA := rfl
@[simp] theorem State.setPower_hostB (p : Power) : (s.setPower p).hostB = s.hostB := rfl
@[simp] theorem State.setPower_burst (p : Power) : (s.setPower p).burst = s.burst := rfl
@[simp] theorem State.setPower_held (p : Power) : (s.setPower p).held = s.held := rfl
@[simp] theorem State.setPower_reads (p : Power) : (s.setPower p).reads = s.reads := rfl
@[simp] theorem State.setPower_eng (p : Power) : (s.setPower p).eng = s.eng := rfl
@[simp] theorem State.setPower_faults (p : Power) : (s.setPower p).faults = s.faults := rfl
@[simp] theorem State.setPower_resetReq (p : Power) : (s.setPower p).resetReq = s.resetReq := rfl
@[simp] theorem State.setPower_intc (p : Power) : (s.setPower p).intc = s.intc := rfl
@[simp] theorem State.setPower_almanac (p : Power) : (s.setPower p).almanac = s.almanac := rfl
@[simp] theorem State.setPower_plant (p : Power) : (s.setPower p).plant = s.plant := rfl
@[simp] theorem State.setPower_loops (p : Power) : (s.setPower p).loops = s.loops := rfl
@[simp] theorem State.setPower_trim (p : Power) : (s.setPower p).trim = s.trim := rfl
@[simp] theorem State.setPower_rflash (p : Power) : (s.setPower p).rflash = s.rflash := rfl
@[simp] theorem State.setPower_xflash (p : Power) : (s.setPower p).xflash = s.xflash := rfl
@[simp] theorem State.setPower_seq (p : Power) : (s.setPower p).seq = s.seq := rfl
@[simp] theorem State.setPower_rails (p : Power) : (s.setPower p).rails = s.rails := rfl
@[simp] theorem State.setPower_adc (p : Power) : (s.setPower p).adc = s.adc := rfl
@[simp] theorem State.setPower_health (p : Power) : (s.setPower p).health = s.health := rfl
@[simp] theorem State.setPower_otp (p : Power) : (s.setPower p).otp = s.otp := rfl
@[simp] theorem State.setPower_path (p : Power) : (s.setPower p).path = s.path := rfl
@[simp] theorem State.setPower_therm (p : Power) : (s.setPower p).therm = s.therm := rfl
@[simp] theorem State.setPower_timers (p : Power) : (s.setPower p).timers = s.timers := rfl
@[simp] theorem State.setPower_crc (p : Power) : (s.setPower p).crc = s.crc := rfl
@[simp] theorem State.setPower_links (p : Power) : (s.setPower p).links = s.links := rfl
@[simp] theorem State.setPower_gauged (p : Power) : (s.setPower p).gauged = s.gauged := rfl
@[simp] theorem State.setPower_gauge (p : Power) : (s.setPower p).gauge = s.gauge := rfl
@[simp] theorem State.setPower_resTimers (p : Power) : (s.setPower p).resTimers = s.resTimers := rfl
@[simp] theorem State.setPower_freeCtr (p : Power) : (s.setPower p).freeCtr = s.freeCtr := rfl
@[simp] theorem State.rd_setPower (p : Power) (i : Nat) : (s.setPower p).rd i = s.rd i := rfl
@[simp] theorem State.f_setPower (p : Power) (fd : Fld) : (s.setPower p).f fd = s.f fd := rfl
@[simp] theorem State.fb_setPower (p : Power) (fd : Fld) : (s.setPower p).fb fd = s.fb fd := rfl
@[simp] theorem State.byte_setPower (p : Power) (i : Nat) : (s.setPower p).byte i = s.byte i := rfl

end Sys2Proof.Machine
end

