-- ==== Sys2Proof/Laws/Registers.lean ====
section
/-! SUPPORT. Register words, register fields and window bytes: what is read after a write. -/

namespace Sys2Proof.Machine

variable (s : State)

/-! ## Words -/

@[simp] theorem State.rd_wr_self (a : Nat) (w : Word) : (s.wr a w).rd a = w := tget_tset_self _ _ _ _

theorem State.rd_wr_ne {a b : Nat} (w : Word) (h : b ≠ a) : (s.wr a w).rd b = s.rd b := tget_tset_ne _ _ _ h

theorem State.rd_wr (a b : Nat) (w : Word) : (s.wr a w).rd b = if b = a then w else s.rd b := tget_tset _ _ _ _ _

/-! ## Window bytes -/

@[simp] theorem State.byte_setByte_self (a : Nat) (b : Byte) : (s.setByte a b).byte a = b := tget_tset_self _ _ _ _

theorem State.byte_setByte_ne {a c : Nat} (b : Byte) (h : c ≠ a) : (s.setByte a b).byte c = s.byte c := tget_tset_ne _ _ _ h

theorem State.byte_setBytes_out {a c : Nat} {bs : List Byte} (h : c < a ∨ a + bs.length ≤ c) :
    (s.setBytes a bs).byte c = s.byte c := by
  induction bs generalizing s a with
  | nil => rfl
  | cons b bs ih =>
    simp only [List.length_cons] at h
    rw [State.setBytes, ih _ (by omega), State.byte_setByte_ne _ _ (by omega)]

/-! ## Bit fields -/

theorem getBits_testBit (w : Word) (lo n i : Nat) : (getBits w lo n).testBit i = (decide (i < n) && w.getLsbD (lo + i)) := by
  simp [getBits, Nat.testBit_mod_two_pow, Nat.testBit_shiftRight, BitVec.testBit_toNat]

theorem maskBits_getLsbD (lo n i : Nat) : (maskBits lo n).getLsbD i = (decide (i < 32) && decide (lo ≤ i) && decide (i < lo + n)) := by
  simp only [maskBits, BitVec.getLsbD_ofNat, Nat.testBit_shiftLeft, Nat.testBit_two_pow_sub_one, Bool.and_assoc]
  by_cases h : lo ≤ i
  · have : (i - lo < n) ↔ i < lo + n := by omega
    simp [h, this]
  · simp [h]

theorem putBits_getLsbD (w : Word) (lo n v i : Nat) (hi : i < 32) :
    (putBits w lo n v).getLsbD i = if lo ≤ i ∧ i < lo + n then v.testBit (i - lo) else w.getLsbD i := by
  simp only [putBits, BitVec.getLsbD_or, BitVec.getLsbD_and, BitVec.getLsbD_not, maskBits_getLsbD, BitVec.getLsbD_ofNat,
    Nat.testBit_shiftLeft, Nat.testBit_mod_two_pow, hi]
  by_cases h : lo ≤ i
  · by_cases k : i < lo + n
    · have : i - lo < n := by omega
      simp [h, k, this]
    · have : ¬ i - lo < n := by omega
      simp [h, k, this]
  · simp [h]

/-- A field reads what was put into it. -/
theorem getBits_putBits_self (w : Word) (lo n v : Nat) (h : lo + n ≤ 32) : getBits (putBits w lo n v) lo n = v % 2 ^ n := by
  apply Nat.eq_of_testBit_eq
  intro i
  rw [getBits_testBit, Nat.testBit_mod_two_pow]
  by_cases k : i < n
  · rw [putBits_getLsbD _ _ _ _ _ (by omega)]
    simp [k]
  · simp [k]

/-- A field that does not meet the one put in reads as before. -/
theorem getBits_putBits_apart (w : Word) (lo n v lo' n' : Nat) (h : lo' + n' ≤ 32) (d : lo' + n' ≤ lo ∨ lo + n ≤ lo') :
    getBits (putBits w lo n v) lo' n' = getBits w lo' n' := by
  apply Nat.eq_of_testBit_eq
  intro i
  simp only [getBits_testBit]
  by_cases k : i < n'
  · rw [putBits_getLsbD _ _ _ _ _ (by omega), if_neg (by omega)]
  · simp [k]

/-! ## Fields of registers -/

/-- A field read after it is written. -/
theorem State.f_setF_self {fd : Fld} (v : Nat) (h : fd.lo + fd.width ≤ 32) : (s.setF fd v).f fd = v % 2 ^ fd.width := by
  simp only [State.f, State.setF, State.rd_wr_self]
  exact getBits_putBits_self _ _ _ _ h

/-- A field of another register after a field is written. -/
theorem State.f_setF_ne {fd gd : Fld} (v : Nat) (h : gd.addr ≠ fd.addr) : (s.setF fd v).f gd = s.f gd := by
  simp only [State.f, State.setF, State.rd_wr_ne _ _ h]

/-- A field of the same register that does not meet the one written. -/
theorem State.f_setF_apart {fd gd : Fld} (v : Nat) (h : gd.lo + gd.width ≤ 32)
    (d : gd.lo + gd.width ≤ fd.lo ∨ fd.lo + fd.width ≤ gd.lo) : (s.setF fd v).f gd = s.f gd := by
  simp only [State.f, State.setF, State.rd_wr]
  split
  next e => rw [getBits_putBits_apart _ _ _ _ _ _ h d, e]
  next => rfl

/-- A register other than the field's. -/
theorem State.rd_setF_ne {fd : Fld} {a : Nat} (v : Nat) (h : a ≠ fd.addr) : (s.setF fd v).rd a = s.rd a :=
  State.rd_wr_ne _ _ h

/-- A reported event reads as 1. -/
theorem State.rd_ev_self (fd : Fld) : (s.ev fd).rd fd.addr = s.rd fd.addr ||| maskBits fd.lo fd.width := State.rd_wr_self _ _ _

/-- A register other than the event's. -/
theorem State.rd_ev_ne {fd : Fld} {a : Nat} (h : a ≠ fd.addr) : (s.ev fd).rd a = s.rd a := State.rd_wr_ne _ _ h

end Sys2Proof.Machine
end

