-- ==== Sys2Proof/Laws/Rows.lean ====
section
/-! SUPPORT. Threads and rows: what is read after a thread is written, and what a taken row does. -/

namespace Sys2Proof.Machine

open Sys2Proof

variable (s : State)

@[simp] theorem State.th_setTh_self (t : Nat) (x : Thread) : (s.setTh t x).th t = x := tget_tset_self _ _ _ _

theorem State.th_setTh_ne {t u : Nat} (x : Thread) (h : u ≠ t) : (s.setTh t x).th u = s.th u := tget_tset_ne _ _ _ h

@[simp] theorem State.setTh_setTh (t : Nat) (x y : Thread) : (s.setTh t x).setTh t y = s.setTh t y := by
  simp [State.setTh]

@[simp] theorem State.th_issued (t : Fin 16) (u : Nat) : (s.issued t).th u = s.th u := rfl

@[simp] theorem State.rd_issued (t : Fin 16) (a : Nat) : (s.issued t).rd a = s.rd a := rfl

theorem State.endRowAt_eq (t : Nat) (pc : BitVec 14) : s.endRowAt t pc = s.setTh t ((s.th t).past pc) := rfl

theorem State.endRow_eq (t : Nat) : s.endRow t = s.setTh t ((s.th t).past ((s.th t).pc + 1)) := rfl

theorem State.setFlags_eq (t : Nat) (f : Flags) : s.setFlags t f = s.setTh t { s.th t with flags := f } := rfl

theorem State.setC_eq (t : Nat) (c : Bool) : s.setC t c = s.setTh t { s.th t with flags := { (s.th t).flags with c := c } } := rfl

theorem State.setW_eq (t n : Nat) (v : Word) : s.setW t n v = s.setTh t ((s.th t).setReg n v) := rfl

theorem State.setBusy_eq (t : Nat) (b : Busy) : s.setBusy t b = s.setTh t { s.th t with busy := some b } := rfl

/-- A taken row does what its opcode does, in the state in which it has issued. -/
theorem State.Takes.issue {s : State} {t : Fin 16} {op : Nat} {r : Row} (h : s.Takes t op r) (k : Row → State → State) :
    s.issue t op k = k r (s.issued t) := by
  obtain ⟨-, ci, hr, rc, ro, cc⟩ := h
  subst hr
  have c : s.canIssue t ∧ rowCause (s.rowAt t) = 0 ∧ (s.rowAt t).op = op := ⟨ci, rc, ro⟩
  simp only [State.issue]
  rw [if_pos c]
  exact if_pos cc

theorem State.Takes.ao {s : State} {t : Fin 16} {op : Nat} {r : Row} (h : s.Takes t op r) : s.power.ao = true := h.1

/-- A row that settles nothing. -/
theorem row_next {s : State} (f : State → State) (h : s.power.ao = true) : row s f = .next (f s) := by simp [row, h]

/-- The end of a row's wait. -/
theorem ready_next {s : State} (f : State → State) (h : s.power.ao = true) : ready s f = .next (f s).settleIdle := by simp [ready, h]

/-- A command of a block that is out of reset. -/
theorem act_next {s : State} (f : State → State) (h : s.power.ao = true) : act s f = .next (f s).settle := by simp [act, h]

theorem live_next {s : State} (f : State → State) (h : s.power.ao = true) (p : s.portUp = true) :
    live s f = .next (f s).settle := by simp [live, act, h, p]

theorem awake_next {s : State} (f : State → State) (h : s.power.ao = true) (p : s.power.state ≠ .off) :
    awake s f = .next (f s).settle := by simp [awake, act, h, p]

/-- A register write that is let through. -/
theorem write_next {s : State} {w : Writer} {a : Nat} {d : Word} (h : s.power.ao = true) (m : s.mayWrite w (busWordAddr a) = true) :
    write s w a d = .next (s.busWrite w (busWordAddr a) d).settle := by simp [write, act, State.regWrite, h, m]

end Sys2Proof.Machine
end

