-- ==== Sys2Proof/Laws/Bus.lean ====
section
/-! SUPPORT. What a register write does, register by register, the bits of command words, and what the shared operations leave
in place. -/

namespace Sys2Proof.Machine

/-! ## Writes -/

theorem next_settle {u v : State} (h : u = v) : (Host.Outcome.next u.settle : Out) = .next v.settle := by rw [h]

theorem busWrite_base {s : State} {w : Writer} {a p k : Nat} {r : RegRow} {d : Word} (hr : regionOf a = .page p)
    (ha : accessOf w a = some (k, r, 0)) (hs : r.sc = 0) (hw : r.writable = true) :
    s.busWrite w a d = s.baseWrite w k (normWord (k / 0x1000) (k % 0x1000) d) d
      ((s.rd k &&& ~~~ (r.rw ||| r.w1c)) ||| (normWord (k / 0x1000) (k % 0x1000) d &&& r.rw) ||| (s.rd k &&& r.w1c &&& ~~~ d)) := by
  simp only [State.busWrite, hr, ha, hs, hw, ne_eq, not_true_eq_false, if_false, if_true]

theorem accessOf_any (w : Writer) {a : Nat} (h1 : a / 0x1000 ≠ 1) (h2 : a / 0x1000 ≠ 0x11) : accessOf w a = accessOf .boot a := by
  simp only [accessOf, h1, h2, if_false, false_and]

theorem write_word {s : State} {w : Writer} {a : Nat} {d : Word} (h : s.power.ao = true) (m : s.mayWrite w a = true)
    (e : busWordAddr a = a) : write s w a d = .next (s.busWrite w a d).settle := by
  rw [write_next h (by rw [e]; exact m), e]

theorem busWrite_at {s : State} {w : Writer} {p k : Nat} {r : RegRow} {d : Word} (hr : regionOf k = .page p)
    (h1 : k / 0x1000 ≠ 1) (h2 : k / 0x1000 ≠ 0x11) (ha : accessOf .boot k = some (k, r, 0)) (hs : r.sc = 0)
    (hw : r.writable = true) :
    s.busWrite w k d = s.baseWrite w k (normWord (k / 0x1000) (k % 0x1000) d) d
      ((s.rd k &&& ~~~ (r.rw ||| r.w1c)) ||| (normWord (k / 0x1000) (k % 0x1000) d &&& r.rw) ||| (s.rd k &&& r.w1c &&& ~~~ d)) :=
  busWrite_base hr ((accessOf_any w h1 h2).trans ha) hs hw

theorem busWrite_clrAlias {w : Writer} {a k : Nat} {r : RegRow} {s : State} {d : Word} (hr : regionOf a = .page (a / 0x1000)) (ha : accessOf w a = some (k, r, 2)) (h : r.sc ≠ 0) (hk : k ≠ Reg.PLAN_SEM) :
    s.busWrite w a d = s.scWrite k (s.rd k &&& ~~~(d &&& r.sc)) := by
  rw [State.busWrite, hr]; simp only [ha]
  rw [if_neg (by decide), if_neg h, if_neg hk, if_neg (by decide)]

/-! ## Bits and tables -/

theorem getBits_and_mask (d m : Word) (lo n : Nat) (h : ∀ i < n, m.getLsbD (lo + i) = true) : getBits (d &&& m) lo n = getBits d lo n := by
  apply Nat.eq_of_testBit_eq
  intro i
  simp only [getBits_testBit, BitVec.getLsbD_and]
  by_cases hi : i < n
  · simp [h i hi]
  · simp [hi]

theorem getBits_or_mask (d m : Word) (lo n : Nat) (h : ∀ i < n, m.getLsbD (lo + i) = false) : getBits (d ||| m) lo n = getBits d lo n := by
  apply Nat.eq_of_testBit_eq
  intro i
  simp only [getBits_testBit, BitVec.getLsbD_or]
  by_cases hi : i < n
  · simp [h i hi]
  · simp [hi]

theorem bitAt_getLsbD (j : Nat) (h : j < 32) : (bitAt j).getLsbD j = true := by
  have : ∀ j : Fin 32, (bitAt j).getLsbD j = true := by decide
  exact this ⟨j, h⟩

theorem tget_filter (d : Nat → Byte) (l : List Host.Cell) (c : Nat → Bool) (k : Nat) (h : c k = true) :
    tget d (l.filter fun x => c x.1) k = tget d l k := by
  induction l with
  | nil => rfl
  | cons x l ih =>
    by_cases hx : c x.1 = true
    · rw [List.filter_cons_of_pos (by simpa using hx), tget, tget, ih]
    · rw [List.filter_cons_of_neg (by simpa using hx), ih]
      rw [tget, if_neg]
      intro e; rw [e] at hx; exact hx h

/-! ## One register each -/

theorem busWrite_phaseAssign (s : State) (w : Writer) (k : Fin 16) (d : Word) : s.busWrite w (Reg.PHASE_ASSIGN k) d = s.phaseAssign k d := by
  obtain ⟨r, h1, h2, h3⟩ : ∃ r, accessOf .boot (Reg.PHASE_ASSIGN k) = some (Reg.PHASE_ASSIGN k, r, 0) ∧ r.sc = 0 ∧ r.writable = true := by
    revert k; intro k; fin_cases k <;> exact ⟨_, rfl, rfl, rfl⟩
  have hk := k.isLt
  have e1 : Reg.PHASE_ASSIGN k / 0x1000 = 9 := by unfold Reg.PHASE_ASSIGN; omega
  have e2 : Reg.PHASE_ASSIGN k % 0x1000 = 0x40 + 4 * k.val := by unfold Reg.PHASE_ASSIGN; omega
  have hr : regionOf (Reg.PHASE_ASSIGN k) = .page 9 := by
    unfold regionOf
    rw [if_pos (by unfold Reg.PHASE_ASSIGN; omega), e1]
  rw [busWrite_base hr ((accessOf_any w (by omega) (by omega)).trans h1) h2 h3]
  simp only [State.baseWrite, e1, e2]
  rw [if_pos (by omega)]
  have q : (0x40 + 4 * k.val - 0x40) / 4 = k.val := by rw [Nat.add_sub_cancel_left]; omega
  rw [q]

theorem busWrite_loopCtrl (s : State) (w : Writer) (n : Fin 4) (d : Word) :
    s.busWrite w (Reg.LOOP_CTRL n) d = (s.loopCtrl n d).probeAbort n 9 := by
  fin_cases n
  · exact (busWrite_at (p := 5) rfl (by decide) (by decide) rfl rfl rfl).trans rfl
  · exact (busWrite_at (p := 6) rfl (by decide) (by decide) rfl rfl rfl).trans rfl
  · exact (busWrite_at (p := 7) rfl (by decide) (by decide) rfl rfl rfl).trans rfl
  · exact (busWrite_at (p := 8) rfl (by decide) (by decide) rfl rfl rfl).trans rfl

theorem busWrite_target (s : State) (w : Writer) (n : Fin 4) (d : Word) :
    s.busWrite w (Reg.LOOP_TARGET n) d = (s.targetWrite n d).probeAbort n 9 := by
  fin_cases n
  · exact (busWrite_at (p := 5) rfl (by decide) (by decide) rfl rfl rfl).trans rfl
  · exact (busWrite_at (p := 6) rfl (by decide) (by decide) rfl rfl rfl).trans rfl
  · exact (busWrite_at (p := 7) rfl (by decide) (by decide) rfl rfl rfl).trans rfl
  · exact (busWrite_at (p := 8) rfl (by decide) (by decide) rfl rfl rfl).trans rfl

theorem busWrite_faultClear (s : State) (w : Writer) (i : Fin 2) (d : Word) : s.busWrite w (Reg.FAULT_CLEAR i) d = s.clearWrite i d (isHost w) := by
  fin_cases i <;> exact (busWrite_at (p := 0x10) rfl (by decide) (by decide) rfl rfl rfl).trans rfl

theorem busWrite_react (s : State) (w : Writer) (k : Fin 48) (d : Word) : s.busWrite w (Reg.FAULT_REACT k) d = s.reactWrite k (normWord 0x10 (0x100 + 4 * k) d) := by
  obtain ⟨r, h1, h2, h3⟩ : ∃ r, accessOf .boot (Reg.FAULT_REACT k) = some (Reg.FAULT_REACT k, r, 0) ∧ r.sc = 0 ∧ r.writable = true := by
    revert k; intro k; fin_cases k <;> exact ⟨_, rfl, rfl, rfl⟩
  have hk := k.isLt
  have e1 : Reg.FAULT_REACT k / 0x1000 = 0x10 := by unfold Reg.FAULT_REACT; omega
  have e2 : Reg.FAULT_REACT k % 0x1000 = 0x100 + 4 * k.val := by unfold Reg.FAULT_REACT; omega
  have hr : regionOf (Reg.FAULT_REACT k) = .page 0x10 := by
    unfold regionOf
    rw [if_pos (by unfold Reg.FAULT_REACT; omega), e1]
  rw [busWrite_base hr ((accessOf_any w (by omega) (by omega)).trans h1) h2 h3]
  simp only [State.baseWrite, e1, e2, State.writeFault]
  rw [if_neg (by omega), if_neg (by omega), if_neg (by omega), if_pos (by omega)]
  have q : (0x100 + 4 * k.val - 0x100) / 4 = k.val := by rw [Nat.add_sub_cancel_left]; omega
  rw [q]

theorem busWrite_gaugeCtrl (s : State) (w : Writer) (d : Word) : s.busWrite w Reg.GAUGE_CTRL d = s.gaugeCtrl d :=
  (busWrite_at (p := 0xE) (k := Reg.GAUGE_CTRL) rfl (by decide) (by decide) rfl rfl rfl).trans rfl

theorem busWrite_fcc (s : State) (w : Writer) (d : Word) : s.busWrite w Reg.GAUGE_FCC d = s.fccWrite d.toNat :=
  (busWrite_at (p := 0xE) (k := Reg.GAUGE_FCC) rfl (by decide) (by decide) rfl rfl rfl).trans rfl

theorem busWrite_rm (s : State) (w : Writer) (d : Word) : s.busWrite w Reg.GAUGE_RM d = s.rmWrite d.toNat :=
  (busWrite_at (p := 0xE) (k := Reg.GAUGE_RM) rfl (by decide) (by decide) rfl rfl rfl).trans rfl

theorem busWrite_design (s : State) (w : Writer) (d : Word) : s.busWrite w Reg.GAUGE_DESIGN d = s.designWrite d.toNat :=
  (busWrite_at (p := 0xE) (k := Reg.GAUGE_DESIGN) rfl (by decide) (by decide) rfl rfl rfl).trans rfl

theorem busWrite_prove (s : State) (w : Writer) (d : Word) : s.busWrite w Reg.GAUGE_PROVE d = s.proveWrite d :=
  (busWrite_at (p := 0xE) (k := Reg.GAUGE_PROVE) rfl (by decide) (by decide) rfl rfl rfl).trans rfl

theorem busWrite_hostop (s : State) (w : Writer) (d : Word) : s.busWrite w Reg.LEDGER_HOSTOP d = s.hostOp (getBits d 28 4) (getBits d 0 9) (getBits d 16 3) :=
  (busWrite_at (p := 3) (k := Reg.LEDGER_HOSTOP) rfl (by decide) (by decide) rfl rfl rfl).trans rfl

theorem busWrite_linkCtrl (s : State) (w : Writer) (n : Fin 8) (d : Word) : s.busWrite w (Reg.LINK_CTRL n) d = s.linkCtrlWrite n d := by
  have e : s.busWrite w (Reg.LINK_CTRL n) d = s.linkCtrlWrite n (putBits d 4 2 (if 2 < getBits d 4 2 then 2 else getBits d 4 2)) := by
    fin_cases n
    all_goals exact (busWrite_at rfl (by decide) (by decide) rfl rfl rfl).trans rfl
  rw [e]
  have h0 : getBits (putBits d 4 2 (if 2 < getBits d 4 2 then 2 else getBits d 4 2)) 0 1 = getBits d 0 1 := getBits_putBits_apart _ _ _ _ _ _ (by decide) (by decide)
  have h1 : getBits (putBits d 4 2 (if 2 < getBits d 4 2 then 2 else getBits d 4 2)) 4 2 = (if 2 < getBits d 4 2 then 2 else getBits d 4 2) := by
    rw [getBits_putBits_self _ _ _ _ (by decide)]
    apply Nat.mod_eq_of_lt
    split <;> omega
  have hb : getBits d 4 2 < 4 := by
    unfold getBits
    exact Nat.mod_lt _ (by decide)
  have h2 : (if (if 2 < getBits d 4 2 then 2 else getBits d 4 2) = 3 then 2 else (if 2 < getBits d 4 2 then 2 else getBits d 4 2)) = if getBits d 4 2 = 3 then 2 else getBits d 4 2 := by
    generalize getBits d 4 2 = b at hb
    have : b = 0 ∨ b = 1 ∨ b = 2 ∨ b = 3 := by omega
    rcases this with rfl | rfl | rfl | rfl <;> rfl
  simp only [State.linkCtrlWrite, h0, h1, h2]
  have h3 : ∀ v : Nat, putBits (putBits d 4 2 (if 2 < getBits d 4 2 then 2 else getBits d 4 2) &&& 0x00FFFF0C) 4 2 v = putBits (d &&& 0x00FFFF0C) 4 2 v := by
    intro v
    apply BitVec.eq_of_getLsbD_eq
    intro i hi
    rw [putBits_getLsbD _ _ _ _ _ hi, putBits_getLsbD _ _ _ _ _ hi]
    split
    · rfl
    · next h => rw [BitVec.getLsbD_and, BitVec.getLsbD_and, putBits_getLsbD _ _ _ _ _ hi, if_neg h]
  simp only [h3]

theorem busWrite_hostpush (s : State) (w : Writer) (n : Fin 8) (d : Word) : s.busWrite w (Reg.LINK_HOSTPUSH n) d = s.hostPush n d := by
  fin_cases n
  all_goals exact (busWrite_at rfl (by decide) (by decide) rfl rfl rfl).trans rfl

theorem descriptor_index (n q i j : Nat) (hq : q < 8) (hi : i < 16) (hj : j < 4) : (2048*n+256*q+16*i+4*j)/2048 = n ∧ (2048*n+256*q+16*i+4*j)/256%8 = q ∧ (2048*n+256*q+16*i+4*j)/16%16 = i ∧ (2048*n+256*q+16*i+4*j)/4%4 = j := by
  refine ⟨by omega, by omega, by omega, by omega⟩

/-- The window of the link queues (R23). -/
theorem regionOf_queues {a : Nat} (lo : 0x160000 ≤ a) (hi : a < 0x164000) : regionOf a = .queues := by
  unfold regionOf
  repeat' split
  all_goals first | rfl | omega

theorem busWrite_descriptor (s : State) (w : Writer) (n q : Fin 8) (i : Fin 16) (j : Fin 4) (d : Word) :
    s.busWrite w (descAddr n q i j) d = s.descWrite n q i j d := by
  have hr : regionOf (descAddr n q i j) = .queues :=
    regionOf_queues (by unfold descAddr slotOf; omega) (by unfold descAddr slotOf; omega)
  rw [State.busWrite, hr]
  simp only [State.queueWrite]
  have e0 : descAddr n q i j - 0x160000 = 2048*n.val+256*q.val+16*i.val+4*j.val := by unfold descAddr slotOf; omega
  obtain ⟨e1, e2, e3, e4⟩ := descriptor_index n q i j q.isLt i.isLt j.isLt
  rw [e0, e1, e2, e3, e4]

theorem busWrite_otpCmd (s : State) (w : Writer) (d : Word) : s.busWrite w Reg.OTP_CMD d = s.otpCmd (hostOf w) d :=
  (busWrite_at (p := 0x14) (k := Reg.OTP_CMD) rfl (by decide) (by decide) rfl rfl rfl).trans rfl

theorem busWrite_shadow (s : State) (w : Writer) (i : Fin 320) (d : Word) : s.busWrite w (0x150300 + 4 * i.val) d =
    if s.shadowLocked then s else s.shadowWrite (192 + i) d := by
  have hi := i.isLt
  have hr : regionOf (0x150300 + 4 * i.val) = .shadow := by
    unfold regionOf
    repeat (first | rw [if_neg (by omega)] | rw [if_pos (by omega)])
  have e : (0x150300 + 4 * i.val - 0x150000) / 4 = 192 + i.val := by omega
  rw [State.busWrite, hr]; simp only [e]

theorem busWrite_pathCtrl (s : State) (w : Writer) (d : Word) : s.busWrite w Reg.PATH_CTRL d = s.pathCtrlWrite (isHost w) d :=
  (busWrite_at (p := 0xD) (k := Reg.PATH_CTRL) rfl (by decide) (by decide) rfl rfl rfl).trans rfl

theorem busWrite_thcmd (s : State) (p : Proc) (d : Word) : s.busWrite (.host p) Reg.PLAN_THCMD d = thcmdWrite s d :=
  (busWrite_base (p := 2) (k := Reg.PLAN_THCMD) rfl rfl rfl rfl).trans rfl

theorem accessOf_thw : ∀ (n : Fin 16) (m : Fin 8), accessOf .boot (Reg.PLAN_THW n m) = (findRow 2 (0x100 + 32 * n.val + 4 * m.val)).map fun r => (Reg.PLAN_THW n m, r, 0) := by decide

theorem row_thw : ∀ (n : Fin 16) (m : Fin 8), ∃ r, findRow 2 (0x100 + 32 * n.val + 4 * m.val) = some r ∧ r.sc = 0 ∧ r.writable = true := by
  intro n m
  have : ∀ (n : Fin 16) (m : Fin 8), ((findRow 2 (0x100 + 32 * n.val + 4 * m.val)).map fun r => (r.sc, r.writable)) = some (0, true) := by decide
  have := this n m
  cases h : findRow 2 (0x100 + 32 * n.val + 4 * m.val) with
  | none => simp [h] at this
  | some r => simp [h] at this; exact ⟨r, rfl, this⟩

theorem busWrite_thw (s : State) (w : Writer) (n : Fin 16) (m : Fin 8) (d : Word) : s.busWrite w (Reg.PLAN_THW n m) d = thwWrite s n m d := by
  obtain ⟨r, h1, h2, h3⟩ := row_thw n m
  have hn := n.isLt
  have hm := m.isLt
  have e1 : Reg.PLAN_THW n m / 0x1000 = 2 := by unfold Reg.PLAN_THW; omega
  have e2 : Reg.PLAN_THW n m % 0x1000 = 0x100 + 32 * n.val + 4 * m.val := by unfold Reg.PLAN_THW; omega
  have hr : regionOf (Reg.PLAN_THW n m) = .page 2 := by
    unfold regionOf
    rw [if_pos (by unfold Reg.PLAN_THW; omega), e1]
  have ha : accessOf w (Reg.PLAN_THW n m) = some (Reg.PLAN_THW n m, r, 0) := by
    rw [accessOf_any w (by omega) (by omega), accessOf_thw, h1]; rfl
  rw [busWrite_base hr ha h2 h3]
  simp only [State.baseWrite, e1, e2, State.writePlan]
  rw [if_neg (by omega), if_neg (by omega), if_neg (by omega), if_pos (by omega)]
  have q1 : (0x100 + 32 * n.val + 4 * m.val - 0x100) / 32 = n.val := by rw [Nat.add_assoc, Nat.add_sub_cancel_left]; omega
  have q2 : (0x100 + 32 * n.val + 4 * m.val - 0x100) / 4 % 8 = m.val := by rw [Nat.add_assoc, Nat.add_sub_cancel_left]; omega
  rw [q1, q2]

theorem busWrite_seqReq (s : State) (w : Writer) (d : Word) : s.busWrite w Reg.SEQ_REQ d = s.seqReq d :=
  (busWrite_at (p := 0xC) (k := Reg.SEQ_REQ) rfl (by decide) (by decide) rfl rfl rfl).trans rfl

theorem busWrite_slotDep (s : State) (w : Writer) (k : Fin 32) (d : Word) : s.busWrite w (Reg.SEQ_SLOTDEP k) d = s.depWrite k d := by
  fin_cases k <;> exact (busWrite_at (p := 0xC) rfl (by decide) (by decide) rfl rfl rfl).trans rfl

theorem busWrite_recordCmd (s : State) (w : Writer) (d : Word) : s.busWrite w Reg.RECORD_CMD d = s.recordCmd d :=
  (busWrite_at (p := 0x12) (k := Reg.RECORD_CMD) rfl (by decide) (by decide) rfl rfl rfl).trans rfl

theorem busWrite_flashHcmd (s : State) (w : Writer) (d : Word) : s.busWrite w Reg.FLASH_HCMD d = s.hostFlash (hostOf w) d :=
  (busWrite_at (p := 0x13) (k := Reg.FLASH_HCMD) rfl (by decide) (by decide) rfl rfl rfl).trans rfl

theorem busWrite_flashCtrl (s : State) (w : Writer) (d : Word) : s.busWrite w Reg.FLASH_CTRL d = s.flashCtrlWrite d :=
  (busWrite_at (p := 0x13) (k := Reg.FLASH_CTRL) rfl (by decide) (by decide) rfl rfl rfl).trans rfl

theorem busWrite_timerCmd (s : State) (w : Writer) (n : Fin 4) (d : Word) : s.busWrite w (Reg.TIMER_CMD n) d = s.timerCmd w n (getBits d 0 3) := by
  fin_cases n <;> exact (busWrite_at (p := 0x15) rfl (by decide) (by decide) rfl rfl rfl).trans rfl

/-! ## Word addresses and command words -/

theorem busWordAddr_loopCtrl (n : Fin 4) : busWordAddr (Reg.LOOP_CTRL n) = Reg.LOOP_CTRL n := by revert n; decide

theorem busWordAddr_target (n : Fin 4) : busWordAddr (Reg.LOOP_TARGET n) = Reg.LOOP_TARGET n := by revert n; decide

theorem busWordAddr_react (k : Fin 48) : busWordAddr (Reg.FAULT_REACT k) = Reg.FAULT_REACT k := by unfold busWordAddr Reg.FAULT_REACT; omega

theorem busWordAddr_linkCtrl (n : Fin 8) : busWordAddr (Reg.LINK_CTRL n) = Reg.LINK_CTRL n := by revert n; decide

theorem busWordAddr_hostpush (n : Fin 8) : busWordAddr (Reg.LINK_HOSTPUSH n) = Reg.LINK_HOSTPUSH n := by revert n; decide

theorem busWordAddr_descriptor (n q : Fin 8) (i : Fin 16) (j : Fin 4) : busWordAddr (descAddr n q i j) = descAddr n q i j := by
  unfold busWordAddr descAddr slotOf; omega

theorem busWordAddr_slotDep (k : Fin 32) : busWordAddr (Reg.SEQ_SLOTDEP k) = Reg.SEQ_SLOTDEP k := by revert k; decide

theorem busWordAddr_timerCmd (n : Fin 4) : busWordAddr (Reg.TIMER_CMD n) = Reg.TIMER_CMD n := by revert n; decide

theorem busWordAddr_thw (n : Fin 16) (m : Fin 8) : busWordAddr (Reg.PLAN_THW n m) = Reg.PLAN_THW n m := by
  have hn := n.isLt
  have hm := m.isLt
  unfold busWordAddr Reg.PLAN_THW
  omega

theorem seqReq_bits (k : Fin 32) : getBits (BitVec.ofNat 32 (0x100 + k.val)) 0 5 = k.val ∧ getBits (BitVec.ofNat 32 (0x100 + k.val)) 8 1 = 1 ∧
   getBits (BitVec.ofNat 32 (k.val)) 0 5 = k.val ∧ getBits (BitVec.ofNat 32 (k.val)) 8 1 = 0 := by revert k; decide

theorem hostop_bits (o : Nat) (h3 : o < 5) (p : BitVec 9) (b : BitVec 3) : getBits (BitVec.ofNat 32 (o * 2 ^ 28 + b.toNat * 2 ^ 16 + p.toNat)) 28 4 = o ∧
    getBits (BitVec.ofNat 32 (o * 2 ^ 28 + b.toNat * 2 ^ 16 + p.toNat)) 0 9 = p.toNat ∧ getBits (BitVec.ofNat 32 (o * 2 ^ 28 + b.toNat * 2 ^ 16 + p.toNat)) 16 3 = b.toNat := by
  have h1 := p.isLt; have h2 := b.isLt
  unfold getBits
  simp only [BitVec.toNat_ofNat, Nat.shiftRight_eq_div_pow]
  refine ⟨by omega, by omega, by omega⟩

theorem otpWord_bits (op m k a : Nat) (h1 : op < 16) (h2 : m < 4) (h3 : k < 256) (h4 : a < 2048) :
    getBits (otpWord op m k a) 28 4 = op ∧ getBits (otpWord op m k a) 26 2 = m ∧ getBits (otpWord op m k a) 16 8 = k ∧ getBits (otpWord op m k a) 0 11 = a := by
  unfold otpWord getBits; simp only [BitVec.toNat_ofNat, Nat.shiftRight_eq_div_pow]
  refine ⟨by omega, by omega, by omega, by omega⟩

theorem recordWord_bits (o x : Nat) (h : o < 6) (hx : x < 256) : getBits (BitVec.ofNat 32 (o * 0x10000000 + x)) 28 4 = o ∧ getBits (BitVec.ofNat 32 (o * 0x10000000 + x)) 0 8 = x := by
  unfold getBits; simp only [BitVec.toNat_ofNat, Nat.shiftRight_eq_div_pow]
  refine ⟨by omega, by omega⟩

theorem flashWord_bits (len : BitVec 9) : ∀ op, op < 4 → getBits (BitVec.ofNat 32 (op * 2 ^ 28 + len.toNat)) 28 4 = op ∧ getBits (BitVec.ofNat 32 (op * 2 ^ 28 + len.toNat)) 0 9 = len.toNat := by
  intro op hop
  have := len.isLt
  unfold getBits; simp only [BitVec.toNat_ofNat, Nat.shiftRight_eq_div_pow]
  refine ⟨by omega, by omega⟩

theorem thcmd_bits (a t pc : Nat) (ha : a < 8) (ht : t < 16) (hp : pc < 2 ^ 14) :
    getBits (thcmdWord a t pc) 0 4 = t ∧ getBits (thcmdWord a t pc) 4 3 = a ∧ getBits (thcmdWord a t pc) 16 14 = pc := by
  have : (thcmdWord a t pc).toNat = pc * 2 ^ 16 + a * 16 + t := by
    simp [thcmdWord]; omega
  simp only [getBits, this, Nat.shiftRight_eq_div_pow]
  omega

/-! ## Shared operations -/

theorem State.rd_wakeUp (x : State) (a : Nat) : State.rd x.wakeUp a = x.rd a := by unfold State.wakeUp; split <;> rfl

theorem State.rd_pulse (x : State) (k a : Nat) : State.rd (x.pulse k) a = x.rd a := by unfold State.pulse; split <;> rfl

theorem State.rd_noteOutputs (s t : State) (a : Nat) (h : a ≠ Reg.INTC_EVRAW) : (s.noteOutputs t).rd a = t.rd a := by
  unfold State.noteOutputs
  simp only
  generalize (_ ||| _ ||| _ ||| _ : Word) = w
  by_cases e : w = 0
  · rw [if_pos e]
  · rw [if_neg e, State.orReg, State.rd_wr_ne _ _ h]

theorem State.src_setSrc (s : State) (k : Nat) (x : FaultSrc) : (s.setSrc k x).src k = x := tget_tset_self _ _ _ _

theorem State.tm_setTm (s : State) (n : Nat) (x : Timer) : (s.setTm n x).tm n = x := tget_tset_self _ _ _ _

theorem State.pt_setPt_self (s : State) (gp v : Nat) (f : PtFld) (h : f.2.1 + f.2.2 ≤ 32) : (s.setPt gp f v).pt gp f = v % 2 ^ f.2.2 := by
  rw [State.pt, State.setPt, State.f_setF_self _ _ h]; rfl

theorem State.pt_setPt_apart (s : State) (gp v : Nat) (f g : PtFld) (h : g.2.1 + g.2.2 ≤ 32) (d : g.2.1 + g.2.2 ≤ f.2.1 ∨ f.2.1 + f.2.2 ≤ g.2.1) :
   (s.setPt gp f v).pt gp g = s.pt gp g := by
  rw [State.pt, State.setPt, State.f_setF_apart _ _ h d]; rfl

theorem State.pt_setPt_off (s : State) (gp v : Nat) (f g : PtFld) (h : g.1 ≠ f.1) : (s.setPt gp f v).pt gp g = s.pt gp g := by
  rw [State.pt, State.setPt, State.f_setF_ne _ _ (by simp [ptFld, ptAddr]; exact h)]; rfl

theorem State.rd_setPt (s : State) (gp v : Nat) (f : PtFld) (a : Nat) (h : a ≠ ptAddr gp f.1) : (s.setPt gp f v).rd a = s.rd a := by
  rw [State.setPt, State.setF, State.rd_wr_ne _ _ (by simpa [ptFld] using h)]

theorem State.pt_lt (s : State) (gp : Nat) (f : PtFld) : s.pt gp f < 2 ^ f.2.2 := Nat.mod_lt _ (Nat.two_pow_pos _)

theorem State.resDue_setResDue (s : State) (gp : Nat) (d : Option Nat) : (s.setResDue gp d).resDue gp = d := tget_tset_self _ _ _ _

theorem State.noteOutputs_parts (a b : State) : (a.noteOutputs b).resetReq = b.resetReq ∧ (a.noteOutputs b).faults = b.faults := by
  unfold State.noteOutputs; simp only
  generalize (_ ||| _ ||| _ ||| _ : Word) = w
  by_cases e : w = 0
  · rw [if_pos e]; exact ⟨rfl, rfl⟩
  · rw [if_neg e]; exact ⟨rfl, rfl⟩

theorem State.setBytes_parts (bs : List Byte) : ∀ (s : State) (a : Nat), (s.setBytes a bs).resetReq = s.resetReq ∧ (s.setBytes a bs).faults = s.faults := by
  induction bs with
  | nil => intro s a; exact ⟨rfl, rfl⟩
  | cons b bs ih => intro s a; exact ih _ _

theorem State.almanacPut_parts (s : State) (time a b c d e f : Nat) : (s.almanacPut time a b c d e f).resetReq = s.resetReq ∧
    (s.almanacPut time a b c d e f).faults = s.faults := by
  unfold State.almanacPut
  split
  · simp only
    generalize almanacEntry _ _ _ _ _ _ _ _ = l
    generalize 0x130000 + 32 * _ = ad
    obtain ⟨h1, h2⟩ := State.setBytes_parts l s ad
    generalize s.setBytes ad l = u at h1 h2
    split <;> exact ⟨h1, h2⟩
  · exact ⟨rfl, rfl⟩

theorem State.almanacAdd_parts (s : State) (a b c d e f : Nat) : (s.almanacAdd a b c d e f).resetReq = s.resetReq ∧ (s.almanacAdd a b c d e f).faults = s.faults := by
  unfold State.almanacAdd
  split
  · exact State.almanacPut_parts ..
  · exact ⟨rfl, rfl⟩

theorem State.rd_groupFall (s : State) (i a : Nat) : (s.groupFall i).rd a = s.rd a := by
  unfold State.groupFall; simp only; split <;> rfl

theorem State.pend_setIntPend (s : State) (i : Fin 96) (b : Bool) : (s.setIntPend i b).pend i = b := by
  have hj : ∀ i : Fin 96, (pendReg i).2 < 32 := by decide
  have hb := bitAt_getLsbD _ (hj i)
  unfold State.setIntPend
  cases hc : pendReg i.val with
  | mk a j =>
  simp only
  rw [hc] at hb
  cases b
  · simp only [Bool.false_eq_true, if_false]
    split
    · unfold State.pend; rw [hc]; simp only [State.rd_groupFall]
      rw [State.clrReg, State.rd_wr_self, bit, BitVec.getLsbD_and, BitVec.getLsbD_not]
      simp only at hb
      simp [hb]
    · next h => simpa using h
  · simp only [if_true]
    unfold State.pend; rw [hc]; simp only
    rw [State.orReg, State.rd_wr_self, bit, BitVec.getLsbD_or]
    simp only at hb
    simp [hb]

theorem State.ledgerIssue_host (s : State) (op : LedgerOp) (h : s.eng.ledgerBusy = none) (h1 : s.eng.ledgerQ = []) : s.ledgerIssue .host op = (s.ledgerRun op).1.hostAnswered (s.ledgerRun op).2 := by
  rw [State.ledgerIssue, if_pos (by simp [State.ledgerFree, h, h1])]; rfl

theorem State.ledgerIssue_queued (s : State) (op : LedgerOp) (h : s.eng.ledgerBusy ≠ none) : s.ledgerIssue .host op = { s with eng := { s.eng with ledgerQ := s.eng.ledgerQ ++ [(.host, op)] } } := by
  have f : ¬ s.ledgerFree = true := by
    cases hb : s.eng.ledgerBusy
    · exact absurd hb h
    · simp [State.ledgerFree, hb]
  rw [State.ledgerIssue, if_neg f]

end Sys2Proof.Machine
end

