-- ==== Sys2Proof/WellFormed.lean ====
section
/-! DEFINITION. Which commands are well formed: operands within what their source can deliver. The meanings do not rest
on it: every command of the type has one. -/

namespace Sys2Proof

/-- A bus address has 24 bits (R52). -/
def busAddrOk (a : Nat) : Bool := decide (a < 2 ^ 24)

/-- A frame has a command byte, a read has shifted out at most a page of words, and at most 64 wait bytes (R50, R55, R56). -/
def frameOk (f : Frame) : Bool :=
  !f.bytes.isEmpty && decide (f.words ≤ 1024) && (match f.waits with
    | some n => decide (n ≤ 64)
    | none => true)

/-- OTP words that the array has (R392). -/
def senseOk (o : OtpSense) : Bool := (o.corrected ++ o.uncorr ++ o.marginal).all fun w => decide (w < 2048)

/-- A reply's payload has at most 8 bytes (R273). -/
def payloadOk (b : List Byte) : Bool := decide (b.length ≤ 8)

/-- A period's measurements name phases 0–15, each once (R116). -/
def averagesOk (xs : List PhaseMeas) : Bool :=
  xs.all (fun x => decide (x.k < 16)) && (xs.map fun x => x.k).eraseDups.length == xs.length

/-- A scan's samples name channels 0–47 with 12-bit codes (R185, R187). -/
def samplesOk (xs : List AdcSample) : Bool :=
  xs.all fun x => decide (x.ch < 48) && x.a.all (fun c => decide (c < 4096)) && x.b.all (fun c => decide (c < 4096)) &&
    decide (x.value < 2 ^ 16)

/-- A thermal sample has nine die readings and six remote ones (R327). -/
def thermalOk (die : List Int) (ends : Nat) (td : List TdReading) : Bool :=
  die.length == 9 && decide (ends < 512) && td.length == 6

/-- A measured quantity names phases 0–15 (R151). -/
def measuredOk : Measured → Bool
  | .share v => v.all fun x => decide (x.1 < 16)
  | .ind v => v.all fun x => decide (x.1 < 16)
  | .therm v => v.all fun x => decide (x.1 < 16)
  | .resp _ _ => true
  | .cout _ _ => true
  | .skipped => true

/-- A command is well formed. -/
def Instr.wf (i : Instr) : Bool :=
  match i with
  | .registerWrite _ a _ => busAddrOk a
  | .read f => frameOk f
  | .readBurst f => frameOk f
  | .write f => frameOk f
  | .writeBurst f => frameOk f
  | .status f => frameOk f
  | .id f => frameOk f
  | .bootTrimReadDone o bad => senseOk o && bad.all fun r => decide (r < 2)
  | .bootShadowLoaded o => senseOk o
  | .loadPass1Done _ o => senseOk o
  | .otpPlanHeaderRead o => senseOk o
  | .otpPlanReadDone o => senseOk o
  | .otpCmdComplete o => senseOk o
  | .statusReply _ _ _ b => payloadOk b
  | .dataReply _ _ _ b => payloadOk b
  | .periodStart _ _ ms => averagesOk ms
  | .adcScanDone xs => samplesOk xs
  | .thermalSample die ends td => thermalOk die ends td
  | .probeMeasDone m => measuredOk m
  | .chargerHwLimit c _ => c != 0
  | .chargerLimitRelease c _ => c != 0
  | _ => true

end Sys2Proof
end

