-- ==== Sys2Proof/Tests/Slice0.lean ====
section
/-! SUPPORT. Tests: the checks of WellFormed, single commands on small states, and, for every statement with hypotheses,
concrete states and operands that meet them (`wit_<statement>`). -/

namespace Sys2Proof.Tests

open Sys2Proof Sys2Proof.Machine

set_option Elab.async false

/-! ## Small states -/

/-- A device in FULL whose boot flow has passed. -/
def up : State :=
  { State.reset with
    power := { State.reset.power with state := .full, wakeRuns := true, pll := .locked, subValid := true }
    seq := { State.reset.seq with stage := .running, rsto := true, cold := false } }

/-- The same device in another power state. -/
def inState (p : PowerState) (wake : Bool) (pll : PllState) : State :=
  { up with power := { up.power with state := p, wakeRuns := wake, pll := pll, subValid := false } }

/-- An IMM operand. -/
def imm (v : Nat) : Nat := 2 ^ 18 + v

/-- A row in row 0 of plan memory, with thread 0 standing on it in RUN. -/
def onRow (op cc tgt a b : Nat) (x : Thread) : State :=
  let w := ((op * 16 + cc) * 2 ^ 14 + tgt) * 2 ^ 40 + a * 2 ^ 20 + b
  (up.setRow 0 (BitVec.ofNat 32 w) (BitVec.ofNat 32 (w / 2 ^ 32))).setTh 0 { x with st := .run }

/-- The row at thread 0's PC. -/
def row0 (s : State) : Row := s.rowAt 0

def th0 : Thread := Thread.init

/-- A taken row of thread 0, with operands A and B. -/
def tk (op a b : Nat) : State := onRow op 0 5 a b th0

/-- Host A, and a row of thread 3. -/
def hA : Writer := .host .A
def row3 : Writer := .row 3

/-! ## WellFormed: each check refuses an ill-formed command -/

theorem wf_address : Instr.wf (.registerWrite hA 0x1000000 0) = false ∧ Instr.wf (.registerWrite hA 0xFFFFFF 0) = true := by decide
theorem wf_frame_empty : Instr.wf (.status ⟨.A, false, [], 0, none, []⟩) = false := by decide
theorem wf_frame_words : Instr.wf (.read ⟨.A, false, [3], 1025, none, []⟩) = false := by decide
theorem wf_frame_waits : Instr.wf (.readBurst ⟨.A, false, [11], 1, some 65, []⟩) = false ∧
    Instr.wf (.write ⟨.A, false, [2], 0, some 64, []⟩) = true := by decide
theorem wf_frames : Instr.wf (.writeBurst ⟨.A, false, [], 0, none, []⟩) = false ∧
    Instr.wf (.id ⟨.A, false, [], 0, none, []⟩) = false := by decide
theorem wf_sense : let o : OtpSense := ⟨[2048], [], [], none, 0, none⟩
    Instr.wf (.bootShadowLoaded o) = false ∧ Instr.wf (.loadPass1Done true o) = false ∧ Instr.wf (.otpPlanHeaderRead o) = false ∧
    Instr.wf (.otpPlanReadDone o) = false ∧ Instr.wf (.otpCmdComplete o) = false ∧ Instr.wf (.bootTrimReadDone o []) = false := by decide
theorem wf_regions : Instr.wf (.bootTrimReadDone ⟨[], [], [], none, 0, none⟩ [2]) = false := by decide
theorem wf_payload : Instr.wf (.statusReply 0 0 false (List.replicate 9 0)) = false ∧
    Instr.wf (.dataReply 0 0 false (List.replicate 9 0)) = false := by decide
theorem wf_averages : Instr.wf (.periodStart 0 0 [⟨16, 0, 0, 0, 0, 0⟩]) = false ∧
    Instr.wf (.periodStart 0 0 [⟨1, 0, 0, 0, 0, 0⟩, ⟨1, 0, 0, 0, 0, 0⟩]) = false := by decide
theorem wf_samples : Instr.wf (.adcScanDone [⟨48, [0], [], 0⟩]) = false ∧
    Instr.wf (.adcScanDone [⟨0, [4096], [], 0⟩]) = false ∧ Instr.wf (.adcScanDone [⟨0, [4095], [4096], 0⟩]) = false := by decide
theorem wf_thermal : Instr.wf (.thermalSample [] 0 []) = false := by decide
theorem wf_measured : Instr.wf (.probeMeasDone (.share [(16, 0)])) = false := by decide
theorem wf_limits : Instr.wf (.chargerHwLimit 0 0) = false ∧ Instr.wf (.chargerLimitRelease 0 0) = false := by decide

/-! ## Rows of the engine -/

/-- A sample row for every opcode of R86: opcode, A and B. -/
def sampleRows : List (Nat × Nat × Nat) :=
  [(0x01, 0, 0), (0x02, 0, 0), (0x03, 0, 0), (0x04, 0, 0), (0x05, 7, 0), (0x06, 0, 0), (0x07, imm 15, 0), (0x08, imm 15, 0),
   (0x09, 0, 0), (0x10, 0, imm 0x3FFFF), (0x11, 7, imm 0x1FFFF), (0x12, 1, 2), (0x13, 1, imm 1), (0x14, 1, 1), (0x15, 1, 2), (0x16, 1, 2),
   (0x17, 1, 2), (0x18, 1, 2), (0x19, 1, imm 31), (0x1A, 1, imm 0), (0x1B, 1, imm 31), (0x1C, 1, 2), (0x1D, 1, imm 0),
   (0x1E, 1, imm 0x3FFFF), (0x1F, 1, imm 1), (0x20, 1, 2), (0x21, 1, 2), (0x28, 1, 0x86000), (0x29, 0x86000, 1), (0x2A, 0, 0),
   (0x2B, imm 15, 0), (0x2C, imm 15, 0), (0x30, imm 31, imm 4), (0x31, imm 1, 0), (0x32, imm 0xFFFF, 0), (0x33, imm 1, 0),
   (0x34, imm 7, 1), (0x35, 6, 0), (0x36, imm 1, 1), (0x37, imm 47, 0), (0x38, imm 511, imm 1), (0x39, imm 511, imm 4),
   (0x3A, imm 511, 0), (0x3B, imm 1, imm 6), (0x3C, imm 511, 0xC0000), (0x3D, imm 31, imm 2)]

/-- Every row command has a sample row, and thread 0 takes it (the hypothesis `Takes` of the statements on rows). -/
theorem wit_rows_taken : ∀ x ∈ sampleRows, (tk x.1 x.2.1 x.2.2).Takes 0 x.1 (row0 (tk x.1 x.2.1 x.2.2)) := by
  unfold State.Takes; decide +kernel
theorem wit_rows_all : rowCommands.map (·.2) = sampleRows.map (·.1) := by decide +kernel

theorem wit_LogicRows : (tk 0x10 0 (imm 0x3FFFF)).Takes 0 0x10 (row0 (tk 0x10 0 (imm 0x3FFFF))) := by
  unfold State.Takes; decide +kernel

theorem wit_AddSubRows : (tk 0x1E 1 (imm 0x3FFFF)).Takes 0 0x1E (row0 (tk 0x1E 1 (imm 0x3FFFF))) := by
  unfold State.Takes; and_intros <;> decide +kernel
theorem wit_ShiftRows : (tk 0x19 1 (imm 31)).Takes 0 0x19 (row0 (tk 0x19 1 (imm 31))) := by unfold State.Takes; and_intros <;> decide +kernel

/-- A row whose result lands now. -/
def resultDue : State := up.setTh 2 { th0 with st := .run, busy := some (.result [(1, 5)] ⟨false, false, false, true⟩) }

theorem wit_MulDivRows : (tk 0x1C 1 2).Takes 0 0x1C (row0 (tk 0x1C 1 2)) ∧ (tk 0x1D 1 (imm 0)).Takes 0 0x1D (row0 (tk 0x1D 1 (imm 0))) ∧
    resultDue.power.ao = true ∧ resultDue.engineRuns = true ∧ resultDue.eng.ledgerBusy ≠ some (.row 2) ∧
    (resultDue.th 2).busy = some (.result [(1, 5)] ⟨false, false, false, true⟩) := by
  unfold State.Takes; and_intros <;> decide +kernel

/-- CALL, RET and JMPX at the ends of their ranges. -/
def callAt (depth : Nat) : State := onRow 0x03 0 5 0 0 { th0 with stack := List.replicate depth 9 }
def retAt (depth : Nat) : State := onRow 0x04 0 5 0 0 { th0 with stack := List.replicate depth 9 }
def jmpxAt (w : Word) : State := onRow 0x09 0 16383 0 0 { th0 with w := Vector.replicate 8 w }

theorem wit_FlowRows : (callAt 3).Takes 0 0x03 (row0 (callAt 3)) ∧ ((callAt 3).th 0).stack.length < 4 ∧
    (retAt 1).Takes 0 0x04 (row0 (retAt 1)) ∧ ((retAt 1).th 0).stack = [9] ∧
    (jmpxAt 0).Takes 0 0x09 (row0 (jmpxAt 0)) ∧
    (row0 (jmpxAt 0)).tgt.toNat + (((jmpxAt 0).th 0).reg (regOf (row0 (jmpxAt 0)).a)).toNat ≤ 16383 := by
  unfold State.Takes; and_intros <;> decide +kernel

theorem wit_RowFaults_ends : (callAt 4).Takes 0 0x03 (row0 (callAt 4)) ∧ 4 ≤ ((callAt 4).th 0).stack.length ∧
    (retAt 0).Takes 0 0x04 (row0 (retAt 0)) ∧ ((retAt 0).th 0).stack = [] ∧
    (jmpxAt 1).Takes 0 0x09 (row0 (jmpxAt 1)) ∧
    16383 < (row0 (jmpxAt 1)).tgt.toNat + (((jmpxAt 1).th 0).reg (regOf (row0 (jmpxAt 1)).a)).toNat := by
  unfold State.Takes; and_intros <;> decide +kernel

/-- Rows that are illegal, by opcode 0, CC 0xF and an operand out of range; and a row of every opcode with .EQ and Z = 0. -/
theorem wit_RowFaults :
    (∀ s ∈ [tk 0 0 0, onRow 0x01 0xF 0 0 0 th0, tk 0x34 (imm 8) 1],
      s.power.ao = true ∧ s.canIssue 0 = true ∧ rowCause (s.rowAt 0) ≠ 0) ∧
    ∀ x ∈ sampleRows, ∃ s ∈ [onRow x.1 1 5 x.2.1 x.2.2 th0], s.power.ao = true ∧ s.canIssue 0 = true ∧ rowCause (row0 s) = 0 ∧
      (row0 s).op = x.1 ∧ condHolds (row0 s).cc (s.th 0).flags = false := by decide +kernel

/-- START and STOP of thread 15 by thread 0, thread 15 as given; and of thread 0 by itself. -/
def onOther (op : Nat) (x : Thread) : State := (tk op (imm 15) 0).setTh 15 x

theorem wit_ThreadRows :
    (∀ s ∈ [onOther 0x07 th0, onOther 0x07 { th0 with st := .fault }],
      s.Takes 0 0x07 (row0 s) ∧ s.threadArg 0 (row0 s).a = some (15 : Fin 16).val ∧ (s.th 15).startable = true) ∧
    (∀ s ∈ [onOther 0x07 { th0 with st := .wait }, onOther 0x07 { th0 with st := .run }],
      s.Takes 0 0x07 (row0 s) ∧ s.threadArg 0 (row0 s).a = some (15 : Fin 16).val ∧ (s.th 15).startable = false) ∧
    (∃ s ∈ [tk 0x08 (imm 0) 0], s.Takes 0 0x08 (row0 s) ∧ s.threadArg 0 (row0 s).a = some (0 : Fin 16).val) ∧
    (∀ s ∈ [onOther 0x08 th0, onOther 0x08 { th0 with st := .fault }], s.Takes 0 0x08 (row0 s) ∧
      s.threadArg 0 (row0 s).a = some (15 : Fin 16).val ∧ (s.th 15).startable = true) ∧
    (∃ s ∈ [onOther 0x08 { th0 with st := .run }], s.Takes 0 0x08 (row0 s) ∧
      s.threadArg 0 (row0 s).a = some (15 : Fin 16).val ∧ (s.th 15).st = .run ∧ (s.th 15).busy = none) ∧
    (∃ s ∈ [onOther 0x08 { th0 with st := .run, busy := some .sync }], s.Takes 0 0x08 (row0 s) ∧
      s.threadArg 0 (row0 s).a = some (15 : Fin 16).val ∧ (s.th 15).st = .run ∧ (s.th 15).busy = some .sync) ∧
    (∃ s ∈ [onOther 0x08 { th0 with st := .run, busy := some .dly }], s.Takes 0 0x08 (row0 s) ∧
      s.threadArg 0 (row0 s).a = some (15 : Fin 16).val ∧ (s.th 15).st = .run ∧ (s.th 15).busy = some .dly) ∧
    (∃ s ∈ [onOther 0x08 { th0 with st := .wait }], s.Takes 0 0x08 (row0 s) ∧
      s.threadArg 0 (row0 s).a = some (15 : Fin 16).val ∧ (s.th 15).st = .wait) := by
  unfold State.Takes; and_intros <;> decide +kernel

/-- Semaphore 15 free, held by thread 0, and held by thread 1. -/
def semAt (op : Nat) (held : Bool) (by' : Option Nat) : State :=
  let s := tk op (imm 15) 0
  { (if held then s.wr Reg.PLAN_SEM 0x8000 else s) with eng := { s.eng with semOwner := [(15, by')] } }

theorem wit_SemaphoreRows :
    (∃ s ∈ [semAt 0x2B false none], s.Takes 0 0x2B (row0 s) ∧ s.threadArg 0 (row0 s).a = some 15 ∧ bit (s.rd Reg.PLAN_SEM) 15 = false) ∧
    (∃ s ∈ [semAt 0x2B true (some 1)], s.Takes 0 0x2B (row0 s) ∧ s.threadArg 0 (row0 s).a = some 15 ∧ bit (s.rd Reg.PLAN_SEM) 15 = true) ∧
    (∃ s ∈ [semAt 0x2C true (some 0)], s.Takes 0 0x2C (row0 s) ∧ s.threadArg 0 (row0 s).a = some 15 ∧ bit (s.rd Reg.PLAN_SEM) 15 = true ∧
      tget (fun _ => none) s.eng.semOwner 15 = some (0 : Fin 16).val) ∧
    (∃ s ∈ [semAt 0x2C true (some 1)], s.Takes 0 0x2C (row0 s) ∧ s.threadArg 0 (row0 s).a = some 15 ∧ bit (s.rd Reg.PLAN_SEM) 15 = true ∧
      tget (fun _ => none) s.eng.semOwner 15 ≠ some (0 : Fin 16).val) ∧
    (tk 0x32 (imm 0xFFFF) 0).Takes 0 0x32 (row0 (tk 0x32 (imm 0xFFFF) 0)) ∧
    (∃ s ∈ [tk 0x34 (imm 7) 1], s.Takes 0 0x34 (row0 s) ∧ (s.th 0).inRange (row0 s).a 0 7 = some 7) := by
  unfold State.Takes; and_intros <;> decide +kernel

/-- An event of the PLAN page (E2). -/
def eventSet (s : State) : State := (s.wr Reg.PLAN_EVEN 1).wr Reg.PLAN_EVRAW 1
/-- Post flag 0 set. -/
def posted (s : State) : State := s.wr Reg.PLAN_POST 1

theorem wit_WaitRows :
    (∃ s ∈ [eventSet (tk 0x30 (imm 2) 0)], s.Takes 0 0x30 (row0 s) ∧ s.eventsIn (waitMask (s.th 0) (row0 s).a) ≠ 0) ∧
    (∃ s ∈ [tk 0x30 (imm 31) (imm 4)], s.Takes 0 0x30 (row0 s) ∧ s.eventsIn (waitMask (s.th 0) (row0 s).a) = 0) ∧
    (∃ s ∈ [posted (tk 0x31 (imm 1) 0)], s.Takes 0 0x31 (row0 s) ∧ s.postsIn (((s.th 0).val (row0 s).a).toNat % 2 ^ 16) ≠ 0) ∧
    (∃ s ∈ [tk 0x31 (imm 1) 0], s.Takes 0 0x31 (row0 s) ∧ s.postsIn (((s.th 0).val (row0 s).a).toNat % 2 ^ 16) = 0) ∧
    (∃ s ∈ [posted (up.setTh 0 { th0 with st := .wait, waiting := some (.posts 1) })], s.power.ao = true ∧ s.engineRuns = true ∧
      (s.th 0).waiting = some (.posts 1) ∧ s.postTaker = some (0 : Fin 16).val) ∧
    (∃ s ∈ [up.setTh 0 { th0 with st := .wait, waiting := some (.events 1), waitDue := some 0 }], s.power.ao = true ∧
      (s.th 0).st = .wait ∧ (s.th 0).waiting = some (.events 1) ∧ s.eventsIn 1 = 0 ∧ (s.th 0).waitDue = some 0 ∧ 0 ≤ s.ticks) ∧
    (∃ s ∈ [eventSet (up.setTh 0 { th0 with st := .wait, waiting := some (.events 4) })], s.power.ao = true ∧ s.engineRuns = true ∧
      (s.th 0).st = .wait ∧ (s.th 0).waiting = some (.events 4) ∧ s.eventsIn 4 ≠ 0) ∧
    (∃ s ∈ [up.setTh 0 { th0 with st := .run, busy := some .dly }], s.power.ao = true ∧ s.engineRuns = true ∧ (s.th 0).st = .run ∧
      (s.th 0).busy = some .dly) ∧
    (∃ s ∈ [tk 0x33 (imm 1) 0], s.Takes 0 0x33 (row0 s) ∧ (s.th 0).inRange (row0 s).a 1 (2 ^ 32 - 1) = some 1) := by
  unfold State.Takes; and_intros <;> decide +kernel

/-- An operand of mode ADDR: page and word. -/
def adr (page word : Nat) : Nat := 2 ^ 19 + page * 1024 + word

/-- A posted store of thread 0. -/
def stored (s : State) : State := { s with eng := { s.eng with stores := [⟨0, 0x4100, 7⟩] } }

theorem wit_MemoryRows :
    (∃ s ∈ [tk 0x28 1 (adr 4 0x40)], s.Takes 0 0x28 (row0 s) ∧ forbidden ((s.th 0).addrOf (row0 s).b) = false) ∧
    (∃ s ∈ [tk 0x28 1 (adr 1 0x40)], s.Takes 0 0x28 (row0 s) ∧ forbidden ((s.th 0).addrOf (row0 s).b) = true) ∧
    (∃ s ∈ [tk 0x29 (adr 4 0x40) 1], s.Takes 0 0x29 (row0 s) ∧ forbidden ((s.th 0).addrOf (row0 s).a) = false ∧
      regionOf ((s.th 0).addrOf (row0 s).a) ≠ .planMem) ∧
    (∃ s ∈ [tk 0x29 (adr 1 0x40) 1], s.Takes 0 0x29 (row0 s) ∧ forbidden ((s.th 0).addrOf (row0 s).a) = true) ∧
    (∃ s ∈ [onRow 0x29 0 0 (2 ^ 19 + 2 ^ 18) 1 { th0 with w := Vector.replicate 8 0x100000 }], s.Takes 0 0x29 (row0 s) ∧
      regionOf ((s.th 0).addrOf (row0 s).a) = .planMem) ∧
    (∃ s ∈ [tk 0x2A 0 0], s.Takes 0 0x2A (row0 s) ∧ ∀ x ∈ s.eng.stores, x.t ≠ 0) ∧
    (∃ s ∈ [stored (tk 0x2A 0 0)], s.Takes 0 0x2A (row0 s) ∧ ∃ x ∈ s.eng.stores, x.t = 0) ∧
    (∃ s ∈ [stored up], s.power.ao = true ∧ s.engineRuns = true ∧ nextStore 0 s.eng.stores = some ⟨0, 0x4100, 7⟩) ∧
    (∃ s ∈ [up.setTh 0 { th0 with st := .run, busy := some (.load 1 0x4100) }], s.power.ao = true ∧ s.engineRuns = true ∧
      (s.th 0).busy = some (.load 1 0x4100) ∧ ∀ x ∈ s.eng.stores, x.t = 0 → domainOf x.addr ≠ domainOf 0x4100) ∧
    (sramRegion 0x120000 = some 1 ∧ sramRegion 0x163FFC = some 4 ∧ regionOf 0x100000 = .planMem ∧ regionOf 0x11FFFC = .planMem) := by
  unfold State.Takes; and_intros <;> decide +kernel

theorem wit_DeviceRows :
    (∃ s ∈ [tk 0x35 6 0], s.Takes 0 0x35 (row0 s)) ∧ (∃ s ∈ [tk 0x36 (imm 1) 1], s.Takes 0 0x36 (row0 s)) ∧
    (∃ s ∈ [tk 0x37 (imm 47) 0], s.Takes 0 0x37 (row0 s) ∧ (s.th 0).inRange (row0 s).a 0 47 = some 47) ∧
    (∀ k ∈ [0, 1, 2], ∃ s ∈ [tk 0x3D (imm 31) (imm k)], s.Takes 0 0x3D (row0 s) ∧ (s.th 0).inRange (row0 s).a 0 31 = some 31 ∧
      (s.th 0).inRange (row0 s).b 0 2 = some k) ∧
    (∃ u c, ((tk 0x3D (imm 31) (imm 1)).issued 0).slotOn 31 = (u, c)) := by
  unfold State.Takes; and_intros <;> first | decide +kernel | exact ⟨_, _, rfl⟩

/-- The ledger occupied. -/
def ledgerBusy (s : State) : State := { s with eng := { s.eng with ledgerBusy := some .host } }

theorem wit_LedgerRows :
    (∀ g ∈ [id, ledgerBusy],
      (g (tk 0x38 (imm 511) (imm 1))).LedgerRow 0 (row0 (g (tk 0x38 (imm 511) (imm 1)))) (.lres 0) (.lres 511 1) ∧
      (g (tk 0x39 (imm 511) (imm 4))).LedgerRow 0 (row0 (g (tk 0x39 (imm 511) (imm 4)))) (.lcom 0) (.lcom 511 4) ∧
      (g (tk 0x3A (imm 511) 0)).LedgerRow 0 (row0 (g (tk 0x3A (imm 511) 0))) (.lrel 0) (.lrel 511) ∧
      (g (tk 0x3B (imm 1) (imm 6))).LedgerRow 0 (row0 (g (tk 0x3B (imm 1) (imm 6)))) (.lshed 0) (.lshed 1 6)) ∧
    (tk 0x38 (imm 511) (imm 1)).eng.ledgerBusy = none ∧ (tk 0x38 (imm 511) (imm 1)).eng.ledgerQ = [] ∧
    (ledgerBusy up).eng.ledgerBusy ≠ none := by
  refine ⟨fun g hg => ?_, by decide +kernel, by decide +kernel, by decide +kernel⟩
  have hg : g = id ∨ g = ledgerBusy := by simpa using hg
  rcases hg with rfl | rfl <;> unfold State.LedgerRow State.Takes
  all_goals exact ⟨.inl ⟨by decide +kernel, rfl, 511, by decide +kernel, by decide +kernel⟩,
    .inr (.inl ⟨by decide +kernel, rfl, 511, 4, by decide +kernel, by decide +kernel, rfl⟩),
    .inr (.inr (.inl ⟨by decide +kernel, rfl, 511, by decide +kernel, rfl⟩)),
    .inr (.inr (.inr ⟨by decide +kernel, rfl, 6, by decide +kernel, by decide +kernel⟩))⟩

theorem wit_LedgerRows_lsend : ∃ s ∈ [onRow 0x3C 0 0 (imm 511) (2 ^ 19 + 2 ^ 18) { th0 with w := Vector.replicate 8 0x15000 }],
    s.Takes 0 0x3C (row0 s) ∧ (s.th 0).inRange (row0 s).a 0 511 = some 511 ∧
    ∀ i : Fin 4, forbidden (busWordAddr ((s.th 0).addrOf (row0 s).b + 4 * i.val)) = false := by
  unfold State.Takes; decide +kernel

/-! ## Power, clocks and resets -/

theorem wit_WakeSequence :
    (∃ s ∈ [inState .fallow false .off], s.power.ao = true ∧ s.power.state = .fallow) ∧
    (∃ s ∈ [inState .awake false .off], s.power.state = .awake ∧ s.power.wakeRuns = false) ∧
    (∃ s ∈ [inState .awake true .locking], s.power.state = .awake ∧ s.power.wakeRuns = true ∧ s.power.pll = .locking) ∧
    (∃ s ∈ [inState .full true .locked], s.power.state = .full ∧ s.power.subValid = false) ∧
    (∃ s ∈ [inState .awake true .failed], s.power.state = .awake ∧ s.power.pll = .failed ∧ s.power.retryTick ≤ s.ticks) ∧
    (∃ s ∈ [{ up with power := { up.power with idleTicks := up.f Fd.SYS_PWRCTRL_IDLE } }], s.power.state = .full ∧ s.idleNow = true ∧
      s.f Fd.SYS_PWRCTRL_IDLE ≤ s.power.idleTicks ∧ s.atEdge = true) ∧
    (∃ s ∈ [{ inState .fallow false .off with power := { (inState .fallow false .off).power with wakeFail := true } }],
      s.power.state = .fallow ∧ s.power.wakeFail = true ∧ s.power.retryTick ≤ s.ticks) := by
  and_intros <;> decide +kernel

theorem wit_ClockLosses : bit (up.rd Reg.SYS_PWRSTAT) 3 = false ∧ bit ((up.wr Reg.SYS_PWRSTAT 8).rd Reg.SYS_PWRSTAT) 3 = true ∧
    up.power.ao = true ∧ (up.setF Fd.SYS_PWRSTAT_AOSRC 0).f Fd.SYS_PWRSTAT_AOSRC = 0 ∧ up.fb Fd.SYS_PWRCTRL_XTALRET = true ∧ up.atEdge = true ∧ up.power.state ≠ .off ∧
    up.power.gaugeOk = true := by and_intros <;> decide +kernel

theorem wit_ResetCommands : up.power.ao = true ∧ up.seq.resetPin = false ∧ up.power.state ≠ .off ∧
    State.reset.power.ao = true ∧ State.reset.seq.resetPin = false ∧ State.reset.power.state = .off ∧
    up.seq.stage ≠ .waitVin ∧
    up.mayWrite hA Reg.SYS_CTRL = true ∧ up.mayWrite row3 Reg.SYS_CTRL = true ∧ getBits (0x5AFE0000 : Word) 16 16 = 0x5AFE ∧
    up.mayWrite hA Reg.SYS_TIMECAP = true ∧ up.mayWrite row3 Reg.SYS_TIMECAP = true := by and_intros <;> decide +kernel

theorem wit_AoPower : ({ State.reset with power := { State.reset.power with ao := false } } : State).power.ao = false ∧
    up.power.ao = true ∧ up.otp.cmd = none ∧ up.rflash.busy = none := by and_intros <;> decide +kernel

theorem wit_Supervisors : up.power.ao = true ∧ up.power.state ≠ .off ∧ (up.src 0).hw = false ∧ (up.src 1).hw = false ∧
    (up.src 3).hw = false ∧ ({ up with seq := { up.seq with vholdArmed := true } } : State).seq.vholdArmed = true ∧
    up.seq.vholdArmed = false ∧ 7499 < 7500 ∧ 38000 < 38001 ∧ 5999 < 6000 := by and_intros <;> decide +kernel

/-- A stage of the boot flow. -/
def atStage (b : BootStage) : State := { up with seq := { up.seq with stage := b } }

theorem wit_BootFlow : up.power.ao = true ∧ State.reset.seq.stage = .waitVin ∧ (atStage .step1).seq.stage = .step1 ∧
    ((atStage .step2).seq.stage = .step2 ∧ (atStage .step2).heldInReset = false) ∧
    ({ up with seq := { up.seq with resetPin := true } } : State).heldInReset = true ∧
    ((atStage .step4).seq.stage = .step4 ∧ (atStage .step4).heldInReset = false ∧ (atStage .step4).seq.cold = false) ∧
    ∃ s ∈ [{ up with seq := { up.seq with rsto := false, rstoDue := some 0 } }], s.portUp = true ∧ s.seq.rstoDue = some 0 ∧
      0 ≤ s.ticks := by and_intros <;> decide +kernel

/-! ## Host port -/

/-- Frames to `SYS.TIMECAP` and to a RW register, with one data word and with two. -/
def fRead : Frame := ⟨.A, false, [0x03, 0, 0, 0], 1, some 0, []⟩
def fReadBurst : Frame := ⟨.B, false, [0x0B, 0, 0x0F, 0xFC], 2, some 64, []⟩
def fWrite : Frame := ⟨.A, false, [0x02, 0x01, 0x00, 0x80, 0, 0, 0, 7], 0, none, []⟩
def fBurst (n : Nat) : Frame := ⟨.B, false, [0x0A, 0x01, 0x00, 0x80] ++ (List.replicate n [0, 0, 0, 7]).flatten, 0, none, []⟩
def fByte (c : Byte) : Frame := ⟨.A, false, [c], 0, none, []⟩

/-- The device with CRC bytes switched off on both chip selects. -/
def noCrc : State := (up.setF (Fd.HOSTIF_CTRL_CRCEN 0) 0).setF (Fd.HOSTIF_CTRL_CRCEN 1) 0

theorem wit_HostFrames : noCrc.power.ao = true ∧ noCrc.power.state ≠ .off ∧
    (frameCmd fRead = some 0x03 ∧ noCrc.selected.frameReason fRead = 0 ∧ noCrc.selected.burst = none) ∧
    (frameCmd fReadBurst = some 0x0B ∧ noCrc.selected.frameReason fReadBurst = 0) ∧
    (∃ f ∈ [{ fWrite with bytes := [0x02, 0x10, 0x00, 0x00, 0, 0, 0, 7] }], frameCmd f = some 0x02 ∧ noCrc.selected.frameReason f = 0 ∧
      frameWords noCrc.selected f = [7]) ∧
    (∀ n ∈ [1, 2], ∃ f ∈ [{ fBurst n with bytes := [0x0A, 0x10, 0x00, 0x00] ++ (List.replicate n [0, 0, 0, 7]).flatten }],
      frameCmd f = some 0x0A ∧ noCrc.selected.frameReason f = 0 ∧ frameWords noCrc.selected f = List.replicate n 7) ∧
    (frameCmd (fByte 0x05) = some 0x05 ∧ noCrc.selected.frameReason (fByte 0x05) = 0) ∧
    (frameCmd (fByte 0x9F) = some 0x9F ∧ noCrc.selected.frameReason (fByte 0x9F) = 0) ∧
    (∀ c ∈ [(0x03 : Byte), 0x0B, 0x02, 0x0A], ∃ f ∈ [{ fByte c with waits := some 0 }], frameCmd f = some c.toNat ∧
      noCrc.selected.frameReason f = 1) ∧
    (frameCmd (fByte 0x04) = some 0x04 ∧ noCrc.selected.frameReason (fByte 0x04) = 3) ∧
    (∃ f ∈ [({ fByte 0x05 with bytes := [] } : Frame)], frameCmd f = none ∧ noCrc.selected.frameReason f = 1) ∧
    (∃ f ∈ [{ fByte 0x05 with both := true }], frameCmd f = some 0x05 ∧ f.both = true) ∧
    (∃ s ∈ [{ up with burst := some ⟨.A, 0x100000, [7], 0⟩ }], s.burst = some ⟨.A, 0x100000, [7], 0⟩ ∧ s.clocked 0x100000 = true) ∧
    (∃ s ∈ [({ noCrc with burst := some ⟨.B, 0x100000, [7], 0⟩ } : State).selected], s.burst ≠ none ∧ s.frameReason fRead = 0 ∧
      s.frameReason fReadBurst = 0 ∧ s.frameReason { fRead with words := 0 } = 0) ∧
    (∀ s ∈ [noCrc.selected, ({ noCrc with power := (inState .fallow false .off).power } : State).selected],
      ∃ f ∈ [{ fWrite with bytes := [0x02, 0x10, 0x00, 0x00, 0, 0, 0, 7] }], s.frameReason f = 0 ∧
        s.clocked (frameAddr f) = s.power.wakeRuns) := by
  and_intros <;> decide +kernel

theorem wit_HostStatus :
    ({ fRead with both := true } : Frame).both = true ∧
    (fWrite.both = false ∧ frameCmd fWrite = some 0x02 ∧ hasAddr 0x02 = true ∧ isWrite 0x02 = true ∧
      ({ up with burst := some ⟨.A, 0, [7], 0⟩ } : State).burst ≠ none) ∧
    (frameCmd { fRead with waits := none } = some 0x03 ∧ hasAddr 0x03 = true ∧ isWrite 0x03 = false) ∧
    ((fByte 0x04).both = false ∧ frameCmd (fByte 0x04) = some 0x04 ∧ isCmd 0x04 = false) ∧
    (∃ s ∈ [up.setF (Fd.HOSTIF_CTRL_CRCEN 0) 1], (fByte 0x05).both = false ∧ frameCmd (fByte 0x05) = some 0x05 ∧ isCmd 0x05 = true ∧
      hasAddr 0x05 = false ∧ lengthOk s (fByte 0x05) 0x05 = false) ∧
    (0 : Nat) ≠ Reg.HOSTIF_ACCEPT (procIx .A) ∧ (0 : Nat) ≠ Reg.HOSTIF_STAT (procIx .A) := by and_intros <;> decide +kernel

/-- Host A's watchdog running, and due. -/
def wdOn : State := { up.setF (Fd.HOSTIF_WDCTRL_EN 0) 1 with ticks := 100000 }

theorem wit_MailboxWatchdog : up.power.ao = true ∧ 0 = procIx .A ∧ 1 = procIx .B ∧
    (up.mayWrite (.host .A) 0x1060 = true ∧ up.fb (Fd.HOSTIF_STAT_MBFULL 0) = false) ∧
    (∃ s ∈ [up.setF (Fd.HOSTIF_STAT_MBFULL 1) 1], s.mayWrite (.host .B) 0x1060 = true ∧ s.fb (Fd.HOSTIF_STAT_MBFULL 1) = true) ∧
    (up.portUp = true ∧ up.pagesRun = true) ∧
    (up.mayWrite (.host .A) 0x1050 = true ∧ up.fb (Fd.HOSTIF_WDCTRL_EN 0) = false) ∧
    (wdOn.mayWrite (.host .A) 0x1054 = true ∧ wdOn.fb (Fd.HOSTIF_WDCTRL_EN 0) = true ∧ getBits (0x5A5A : Word) 0 16 = 0x5A5A ∧
      getBits (0 : Word) 0 16 ≠ 0x5A5A) ∧
    (up.mayWrite (.host .A) 0x1054 = true ∧ up.fb (Fd.HOSTIF_WDCTRL_EN 0) = false) ∧
    (wdOn.portUp = true ∧ (wdOn.port .A).wdStart + (wdOn.port .A).wdPeriod ≤ wdOn.ticks) ∧
    (∃ s ∈ [wdOn.setF (Fd.HOSTIF_WDCTRL_WARNPCT 0) 50], ∃ n ∈ [(s.wdWarnAt .A).getD 0], s.portUp = true ∧ s.wdWarnAt .A = some n ∧
      s.fb (Fd.HOSTIF_WDCTRL_EN 0) = true ∧ (s.port .A).wdWarned = false ∧ (s.port .A).wdStart + n ≤ s.ticks) := by
  and_intros <;> decide +kernel

/-- A staged lower word of host A's for the last row. -/
def stagedRow : State := up.setPort .A { up.port .A with staged := some (16383, 5) }

theorem wit_RegisterWrites : up.power.ao = true ∧ up.mayWrite hA (busWordAddr Reg.PLAN_POST) = true ∧ up.mayWrite row3 (busWordAddr 0xF00000) = false ∧
    (∀ al ∈ [1, 2], ∃ r ∈ [((accessOf hA (0x10 + 0x400 * al)).map (·.2.1))], regionOf (0x10 + 0x400 * al) = .page 0 ∧
      ∃ x ∈ r, accessOf hA (0x10 + 0x400 * al) = some (0x10, x, al) ∧ x.sc ≠ 0 ∧ (0x10 : Nat) ≠ Reg.PLAN_SEM) ∧
    (regionOf 0 = .page 0 ∧ ∃ x ∈ (accessOf hA 0).map (·.2.1), accessOf hA 0 = some (0, x, 0) ∧ x.sc = 0 ∧ x.writable = false) ∧
    (∀ r ∈ [0, 16383], up.mayWrite hA (0x100000 + 8 * r) = true ∧ up.mayWrite hA (0x100000 + 8 * r + 4) = true) ∧
    up.planLocked = false ∧ (stagedRow.mayWrite hA (0x100000 + 8 * 16383 + 4) = true ∧ (stagedRow.port .A).staged = some (16383, 5)) ∧
    (up.port .A).staged = none := by and_intros <;> decide +kernel

/-! ## Host commands to the plan engine, and plan loads -/

theorem wit_ThreadCommands : up.power.ao = true ∧ up.mayWrite hA Reg.PLAN_THCMD = true ∧ (up.th 0).startable = true ∧
    ((up.setTh 15 { th0 with st := .fault }).th 15).startable = true ∧
    (∃ s ∈ [up.setTh 15 { th0 with st := .wait }], s.mayWrite hA Reg.PLAN_THCMD = true ∧ (s.th 15).startable = false ∧ (s.th 15).st = .wait) ∧
    (∃ s ∈ [up.setTh 15 { th0 with st := .run }], (s.th 15).st = .run ∧ (s.th 15).busy = none) ∧
    (∃ s ∈ [up.setTh 15 { th0 with st := .run, busy := some .sync }], (s.th 15).st = .run ∧
      ∃ b ∈ [Busy.sync], (s.th 15).busy = some b ∧ b ≠ .dly) ∧
    (∀ w ∈ [hA, row3], up.mayWrite w (Reg.PLAN_THW (15 : Fin 16) (7 : Fin 8)) = true) ∧
    up.mayWrite hA (Reg.PLAN_POST + 0x400) = true ∧ up.mayWrite hA (Reg.PLAN_SEM + 0x800) = true ∧
    (∀ w ∈ [hA, row3], up.mayWrite w Reg.PLAN_CTRL = true) := by and_intros <;> decide +kernel

/-- A load at a stage. -/
def loading (src : PlanSrc) (st : LoadStage) (rows : Nat) (bcrc : Nat) : State :=
  up.setStage ⟨src, st, [], rows, 0, 0, bcrc, false, [], false⟩

/-- A flash image of one row for any class, in partition 1 of chip select 0. -/
def imgHeader : List Byte := withCrc32c (packBE [(0x594C504C, 4), (1, 2), (0xFF, 1), (0, 1), (1, 4), (7, 4), (1, 4)] ++ List.replicate 40 0)
def imgBody : List Byte := [0x18, 0, 0, 0, 0, 0, 0, 0]
def withImage (h : List Byte) (s : State) : State :=
  { (s.setF (Fd.FLASH_PART_VALID 0) 1).wr Reg.FLASH_STAT 2 with
    xflash := { s.xflash with cells := putCells [] 0 (h ++ withCrc32c imgBody) } }
/-- An array that reads without an error. -/
def noErr : OtpSense := ⟨[], [], [], none, 0, none⟩
/-- An OTP word of ones. -/
def otpOnes (ws : List Nat) (s : State) : State := { s with otp := { s.otp with words := ws.map fun w => (w, 2 ^ 39 - 1) } }

theorem otpDecode_encode (d : Word) : otpDecode (otpEncode d) = some (d, false) := by
  have h : BitVec.ofNat 32 (otpEncode d) = d := by
    apply BitVec.eq_of_toNat_eq
    have := d.isLt
    unfold otpEncode
    split
    · subst d; rfl
    · split
      · subst d; rfl
      · simp; omega
  rw [otpDecode, h, if_pos rfl]

/-- A plan header word of one row in the PLAN region. -/
def otpHeader (s : State) : State := { s with otp := { s.otp with words := [(1534, otpEncode 1)] } }

theorem redirOf_none (s : State) (h : ∀ e ∈ [7, 6, 5, 4, 3, 2, 1, 0], s.fb (Fd.OTP_REDIR_VALID e) = false) (r : Nat) :
    s.redirOf r = none := by
  simp only [List.mem_cons, List.not_mem_nil, or_false, forall_eq_or_imp, forall_eq] at h
  simp [State.redirOf, h]

theorem otpRead_good {s : State} {w : Nat} {d : Word} (h : s.redirOf (w / 8) = none) (h1 : 192 ≤ w)
    (h2 : otpDecode (s.otp.pattern w) = some (d, false)) : s.otpRead noErr w = (s, some d) := by
  have e : s.otpStored w = some (d, false) := by
    rw [State.otpStored, h]
    exact (if_neg (by omega)).trans h2
  simp [State.otpRead, State.otpValue, e, noErr]

theorem otpReads_good {s : State} {f : Nat → Word} (l : List Nat) (h : ∀ w ∈ l, s.otpRead noErr w = (s, some (f w))) :
    s.otpReads noErr l = (s, l.map fun w => some (f w)) := by
  induction l with
  | nil => rfl
  | cons w l ih =>
    rw [State.otpReads, h w List.mem_cons_self]
    simp only [ih fun x hx => h x (List.mem_cons_of_mem _ hx), List.map_cons]

/-- No entry of the redirection table is VALID. -/
def noRedir (s : State) : Bool := [7, 6, 5, 4, 3, 2, 1, 0].all fun e => !s.fb (Fd.OTP_REDIR_VALID e)

theorem noRedir_all {s : State} (h : noRedir s = true) : ∀ e ∈ [7, 6, 5, 4, 3, 2, 1, 0], s.fb (Fd.OTP_REDIR_VALID e) = false := by
  simpa [noRedir] using h

theorem header_read {s : State} (h : noRedir s = true) (hw : s.otp.words = [(1534, otpEncode 1)]) : s.otpRead noErr 1534 = (s, some 1) :=
  otpRead_good (redirOf_none s (noRedir_all h) _) (by decide) (by
    rw [show s.otp.pattern 1534 = otpEncode 1 by simp [Otp.pattern, hw, tget]]; exact otpDecode_encode 1)

theorem wit_PlanLoads_otpHeader : ∃ s ∈ [otpHeader (loading .otp .header 0 0)], ∃ l ∈ s.eng.load, l.stage = .header ∧ l.src = .otp ∧
    s.otpRead noErr 1534 = (s, some 1) ∧ (1 : Word) ≠ 0 ∧ 1 ≤ getBits (1 : Word) 0 16 ∧ getBits (1 : Word) 0 16 ≤ 511 :=
  ⟨_, List.mem_singleton.2 rfl, _, rfl, rfl, rfl, header_read (by decide +kernel) rfl, by decide, by decide, by decide⟩

/-- Words of a PLAN region of zeros and ones whose closing word, ones, checks. -/
def planWords : List Nat := [1495, 1496, 1497, 1501, 1503, 1506, 1507, 1511, 1516, 1519, 1521, 1523, 1524, 1526, 1535]
def zeroOrOnes (l : List Nat) (w : Nat) : Word := if l.contains w then 0xFFFFFFFF else 0

set_option maxRecDepth 100000 in
theorem planWords_good : closingGood ((otpWords 3).map (zeroOrOnes planWords)) = true := by decide +kernel

set_option maxRecDepth 100000 in
theorem planWords_stored : ∀ w ∈ otpWords 3, 192 ≤ w ∧
    otpDecode ((otpOnes planWords up).otp.pattern w) = some (zeroOrOnes planWords w, false) := by decide +kernel

theorem mapM_some {f : Nat → Word} (l : List Nat) : (l.map fun w => some (f w)).mapM id = some (l.map f) := by
  induction l with
  | nil => rfl
  | cons w l ih => simp_all [List.mapM_cons]

theorem plan_read {s : State} (h : noRedir s = true) (hw : s.otp.words = (otpOnes planWords up).otp.words) :
    ∃ u ws vs, s.otpReads noErr (otpWords 3) = (u, ws) ∧ ws.mapM id = some vs ∧ closingGood vs = true :=
  ⟨_, _, _, otpReads_good (f := zeroOrOnes planWords) _ (fun w hw' => otpRead_good (redirOf_none s (noRedir_all h) _)
      (planWords_stored w hw').1 (by rw [Otp.pattern, hw]; exact (planWords_stored w hw').2)), mapM_some _, planWords_good⟩

theorem wit_PlanLoads_otpRead : ∃ s ∈ [otpOnes planWords (loading .otp .otpRead 0 0)], ∃ l ∈ s.eng.load, l.stage = .otpRead ∧
    ∃ u ws vs, s.otpReads noErr (otpWords 3) = (u, ws) ∧ ws.mapM id = some vs ∧ closingGood vs = true :=
  ⟨_, List.mem_singleton.2 rfl, _, rfl, rfl, plan_read (by decide +kernel) rfl⟩

set_option maxRecDepth 100000 in
theorem wit_PlanLoads : up.power.ao = true ∧
    (∀ w ∈ [hA, row3], up.mayWrite w Reg.PLAN_LOAD = true) ∧ up.eng.load = none ∧
    ((up.setF Fd.FLASH_CTRL_EN 1).f Fd.FLASH_CTRL_EN ≠ 0 ∧ (up.setF Fd.FLASH_CTRL_EN 0).f Fd.FLASH_CTRL_EN = 0) ∧
    (∃ s ∈ [loading .planA .header 0 0], s.mayWrite hA Reg.PLAN_LOAD = true ∧ s.eng.load ≠ none) ∧
    (∃ s ∈ [loading .planA .halting 0 0], s.portUp = true ∧ ∃ l ∈ s.eng.load, l.stage = .halting ∧
      ∀ t : Fin 16, (s.th t).st = .halted ∨ (s.th t).st = .fault) ∧
    (∃ s ∈ [loading .planA .header 0 0], ∃ l ∈ s.eng.load, l.stage = .header ∧ l.src ≠ .otp ∧ s.imageWaits l.src = false) ∧
    (∃ s ∈ [withImage imgHeader (loading .planA .header 0 0)], ∃ l ∈ s.eng.load, l.stage = .header ∧
      (s.setX (s.xflash.setBusy 0 (some ⟨.host none, [.erase 0 8192], 0⟩))).imageWaits l.src = true) ∧
    (∃ s ∈ [withImage imgHeader (loading .planA .header 0 0)], ∃ l ∈ s.eng.load, l.stage = .header ∧ l.src ≠ .otp ∧
      s.imageWaits l.src = false ∧
      s.imageBytes l.src 0 0x40 = some imgHeader ∧ headerGood imgHeader = true) ∧
    (∃ s ∈ [withImage (0 :: imgHeader.tail) (loading .planA .header 0 0)], ∃ l ∈ s.eng.load, l.stage = .header ∧ l.src ≠ .otp ∧
      s.imageWaits l.src = false ∧ s.imageBytes l.src 0 0x40 = some (0 :: imgHeader.tail) ∧ headerGood (0 :: imgHeader.tail) = false) ∧
    (∃ s ∈ [withImage imgHeader (loading .planA .pass1 1 0)], ∃ l ∈ s.eng.load, l.stage = .pass1 ∧
      s.imageBytes l.src 0 0x40 = some imgHeader ∧ s.imageBytes l.src 0x40 (8 * l.rows) = some imgBody ∧
      s.imageBytes l.src (0x40 + 8 * l.rows) 4 = some (bytesBE 4 (crc32c imgBody)) ∧ crc32c imgBody = natBE (bytesBE 4 (crc32c imgBody)) ∧
      recField imgHeader 6 1 = 0xFF ∧ imageCheck ((s.otpReads noErr (otpWords 4)).1.otp.locked 4) (s.otpReads noErr (otpWords 4)).2 l.planid
        l.version (recField imgHeader 6 1) l.rows (crc32c imgBody) = (1, true)) ∧
    (∃ s ∈ [withImage imgHeader (loading .planA .pass2 1 (crc32c imgBody))], ∃ l ∈ s.eng.load, l.stage = .pass2 ∧
      s.imageBytes l.src 0x40 (8 * l.rows) = some imgBody ∧ crc32c imgBody = l.bcrc) ∧
    (∃ s ∈ [loading .otp .header 0 0], ∃ l ∈ s.eng.load, l.stage = .header ∧ l.src = .otp ∧ (s.otpRead noErr 1534).2 = some 0) ∧
    (∃ s ∈ [loading .otp .header 0 0], ∃ l ∈ s.eng.load, l.stage = .header ∧ l.src = .otp) ∧
    (∃ s ∈ [loading .otp .otpWrite 1 0], ∃ l ∈ s.eng.load, l.stage = .otpWrite) := by and_intros <;> decide +kernel

/-! ## Multiphase converter -/

/-- Loop 0 in a state with its slot GOOD. -/
def loopIn (st : Nat) : State :=
  ((up.setF (Fd.LOOP_STAT_STATE 0) st).setF (Fd.SEQ_SLOTCFG_USE 0) 1).setF (Fd.SEQ_SLOTSTAT_STATE 0) slGood

/-- The reference of loop 0 moves. -/
def moving (s : State) : State := s.setLoop 0 { s.loop 0 with moving := true }

/-- The target and reference of loop 0 at 1,000 mV. -/
def at1V (s : State) : State :=
  ((s.setF (Fd.LOOP_TARGET_MV 0) 1000).setF (Fd.LOOP_REFNOW_MV 0) 1000).setF (Fd.LOOP_TARGET_CODE 0) (dacCode (s.loopDen 0) 1000)

theorem wit_LoopReference : up.power.ao = true ∧ up.portUp = true ∧
    (∀ w ∈ [hA, row3], up.mayWrite w (Reg.PHASE_ASSIGN 15) = true ∧ up.mayWrite w (Reg.LOOP_CTRL 3) = true ∧
      up.mayWrite w (Reg.LOOP_TARGET 3) = true) ∧
    up.assignReason 15 (getBits (0x10 : Word) 4 2) (getBits (0x10 : Word) 0 2) = 0 ∧
    (loopIn lpRun |>.setF (Fd.LOOP_CTRL_EN 0) 1).assignReason 15 (getBits (0x13 : Word) 4 2) (getBits (0x13 : Word) 0 2) ≠ 0 ∧
    (∀ st ∈ [lpSoftoff, lpCrowbar], (loopIn st).lstate 0 = st) ∧
    ((loopIn lpRun).lstate 0 = lpRun ∧ (((loopIn lpRun).loopCtrlWrite 0 (0 ||| 1)).slotOn 0).2 = false) ∧
    (∃ s ∈ [(loopIn lpOff).setF (Fd.SEQ_SLOTSTAT_STATE 0) slOff |>.setSlot 0 { Slot.init with minoffDue := 1 }],
      s.lstate 0 = lpOff ∧ ∃ x ∈ [(s.loopCtrlWrite 0 (0 ||| 1)).slotOn 0], x.2 = true ∧ x.1.f (Fd.SEQ_SLOTSTAT_RREASON 0) = 4) ∧
    (∃ s ∈ [(loopIn lpOff).setF (Fd.SEQ_SLOTSTAT_STATE 0) slFailed], s.lstate 0 = lpOff ∧
      ∃ x ∈ [(s.loopCtrlWrite 0 (0 ||| 1)).slotOn 0], x.1.f (Fd.SEQ_SLOTSTAT_RREASON 0) ≠ 4) ∧
    (((loopIn lpRun).loopCtrlWrite 0 (0 &&& ~~~1)).slotOffReq 0).lstate 0 ≠ lpCrowbar ∧
    (∃ s ∈ [at1V (loopIn lpRun)], s.mayWrite hA (Reg.LOOP_TARGET (0 : Fin 4)) = true ∧ s.refMoves 0 = true ∧
      getBits (999 : Word) 0 16 < s.f (Fd.LOOP_REFNOW_MV 0)) ∧
    (∃ s ∈ [moving (loopIn lpBurst)], s.refMoves 0 = true ∧ (s.loop 0).moving = true) ∧
    (∃ s ∈ [moving (at1V (loopIn lpStart))], s.lstate 0 = lpStart ∧ (s.loop 0).moving = true ∧
      s.pgWindow 0 1000 (dacMv (s.loopDen 0) (s.f (Fd.LOOP_TARGET_CODE 0))) = true) ∧
    (loopIn lpSoftoff).lstate 0 = lpSoftoff := by and_intros <;> decide +kernel

/-- Loop 0 with phases 0 and 15 on and a current that one can carry. -/
def sheds : State :=
  ((((((loopIn lpRun).setPh 0 phOn).setPh 15 phOn).setF (Fd.LOOP_ADDSHED_MINPH 0) 1).setF (Fd.LOOP_ADDSHED_ADD 0) 2).setF
    (Fd.LOOP_ADDSHED_SHED 0) 1).setF (Fd.LOOP_SHEDCFG_DWELL 0) 0

theorem wit_LoopPhases : up.power.ao = true ∧ up.portUp = true ∧ up.lstate 3 = lpOff ∧
    ((loopIn lpRun).lstate 0 = lpRun ∧ ((loopIn lpRun).loop 0).moving = false) ∧
    (∀ st ∈ [lpRun, lpBurst, lpStart, lpSoftoff, lpCrowbar], (loopIn st).lstate 0 ≠ lpOff ∧ ((loopIn st).takeItems 0).lstate 0 = st) ∧
    (∃ s ∈ [(loopIn lpRun).setF (Fd.LOOP_MEAS_ITOT 0) 5], (s.onOf 0).length * (10 * s.f (Fd.LOOP_ADDSHED_ADD 0)) < s.addCurrent 0) ∧
    (∃ s ∈ [sheds], s.addCurrent 0 ≤ (s.onOf 0).length * (10 * s.f (Fd.LOOP_ADDSHED_ADD 0)) ∧
      s.f (Fd.LOOP_MEAS_ITOT 0) < ((s.onOf 0).length - 1) * (10 * s.f (Fd.LOOP_ADDSHED_SHED 0)) ∧
      s.f (Fd.LOOP_SHEDCFG_DWELL 0) * 8 ≤ (s.loop 0).below + 1 ∧ s.f (Fd.LOOP_ADDSHED_MINPH 0) < (s.onOf 0).length ∧
      (s.phasesOf 0 fun k => s.phState k == phShedPend) = [] ∧ s.f (Fd.LOOP_STAT_FCAST 0) = 0 ∧ s.f (Fd.LOOP_STAT_INHIBIT 0) = 0 ∧
      (s.phasesOf 0 fun k => s.phState k == phOn) = [0] ++ [15]) ∧
    (up.setF (Fd.PHASE_ASSIGN_STATE 15) phShedPend).phState 15 = phShedPend ∧
    (up.setF (Fd.PHASE_ASSIGN_STATE 15) phAddPend).phState 15 = phAddPend ∧
    (up.setF (Fd.LOOP_STAT_INHIBIT 3) 1).fb (Fd.LOOP_STAT_INHIBIT 3) = true ∧
    (∃ s ∈ [((loopIn lpRun).setF (Fd.LOOP_CTRL_BURSTEN 0) 1).setLoop 0 { (loopIn lpRun).loop 0 with burstLow := 64 }],
      s.burstReady 0 = true ∧ 64 ≤ (s.loop 0).burstLow) ∧ up.burstReady 0 = false ∧
    (∃ s ∈ [at1V (loopIn lpBurst)], s.lstate 0 = lpBurst ∧
      (∃ u ∈ [((s.setF (Fd.LOOP_CTRL_GUSTEN 0) 1).setF (Fd.LOOP_MEAS_VOUT 0) 0).setF (Fd.LOOP_MEAS_ITOT 0) 5],
        (u.fb (Fd.LOOP_CTRL_GUSTEN 0) && u.gustBelow 0 0) = true) ∧
      ∃ u ∈ [(s.setF (Fd.LOOP_MEAS_VOUT 0) 1000).setF (Fd.LOOP_MEAS_ITOT 0) 5],
        (u.fb (Fd.LOOP_CTRL_GUSTEN 0) && u.gustBelow 0 1000) = false ∧ 2 * (u.loop 0).tickPul ≤ (u.loop 0).tickPer) ∧
    (∃ s ∈ [(at1V (loopIn lpBurst)).setLoop 0 { Loop.init with tickPer := 1, tickPul := 1 }], s.lstate 0 = lpBurst ∧
      ∃ u ∈ [s.setF (Fd.LOOP_MEAS_VOUT 0) 1000], (u.fb (Fd.LOOP_CTRL_GUSTEN 0) && u.gustBelow 0 1000) = false ∧
        (u.loop 0).tickPer < 2 * (u.loop 0).tickPul) ∧
    (∃ s ∈ [at1V (loopIn lpRun)], s.lstate 0 = lpRun ∧ s.gustBelow 0 0 = true) ∧
    (∀ st ∈ [phShed, phOn], ∃ s ∈ [((loopIn lpRun).setF (Fd.LOOP_CTRL_GUSTEN 0) 1).setPh 15 st], s.lstate 0 = lpRun ∧
      s.fb (Fd.LOOP_CTRL_GUSTEN 0) = true ∧ ∃ u ∈ [(s.wakeUp.ev (Fd.LOOP_EVRAW_GUST 0)).probeAbort 0 1],
        (u.phasesOf 0 fun k => u.phState k == phShed) = if st = phShed then [15] else []) := by and_intros <;> decide +kernel

/-- Phase 0 of loop 0 on. -/
def phaseOn (s : State) : State := s.setPh 0 phOn

theorem wit_LoopFaults : up.power.ao = true ∧ up.portUp = true ∧
    (∃ s ∈ [(phaseOn (at1V (loopIn lpRun))).setF (Fd.LOOP_FSW_PERIOD 0) 25600], s.f (Fd.PHASE_ASSIGN_LOOP 0) = 0 ∧ s.phState 0 = phOn ∧
      768 ≤ s.maxOn 0 ∧ ((10 * (s.loop 0).ilim : Nat) : Int) ≤ s.senseCur 0 600000 ∧ s.lstate 0 ≠ lpCrowbar) ∧
    (∃ s ∈ [((phaseOn (at1V (loopIn lpRun))).setF (Fd.LOOP_ILIMNEG_NEG 0) 1).setF (Fd.LOOP_ISENSE_RI 0) 1], s.phState 0 = phOn ∧
      s.senseCur 0 (-11) < -((10 * s.f (Fd.LOOP_ILIMNEG_NEG 0) : Nat) : Int)) ∧
    (∃ s ∈ [((loopIn lpRun).setF (Fd.LOOP_ILIMNEG_OCCYC 0) 4).setLoop 0 { (loopIn lpRun).loop 0 with ocRun := 4 }],
      s.f (Fd.LOOP_ILIMNEG_OCCYC 0) ≠ 0 ∧ s.f (Fd.LOOP_ILIMNEG_OCCYC 0) ≤ (s.loop 0).ocRun ∧ s.lstate 0 ≠ lpOff) ∧
    (up.setF (Fd.LOOP_ILIMNEG_OCCYC 3) 0).f (Fd.LOOP_ILIMNEG_OCCYC 3) = 0 ∧
    (∀ s ∈ [at1V (loopIn lpRun), at1V (loopIn lpCrowbar)], s.lstate 0 ≠ lpOff ∧
      (100 + s.f (Fd.LOOP_PROT_OV 0)) * s.ovBase 0 < 100 * 65535) ∧
    (∃ s ∈ [(at1V (loopIn lpCrowbar)).setLoop 0 { Loop.init with enZero := true }], s.lstate 0 = lpCrowbar ∧ (s.loop 0).enZero = true ∧
      10 * 99 < s.f (Fd.LOOP_TARGET_MV 0)) ∧
    ((loopIn lpCrowbar).lstate 0 = lpCrowbar ∧ ((loopIn lpCrowbar).loop 0).enZero = false) ∧
    (∃ s ∈ [at1V (loopIn lpRun), at1V (loopIn lpBurst)], s.lstate 0 = lpRun ∨ s.lstate 0 = lpBurst) ∧
    (∃ s ∈ [at1V (loopIn lpRun)], 100 * 0 < (100 - s.f (Fd.LOOP_PROT_UV 0)) * s.f (Fd.LOOP_REFNOW_MV 0) ∧
      s.f (Fd.LOOP_STAT_PGOOD 0) = 0 ∧ s.pgWindow 0 1000 (s.f (Fd.LOOP_REFNOW_MV 0)) = true) ∧
    (∃ s ∈ [(at1V (loopIn lpRun)).setF (Fd.LOOP_STAT_PGOOD 0) 1], s.fb (Fd.LOOP_STAT_PGOOD 0) = true ∧
      s.pgWindow 0 0 (s.f (Fd.LOOP_REFNOW_MV 0)) = false) ∧
    (up.setF Fd.CONV_CTRL_SFLTEN 1).fb Fd.CONV_CTRL_SFLTEN = true ∧ (up.setF Fd.CONV_CTRL_SFLTEN 0).fb Fd.CONV_CTRL_SFLTEN = false ∧
    (∀ l ∈ [0, 1], ∃ s ∈ [((up.setF Fd.CONV_CTRL_SYNCIEN 1).setF (Fd.LOOP_FSW_PERIOD 0) 25600).setF Fd.CONV_STAT_SYNCLOCK l],
      s.fb Fd.CONV_CTRL_SYNCIEN = true ∧ s.syncInRange 27648 = true ∧ s.syncInRange 23552 = true ∧
      s.fb Fd.CONV_STAT_SYNCLOCK = (l == 1)) := by and_intros <;> decide +kernel

/-! ## Converter health, rails and the rail table -/

/-- A probe of loop 0 with quantities left. -/
def probing (left : List Nat) : State := { up with health := { up.health with probe := some ⟨0, left, [], none, 0, 0⟩ } }

theorem wit_HealthProbe : up.power.ao = true ∧ up.portUp = true ∧
    (∃ s ∈ [(loopIn lpRun).setF Fd.HEALTH_CTRL_PROBEEN 1], s.mayWrite hA Reg.HEALTH_PROBE = true ∧ s.probeReason 0 = 0) ∧
    (up.mayWrite row3 Reg.HEALTH_PROBE = true ∧ up.probeReason 0 ≠ 0) ∧ (31 : BitVec 5) ≠ 0 ∧
    ((probing [0]).mayWrite hA Reg.HEALTH_PROBE = true ∧ (probing [0]).health.probe ≠ none) ∧ up.health.probe = none ∧
    (∃ p ∈ (probing [0, 4]).health.probe, p.left = 0 :: [4] ∧ measKind (.share [(0, 127)]) = some 0 ∧
      (probing [0, 4]).measCond p.loop 0 = true ∧ measInRange (.share [(0, 127)]) = true) ∧
    (∃ p ∈ (probing [4]).health.probe, p.left = [4] ∧ measKind (.therm [(0, 200)]) = some 4 ∧
      ((probing [4]).setF (Fd.LOOP_MEAS_ITOT 0) 0xFFFF).measCond p.loop 4 = true ∧ measInRange (.therm [(0, 200)]) = true) ∧
    (∃ s ∈ [((phaseOn (probing [4, 2])).setF (Fd.HEALTH_LCAP_RATED 0) 1).setF (Fd.LOOP_MEAS_ITOT 0) 2], ∃ p ∈ s.health.probe,
      p.left = 4 :: [2] ∧ s.measCond p.loop 4 = false) ∧
    measInRange (.share [(0, 128)]) = false ∧ measInRange (.therm [(0, 201)]) = false := by and_intros <;> decide +kernel

/-- A proposal of loop 0 with SEQ 5. -/
def proposed (s : State) : State := (s.setF (Fd.HEALTH_LPROP0_VALID 0) 1).setF (Fd.HEALTH_LPROP0_SEQ 0) 5
/-- What HEALTH_APPLY starts from: its result register with the loop and SEQ. -/
def applying (s : State) (q : Nat) : State :=
  ((s.wr Reg.HEALTH_APPLYRES 0).setF Fd.HEALTH_APPLYRES_LOOP 0).setF Fd.HEALTH_APPLYRES_SEQ q

theorem wit_HealthApply : up.power.ao = true ∧ up.portUp = true ∧
    (∃ s ∈ [(({ up with ticks := secTicks 3600 } : State).setF Fd.HEALTH_SCHED_PERIOD 1).setHl 3 { HealthLoop.init with lastOk := some 0 }],
      s.f Fd.HEALTH_SCHED_PERIOD ≠ 0 ∧ (s.hl 3).lastOk = some 0 ∧
      0 + secTicks (3600 * s.f Fd.HEALTH_SCHED_PERIOD) ≤ s.ticks ∧ (s.hl 3).confirm = none) ∧
    (up.setF Fd.HEALTH_SCHED_PERIOD 0).f Fd.HEALTH_SCHED_PERIOD = 0 ∧
    (up.mayWrite hA Reg.HEALTH_CTRL = true ∧ (findRow 0xA 0x04).isSome) ∧ up.mayWrite hA Reg.HEALTH_APPLY = true ∧
    (applying up 5).fb (Fd.HEALTH_LPROP0_VALID 0) = false ∧
    (∃ u ∈ [applying (proposed up) 4], u.fb (Fd.HEALTH_LPROP0_VALID 0) = true ∧ getBits (0x40000 : Word) 16 8 ≠ u.f (Fd.HEALTH_LPROP0_SEQ 0)) ∧
    (∃ u ∈ [applying (proposed (probing [0])) 5], u.fb (Fd.HEALTH_LPROP0_VALID 0) = true ∧
      getBits (0x50000 : Word) 16 8 = u.f (Fd.HEALTH_LPROP0_SEQ 0) ∧ u.probing 0 = true) ∧
    ((proposed (probing [0])).itemsNow 0).mask.testBit 0 = false ∧ ((proposed (probing [0])).itemsNow 0).mask.testBit 1 = false ∧
    ((proposed up).itemsNow 0).mask.testBit 0 = false ∧ ((proposed up).itemsNow 0).mask.testBit 1 = false ∧
    (applying (proposed up) 5).probing 0 = false ∧ (applying (proposed up) 5).loopEnabled 0 = false := by and_intros <;> decide +kernel

/-- A rail on at 1,000 mV. -/
def railAt (k : Nat) : State :=
  { (up.setF (railState k) 2).setF (if k < 2 then Fd.RAILS_BCFG_MV k else Fd.RAILS_LCFG_MV (k - 2)) 1000 with ticks := 100000 }

theorem wit_RailEvents : up.power.ao = true ∧ up.portUp = true ∧
    (∀ k ∈ [0, 1, 2, 5], ∃ u ∈ [((railAt k).railSeen k 1000).railUp k], u.f (railState k) = 2 ∧
      (100 - u.railPgwin k) * u.railRef k ≤ 100 * 1000 ∧ 100 * 1000 ≤ (100 + u.railPgwin k) * u.railRef k ∧
      100 * 0 < (100 - u.railPgwin k) * u.railRef k) ∧
    ((up.railSeen 5 0).railUp 5).f (railState 5) ≠ 2 ∧ (2499 < 2500) ∧
    (up.setF (railGood 5) 1).fb (railGood 5) = true ∧ (up.setF (Fd.RAILS_VMONCFG_EN 7) 0).f (Fd.RAILS_VMONCFG_EN 7) = 0 ∧
    (∃ s ∈ [(up.setF (Fd.RAILS_VMONCFG_EN 7) 1).orReg Reg.RAILS_STAT (bitAt 23)],
      s.f (Fd.RAILS_VMONCFG_EN 7) ≠ 0 ∧ s.vmonIn 7 = true ∧ (s.slot 17).ovSeen = false ∧
      2 * 100 + 12 * s.f (Fd.RAILS_VMONCFG_HYST 7) < 3 * (s.setF (Fd.RAILS_VMONTH_UV 7) 100).f (Fd.RAILS_VMONTH_UV 7) ∧
      2 * 100 ≤ 3 * (s.setF (Fd.RAILS_VMONTH_OV 7) 100).f (Fd.RAILS_VMONTH_OV 7) ∧ s.slotSt 17 ≠ slGood) ∧
    (∃ s ∈ [(up.setF (Fd.SEQ_SLOTSTAT_STATE 17) slGood)], s.slotSt 17 = slGood ∧ (s.slot 17).inRun = false ∧
      ((s.raise 19 1 7).slot 17).ovSeen = false) ∧
    (∃ s ∈ [((up.setF (Fd.RAILS_VMONCFG_EN 7) 1).setF (Fd.RAILS_VMONTH_UV 7) 100).setF (Fd.RAILS_VMONTH_OV 7) 200],
      s.f (Fd.RAILS_VMONCFG_EN 7) ≠ 0 ∧ s.vmonIn 7 = false ∧ (s.slot 17).ovSeen = false ∧
      3 * s.f (Fd.RAILS_VMONTH_UV 7) < 2 * 151 ∧ 2 * 151 < 3 * s.f (Fd.RAILS_VMONTH_OV 7)) ∧
    (∃ s ∈ [up.setF (Fd.GPIO_PIN_WAKE 11) 3], s.fb (Fd.GPIO_PIN_IN 11) = false ∧ s.f (Fd.GPIO_PIN_WAKE 11) = 3 ∧
      (s.setFb (Fd.GPIO_PIN_IN 11) true).f (Fd.GPIO_PIN_WAKE 11) = s.f (Fd.GPIO_PIN_WAKE 11)) := by and_intros <;> decide +kernel

/-- The ADC with scans on. -/
def scanOn : State := (up.setF Fd.RAILS_SCANCFG_SCANEN 1).setF Fd.RAILS_SCANCFG_PERIOD 1

theorem wit_AdcScan : up.power.ao = true ∧
    (scanOn.portUp = true ∧ scanOn.fb Fd.RAILS_SCANCFG_SCANEN = true ∧ scanOn.f Fd.RAILS_SCANCFG_PERIOD ≠ 0 ∧ scanOn.adc.scanDue ≤ scanOn.ticks) ∧
    (up.setF Fd.RAILS_SCANCFG_SCANEN 0).fb Fd.RAILS_SCANCFG_SCANEN = false ∧
    (scanOn.f Fd.RAILS_STAT_SCANBUSY = 0 ∧ scanOn.f Fd.RAILS_STAT_ADCSEL ≠ 3) ∧
    (up.mayWrite hA Reg.RAILS_SCANCFG = true ∧ (findRow 0xB 0xC8).isSome) ∧
    (∃ s ∈ [up.setF Fd.RAILS_STAT_SCANBUSY 1], s.portUp = true ∧ s.fb Fd.RAILS_STAT_SCANBUSY = true ∧ s.scanOf [] = some [] ∧
      (([] : List AdcSample).foldl State.storeSample s).f Fd.RAILS_STAT_ADCSEL = 0) ∧
    (∃ s ∈ [(up.setF Fd.RAILS_STAT_SCANBUSY 1).wr Reg.RAILS_SCANMASK1 0x8000 |>.wr Reg.RAILS_SCANMASK0 0], ∃ ys ∈ s.scanOf [⟨47, [4095], [4095], 0⟩],
      ys = [⟨47, [4095], [4095], 0⟩] ∧ (ys.foldl State.storeSample s).f Fd.RAILS_STAT_ADCSEL = 0) ∧
    (up.setF Fd.RAILS_CTRL_XCHKEN 1).fb Fd.RAILS_CTRL_XCHKEN = true ∧ (up.setF Fd.RAILS_CTRL_XCHKEN 0).fb Fd.RAILS_CTRL_XCHKEN = false ∧
    (∃ s ∈ [{ up with adc := { up.adc with selfTest := true } }], s.portUp = true ∧ s.adc.selfTest = true ∧ s.f Fd.RAILS_STAT_ADCSEL = 0 ∧
      ∀ v ∈ [1, 2], (s.setF Fd.RAILS_STAT_ADCSEL v).f Fd.RAILS_STAT_ADCSEL = v) := by
  and_intros <;> decide +kernel

theorem wit_AdcScan_passes (s : State) (c : Nat) : s.adcPasses c (s.adcTrimOf c 46 + 8, s.adcTrimOf c 47) = true ∧
    s.adcPasses c (s.adcTrimOf c 46 + 9, s.adcTrimOf c 47) = false := by
  simp [State.adcPasses]
  omega

/-- Slot 31 used, in a state. -/
def slotIn (k st : Nat) : State := (up.setF (Fd.SEQ_SLOTCFG_USE k) 1).setF (Fd.SEQ_SLOTSTAT_STATE k) st

/-- A slot whose configuration has acted. -/
def usedSlot (k st : Nat) : State := (slotIn k st).setSlot k { Slot.init with cfg := (slotIn k st).rd (Reg.SEQ_SLOTCFG k) }

theorem wit_SlotRequests : up.power.ao = true ∧
    (∀ w ∈ [hA, row3], up.mayWrite w Reg.SEQ_REQ = true ∧ up.mayWrite w Reg.SEQ_DOWN = true ∧ up.mayWrite w (Reg.SEQ_SLOTDEP 31) = true) ∧
    (up.setF (Fd.SEQ_SLOTCFG_USE 31) 0).slotUse 31 = false ∧
    (∃ s ∈ [{ slotIn 31 slOff with therm := { up.therm with holding := true } }], s.slotUse 31 = true ∧ s.therm.holding = true) ∧
    ((usedSlot 31 slFailed).slotUse 31 = true ∧ (usedSlot 31 slFailed).therm.holding = false ∧ (usedSlot 31 slFailed).slotSt 31 = slFailed) ∧
    (∃ s ∈ [(slotIn 31 slOff).wr (Reg.SEQ_SLOTDEP 31) 1], s.slotUse 31 = true ∧ s.slotSt 31 = slOff ∧
      ∃ j ∈ s.deps 31, s.depLost j = true) ∧
    (∃ s ∈ [(slotIn 31 slOff).setSlot 31 { Slot.init with minoffDue := 1 }], s.slotUse 31 = true ∧ (∀ j ∈ s.deps 31, s.depLost j = false) ∧
      s.ticks < (s.slot 31).minoffDue) ∧
    (∃ s ∈ [slotIn 4 slOff], s.slotUse 4 = true ∧ (∀ j ∈ s.deps 4, s.depLost j = false) ∧ (s.slot 4).minoffDue ≤ s.ticks ∧
      ∀ j ∈ s.deps 4, s.slotSt j = slGood) ∧
    (∃ s ∈ [((slotIn 31 slOff).setF (Fd.SEQ_SLOTCFG_USE 0) 1 |>.setF (Fd.SEQ_SLOTSTAT_STATE 0) slStart).wr (Reg.SEQ_SLOTDEP 31) 1],
      (∀ j ∈ s.deps 31, s.depLost j = false) ∧ (s.slot 31).minoffDue ≤ s.ticks ∧ ∃ j ∈ s.deps 31, s.slotSt j ≠ slGood) ∧
    (∀ st ∈ [slWaitdep, slStart, slGood, slFailed, slOff], ((slotIn 31 st).setPend 31 false).slotSt 31 = st) ∧
    (slotIn 31 slGood).slotSt 31 ≠ slOff ∧
    (∃ s ∈ [up.wr (Reg.SEQ_SLOTDEP 0) (bitAt 31)], s.slotSt 31 = slOff ∧ s.makesCycle 31 (1 &&& ~~~ bitAt 31) = true) ∧
    (up.slotSt 31 = slOff ∧ up.makesCycle 31 (1 &&& ~~~ bitAt 31) = false) := by and_intros <;> decide +kernel

theorem wit_SlotEvents : up.power.ao = true ∧ up.portUp = true ∧
    (∃ s ∈ [{ (slotIn 31 slStart).setSlot 31 { Slot.init with inWin := true } with ticks := 4095 }], s.slotSt 31 = slStart ∧
      (s.slot 31).inWin = true ∧ getBits (s.slot 31).time 0 12 ≤ s.ticks - (s.slot 31).qualFrom) ∧
    (∀ b ∈ [true, false], ∃ s ∈ [(slotIn 31 slStart).setSlot 31 { Slot.init with startDue := some 0, inRun := b }], s.slotSt 31 = slStart ∧
      (s.slot 31).startDue = some 0 ∧ 0 ≤ s.ticks ∧ (s.slot 31).inRun = b) ∧
    (∀ k ∈ [0, 3, 4, 17], (slotIn k slStop).slotSt k = slStop ∧ 0 < 20 * getBits ((slotIn k slStop).slot k).cfg 12 8 ∧
      ((slotIn k slStop).slot k).disDue ≤ (slotIn k slStop).ticks) ∧
    ((slotIn 18 slStop).slotSt 18 = slStop ∧ (slotIn 18 slStop).groupCommit (18 - 18) = 0) ∧
    (∃ s ∈ [up.setF (Fd.SEQ_SLOTSTAT_PEND 31) 1], s.fb (Fd.SEQ_SLOTSTAT_PEND 31) = true ∧ s.slotSt 31 = slOff ∧
      (s.slot 31).minoffDue ≤ s.ticks) ∧
    (99 * 1 < 100 * (up.setF Fd.SEQ_COLLAPSE_VCW 1).f Fd.SEQ_COLLAPSE_VCW) ∧
    (∃ s ∈ [{ up with ticks := 40000000 }], 100 * (s.f Fd.SEQ_COLLAPSE_VCW + s.f Fd.SEQ_COLLAPSE_HYST) < 60000 ∧
      0 + msTicks (s.f Fd.SEQ_COLLAPSE_REARM) ≤ s.ticks ∧ s.seq.lastLoss + msTicks (s.f Fd.SEQ_COLLAPSE_REARM) ≤ s.ticks ∧
      s.seq.rsto = true) ∧
    up.mayWrite hA Reg.SEQ_CTRL = true ∧ (up.setF Fd.SEQ_STAT_FFARMED 0).fb Fd.SEQ_STAT_FFARMED = false := by
  and_intros <;> decide +kernel

/-! ## The power path and the charger -/

/-- The path in a hand-over state, and with a usable battery. -/
def hoIn (st : Nat) : State := up.setF Fd.PATH_STAT_HOSTATE st
def withBattery (s : State) : State := (s.setF Fd.PATH_STAT_BATPRES 1).setF Fd.PATH_CTRL_HOEN 1
/-- VAC measured. -/
def vacAt (v : Nat) (s : State) : State := { s with plant := { s.plant with vac := some v } }

theorem wit_HandOver : up.power.ao = true ∧ up.portUp = true ∧
    (∀ st ∈ [hoSource, hoReconnect, hoQualify], (hoIn st).ho = st) ∧
    (∃ s ∈ [(hoIn hoSource).setF Fd.PATH_VACWIN_LO 100 |>.setF Fd.PATH_VACWIN_HI 200], s.ho = hoSource ∧
      100 * s.f Fd.PATH_VACWIN_HI < 20001 ∧ 20000 ≤ 100 * s.f Fd.PATH_VACWIN_HI ∧ 100 * s.f Fd.PATH_VACWIN_LO ≤ 20000 ∧
      9999 < 100 * s.f Fd.PATH_VACWIN_LO) ∧
    (∃ s ∈ [{ hoIn hoDetect with path := { up.path with det := 1 } }], s.ho = hoDetect ∧ s.path.det = 1) ∧
    (∃ s ∈ [{ hoIn hoQualify with path := { up.path with qual := true } }], s.path.qual = true ∧ s.fb Fd.PATH_STAT_BYPASS = false) ∧
    (∃ s ∈ [{ (hoIn hoBattery).setF Fd.PATH_STAT_BYPASS 1 with path := { up.path with qual := true } }], s.path.qual = true ∧
      s.fb Fd.PATH_STAT_BYPASS = true) ∧
    (∃ s ∈ [{ hoIn hoReconnect with path := { up.path with bypassed := true } }], s.ho = hoReconnect ∧ s.path.bypassed = true) ∧
    (∃ s ∈ [vacAt 20000 ((hoIn hoReconnect).setF Fd.PATH_STAT_ACON 1)], s.ho = hoReconnect ∧ s.fb Fd.PATH_STAT_ACON = true ∧
      s.inWindow = true) ∧
    (∃ s ∈ [{ hoIn hoDetect with path := { up.path with settled := true } }], s.ho = hoDetect ∧ s.path.settled = true ∧
      (((withBattery s).hoenActs.setF Fd.PATH_STAT_ACON 0).incF Fd.PATH_HOCOUNT_LOSSES).batteryUsable = true ∧
      ∃ u ∈ [((s.setF Fd.PATH_CTRL_INEN 1).hoenActs.setF Fd.PATH_STAT_ACON 0).incF Fd.PATH_HOCOUNT_LOSSES], u.batteryUsable = false ∧
        u.fb Fd.PATH_CTRL_INEN = true ∧
        (((s.setF Fd.PATH_CTRL_INEN 0).hoenActs.setF Fd.PATH_STAT_ACON 0).incF Fd.PATH_HOCOUNT_LOSSES).fb Fd.PATH_CTRL_INEN = false) ∧
    (∃ s ∈ [hoIn hoBridge], s.ho = hoBridge ∧ 98 * s.f Fd.PATH_SUP_VSYSHOLD ≤ 100 * s.f Fd.PATH_SUP_VSYSHOLD ∧
      100 * s.f Fd.PATH_SUP_VSYSHOLD ≤ 102 * s.f Fd.PATH_SUP_VSYSHOLD) ∧
    (∃ s ∈ [hoIn hoBattery], s.ho = hoBattery ∧ s.f Fd.PATH_STAT_BYPASS = 0 ∧ 0 + 200 < 201) ∧
    (hoOff ≤ 6 ∧ hoBattery ≤ 6 ∧ ((vacAt 20000 (up.setF Fd.PATH_CTRL_INEN 1)).toHo hoQualify).path.qual = true) := by and_intros <;> decide +kernel

/-- SOURCE with an input limit of 100 mA, a battery, and SUPEN. -/
def suppAt (e : Nat) : State :=
  let s := ((((hoIn hoSource).setF Fd.PATH_INLIM_MA 100).setF Fd.PATH_SUP_SUPLIM 1000).setF Fd.PATH_ICHG_CC 1000).setF Fd.PATH_CTRL_SUPEN e
  { s with plant := { s.plant with vbat := some 8000, vsys := some 8000 } }

theorem wit_InputProtection : up.power.ao = true ∧ up.portUp = true ∧
    (∀ st ∈ [hoSource, hoBridge], ∃ s ∈ [(hoIn st).setF Fd.PATH_STAT_ACON 1], s.fb Fd.PATH_STAT_ACON = true ∧
      (((s.setF Fd.PATH_STAT_ACON 0).ev Fd.PATH_EVRAW_REVERSE).setPath { s.path with
        reverse := true, revDet := s.ho == hoDetect }).ho = st) ∧
    (up.setF Fd.PATH_STAT_ACON 0).fb Fd.PATH_STAT_ACON = false ∧
    (∃ s ∈ [{ hoIn hoSource with path := { up.path with reverse := true } }], s.path.reverse = true ∧ s.ho = hoSource ∧ 0 + 100 < 101 ∧
      101 ≤ 100 * s.f Fd.PATH_VACWIN_HI) ∧
    (∀ st ∈ [hoSource, hoReconnect], ∃ s ∈ [((hoIn st).setF Fd.PATH_STAT_ACON 1).setF Fd.PATH_INLIM_TRIP 100 |>.setF Fd.PATH_INLIM_MA 100],
      s.f Fd.PATH_INLIM_TRIP ≠ 0 ∧ s.f Fd.PATH_INLIM_TRIP * s.f Fd.PATH_INLIM_MA < 100 * 101 ∧ s.fb Fd.PATH_STAT_ACON = true ∧
      s.ho = st) ∧
    (up.setF Fd.PATH_INLIM_TRIP 0).f Fd.PATH_INLIM_TRIP = 0 ∧
    (∀ e ∈ [0, 1], ∃ s ∈ [suppAt e], s.ho = hoSource ∧
      (∃ u ∈ [s.hbSample ⟨301, 0⟩], u.path.u < -200 ∧ u.testCut.fb Fd.PATH_CTRL_SUPEN = (e == 1) ∧ u.testCut.dischargeFree = true) ∧
      (s.hbSample ⟨300, 0⟩).path.u = -200 ∧ 0 < (s.hbSample ⟨99, 0⟩).path.u ∧ (s.hbSample ⟨100, 0⟩).path.u = 0 ∧
      (s.hbSample ⟨101, 0⟩).fb Fd.PATH_STAT_INREG = true ∧ (s.hbSample ⟨100, 0⟩).fb Fd.PATH_STAT_INREG = false) ∧
    (∃ s ∈ [up.setF Fd.PATH_QUAL_BOUNCEMAX 1], ∃ u ∈ [(s.incF Fd.PATH_HOCOUNT_BOUNCE).ev Fd.PATH_EVRAW_BOUNCE],
      s.f Fd.PATH_HOCOUNT_BOUNCE < u.f Fd.PATH_QUAL_BOUNCEMAX ∧ u.f Fd.PATH_QUAL_BOUNCEMAX ≤ u.f Fd.PATH_HOCOUNT_BOUNCE) ∧
    (∀ n ∈ [0, 2, 15], ∃ s ∈ [(up.setF Fd.PATH_QUAL_BOUNCEMAX (max 2 n)).setF Fd.PATH_HOCOUNT_BOUNCE n],
      ∃ u ∈ [(s.incF Fd.PATH_HOCOUNT_BOUNCE).ev Fd.PATH_EVRAW_BOUNCE],
      u.f Fd.PATH_QUAL_BOUNCEMAX ≤ s.f Fd.PATH_HOCOUNT_BOUNCE ∨ u.f Fd.PATH_HOCOUNT_BOUNCE < u.f Fd.PATH_QUAL_BOUNCEMAX) := by and_intros <;> decide +kernel

/-- The charger in a state. -/
def chgIn (st : Nat) : State := up.setF Fd.PATH_STAT_CHGSTATE st

theorem wit_PathControl : up.power.ao = true ∧ (∀ w ∈ [hA, row3], up.mayWrite w Reg.PATH_CTRL = true) ∧
    (up.therm.holding = false ∧ ({ up with therm := { up.therm with holding := true } } : State).therm.holding = true) ∧
    (bit (8 : Word) 3 = true ∧ bit (8 : Word) 4 = false ∧ bit (8 : Word) 5 = false) ∧ bit (0x18 : Word) 4 = true ∧ bit (0x28 : Word) 5 = true ∧
    (bit (0 : Word) 3 = false ∧ (up.setF Fd.PATH_CTRL_CHGEN 1).fb Fd.PATH_CTRL_CHGEN = true) ∧
    ((hoIn hoOff).setFb Fd.PATH_CTRL_INEN true).ho = hoOff ∧
    (∀ st ∈ [hoQualify, hoReconnect, hoSource], ∃ s ∈ [(hoIn st).setF Fd.PATH_CTRL_INEN 1], s.fb Fd.PATH_CTRL_INEN = true ∧
      (s.setFb Fd.PATH_CTRL_INEN false).ho = st) ∧
    ((withBattery (hoIn hoSource)).setF Fd.PATH_STAT_ACON 0).batteryUsable = true ∧
    ((hoIn hoSource).setF Fd.PATH_STAT_ACON 0).batteryUsable = false ∧
    (chgIn chOff).chg = chOff ∧ (chgIn chOff).chgOffPast = true ∧
    ({ chgIn chOff with path := { up.path with offAt := some 1 } } : State).chgOffPast = false ∧
    (chgIn chStopping).chg = chStopping ∧ (chgIn chTimeout).chg = chTimeout ∧
    (∀ st ∈ [1, 6, chTimeout, chOff, chStopping], ((chgIn st).setF Fd.PATH_STAT_CHGPEND 0).chg = st) ∧
    ((withBattery (hoIn hoQualify)).dischargeFree = true ∧ (withBattery (hoIn hoQualify)).ho = hoQualify ∧
      (withBattery (hoIn hoQualify)).batteryUsable = true) ∧
    (∃ s ∈ [(hoIn hoBattery).setF Fd.PATH_STAT_BYPASS 1], s.dischargeFree = true ∧ s.ho = hoBattery ∧ s.fb Fd.PATH_STAT_BYPASS = true) ∧
    (up.dischargeFree = true ∧ up.ho ≠ hoQualify ∧ up.ho ≠ hoBattery) ∧
    (up.setF Fd.PATH_FCAUSE_LIMACT 4).dischargeFree = false := by and_intros <;> decide +kernel

theorem wit_Charger : up.power.ao = true ∧ up.portUp = true ∧
    (∃ s ∈ [{ (((withBattery (hoIn hoSource)).setF Fd.PATH_STAT_CHGSTATE chWait).setF Fd.PATH_BATLIM_TDCH 5).setF Fd.PATH_VREG_MV 20000 with path := { up.path with settled := true } }],
      s.chg = chWait ∧ s.chargeConds = true ∧ 0 < s.f Fd.PATH_VTHR_VDRZ ∧ s.f Fd.PATH_VTHR_VDRZ < s.f Fd.PATH_VTHR_VPRE ∧
      s.f Fd.PATH_VTHR_VPRE + 10 * s.f Fd.PATH_VREG_RECHG < s.f Fd.PATH_VREG_MV) ∧
    (∀ st ∈ [chDrizzle, chPre, chCc, chStopping], (chgIn st).chg = st) ∧
    (∃ s ∈ [(chgIn chCv).setF Fd.PATH_CHGCFG_TERMEN 1 |>.setF Fd.PATH_ICHG_TERM 1], s.chg = chCv ∧ s.fb Fd.PATH_CHGCFG_TERMEN = true ∧
      0 < s.f Fd.PATH_ICHG_TERM) ∧
    (chOff ≤ 8 ∧ chTimeout ≤ 8 ∧ (chgIn chCv).chg ≠ chOff) ∧
    (∃ s ∈ [(chgIn chDone).setF Fd.PATH_CHGCFG_RECHGEN 1], s.chg = chDone ∧ s.fb Fd.PATH_CHGCFG_RECHGEN = true ∧
      0 + 10 * s.f Fd.PATH_VREG_RECHG < s.f Fd.PATH_VREG_MV) ∧
    (∃ s ∈ [{ chgIn chCv with path := { up.path with tCount := (chgIn chCv).timerLen } }], 2 ≤ s.chg ∧ s.chg ≤ 5 ∧
      s.timerLen ≤ s.path.tCount) ∧
    (∃ s ∈ [(chgIn chOff).setF Fd.PATH_STAT_CHGPEND 1], s.fb Fd.PATH_STAT_CHGPEND = true ∧ s.chg = chOff ∧ s.chgOffPast = true) ∧
    (1499 < 0 + 1500 ∧ 0 + 1500 ≤ 1500 ∧ 1699 < 0 + 1700 ∧ 0 + 1700 ≤ 1700) := by and_intros <;> decide +kernel

theorem wit_BatteryLimits : up.power.ao = true ∧ up.portUp = true ∧
    (∀ c ∈ [4, 5], up.limTrigger c 1000000 = true ∧ up.limOn c = false) ∧ (up.limTrigger 2 0 = true ∧ up.limOn 2 = false) ∧
    (up.limTrigger 3 0 = true ∧ up.limOn 3 = false) ∧
    (∃ s ∈ [{ up.setF Fd.PATH_FCAUSE_LIMACT 16 with ticks := msTicks 500 }], s.limOn 5 = true ∧ s.limReleases 5 0 = true ∧
      s.path.batgo = false) ∧
    (∀ st ∈ [hoBridge, hoBattery, hoSource], (((hoIn st).setPath { up.path with supp := false }).setF Fd.PATH_STAT_BYPASS 0).ho = st) ∧
    (∃ s ∈ [{ hoIn hoQualify with path := { up.path with testDue := true } }], s.testOwed = true ∧ s.path.testOn = false ∧
      s.ho = hoQualify ∧ s.f Fd.PATH_STAT_HBMODE ≠ 2 ∧ s.f Fd.PATH_STAT_HBMODE ≠ 3) ∧
    (up.setF Fd.PATH_STAT_HBMODE 3).f Fd.PATH_STAT_HBMODE = 3 ∧
    (∃ s ∈ [{ up.setF Fd.PATH_STAT_BATPRES 1 with path := { up.path with testOn := true } }], s.path.testOn = true ∧
      s.fb Fd.PATH_STAT_BATPRES = true) ∧
    up.f Fd.PATH_STAT_BATPRES = 0 := by and_intros <;> decide +kernel

/-! ## The gauge -/

/-- The gauge on, in a mode, with FCC. -/
def gaugeIn (m fcc : Nat) : State := (up.setF Fd.GAUGE_STAT_MODE m).setF Fd.GAUGE_FCC_MAH fcc

theorem wit_GaugeControl : up.power.ao = true ∧ up.power.state ≠ .off ∧
    (∀ w ∈ [hA, row3], up.mayWrite w Reg.GAUGE_CTRL = true ∧ up.mayWrite w Reg.GAUGE_FCC = true ∧ up.mayWrite w Reg.GAUGE_RM = true ∧
      up.mayWrite w Reg.GAUGE_DESIGN = true ∧ up.mayWrite w Reg.GAUGE_PROVE = true) ∧
    (bit (2 : Word) 1 = true ∧ bit (4 : Word) 2 = true ∧ bit (8 : Word) 3 = true ∧ bit (1 : Word) 1 = false ∧ bit (1 : Word) 2 = false ∧
      bit (1 : Word) 3 = false) ∧ (up.setF Fd.GAUGE_STAT_RELEARN 0).fb Fd.GAUGE_STAT_RELEARN = false ∧
    ((gaugeIn 1 1).fcc ≠ 0 ∧ (5 : Word).toNat * 10000 / (gaugeIn 1 1).fcc < 2 ^ 16) ∧ (gaugeIn 1 0).fcc = 0 ∧
    (∃ s ∈ [{ hoIn hoSource with gauge := { up.gauge with anchor := some (10000, 0) } }],
      ∃ u ∈ [((s.setF Fd.GAUGE_PROVE_START (clampNat 50 100 100)).setF Fd.GAUGE_PROVE_FLOOR (clampNat 5 80 0)).setF
        Fd.GAUGE_PROVE_TMAX (clampNat 1 48 0)], s.gauge.prove = none ∧ u.fb Fd.GAUGE_STAT_CNTINV = false ∧
        u.fb Fd.GAUGE_STAT_TINV = false ∧ s.gauge.anchor = some (10000, 0) ∧ s.ticks - 0 < secTicks 3600 ∧
        100 * u.f Fd.GAUGE_PROVE_START ≤ 10000 ∧ u.ho = hoSource) ∧
    up.gauge.anchor = none ∧
    (∀ p ∈ [0, 1], ∃ s ∈ [{ up.setF Fd.GAUGE_STORE_PERIOD 1 with ticks := secTicks 3600 - 1 + p }],
      decide (s.gauge.perAt + secTicks 3600 * s.f Fd.GAUGE_STORE_PERIOD ≤ s.ticks) = (p == 1)) ∧
    (∃ s ∈ [{ up with gauge := { up.gauge with writing := some (1, []), failed := true } }], s.gauge.writing = some (1, []) ∧
      s.recPending .gauge = false ∧ s.gauge.failed = true) ∧
    (∃ s ∈ [{ up with gauge := { up.gauge with writing := some (1, []) } }], s.gauge.writing = some (1, []) ∧
      s.recPending .gauge = false ∧ s.gauge.failed = false ∧ s.gauge.again = false) ∧
    (∃ s ∈ [{ up with gauge := { up.gauge with retryAt := some 0 } }], s.gauge.retryAt = some 0 ∧ s.gauge.writing = none ∧ 0 ≤ s.ticks) := by
  and_intros <;> decide +kernel

/-- A battery temperature on channel 5. -/
def withNtc (s : State) : State :=
  (s.setF Fd.PATH_BATLIM_TDCH 5).setF (Fd.THERM_TDVAL_FSTATE 5) 0

theorem wit_GaugeMeasures : up.power.ao = true ∧ up.power.state ≠ .off ∧
    (∀ m ∈ [gmActive, gmQuiet, gmAutozero], (gaugeIn m 1000).counting = true ∧ (gaugeIn m 1000).gMode = m) ∧
    (withNtc (gaugeIn 1 1000)).tempBad = false ∧
    (∃ u ∈ [((gaugeIn 1 1000).setFb Fd.GAUGE_STAT_TINV false).setF Fd.GAUGE_TEMPMEAS_TCELL (toSigned 16 250)],
      0 ≤ ((u.setF Fd.GAUGE_VOLT_VBAT 4000).setF Fd.GAUGE_VOLT_VCELL 4000).gCurrent) ∧
    (∃ s ∈ [(gaugeIn 1 1000).setF Fd.GAUGE_IMP_DI 100 |>.setF Fd.GAUGE_STAT_TINV 0], s.f Fd.GAUGE_IMP_DI ≤ (-100 : Int).natAbs ∧ (-100 : Int) ≠ 0 ∧
      s.fb Fd.GAUGE_STAT_TINV = false ∧ 100 ≤ -((100 : Int) * 100) / (-100) ∧ -((100 : Int) * 100) / (-100) ≤ 50000 ∧
      -((99 : Int) * 100) / (-100) < 100 ∧ 50000 < -((50001 : Int) * 100) / (-100)) ∧
    (∃ s ∈ [(gaugeIn 1 1000).setF Fd.GAUGE_CFG_ISLEEP 0], s.counting = true ∧ ∃ c ∈ [s.charge 0 8], c.2 = 0 ∧
      ∃ v ∈ [(((s.setF Fd.GAUGE_CURRENT_MA (toSigned 32 0)).setGauge { s.gauge with az := 0, lowMs := none }).addCharge c.1).socFromRm.energyFromRm],
      ∃ x ∈ [v.emptyRule (s.f Fd.GAUGE_SOC_SOC) (s.f Fd.GAUGE_RM_MAH * nCmAh + s.gauge.rmRem : Nat) c.1],
      ∃ y ∈ [(if x.f Fd.GAUGE_RM_MAH < x.fcc then x.setF Fd.GAUGE_STAT_FULL 0 else x).restRule 8], y.f Fd.GAUGE_CFG_ISLEEP ≤ (0 : Int).natAbs ∧
        y.gauge.prove = none ∧ y.fb Fd.GAUGE_STAT_EMPTY = false ∧ y.fb Fd.GAUGE_STAT_RELEARN = s.fb Fd.GAUGE_STAT_RELEARN) ∧
    (up.counting = false) ∧
    2 * (gaugeIn 2 1000).f Fd.GAUGE_CFG_ISLEEP ≤ (100000 : Int).natAbs ∧ (gaugeIn 1 1000).fcc ≠ 0 ∧ up.gauge.anchor = none ∧
    (∃ s ∈ [{ ((((gaugeIn 1 1000).setF Fd.GAUGE_LEARN_TMAX 1).setF Fd.GAUGE_QPASS_Q 9000).setF Fd.GAUGE_LEARN_DSOC 90) with
        gauge := { up.gauge with anchor := some (0, 0) } }], s.gauge.anchor = some (0, 0) ∧
      s.ticks - 0 ≤ secTicks 3600 * s.f Fd.GAUGE_LEARN_TMAX ∧ 0 < 9000 ∧ 0 < signed 32 (s.f Fd.GAUGE_QPASS_Q) ∧
      100 * s.f Fd.GAUGE_LEARN_DSOC ≤ 9000 - 0 ∧ s.fb Fd.GAUGE_STAT_RELEARN = false ∧
      s.deviates ((signed 32 (s.f Fd.GAUGE_QPASS_Q)).natAbs * 1000 / (9000 - 0)) = false) := by and_intros <;> decide +kernel

/-! ## Point links -/

/-- Port 0 on, with a transaction of a source, address, kind and epoch 3 on its line; point 5 PRESENT with epoch 3. -/
def onLine (src : LinkSrc) (addr kind : Nat) : State :=
  let s := ((up.setF (Fd.LINK_STAT_ON 0) 1).setF (Fd.LINK_CTRL_EN 0) 1).setPt 5 Pt.EPOCH 3 |>.setPt 5 Pt.PRES 2
  s.modLk 0 fun l => { l with cur := some ⟨src, 6, addr, kind, 3, 1, [7], 0⟩ }
/-- Port 0 on and idle. -/
def idleLine : State := (up.setF (Fd.LINK_STAT_ON 0) 1).setF (Fd.LINK_CTRL_EN 0) 1

theorem wit_LinkLine : up.power.ao = true ∧ up.portUp = true ∧
    (∃ s ∈ [idleLine.modLk 0 fun l => { l with offs := [5] }], s.linkOn 0 = true ∧ s.power.state = .full ∧ (s.lk 0).cur = none ∧
      (takeFrom 0 (s.rankOrder 0) s).2.isSome = true) ∧
    (idleLine.linkOn 0 = true ∧ (idleLine.lk 0).cur = none ∧ (takeFrom 0 (idleLine.rankOrder 0) idleLine).2.isSome = false) ∧
    (∀ r ∈ [0, 1, 2], ∃ s ∈ [up.modLk 0 fun l => { l with opening := true, releases := r }], s.linkOn 0 = false ∧ (s.lk 0).opening = true ∧
      s.power.state = .full ∧ (s.lk 0).cur = none ∧ (takeFrom 0 [0] s).2.isSome = (r != 0)) ∧
    (up.linkOn 7 = false ∧ (up.lk 7).opening = false) ∧
    (∃ s ∈ [onLine (.desc 1 0) 5 kGrant], ∃ x ∈ (s.lk 0).cur, x.replies = true) ∧
    (∀ src ∈ [LinkSrc.release, .shed 0, .desc 1 0], ∃ s ∈ [onLine src 127 kShed], ∃ x ∈ (s.lk 0).cur, x.replies = false ∧ x.src = src) ∧
    (∀ r ∈ [0, 1], ∃ s ∈ [(onLine .release 127 kOff).modLk 0 fun l => { l with opening := true, releases := r }],
      ∃ u ∈ [(s.xactEnd 0).noCollision 0], (u.lk 0).releases = r ∧ (u.lk 0).opening = true) ∧
    (∃ s ∈ [onLine (.shed 0) 5 kShed],
      ∃ v ∈ [((s.xactEnd 0).noCollision 0).modLk 0 fun l => { l with shedNow := l.shedNow ++ [(5, 0)] }],
      (v.trainNext 0).2.isSome = false ∧ ((v.trainNext 0).1.lk 0).closing = false) ∧
    (∃ s ∈ [(onLine (.shed 0) 5 kShed).modLk 0 fun l => { l with resend := [(5, 0)] }],
      ∃ v ∈ [((s.xactEnd 0).noCollision 0).modLk 0 fun l => { l with shedNow := l.shedNow ++ [(5, 0)] }],
      (v.trainNext 0).2.isSome = true) ∧
    (∃ s ∈ [idleLine.setF (Fd.LINK_CTRL_ALERTEN 0) 1], s.linkOn 0 = true ∧ (s.lk 0).cur = none ∧ s.fb (Fd.LINK_CTRL_ALERTEN 0) = true) ∧
    (∃ s ∈ [onLine .alertPoll 127 kPoll], ∃ x ∈ (s.lk 0).cur, x.src = .alertPoll ∧
      ((s.wr (Reg.LINK_ALERTMASK 0 0) 0).wr (Reg.LINK_ALERTMASK 0 1) 0).pairList (Reg.LINK_ALERTMASK 0) = [] ∧
      ((s.wr (Reg.LINK_ALERTMASK 0 0) 0).wr (Reg.LINK_ALERTMASK 0 1) 0x80000000).pairList (Reg.LINK_ALERTMASK 0) ≠ []) ∧
    (∀ n ∈ [6, 7], ∀ src ∈ [LinkSrc.desc 1 0, .alertPoll],
      ∃ s ∈ [(onLine src 5 kGrant).modLk 0 fun l => { l with collRun := n, onLine := true }], ∃ x ∈ (s.lk 0).cur, (s.lk 0).onLine = true ∧
      ∃ v ∈ [(s.incF (Fd.LINK_FAULTSTAT_COLLIDE 0)).xactEnd 0],
      ((State.alertSeen ((if x.src = .alertPoll then v.modLk 0 fun l => { l with alert := true }
        else v.modLk 0 fun l => { l with again := x :: l.again }).modLk 0 fun l => { l with collRun := l.collRun + 1 }) 0).lk 0).collRun = n + 1) ∧
    (∃ s ∈ [idleLine.setF (Fd.LINK_SCAN_SCANEN 0) 1], s.fb (Fd.LINK_SCAN_SCANEN 0) = true ∧ s.linkOn 0 = true ∧
      (s.lk 0).nextRound ≤ s.ticks ∧ (s.lk 0).cursor = none) ∧
    (∀ c ∈ [[], [1]], ∃ s ∈ [(idleLine.setF (Fd.LINK_SCAN_SCANEN 0) 1).modLk 0 fun l => { l with cursor := some c }],
      ((s.modLk 0 fun x => { x with nextRound := s.ticks + s.f (Fd.LINK_SCAN_PERIOD 0) }).wakeUp.lk 0).cursor ≠ none) ∧
    ((idleLine.modLk 0 fun l => { l with cursor := some [1] }).lk 0).cursor ≠ none ∧
    (up.lk 0).episode.contains 3 = false ∧ ((up.modLk 0 fun l => { l with episode := [3] }).lk 0).episode.contains 3 = true := by
  and_intros <;> decide +kernel

/-- The common hypotheses of LinkReplies at a state. -/
def awaits (s : State) (src : LinkSrc) (kind : Nat) : Prop :=
  s.power.ao = true ∧ s.portUp = true ∧ ∃ x ∈ (s.lk 0).cur, x.replies = true ∧ x.addr = 5 ∧ x.src = src ∧ x.kind = kind ∧ x.epoch = 3

/-- A frame of no payload as received, with a violation or without. -/
def heard (violation : Bool) : RxFrame :=
  ⟨true, violation, ([0, 0, 0, 0] ++ bytesBE 2 (crc16 [0, 0, 0, 0])).flatMap bitsOfByte⟩

theorem wit_LinkReplies :
    awaits (onLine (.desc 1 0) 5 kPoll) (.desc 1 0) kPoll ∧ awaits (onLine (.desc 1 0) 5 kGrant) (.desc 1 0) kGrant ∧
    awaits (onLine (.desc 1 0) 5 kRole) (.desc 1 0) kRole ∧ awaits (onLine (.desc 1 0) 5 0x8) (.desc 1 0) 0x8 ∧
    awaits (onLine (.desc 1 0) 5 kIdent) (.desc 1 0) kIdent ∧ (onLine (.desc 1 0) 5 kPoll).pt (gpOf 0 5) Pt.EPOCH = 3 ∧
    ((onLine (.desc 1 0) 5 kPoll).storeReply 0 ⟨.desc 1 0, 6, 5, kPoll, 3, 1, [7], 0⟩ 3 [] |>.xactDone 0
      ⟨.desc 1 0, 6, 5, kPoll, 3, 1, [7], 0⟩ 6).pt (gpOf 0 5) Pt.PRES = 2 ∧
    (((onLine (.desc 1 0) 5 kGrant).xactEnd 0).lk 0).closing = false ∧
    (∀ r ∈ [0, 1], ∃ u ∈ [(((onLine (.desc 1 0) 5 kGrant).setF (Fd.LINK_TIMING_RETRY 0) r).xactEnd 0).noCollision 0],
      u.f (Fd.LINK_TIMING_RETRY 0) = r ∧ (u.lk 0).closing = false) ∧
    ((onLine (.desc 1 0) 5 kGrant).linkOn 0 = true ∧ rxAccepted (heard false) = true ∧ rxAccepted (heard true) = false) := by
  unfold awaits; and_intros <;> decide +kernel

/-- An image of kind GRANT for queue 1, one payload byte. -/
def grantW0 : Word := 0x00004011

theorem wit_LinkControl : up.power.ao = true ∧ up.portUp = true ∧
    (∀ w ∈ [hA, row3], up.mayWrite w (Reg.LINK_CTRL 7) = true ∧ up.mayWrite w (Reg.LINK_SHEDMASK 7 1 + 0x400) = true ∧
      up.mayWrite w (Reg.LINK_HOSTPUSH 7) = true ∧ up.mayWrite w (descAddr 7 7 15 3) = true) ∧
    (getBits (1 : Word) 0 1 = 1 ∧ (up.setF Fd.SYS_CONFIG_CLASS 0).fb Fd.SYS_CONFIG_CLASS = false) ∧
    ((idleLine).fb (Fd.LINK_CTRL_EN 0) = true ∧ (idleLine.setFb (Fd.LINK_CTRL_EN 0) false).linkOn 0 = true ∧ idleLine.therm.holding = false) ∧
    (∃ s ∈ [{ (up.modLk 0 fun l => { l with opening := true }).setF (Fd.LINK_CTRL_EN 0) 1 with therm := { up.therm with holding := true } }],
      s.fb (Fd.LINK_CTRL_EN 0) = true ∧ ((s.setFb (Fd.LINK_CTRL_EN 0) false).lk 0).opening = true ∧ s.therm.holding = true) ∧
    ((1 : Word) &&& ~~~ up.rd (Reg.LINK_SHEDMASK 0 0) ≠ 0 ∧ (0 : Word) &&& ~~~ up.rd (Reg.LINK_SHEDMASK 0 0) = 0) ∧
    (up.pushCode 0 5 0 0 false = 2 ∧ idleLine.pushCode 0 5 0x30000 0 false = 4 ∧ idleLine.pushCode 0 5 grantW0 0 false = 3) ∧
    (∃ s ∈ [(onLine .scan 5 kPoll).wr (Reg.LINK_HOSTDESC 0 0) grantW0], s.mayWrite hA (Reg.LINK_HOSTPUSH 0) = true ∧
      s.pushCode 0 (getBits (5 : Word) 0 6) (s.rd (Reg.LINK_HOSTDESC 0 0)) (s.rd (Reg.LINK_HOSTDESC 0 1)) (getBits (5 : Word) 7 1 == 1) = 0 ∧
      s.pushCode 0 5 grantW0 0 false = 0 ∧ getBits grantW0 0 3 ≠ 0 ∧
      s.pushCode 0 5 (grantW0 - 1) 0 false = 0 ∧ getBits (grantW0 - 1) 0 3 = 0) ∧
    (∀ st ∈ [0, 1, 2, 3], (up.setDs 7 7 15 Ds.STATE st).ds 7 7 15 Ds.STATE = st) ∧
    (∃ s ∈ [{ (up.setPt 511 Pt.PEND 1).setPt 511 Pt.TOFF 0 with ticks := 10000000 }], s.pt (gpOf 7 63) Pt.PEND = 1 ∧
      s.pt (gpOf 7 63) Pt.OUTPUT = 0 ∧ s.grantHeld 7 (gpOf 7 63) = false ∧ (s.lk 7).grants.contains 63 = false ∧
      s.pt (gpOf 7 63) Pt.PEPOCH = s.pt (gpOf 7 63) Pt.EPOCH ∧
      (s.setPt 511 Pt.EPOCH 1).pt (gpOf 7 63) Pt.PEPOCH ≠ (s.setPt 511 Pt.EPOCH 1).pt (gpOf 7 63) Pt.EPOCH) := by
  and_intros <;> decide +kernel

/-! ## Ledger and thermal -/

/-- A PRESENT point of priority 7 in group 0, whose slot is GOOD, with no thread's cap below its need. -/
def ledgerOn : State := ((up.setF Fd.LEDGER_CTRL_EN 1).setF Fd.SYS_CONFIG_CLASS 1)
/-- A state in which the ledger books 100 mW for point 511. -/
def acceptsRes : State :=
  ((((((ledgerOn.setF Fd.LEDGER_CTRL_ECHECK 0).setPt 511 Pt.PRES 2).setPt 511 Pt.PRIO 7).setF (Fd.SEQ_SLOTSTAT_STATE 18) 2).wr Reg.LEDGER_GROUPLOOP0 4).setF
    Fd.PATH_CAP_SUPCAP 100).setF Fd.PATH_SUP_VSYSHOLD 100

def recIn (st : Nat) : State := ((up.setPt 511 Pt.LSTATE st).setPt 511 Pt.RESMW 100)

theorem wit_LedgerOps :
    ((up.setF Fd.LEDGER_CTRL_EN 0).f Fd.LEDGER_CTRL_EN = 0 ∧ (up.setF Fd.LEDGER_CTRL_EN 0).lresCode 511 1 = 1) ∧
    (ledgerOn.f Fd.LEDGER_CTRL_EN = 1 ∧ ledgerOn.lresCode 511 0 = 2 ∧ ledgerOn.lresCode 511 65536 = 2 ∧ ledgerOn.lresCode 511 65535 ≠ 2) ∧
    ((ledgerOn.setF Fd.SYS_CONFIG_CLASS 0).fb Fd.SYS_CONFIG_CLASS = false ∧ 256 ≤ 256) ∧
    (255 < 256 ∧ ledgerOn.pt 255 Pt.PRES ≠ 2) ∧ acceptsRes.lresCode 511 100 = 0 ∧
    ((recIn 1).pt 511 Pt.LSTATE = 1 ∧ (recIn 2).pt 511 Pt.LSTATE = 2 ∧ (recIn 3).pt 511 Pt.LSTATE = 3 ∧ (recIn 0).pt 511 Pt.LSTATE = 0) ∧
    up.shedOrder 6 = [] := by and_intros <;> decide +kernel

theorem wit_LedgerHost : up.power.ao = true ∧ up.portUp = true ∧ (∀ w ∈ [hA, row3], up.mayWrite w Reg.LEDGER_HOSTOP = true) ∧
    (up.HostOp (.hostopLcom hA 511 4) 2 (.lcom 511 4)) ∧ up.ledgerFree = true ∧ (ledgerBusy up).ledgerFree = false ∧
    (ledgerBusy up).eng.ledgerBusy ≠ none ∧ 5 ≤ (5 : BitVec 3).toNat ∧
    (∃ s ∈ [{ up with eng := { up.eng with ledgerQ := [(.host, .lrel 511)] } }], s.eng.ledgerBusy = none ∧
      s.eng.ledgerQ = (.host, .lrel 511) :: []) ∧
    (∃ s ∈ [{ up with eng := { up.eng with ledgerQ := [(.link, .lrel 511)] } }], s.eng.ledgerBusy = none ∧
      s.eng.ledgerQ = (.link, .lrel 511) :: []) ∧
    (∃ s ∈ [(recIn 1).setResDue 511 (some 0)], s.resDue 511 = some 0 ∧ 0 ≤ s.ticks ∧ s.pt 511 Pt.LSTATE = 1) ∧ up.resDue 511 = none ∧
    (∀ d ∈ [0, 1], ∃ s ∈ [(up.setF (Fd.LOOP_STAT_FCAST 3) 1).setLoop 3 { Loop.init with fcDue := up.halfUs + d }],
      s.fb (Fd.LOOP_STAT_FCAST 3) = true ∧ decide ((s.loop 3).fcDue ≤ s.halfUs) = (d == 0)) ∧ up.fb (Fd.LOOP_STAT_FCAST 3) = false := by
  and_intros <;> first | decide +kernel | exact .lcom hA 511 4 (by decide) (by decide +kernel)

/-- The device in the thermal hold, its Thaw condition holding since tick 0. -/
def heldState : State :=
  { up with ticks := 100000000, seq := { up.seq with hold := true, stage := .step2 }, therm := { up.therm with cool := some 0 } }

theorem wit_Thermal : up.power.ao = true ∧ up.power.state ≠ .off ∧
    newShut up (up.thermalSample (List.replicate 9 0) 0 []) = none ∧
    (∃ s ∈ [up.thermalSample (List.replicate 9 1500) 0 []], newShut up s = none ∧
      newShut s (s.thermalSample (List.replicate 9 1500) 0 []) = some 0) ∧
    (up.seq.hold = false ∧ up.therm.holding = false ∧ (up.posIn 7 = true ∨ up.posIn 0 = true)) ∧ up.posIn 8 = false ∧
    (∃ s ∈ [{ up with therm := { up.therm with holding := true } }], s.therm.holding = true ∧ s.recPending .shutdown = false) ∧
    (∃ s ∈ [{ up with seq := { up.seq with stage := .step2 }, therm := { up.therm with holding := true } }], s.therm.holding = true ∧
      s.portUp = false) ∧
    (heldState.thawReady = true ∧ (heldState.setF Fd.THERM_CTRL_THAWMODE 0).thawsAlone = true ∧
      (heldState.setF Fd.THERM_CTRL_THAWMODE 1).thawsAlone = false) ∧
    heldState.mayWrite hA Reg.THERM_THAW = true ∧ getBits (0x7A4E : Word) 0 16 = 0x7A4E ∧ up.thawReady = false ∧
    getBits (0x7A4F : Word) 0 16 ≠ 0x7A4E := by and_intros <;> decide +kernel

/-! ## Faults, interrupts and records -/

/-- Source `k` in a state of its own. -/
def srcIn (k : Nat) (x : FaultSrc) : State := { up.setSrc k x with ticks := 100000000 }
def fsActive : FaultSrc := { FaultSrc.init with st := .active }
def fsLull : FaultSrc := { FaultSrc.init with st := .lull, window := some 0 }

theorem wit_FaultSources : up.power.ao = true ∧ up.power.state ≠ .off ∧
    (∀ k ∈ [0, 14, 47], ∃ s ∈ [(srcIn k { fsActive with live := true }).setF (Fd.FAULT_REACT_AUTO k) 1], (s.src k).live = true ∧
      (s.src k).hw = false ∧ (s.src k).st = .active ∧ s.fb (Fd.FAULT_REACT_AUTO k) = true) ∧
    ((srcIn 3 { fsActive with live := true, hw := true }).src 3).live = true ∧ (up.src 47).live = false ∧ (up.src 14).live = false ∧
    ((srcIn 44 { fsActive with hw := true }).src 44).hw = true ∧
    (∃ s ∈ [{ srcIn 47 fsLull with ticks := 10 }], (s.src 47).st = .lull ∧ (s.src 47).lullDue ≤ s.ticks ∧ (s.src 47).window = some 0 ∧
      s.ticks - 0 < secTicks ((s.setF (Fd.FAULT_RECOV_WINDOW 47) 1).f (Fd.FAULT_RECOV_WINDOW 47)) ∧
      (s.src 47).rcnt + 1 ≤ (s.setF (Fd.FAULT_RECOV_RECMAX 47) 1).f (Fd.FAULT_RECOV_RECMAX 47) ∧
      (s.setF (Fd.FAULT_RECOV_RECMAX 47) 0).f (Fd.FAULT_RECOV_RECMAX 47) < (s.src 47).rcnt + 1) ∧
    (∃ s ∈ [(srcIn 0 fsLull).setF (Fd.FAULT_RECOV_WINDOW 0) 1], secTicks (s.f (Fd.FAULT_RECOV_WINDOW 0)) ≤ s.ticks - 0 ∧
      ((srcIn 0 { fsLull with window := none }).src 0).window = none ∧
      1 ≤ (s.setF (Fd.FAULT_RECOV_RECMAX 0) 1).f (Fd.FAULT_RECOV_RECMAX 0) ∧ (s.setF (Fd.FAULT_RECOV_RECMAX 0) 0).f (Fd.FAULT_RECOV_RECMAX 0) = 0) ∧
    ((srcIn 0 { fsLull with lullDue := 100000001 }).ticks < ((srcIn 0 { fsLull with lullDue := 100000001 }).src 0).lullDue) ∧
    (∀ w ∈ [hA, row3], up.mayWrite w (Reg.FAULT_CLEAR 1) = true ∧ up.mayWrite w (Reg.FAULT_REACT 47) = true ∧
      up.mayWrite w Reg.FAULT_EXTIN = true) ∧
    ((srcIn 5 { fsActive with st := .squall }).src 5).st = .squall ∧
    (getBits (0x02 : Word) 0 2 = 2 ∧ (up.setF (Fd.FAULT_REACT_NOTIFY 47) 0).f (Fd.FAULT_REACT_NOTIFY 47) ≠ 2) ∧
    (getBits (0x41 : Word) 0 2 ≠ 2 ∧ bit (0x41 : Word) 6 = true ∧ bit (0x01 : Word) 6 = false) ∧
    up.mayWrite hA Reg.FAULT_CTRL = true ∧ up.portUp = true ∧
    ((up.setF Fd.FAULT_EXTIN_EN 1).fb Fd.FAULT_EXTIN_EN = true ∧ (up.setF Fd.FAULT_EXTIN_EN 0).fb Fd.FAULT_EXTIN_EN = false) ∧
    (up.src 44).hw = false ∧ bit (normWord 0x10 0x68 0x80000001) 31 = true ∧ bit (normWord 0x10 0x68 1) 31 = false := by
  and_intros <;> decide +kernel

/-- Input 95, a group hold-off of one tick for group 7. -/
def heldOff : State :=
  ((up.setF (Fd.INTC_HOLDOFF_TICKS 7) 1).wr (cfgReg 95) 0x00000F00).setIntPend 95 true

theorem wit_Interrupts : up.power.ao = true ∧ up.portUp = true ∧ up.pagesRun = true ∧ (inState .awake false .off).pagesRun = false ∧
    (∀ i ∈ [0, 47, 56, 95], up.intc.pulse.contains i = false) ∧
    (∀ m ∈ [0, 1, 2, 3, 4], (up.wr (cfgReg 95) (BitVec.ofNat 32 m)).sense 95 = m) ∧
    (∀ b ∈ [true, false], ∃ s ∈ [{ up with intc := { up.intc with prev := [(0, b)] } }], tget (fun _ => false) s.intc.prev 0 = b) ∧
    (up.inputLevel 0 = false ∧ ((srcIn 0 fsActive).setF (Fd.FAULT_REACT_NOTIFY 0) 1).inputLevel 0 = true) ∧
    (heldOff.pend 95 = true ∧ bit (heldOff.rd (cfgReg 95)) 11 = true ∧ getBits (heldOff.rd (cfgReg 95)) 8 3 = 7 ∧
      heldOff.f (Fd.INTC_HOLDOFF_TICKS 7) = 1 ∧ heldOff.groupShut 7 = false) ∧ bit ((up.wr (cfgReg 95) 0).rd (cfgReg 95)) 11 = false ∧
    (∀ w ∈ [hA, row3], up.mayWrite w (Reg.INTC_PEND0 + 0x800) = true ∧ up.mayWrite w (Reg.INTC_PEND1 + 0x800) = true ∧
      up.mayWrite w (Reg.INTC_NMIPEND0 + 0x800) = true ∧ up.mayWrite w (Reg.INTC_NMIPEND1 + 0x800) = true ∧ up.mayWrite w (Reg.INTC_CFG 63) = true) ∧
    (up.mayWrite (.host .B) (Reg.INTC_PPEND 0 + 0x800) = true ∧ up.mayWrite (.host .B) (Reg.INTC_PCFG 0 15) = true) ∧
    (up.mayWrite row3 (Reg.INTC_PPEND 1 + 0x800) = true ∧ up.mayWrite row3 (Reg.INTC_PCFG 1 15) = true) ∧
    (∃ s ∈ [up.wr (cfgReg 0) 4], getBits (4 : Word) 0 3 = s.sense 0 ∧ s.sense 0 ≤ 4 ∧ getBits (2 : Word) 0 3 ≠ s.sense 0 ∧ 2 ≤ getBits (2 : Word) 0 3) ∧
    (∃ s ∈ [{ up with intc := { up.intc with shutAt := [(7, some 0)] } }], tget (fun _ => none) s.intc.shutAt 7 = some 0 ∧ 0 ≤ s.ticks) ∧
    (∃ s ∈ [{ inState .fallow false .off with intc := { up.intc with shutAt := [(7, some 0)] } }], s.portUp = true ∧ s.pagesRun = false ∧
      tget (fun _ => none) s.intc.shutAt 7 = some 0) ∧
    tget (fun _ => none) up.intc.shutAt 7 = none := by and_intros <;> decide +kernel

/-- Almanac state `a`. -/
def almIn (a : Nat) : State := up.setF Fd.RECORD_STAT_ASTATE a
/-- The mirror runs over a LOGBOOK partition, with one entry unmirrored since tick 0. -/
def mirrorOn : State :=
  { (((up.setF Fd.RECORD_CTRL_LMIRROR 1).setF (Fd.FLASH_PART_VALID 3) 1).setF Fd.RECORD_LSEQ_LSEQ 1).setF Fd.RECORD_LCFG_FLUSH 1 with
    ticks := 100000, xflash := { up.xflash with mirSince := some 0 } }
def aJob : RecJob := ⟨.cmdTails, none, 255, 0, true, [1, 2], 0, false, 0⟩
def recBusy (erase retry : Bool) (j : Option RecJob) : State :=
  { up with rflash := { up.rflash with busy := some ⟨erase, 255, 0, [1, 2], retry, j⟩ } }
def recWaits (v : Nat) : State := { up with plant := { up.plant with vhold := some v }, rflash := { up.rflash with queue := [aJob] } }

theorem wit_Records : up.power.ao = true ∧ up.portUp = true ∧ (∀ w ∈ [hA, row3], up.mayWrite w Reg.RECORD_CMD = true) ∧
    (up.setF Fd.RECORD_STAT_BUSY 1).fb Fd.RECORD_STAT_BUSY = true ∧ up.fb Fd.RECORD_STAT_BUSY = false ∧
    (∀ a ∈ [0, 1, 2, 3], (almIn a).f Fd.RECORD_STAT_ASTATE = a) ∧ (almIn 1).almanac.postLeft = 0 ∧
    (∃ s ∈ [{ almIn 1 with almanac := { up.almanac with postLeft := 1, postDue := 0 } }], s.almanac.postDue ≤ s.ticks) ∧
    ((almIn 2).recPending .freeze = false ∧ (almIn 2).almanac.archWait = false ∧ (almIn 2).archiving = false) ∧
    (∀ r ∈ [0, 1], ∃ s ∈ [(almIn 2).setF Fd.RECORD_CTRL_AUTORESUME r], ∃ v ∈ [(((s.ev Fd.RECORD_EVRAW_FROZEN).pulse 63).setRec
        { s.rflash with counters := { s.rflash.counters with freezes := 1 } }).recCounters.recStart], v.f Fd.RECORD_CTRL_AUTORESUME = r) ∧
    (mirrorOn.xflash.mirSince = some 0 ∧ mirrorOn.mirroring = true ∧ mirrorOn.unmirrored < 8 ∧
      0 + msTicks (mirrorOn.f Fd.RECORD_LCFG_FLUSH) ≤ mirrorOn.ticks) ∧ up.xflash.mirSince = none ∧
    (∀ e ∈ [true, false], ∀ r ∈ [true, false], ∀ j ∈ [none, some aJob], ∃ o ∈ (recBusy e r j).rflash.busy,
      o.erase = e ∧ o.retry = r ∧ o.job = j) ∧ up.rflash.busy = none ∧
    ((recWaits 6000).plant.vhold.getD 8000 = 6000 ∧ (recWaits 5999).plant.vhold.getD 8000 < 6000) ∧
    (inState .fallow false .off).pagesRun = false ∧
    (∀ v ∈ [6000, 5999], (recWaits v).portUp = true ∧ (recWaits v).pagesRun = true ∧ (recWaits v).rflash.busy = none ∧ (recWaits v).rflash.queue = [aJob] ∧ aJob.free (recWaits v).rflash = true) := by
  and_intros <;> decide +kernel

/-- Both chip selects present with 2^24 bytes and pages of 256, the port enabled, READY. -/
def flashUp : State :=
  let s := (((up.wr Reg.FLASH_STAT 6).setF Fd.FLASH_DENS_LOG0 24).setF Fd.FLASH_DENS_LOG1 24).setF Fd.FLASH_CTRL_EN 1
  { s.setF Fd.SYS_STAT_READY 1 with xflash := { s.xflash with page0 := 256, page1 := 256, discDone := false } }
def hostOps : List FlashOp := [.read 1 0 1, .prog 1 8192 [7], .erase 1 8192]
def onFlash (o : FlashOp) : State := flashUp.setX (flashUp.xflash.setBusy 1 (some ⟨.host (some .A), [o], 0⟩))
def flashWaits (o : FlashOp) : State := flashUp.setX { flashUp.xflash with queue := [⟨.host none, [o], 0⟩] }

theorem wit_FlashPort : up.power.ao = true ∧ up.portUp = true ∧
    (∀ w ∈ [hA, row3], up.mayWrite w Reg.FLASH_HCMD = true ∧ up.mayWrite w Reg.FLASH_CTRL = true) ∧
    (∀ op ∈ [1, 2, 3], flashUp.hostFlashCode op 1 8192 1 = 0) ∧
    (∃ s ∈ [flashUp.setF Fd.FLASH_STAT_BUSY 1], s.fb Fd.FLASH_STAT_BUSY = true ∧ s.hostFlashCode 1 1 0 1 = 6) ∧
    (flashUp.fb Fd.FLASH_STAT_BUSY = false ∧ up.csPresent 0 = false ∧ (up.setF Fd.FLASH_CTRL_EN 0).f Fd.FLASH_CTRL_EN = 0) ∧
    (flashUp.csPresent 1 = true ∧ flashUp.f Fd.FLASH_CTRL_EN ≠ 0 ∧ flashUp.csSize 1 < 2 ^ 24 + 1 ∧ flashUp.hostFlashCode 1 1 (2 ^ 24 - 1) 1 = 0) ∧
    (bit (3 : Word) 0 = true ∧ bit (2 : Word) 0 = false) ∧
    (∃ s ∈ [flashUp.setX { flashUp.xflash with disc := true }], s.xflash.disc = true ∧ s.fb Fd.FLASH_CTRL_EN = true ∧
      s.power.state = .full) ∧
    (∃ s ∈ [flashUp.setStage ⟨.planA, .header, [], 0, 0, 0, 0, false, [], false⟩], s.loadReads = true) ∧
    (∀ o ∈ hostOps, (flashWaits o).f Fd.FLASH_CTRL_EN ≠ 0 ∧ (flashWaits o).power.state = .full ∧ (flashWaits o).xflash.disc = false ∧
      (flashWaits o).loadReads = false ∧ (flashWaits o).xflash.queue = [⟨.host none, [o], 0⟩] ∧ (flashWaits o).xflash.busy o.cs = none) ∧
    (∀ o ∈ hostOps, (onFlash o).xflash.busy 1 = some ⟨.host (some .A), [o], 0⟩) ∧
    (flashUp.flashLimit (.read 1 0 1) = none ∧ ∀ o ∈ [FlashOp.prog 1 8192 [7], .erase 1 8192], ∃ t ∈ flashUp.flashLimit o,
      (onFlash o).ticks < (onFlash o).xflash.since 1 + t ∧ (onFlash o).xflash.since 1 + t ≤ 1000000000) ∧
    (flashUp.power.state = .full ∧ flashUp.xflash.disc = false) ∧
    (flashUp.fb Fd.SYS_STAT_READY = true ∧ flashUp.xflash.discDone = false ∧ flashUp.fb Fd.FLASH_CTRL_EN = true) ∧
    0 / 4096 ≠ xKey 1 8192 / 4096 := by and_intros <;> decide +kernel

/-! ## OTP, timers, CRC -/

/-- Words of an IMAGE region of zeros and ones whose closing word, ones, checks. -/
def imageWords : List Nat := [1560, 1561, 1562, 1564, 1565, 1569, 1571, 1573, 1574, 1577, 1582, 1583, 1584, 1599]

set_option maxRecDepth 100000 in
theorem imageWords_good : closingGood ((otpWords 4).map (zeroOrOnes imageWords)) = true := by decide +kernel

set_option maxRecDepth 100000 in
theorem imageWords_stored : ∀ w ∈ otpWords 4, 192 ≤ w ∧
    otpDecode ((otpOnes imageWords up).otp.pattern w) = some (zeroOrOnes imageWords w, false) := by decide +kernel

/-- A controller that runs a command. -/
def otpRuns (op arg : Nat) (s : State) : State := s.setOtp { s.otp with cmd := some ⟨op, 0, arg, 1, some .A⟩ }
/-- VIN at 12 V. -/
def vin12 : State := { up with plant := { up.plant with vin := some 12000 } }

set_option maxRecDepth 100000 in
theorem wit_OtpCommands : up.power.ao = true ∧ up.portUp = true ∧ (∀ w ∈ [hA, row3], up.mayWrite w Reg.OTP_CMD = true ∧
      up.mayWrite w Reg.OTP_RLOCK = true ∧ up.mayWrite w Reg.OTP_WLOCK = true ∧ up.mayWrite w Reg.OTP_CTRL = true ∧
      up.mayWrite w (0x150300 + 4 * 319) = true) ∧
    (otpRuns 1 1599 up).otp.cmd ≠ none ∧ up.otp.cmd = none ∧ up.otpLoading = false ∧
    (up.otpRefuse 1 1599 0 0 = 0 ∧ vin12.otpRefuse 2 1599 0xB7 0xFFFFFFFF = 0 ∧ vin12.otpRefuse 4 255 0xB7 0 = 0 ∧ up.otpRefuse 5 6 0 0 = 0 ∧
      up.otpRefuse 6 0 0 0 = 0) ∧
    (up.otpRefuse 2 1599 0xB7 0 = 5 ∧ up.otpRefuse 5 7 0 0 = 2 ∧ up.otpRefuse 3 7 0xB7 0 = 2 ∧ up.otpRefuse 2 191 0xB7 0 = 3) ∧
    ((up.setF Fd.OTP_RLOCK_REGION 0x40).f Fd.OTP_RLOCK_REGION).testBit 6 = true ∧
    (∃ s ∈ [{ vin12 with otp := { up.otp with words := [(1599, 1)] } }], s.otpRefuse 2 1599 0xB7 0 = 4) ∧
    (∀ op ∈ [1, 2, 3, 4, 5, 6], ∃ c ∈ (otpRuns op 1 up).otp.cmd, c.op = op ∧ c.margin = 0) ∧
    ((otpRuns 1 1599 up).otpValue noErr 1599 = some (0, false) ∧
      (otpRuns 1 1599 up).otpValue { noErr with corrected := [1599] } 1599 = some (0, true) ∧
      (otpRuns 1 1599 up).otpValue { noErr with uncorr := [1599] } 1599 = none ∧ (otpRuns 2 1599 up).redirOf (1599 / 8) = none) ∧
    up.shadowLocked = false ∧
    (up.setF Fd.OTP_WLOCK_REGION 4).shadowLocked = true := by and_intros <;> decide +kernel

theorem no_records {s : State} (h : s.shadow 193 = 0) : s.bootRecords = [] := by
  rw [State.bootRecords, List.range_eq_range', List.range'_succ, List.range'_succ]
  simp only [List.map_cons, bootRecordsOf]
  rw [show s.shadow (193 + 0) = 0 from h]
  rfl

theorem wit_OtpCommands_reapply : ∃ s ∈ [otpRuns 6 0 up], ∃ c ∈ s.otp.cmd, c.op = 6 ∧ (s.applyRecords s.bootRecords).otp.cmd = some c := by
  refine ⟨_, List.mem_singleton.2 rfl, _, rfl, rfl, ?_⟩
  rw [no_records (by decide +kernel)]
  decide +kernel

theorem wit_OtpCommands_lock : ∃ s ∈ [otpOnes imageWords up], s.otpRefuse 3 4 0xB7 0 = 0 := by
  refine ⟨_, List.mem_singleton.2 rfl, ?_⟩
  have h : (otpOnes imageWords up).regionWords 4 = some ((otpWords 4).map (zeroOrOnes imageWords)) := by decide +kernel
  simp only [State.otpRefuse, h, imageWords_good]
  decide +kernel

/-- Timer 3 at a count, with both compares set, counting AO ticks. -/
def timerAt (count cmp0 cmp1 wrap : Nat) : State :=
  let s := ((up.setF (Fd.TIMER_TCFG_EN 3) 1).setF (Fd.TIMER_TCFG_SRC 3) 0).setF (Fd.TIMER_TCFG_WRAP 3) wrap
  ((s.wr (Reg.TIMER_CMP0_LO 3) (BitVec.ofNat 32 cmp0)).wr (Reg.TIMER_CMP1_LO 3) (BitVec.ofNat 32 cmp1)).setTm 3 { Timer.init with count := count }
def timerQueue (n e : Nat) : State :=
  ((up.setF (Fd.TIMER_TIO_CAPEN 3) 1).setF (Fd.TIMER_TIO_CEDGE 3) e).setTm 3 { Timer.init with queue := List.replicate n (5, true) }

theorem wit_Timers : up.power.ao = true ∧ up.portUp = true ∧
    (∀ s ∈ [timerAt 7 7 9 1, timerAt 7 8 9 0, timerAt 7 9 8 1, timerAt 7 8 8 0, timerAt (2 ^ 64 - 1) 0 0 0, timerAt 7 9 9 0],
      s.fb (Fd.TIMER_TCFG_EN 3) = true ∧ s.sourceRuns 3 = true) ∧
    ((timerAt 7 7 9 1).fb (Fd.TIMER_TCFG_WRAP 3) = true ∧ ((timerAt 7 7 9 1).tm 3).count = (timerAt 7 7 9 1).cmpOf 3 0) ∧
    ((timerAt 7 8 9 0).fb (Fd.TIMER_TCFG_WRAP 3) = false ∧ 7 + 1 = (timerAt 7 8 9 0).cmpOf 3 0 ∧ 7 + 1 ≠ (timerAt 7 8 9 0).cmpOf 3 1) ∧
    (7 + 1 ≠ (timerAt 7 9 8 1).cmpOf 3 0 ∧ 7 + 1 = (timerAt 7 9 8 1).cmpOf 3 1) ∧
    (7 + 1 = (timerAt 7 8 8 0).cmpOf 3 0 ∧ 7 + 1 = (timerAt 7 8 8 0).cmpOf 3 1) ∧ up.fb (Fd.TIMER_TCFG_EN 3) = false ∧
    (∀ e ∈ [1, 2, 3], (timerQueue 7 e).fb (Fd.TIMER_TIO_CAPEN 3) = true ∧ (timerQueue 7 e).f (Fd.TIMER_TIO_CEDGE 3) = e) ∧
    up.power.wakeRuns = true ∧ up.seq.hold = false ∧ ((timerQueue 7 3).tm 3).queue.length < 8 ∧ 8 ≤ ((timerQueue 8 3).tm 3).queue.length ∧
    up.fb (Fd.TIMER_TIO_CAPEN 3) = false ∧ (∀ w ∈ [hA, row3], up.mayWrite w (Reg.TIMER_CMD 3) = true) ∧
    ((timerQueue 1 3).tm 3).queue = (5, true) :: [] ∧ (up.tm 3).queue = [] ∧ 0 < 1 := by and_intros <;> decide +kernel

/-- The CRC unit owned by `id`, with a queue. -/
def crcOwned (id : Nat) (q : List CrcEntry) : State := { up.setF Fd.CRC_OWNER_ID id with crc := { up.crc with queue := q } }

theorem wit_CrcFeeds : up.power.ao = true ∧ up.portUp = true ∧ up.power.wakeRuns = true ∧
    (∀ w ∈ [hA, row3], ∀ a ∈ [Reg.CRC_CTRL, Reg.CRC_DIN8, Reg.CRC_DIN16, Reg.CRC_DIN32, Reg.CRC_OWNER], up.mayWrite w a = true) ∧
    (∀ w ∈ [hA, row3], ∃ u : Writer → State, ∀ x, (up.f Fd.CRC_OWNER_ID = 0 ∨ up.f Fd.CRC_OWNER_ID = ownerId x → u x = up) ∧
      (up.f Fd.CRC_OWNER_ID ≠ 0 → up.f Fd.CRC_OWNER_ID ≠ ownerId x → u x = up.setF Fd.CRC_STAT_FOREIGN 1)) ∧
    (crcOwned 0 (List.replicate 7 (.init 0))).crc.queue.length < 8 ∧ 8 ≤ (crcOwned 0 (List.replicate 8 (.init 0))).crc.queue.length ∧
    (crcOwned 0 [.feed [1]]).crc.queue = .feed [1] :: [] ∧ (crcOwned 0 [.init 3]).crc.queue = .init 3 :: [] ∧ up.crc.queue = [] ∧
    (∀ w ∈ [hA, row3], ∃ d : Word, getBits d 0 8 = ownerId w ∧ ownerId w ≠ 0) ∧ up.f Fd.CRC_OWNER_ID = 0 ∧
    (∃ s ∈ [crcOwned (ownerId row3) []], s.f Fd.CRC_OWNER_ID ≠ 0 ∧ s.f Fd.CRC_OWNER_ID = ownerId row3 ∧ s.f Fd.CRC_OWNER_ID ≠ ownerId hA ∧
      isHost hA = true ∧ s.f Fd.CRC_OWNER_ID ≠ ownerId (.row 4) ∧ isHost (.row 4) = false) := by
  and_intros <;> first
    | decide +kernel
    | exact fun w hw => ⟨fun _ => up, fun x => ⟨fun _ => rfl, fun h => absurd (by decide +kernel) h⟩⟩

/-! ## The queue and the clock -/

theorem wit_StepRunsFront : ∃ s ∈ [{ up with pending := [.vinUv 0] }], s.pending = .vinUv 0 :: [] := by decide +kernel

theorem wit_IdleClock : up.pending = [] ∧ { up with power := { up.power with ao := false } }.power.ao = false ∧ up.power.state = .full ∧
    up.sub < 6103 ∧ { up with sub := 6103 }.sub = 6103 ∧ (inState .fallow true .off).power.state ≠ .full := by and_intros <;> decide +kernel

theorem wit_StepKeepsForm : State.reset.wf = true ∧ ∃ t ∈ [State.reset.clock], step State.reset = .next t := by
  constructor
  · decide +kernel
  · exact ⟨_, List.mem_singleton.2 rfl, rfl⟩

theorem wit_BurnedStays : ∃ s ∈ [otpOnes [1599] up], ∃ t, step s = .next t ∧ (s.otp.pattern 1599).testBit 38 = true ∧
    ((s.otp.blow 0 0).blow 0 1).locked 0 = true ∧ (s.otp.sparePattern 0).testBit 0 = false :=
  ⟨_, List.mem_singleton.2 rfl, _, rfl, by decide +kernel, by decide +kernel, by decide +kernel⟩

end Sys2Proof.Tests
end

section
/-! PROOF. The host port's registers: the mailbox (R63) and the watchdogs (R72, R73). -/

namespace Sys2Proof.Machine

/-! ## A host's own registers (R61): HOSTIF as each host addresses it -/

theorem busWrite_mboxOut (s : State) (p : Proc) (d : Word) : s.busWrite (.host p) 0x1060 d = s.mboxOut p d := by
  cases p
  · exact (busWrite_base (k := Reg.HOSTIF_MBOX_OUT 0) rfl rfl rfl rfl).trans rfl
  · exact (busWrite_base (k := Reg.HOSTIF_MBOX_OUT 1) rfl rfl rfl rfl).trans rfl

theorem busWrite_wdkick (s : State) (p : Proc) (d : Word) : s.busWrite (.host p) 0x1054 d = s.wdKick p d := by
  cases p
  · exact (busWrite_base (k := Reg.HOSTIF_WDKICK 0) rfl rfl rfl rfl).trans rfl
  · exact (busWrite_base (k := Reg.HOSTIF_WDKICK 1) rfl rfl rfl rfl).trans rfl

/-- The range rules of WDCTRL are those of either host's page. -/
theorem busWrite_wdctrl (s : State) (p : Proc) (d : Word) :
    s.busWrite (.host p) 0x1050 d = s.wdCtrl p (normWord 1 0x50 d) := by
  cases p
  · exact (busWrite_base (k := Reg.HOSTIF_WDCTRL 0) rfl rfl rfl rfl).trans rfl
  · exact (busWrite_base (k := Reg.HOSTIF_WDCTRL 1) rfl rfl rfl rfl).trans rfl

/-! ## The word that WDCTRL takes (R72) -/

/-- WARNPCT is brought into 0 to 99, then PERIOD into 1 to 60,000. -/
theorem normWord_wdctrl (d : Word) :
    normWord 1 0x50 d = putBits (putBits d 16 8 (min 99 (getBits d 16 8))) 0 16 (max 1 (min 60000 (getBits d 0 16))) := by
  have h : normWord 1 0x50 d = putBits (putBits d 16 8 (max 0 (min 99 (getBits d 16 8)))) 0 16
      (max 1 (min 60000 (getBits (putBits d 16 8 (max 0 (min 99 (getBits d 16 8)))) 0 16))) := rfl
  rw [h, getBits_putBits_apart _ _ _ _ _ _ (by decide) (by decide), Nat.zero_max]

theorem getBits_normWord_wdctrl_period (d : Word) :
    getBits (normWord 1 0x50 d) 0 16 = max 1 (min 60000 (getBits d 0 16)) := by
  rw [normWord_wdctrl, getBits_putBits_self _ _ _ _ (by decide)]
  exact Nat.mod_eq_of_lt (by omega)

theorem getBits_normWord_wdctrl_warnpct (d : Word) :
    getBits (normWord 1 0x50 d) 16 8 = min 99 (getBits d 16 8) := by
  rw [normWord_wdctrl, getBits_putBits_apart _ _ _ _ _ _ (by decide) (by decide), getBits_putBits_self _ _ _ _ (by decide)]
  exact Nat.mod_eq_of_lt (by omega)

theorem bit_normWord_wdctrl_en (d : Word) : bit (normWord 1 0x50 d) 31 = bit d 31 := by
  rw [normWord_wdctrl, bit, putBits_getLsbD _ _ _ _ _ (by decide), if_neg (by decide), putBits_getLsbD _ _ _ _ _ (by decide),
    if_neg (by decide), bit]

/-- What WDCTRL holds after a write with EN to a stopped watchdog: the fields in range, the reserved bits 0. -/
def wdctrlStart (d : Word) : Word := normWord 1 0x50 (d ||| 0x80000000) &&& 0x80FFFFFF

theorem bit_wdctrlStart_en (d : Word) : bit (wdctrlStart d) 31 = true := by
  have h : bit (normWord 1 0x50 (d ||| 0x80000000)) 31 = true := by
    rw [bit_normWord_wdctrl_en, bit, BitVec.getLsbD_or]
    exact Bool.or_true _
  rw [wdctrlStart, bit, BitVec.getLsbD_and, Bool.and_eq_true]
  exact ⟨h, by decide⟩

theorem getBits_wdctrlStart_period (d : Word) :
    getBits (wdctrlStart d) 0 16 = max 1 (min 60000 (getBits d 0 16)) := by
  rw [wdctrlStart, getBits_and_mask _ _ _ _ (by decide), getBits_normWord_wdctrl_period, getBits_or_mask _ _ _ _ (by decide)]

theorem getBits_wdctrlStart_warnpct (d : Word) : getBits (wdctrlStart d) 16 8 = min 99 (getBits d 16 8) := by
  rw [wdctrlStart, getBits_and_mask _ _ _ _ (by decide), getBits_normWord_wdctrl_warnpct, getBits_or_mask _ _ _ _ (by decide)]

/-! ## The watchdogs (R72, R73) -/

/-- A one-bit field as a condition is its bit. -/
theorem State.fb_eq_bit (s : State) (a i : Nat) : s.fb ⟨a, i, 1⟩ = bit (s.rd a) i := by
  have h : s.f ⟨a, i, 1⟩ = ((s.rd a).getLsbD i).toNat := by
    rw [BitVec.getLsbD, Nat.toNat_testBit, ← Nat.shiftRight_eq_div_pow]
    rfl
  rw [State.fb, h, bit]
  cases (s.rd a).getLsbD i <;> rfl

@[simp] theorem State.port_wr (s : State) (p : Proc) (a : Nat) (w : Word) : (s.wr a w).port p = s.port p := by cases p <;> rfl

@[simp] theorem State.port_setF (s : State) (p : Proc) (fd : Fld) (v : Nat) : (s.setF fd v).port p = s.port p := s.port_wr p _ _

@[simp] theorem State.port_incF (s : State) (p : Proc) (fd : Fld) : (s.incF fd).port p = s.port p := s.port_setF p _ _

/-- The EN that a write of WDCTRL keeps is nothing where EN is 0. -/
theorem and_en_of_clear {w : Word} (h : bit w 31 = false) : w &&& 0x80000000 = 0 :=
  (BitVec.and_twoPow w 31).trans (if_neg (ne_true_of_eq_false h))

/-- EN sets a stopped watchdog going with the period written. -/
theorem State.wdCtrl_start {s : State} {p : Proc} {v w : Word} (off : s.fb (Fd.HOSTIF_WDCTRL_EN (procIx p)) = false)
    (hw : v &&& 0x80FFFFFF = w) (on : bit w 31 = true) :
    s.wdCtrl p v = (s.wr (Reg.HOSTIF_WDCTRL (procIx p)) w).wdRestart p (msTicks (getBits w 0 16)) := by
  have stored : w ||| (s.rd (Reg.HOSTIF_WDCTRL (procIx p)) &&& 0x80000000) = w := by
    rw [and_en_of_clear ((s.fb_eq_bit _ _).symm.trans off)]
    exact BitVec.or_zero
  have enabled : (s.wr (Reg.HOSTIF_WDCTRL (procIx p)) w).fb (Fd.HOSTIF_WDCTRL_EN (procIx p)) = true := by
    rw [State.fb_eq_bit, State.rd_wr_self, on]
  have period : (s.wr (Reg.HOSTIF_WDCTRL (procIx p)) w).wdTicks p = msTicks (getBits w 0 16) := by
    rw [State.wdTicks, State.f, State.rd_wr_self]
  simp only [State.wdCtrl, hw, stored, off, enabled, period, Bool.not_false, Bool.and_self, if_true]

theorem State.wdKick_key {s : State} {p : Proc} {d : Word} (on : s.fb (Fd.HOSTIF_WDCTRL_EN (procIx p)) = true)
    (key : getBits d 0 16 = 0x5A5A) : s.wdKick p d = s.wdRestart p (s.wdTicks p) := by
  rw [State.wdKick, if_pos on, if_pos key]

theorem State.wdKick_wrongKey {s : State} {p : Proc} {d : Word} (on : s.fb (Fd.HOSTIF_WDCTRL_EN (procIx p)) = true)
    (key : getBits d 0 16 ≠ 0x5A5A) : s.wdKick p d = s.wdExpire p := by
  rw [State.wdKick, if_pos on, if_neg key]

theorem State.wdKick_off {s : State} {p : Proc} {d : Word} (off : s.fb (Fd.HOSTIF_WDCTRL_EN (procIx p)) = false) :
    s.wdKick p d = s := by
  rw [State.wdKick, if_neg (ne_true_of_eq_false off)]

theorem State.wdTimeout_due {s : State} {p : Proc} (on : s.fb (Fd.HOSTIF_WDCTRL_EN (procIx p)) = true)
    (due : (s.port p).wdStart + (s.port p).wdPeriod ≤ s.ticks) : s.wdTimeout p = s.wdExpire p := if_pos ⟨on, due⟩

theorem State.wdWarn_due {s : State} {p : Proc} {n : Nat} (point : s.wdWarnAt p = some n)
    (on : s.fb (Fd.HOSTIF_WDCTRL_EN (procIx p)) = true) (first : (s.port p).wdWarned = false)
    (due : (s.port p).wdStart + n ≤ s.ticks) :
    s.wdWarn p = ((s.setPort p { s.port p with wdWarned := true }).setF (Fd.HOSTIF_WDSTAT_WARN (procIx p)) 1).pulse
      (66 + 16 * procIx p) := by
  simp [State.wdWarn, point, on, first, due]

/-! ## The mailbox (R63) -/

theorem State.mboxOut_empty {s : State} {p : Proc} (d : Word) (h : s.fb (Fd.HOSTIF_STAT_MBFULL (procIx p)) = false) :
    s.mboxOut p d = (((s.wr (Reg.HOSTIF_MBOX_OUT (procIx p)) d).wr (Reg.HOSTIF_MBOX_IN (1 - procIx p)) d).setF
      (Fd.HOSTIF_STAT_MBFULL (procIx p)) 1).pulse (if procIx p = 0 then 80 else 64) := by
  simp only [State.mboxOut, h, Bool.false_eq_true, if_false]

theorem State.mboxOut_full {s : State} {p : Proc} (d : Word) (h : s.fb (Fd.HOSTIF_STAT_MBFULL (procIx p)) = true) :
    s.mboxOut p d = ((((s.setF (Fd.HOSTIF_STAT_MBOVR (procIx p)) 1).wr (Reg.HOSTIF_MBOX_OUT (procIx p)) d).wr
      (Reg.HOSTIF_MBOX_IN (1 - procIx p)) d).setF (Fd.HOSTIF_STAT_MBFULL (procIx p)) 1).pulse
        (if procIx p = 0 then 80 else 64) := by
  simp only [State.mboxOut, h, if_true]

/-! ## The commands of a running device -/

section
variable {s : State} {p : Proc} {d : Word}

theorem exec_mboxOutWrite_next (ao : s.power.ao = true) (m : s.mayWrite (.host p) 0x1060 = true) :
    exec (.mboxOutWrite p d) s = .next (s.mboxOut p d).settle := by
  rw [exec_mboxOutWrite, write_word ao m rfl, busWrite_mboxOut]

theorem exec_mboxInRead_next (ao : s.power.ao = true) (up : s.portUp = true) (run : s.pagesRun = true) :
    exec (.mboxInRead p) s = .next (s.mboxIn p).settle := by
  rw [exec_mboxInRead, live_next _ ao up, if_pos run]

theorem exec_watchdogEnable_next (ao : s.power.ao = true) (m : s.mayWrite (.host p) 0x1050 = true)
    (off : s.fb (Fd.HOSTIF_WDCTRL_EN (procIx p)) = false) :
    exec (.watchdogEnable p d) s = .next ((s.wr (Reg.HOSTIF_WDCTRL (procIx p)) (wdctrlStart d)).wdRestart p
      (msTicks (getBits (wdctrlStart d) 0 16))).settle := by
  rw [exec_watchdogEnable, write_word ao m rfl, busWrite_wdctrl, State.wdCtrl_start (w := wdctrlStart d) off rfl (bit_wdctrlStart_en d)]

theorem exec_watchdogKick_next (ao : s.power.ao = true) (m : s.mayWrite (.host p) 0x1054 = true) :
    exec (.watchdogKick p d) s = .next (s.wdKick p d).settle := by
  rw [exec_watchdogKick, write_word ao m rfl, busWrite_wdkick]

theorem exec_watchdogExpire_next (ao : s.power.ao = true) (up : s.portUp = true) :
    exec (.watchdogExpire p) s = .next (s.wdTimeout p).settle := by
  rw [exec_watchdogExpire, live_next _ ao up]

theorem exec_watchdogWarn_next (ao : s.power.ao = true) (up : s.portUp = true) :
    exec (.watchdogWarn p) s = .next (s.wdWarn p).settle := by
  rw [exec_watchdogWarn, live_next _ ao up]

end

/-- Settles O21: each command is its operation of the bus or of the watchdog, taken in the case of its hypotheses. -/
theorem mailboxWatchdog : Obligations.MailboxWatchdog := by
  rintro s p _ ao rfl
  refine ⟨fun d m empty => ?_, fun d m full => ?_, fun up run => ?_, fun d m off => ?_, fun d m on key => ?_,
    fun d m on key => ?_, fun d m off => ?_, fun up on due => ?_, ⟨_, rfl, ?_⟩,
    fun n up point on first due => ?_⟩
  · rw [exec_mboxOutWrite_next ao m, State.mboxOut_empty d empty]
  · rw [exec_mboxOutWrite_next ao m, State.mboxOut_full d full]
  · exact exec_mboxInRead_next ao up run
  · refine ⟨wdctrlStart d, bit_wdctrlStart_en d, getBits_wdctrlStart_period d, getBits_wdctrlStart_warnpct d, ?_⟩
    rw [exec_watchdogEnable_next ao m off, State.wdRestart, State.port_wr, State.wr_ticks]
  · rw [exec_watchdogKick_next ao m, State.wdKick_key on key]
    rfl
  · rw [exec_watchdogKick_next ao m, State.wdKick_wrongKey on key]
  · rw [exec_watchdogKick_next ao m, State.wdKick_off off]
  · rw [exec_watchdogExpire_next ao up, State.wdTimeout_due on due]
  · simp only [State.wdExpire, State.port_incF, State.port_setF]
  · rw [exec_watchdogWarn_next ao up, State.wdWarn_due point on first due]

end Sys2Proof.Machine
end

section
/-! PROOF. Rows that fault their thread, and rows whose condition is false (R79, R85, R86, R88). -/

namespace Sys2Proof.Machine

/-! ## Faults -/

/-- A thread fault that raises FS33 carries the CAUSE as its detail. -/
theorem State.threadFault_33 (s : State) (t : Fin 16) (cause : Nat) : s.threadFault t cause 33 = s.faulted t cause := rfl

section
variable {s : State} {t : Fin 16} {r : Row}

theorem rowIllegal_faults (issues : s.canIssue t = true) (illegal : rowCause (s.rowAt t) ≠ 0) :
    rowIllegal s t = ({ s with eng := { s.eng with lastIssued := t } } : State).faulted t (rowCause (s.rowAt t)) :=
  (if_pos ⟨issues, illegal⟩).trans (State.threadFault_33 _ _ _)

theorem rowCall_full (h : s.Takes t 0x03 r) (full : 4 ≤ (s.th t).stack.length) :
    rowCall s t = (s.issued t).faulted t 5 := by
  rw [rowCall, h.issue, State.th_issued, if_neg full.not_gt, State.threadFault_33]

theorem rowRet_empty (h : s.Takes t 0x04 r) (empty : (s.th t).stack = []) :
    rowRet s t = (s.issued t).faulted t 6 := by
  simp only [rowRet, h.issue, State.th_issued, empty, State.threadFault_33]

theorem rowJmpx_beyond (h : s.Takes t 0x09 r) (beyond : 16383 < r.tgt.toNat + ((s.th t).reg (regOf r.a)).toNat) :
    rowJmpx s t = (s.issued t).faulted t 8 := by
  rw [rowJmpx, h.issue, State.th_issued, if_neg beyond.not_ge, State.threadFault_33]

end

/-! ## A row whose condition is false -/

/-- A legal row that R82 lets issue and whose condition is false only ends, whatever its opcode would do. -/
theorem State.issue_condFalse {s : State} {t : Fin 16} {r : Row} (issues : s.canIssue t = true) (hr : s.rowAt t = r)
    (legal : rowCause r = 0) (skip : condHolds r.cc (s.th t).flags = false) (k : Row → State → State) :
    s.issue t r.op k = (s.issued t).setTh t ((s.th t).past ((s.th t).pc + 1)) := by
  subst hr
  rw [State.issue, if_pos ⟨issues, legal, rfl⟩]
  exact (if_neg (ne_true_of_eq_false skip)).trans (State.endRow_eq _ _)

/-- Command `c` is the row of opcode `op`: in every state it only issues that row, with or without settling after it. -/
def IsRow (c : Fin 16 → Instr) (op : Nat) : Prop :=
  ∀ (s : State) (t : Fin 16), ∃ k, exec (c t) s = row s (fun s => s.issue t op k) ∨ exec (c t) s = act s fun s => s.issue t op k

section
variable {c : Fin 16 → Instr} {op : Nat}

theorem IsRow.unsettled {k : Fin 16 → Row → State → State} (h : ∀ s t, exec (c t) s = row s fun s => s.issue t op (k t)) :
    IsRow c op := fun s t => ⟨k t, .inl (h s t)⟩

theorem IsRow.settled {k : Fin 16 → Row → State → State} (h : ∀ s t, exec (c t) s = act s fun s => s.issue t op (k t)) :
    IsRow c op := fun s t => ⟨k t, .inr (h s t)⟩

end

theorem isRow_lsend (ecc : List Ecc) : IsRow (fun t => .lsend t ecc) 0x3C := .settled fun s t => exec_lsend s t ecc

/-- The commands of the list are the rows of their opcodes, in the order of the opcodes (R86). -/
theorem rowCommands_isRow : rowCommands.Forall fun x => IsRow x.1 x.2 :=
  ⟨.settled fun s t => exec_nop s t .clean, .unsettled exec_jmp, .settled exec_call, .settled exec_ret,
   .unsettled exec_dbnz, .unsettled exec_halt, .unsettled exec_start, .unsettled exec_stop,
   .settled exec_jmpx, .unsettled exec_mov, .unsettled exec_ldh, .unsettled exec_add,
   .unsettled exec_sub, .unsettled exec_cmp, .unsettled exec_and, .unsettled exec_or,
   .unsettled exec_xor, .unsettled exec_tst, .unsettled exec_shl, .unsettled exec_shr,
   .unsettled exec_asr, .unsettled exec_mul, .unsettled exec_div, .unsettled exec_adds,
   .unsettled exec_subs, .unsettled exec_min, .unsettled exec_max, .settled exec_ld, .settled exec_st,
   .unsettled exec_sync, .unsettled exec_semget, .unsettled exec_semput, .unsettled exec_wait,
   .unsettled exec_waitp, .unsettled exec_post, .unsettled exec_dly, .unsettled exec_signal,
   .unsettled exec_tcap, .unsettled exec_log, .settled exec_raise, .settled exec_lres,
   .settled exec_lcom, .settled exec_lrel, .settled exec_lshed, isRow_lsend [], .settled exec_rail⟩

/-- Settles O6: the rows that fault do so in the branch of their operation that the hypothesis selects, and a row of any
opcode is an issue, which ends at once where the condition is false. -/
theorem rowFaults : Obligations.RowFaults := by
  refine ⟨fun s t ao issues => ⟨fun illegal => ?_, fun r h full => ?_, fun r h empty => ?_, fun r h beyond => ?_⟩, ?_⟩
  · rw [exec_illegalRow, act_next _ ao, rowIllegal_faults issues illegal]
  · rw [exec_call, act_next _ ao, rowCall_full h full]
  · rw [exec_ret, act_next _ ao, rowRet_empty h empty]
  · rw [exec_jmpx, act_next _ ao, rowJmpx_beyond h beyond]
  · rintro s t c _ r isRow ao issues hr legal rfl skip
    have row : IsRow c r.op := by
      obtain listed | ⟨hop, ecc, rfl⟩ := isRow
      · exact List.forall_iff_forall_mem.1 rowCommands_isRow _ listed
      · exact hop ▸ isRow_lsend ecc
    obtain ⟨k, h | h⟩ := row s t
    · exact .inl (by rw [h, row_next _ ao, State.issue_condFalse issues hr legal skip])
    · exact .inr (by rw [h, act_next _ ao, State.issue_condFalse issues hr legal skip])

end Sys2Proof.Machine
end

section
/-! PROOF. START and STOP (R96, R97). -/

namespace Sys2Proof.Machine

/-! ## A thread that is halted (R96, R97) -/

section
variable {x : Thread}

theorem Thread.not_startable_of_run (run : x.st = .run) : x.startable = false := by rw [Thread.startable, run]; rfl

theorem Thread.not_startable_of_wait (wait : x.st = .wait) : x.startable = false := by rw [Thread.startable, wait]; rfl

theorem Thread.halted_idle (run : x.st = .run) (idle : x.busy = none) :
    x.halted = { x with st := .halted, haltReq := false, step := false } := by
  simp only [Thread.halted, run, idle]

theorem Thread.halted_dly (run : x.st = .run) (dly : x.busy = some .dly) :
    x.halted = { x with st := .halted, busy := none, haltReq := false, step := false } := by
  simp only [Thread.halted, run, dly]

/-- A busy row that is no delay completes first. -/
theorem Thread.halted_busy {b : Busy} (run : x.st = .run) (busy : x.busy = some b) (ne : b ≠ .dly) :
    x.halted = { x with haltReq := true } := by
  cases b with
  | dly => exact absurd rfl ne
  | _ => simp only [Thread.halted, run, busy]

theorem Thread.halted_wait (wait : x.st = .wait) :
    x.halted = { x with st := .halted, waiting := none, waitDue := none, haltReq := false, step := false } := by
  simp only [Thread.halted, wait]

end

/-! ## The rows -/

/-- A row that ends with its C flag at `c`, its registers and the other flags as they were. -/
def Thread.pastC (x : Thread) (c : Bool) : Thread := ({ x with flags := { x.flags with c := c } } : Thread).past (x.pc + 1)

theorem State.endRow_setC (s : State) (t : Nat) (c : Bool) : (s.setC t c).endRow t = s.setTh t ((s.th t).pastC c) := by
  simp only [State.endRow_eq, State.setC_eq, State.th_setTh_self, State.setTh_setTh, Thread.pastC]

/-- A row of `t` that writes another thread ends as it would without. -/
theorem State.endRow_setC_setTh (s : State) {t u : Nat} (x : Thread) (c : Bool) (ne : t ≠ u) :
    ((s.setTh u x).setC t c).endRow t = (s.setTh u x).setTh t ((s.th t).pastC c) := by
  rw [State.endRow_setC, State.th_setTh_ne _ _ ne]

theorem State.threadArg_issued (s : State) (t : Fin 16) (u field : Nat) : (s.issued t).threadArg u field = s.threadArg u field := rfl

section
variable {s : State} {t u : Fin 16} {r : Row}

theorem rowStart_startable (h : s.Takes t 0x07 r) (arg : s.threadArg t r.a = some u.val) (can : (s.th u).startable = true)
    (ne : u ≠ t) :
    rowStart s t = ((s.issued t).setTh u ((s.th u).started r.tgt)).setTh t ((s.th t).pastC false) := by
  simp only [rowStart, h.issue, State.threadArg_issued, arg, State.th_issued, can, if_true,
    State.endRow_setC_setTh _ _ _ (Fin.val_ne_of_ne ne.symm)]

theorem rowStart_refused (h : s.Takes t 0x07 r) (arg : s.threadArg t r.a = some u.val) (cannot : (s.th u).startable = false) :
    rowStart s t = (s.issued t).setTh t ((s.th t).pastC true) := by
  simp only [rowStart, h.issue, State.threadArg_issued, arg, State.th_issued, cannot, Bool.false_eq_true, if_false,
    State.endRow_setC]

theorem rowStop_self (h : s.Takes t 0x08 r) (arg : s.threadArg t r.a = some t.val) :
    rowStop s t = (s.issued t).setTh t { s.th t with
      pc := (s.th t).pc + 1, st := .halted, haltReq := false, step := false,
      flags := { (s.th t).flags with c := false } } := by
  simp only [rowStop, h.issue, State.threadArg_issued, arg, if_true, State.setC_eq, State.th_setTh_self, State.setTh_setTh,
    State.th_issued]

theorem rowStop_refused (h : s.Takes t 0x08 r) (arg : s.threadArg t r.a = some u.val) (ended : (s.th u).startable = true)
    (ne : u ≠ t) : rowStop s t = (s.issued t).setTh t ((s.th t).pastC true) := by
  simp only [rowStop, h.issue, State.threadArg_issued, arg, if_neg (Fin.val_ne_of_ne ne), State.th_issued, ended, if_true,
    State.endRow_setC]

theorem rowStop_other (h : s.Takes t 0x08 r) (arg : s.threadArg t r.a = some u.val) (live : (s.th u).startable = false)
    (ne : u ≠ t) : rowStop s t = ((s.issued t).setTh u (s.th u).halted).setTh t ((s.th t).pastC false) := by
  simp only [rowStop, h.issue, State.threadArg_issued, arg, if_neg (Fin.val_ne_of_ne ne), State.th_issued, live,
    Bool.false_eq_true, if_false, State.endRow_setC_setTh _ _ _ (Fin.val_ne_of_ne ne.symm)]

theorem exec_start_next (h : s.Takes t 0x07 r) : exec (.start t) s = .next (rowStart s t) :=
  (exec_start s t).trans (row_next _ h.ao)

theorem exec_stop_next (h : s.Takes t 0x08 r) : exec (.stop t) s = .next (rowStop s t) :=
  (exec_stop s t).trans (row_next _ h.ao)

end

/-- Settles O7: a clause per state of the named thread, each by what the row does in that case; a thread that is stopped
is halted as its state and its busy row say. -/
theorem threadRows : Obligations.ThreadRows := by
  intro s t u r arg
  refine ⟨fun h can ne => ?_, fun h cannot => ?_, fun h self => ?_, fun h ended ne => ?_, fun h run idle ne => ?_,
    fun h run busy ne => ?_, fun h run dly ne => ?_, fun h wait ne => ?_⟩
  · rw [exec_start_next h, rowStart_startable h arg can ne]
    rfl
  · rw [exec_start_next h, rowStart_refused h arg cannot]
    rfl
  · rw [exec_stop_next h, rowStop_self h (self ▸ arg)]
  · rw [exec_stop_next h, rowStop_refused h arg ended ne]
    rfl
  · rw [exec_stop_next h, rowStop_other h arg (Thread.not_startable_of_run run) ne, Thread.halted_idle run idle]
    rfl
  · obtain ⟨b, busy, notDly⟩ := busy
    rw [exec_stop_next h, rowStop_other h arg (Thread.not_startable_of_run run) ne, Thread.halted_busy run busy notDly]
    rfl
  · rw [exec_stop_next h, rowStop_other h arg (Thread.not_startable_of_run run) ne, Thread.halted_dly run dly]
    rfl
  · rw [exec_stop_next h, rowStop_other h arg (Thread.not_startable_of_wait wait) ne, Thread.halted_wait wait]
    rfl

end Sys2Proof.Machine
end

section
/-! PROOF. The input supervisors: VIN and VHOLD (R204, R205, R340). -/

namespace Sys2Proof.Machine

section
variable {s : State} {v : Nat}

/-- VIN under 7.5 V raises FS0, with VIN noted as measured, unless FS0 holds its condition already (R205). -/
theorem State.vinUv_raises (low : v < 7500) (on : s.power.state ≠ .off) (begins : (s.src 0).hw = false) :
    s.vinUv v = State.raiseLevel { s with plant := { s.plant with vin := some v } } 0 0 0 :=
  if_pos ⟨low, on, Bool.not_eq_true' _ ▸ begins⟩

/-- VIN over 38.0 V raises FS1 likewise (R340). -/
theorem State.vinOv_raises (high : 38000 < v) (on : s.power.state ≠ .off) (begins : (s.src 1).hw = false) :
    s.vinOv v = State.raiseLevel { s with plant := { s.plant with vin := some v } } 1 0 0 :=
  if_pos ⟨high, on, Bool.not_eq_true' _ ▸ begins⟩

/-- VHOLD under VHOLD_MIN raises FS3 once VHOLD has been at 10.0 V (R340). -/
theorem State.vholdLow_raises (low : v < 6000) (armed : s.seq.vholdArmed = true) (on : s.power.state ≠ .off)
    (begins : (s.src 3).hw = false) :
    s.vholdLow v = State.raiseLevel { s with plant := { s.plant with vhold := some v } } 3 0 0 :=
  if_pos ⟨low, armed, on, Bool.not_eq_true' _ ▸ begins⟩

/-- Until VHOLD has been at 10.0 V its supervisor is disarmed, however low VHOLD is (R340). -/
theorem State.vholdLow_unarmed (unarmed : s.seq.vholdArmed = false) : s.vholdLow v = s :=
  if_neg fun ⟨_, armed, _⟩ => ne_true_of_eq_false unarmed armed

/-- VHOLD at 10.0 V arms FS3 and lets waiting record work start (R340, R370). -/
theorem State.vholdCharged_arms (s : State) :
    s.vholdCharged = State.recStart { s with
      plant := { s.plant with vhold := some (max 10000 (s.plant.vhold.getD 0)) },
      seq := { s.seq with vholdArmed := true } } := rfl

end

/-- Settles O17: each command is its supervisor, taken in the case of its hypotheses: the condition begins and its level
source is raised, or the VHOLD supervisor is not armed yet. -/
theorem supervisors : Obligations.Supervisors := by
  intro s ao on
  refine ⟨fun vin low begins => ?_, fun vin high begins => ?_, fun v low armed begins => ?_, fun v unarmed => ?_, ?_⟩
  · rw [exec_vinUv, act_next _ ao, State.vinUv_raises low on begins]
  · rw [exec_vinOv, act_next _ ao, State.vinOv_raises high on begins]
  · rw [exec_vholdLow, act_next _ ao, State.vholdLow_raises low armed on begins]
  · rw [exec_vholdLow, act_next _ ao, State.vholdLow_unarmed unarmed]
  · rw [exec_vholdCharged, awake_next _ ao on, State.vholdCharged_arms]

end Sys2Proof.Machine
end

section
/-! PROOF. The ledger's operations: LRES, LCOM, LREL and the shed-scan (R306, R310–R313, R315). -/

namespace Sys2Proof.Machine

/-! ## A record's fields beside its timer and beside other registers -/

@[simp] theorem State.pt_setResDue (s : State) (gp gq : Nat) (d : Option Nat) (f : PtFld) :
    (s.setResDue gp d).pt gq f = s.pt gq f := by
  rw [State.pt, State.f_setResDue, State.pt]

@[simp] theorem State.setPt_ticks (s : State) (gp v : Nat) (f : PtFld) : (s.setPt gp f v).ticks = s.ticks := rfl

/-- Storing a field of a point's entry leaves the fields of every other register. -/
theorem State.f_setPt (s : State) (gp v : Nat) (f : PtFld) {fd : Fld} (other : fd.addr ≠ ptAddr gp f.1) :
    (s.setPt gp f v).f fd = s.f fd := State.f_setF_ne s v other

/-- The reservation time (RESTO) stands outside the point table. -/
theorem ledger_resto_ne_ptAddr (gp off : Nat) : Fd.LEDGER_RESTO_MS.addr ≠ ptAddr gp off := by
  unfold ptAddr
  show 0x3098 ≠ _
  omega

/-- A record word holds power just when its LSTATE is RESERVED or COMMITTED. -/
theorem State.recHolds_iff (s : State) (gp : Nat) :
    recHolds (s.rd (ptAddr gp 0x20)) = true ↔ s.pt gp Pt.LSTATE = 1 ∨ s.pt gp Pt.LSTATE = 2 := by
  show (s.pt gp Pt.LSTATE == 1 || s.pt gp Pt.LSTATE == 2) = true ↔ _
  simp

/-! ## LRES: the refusals, in their order (R310) -/

section
variable {s : State} {gp mw : Nat}

theorem State.lresCode_disabled (off : s.f Fd.LEDGER_CTRL_EN = 0) : s.lresCode gp mw = 1 := if_pos off

theorem State.lresCode_range (on : s.f Fd.LEDGER_CTRL_EN = 1)
    (out : mw = 0 ∨ 65535 < mw ∨ 512 ≤ gp ∨ (256 ≤ gp ∧ !s.fb Fd.SYS_CONFIG_CLASS)) : s.lresCode gp mw = 2 :=
  (if_neg (by omega)).trans (if_pos out)

theorem State.lresCode_absent (on : s.f Fd.LEDGER_CTRL_EN = 1) (low : 1 ≤ mw) (high : mw ≤ 65535) (compact : gp < 256)
    (absent : s.pt gp Pt.PRES ≠ 2) : s.lresCode gp mw = 3 :=
  (if_neg (by omega)).trans <| (if_neg (by omega)).trans (if_pos absent)

/-- What an accepted reservation has passed: the range of B, and the group, throttle and source conditions. -/
theorem State.lresCode_accepts (accepted : s.lresCode gp mw = 0) :
    (mw : Int) ≤ s.headroom ∧ s.effPrio ≤ s.pt gp Pt.PRIO ∧ s.pt gp Pt.GROUP < 14 ∧ 1 ≤ mw ∧ mw ≤ 65535 := by
  simp only [State.lresCode] at accepted
  -- every refusing branch answers a code other than 0, so one branch is left, with each condition of R310 failed
  split_ifs at accepted
  omega

/-- A refusal changes nothing, sets C and answers its code (R310). -/
theorem State.lres_refused {c : Nat} (code : s.lresCode gp mw = c) (refused : c ≠ 0) :
    s.lres gp mw = (s, ledgerRefusal c) := by
  obtain ⟨k, rfl⟩ := Nat.exists_eq_succ_of_ne_zero refused
  unfold State.lres
  rw [code]
  rfl

end

/-! ## LRES accepted: the record that is booked (R306, R310) -/

/-- The record booked by LRES: loop, group and priority of the point, no overdraw, B mW, RESERVED, its timer started. -/
def State.bookRecord (s : State) (gp mw : Nat) : State :=
  State.setResDue (((((((s.setPt gp Pt.BLOOP (s.groupLoop (s.pt gp Pt.GROUP))).setPt gp Pt.BGROUP (s.pt gp Pt.GROUP)).setPt
    gp Pt.BPRIO (s.pt gp Pt.PRIO)).setPt gp Pt.ODRAW 0).setPt gp Pt.ODCNT 0).setPt gp Pt.RESMW mw).setPt gp Pt.LSTATE 1)
    gp (some (s.ticks + msTicks (s.f Fd.LEDGER_RESTO_MS)))

section
variable (s : State) (gp mw : Nat)

theorem State.bookRecord_lstate : (s.bookRecord gp mw).pt gp Pt.LSTATE = 1 := by
  rw [State.bookRecord, State.pt_setResDue, State.pt_setPt_self _ _ _ _ (by decide)]
  rfl

theorem State.bookRecord_resmw (fits : mw ≤ 65535) : (s.bookRecord gp mw).pt gp Pt.RESMW = mw := by
  simp (disch := decide) only [State.bookRecord, State.pt_setResDue, State.pt_setPt_apart, State.pt_setPt_self]
  exact Nat.mod_eq_of_lt (Nat.lt_succ_of_le fits)

theorem State.bookRecord_bprio : (s.bookRecord gp mw).pt gp Pt.BPRIO = s.pt gp Pt.PRIO := by
  simp (disch := decide) only [State.bookRecord, State.pt_setResDue, State.pt_setPt_apart, State.pt_setPt_self]
  exact Nat.mod_eq_of_lt (s.pt_lt gp Pt.PRIO)

theorem State.bookRecord_bgroup : (s.bookRecord gp mw).pt gp Pt.BGROUP = s.pt gp Pt.GROUP := by
  simp (disch := decide) only [State.bookRecord, State.pt_setResDue, State.pt_setPt_apart, State.pt_setPt_self]
  exact Nat.mod_eq_of_lt (s.pt_lt gp Pt.GROUP)

theorem State.bookRecord_resDue :
    (s.bookRecord gp mw).resDue gp = some (s.ticks + msTicks (s.f Fd.LEDGER_RESTO_MS)) := State.resDue_setResDue _ _ _

/-- Booking changes the record's first word alone. -/
theorem State.rd_bookRecord {a : Nat} (other : a ≠ ptAddr gp 0x20) : (s.bookRecord gp mw).rd a = s.rd a := by
  rw [State.bookRecord, State.rd_setResDue]
  simp (disch := exact other) only [State.rd_setPt]

end

/-- An accepted LRES books the record and answers HEADROOM; its timer is reckoned from the state it finds (R310, R314). -/
theorem State.lres_accepted {s : State} {gp mw : Nat} (accepted : s.lresCode gp mw = 0) :
    s.lres gp mw = (s.bookRecord gp mw, ⟨BitVec.ofInt 32 (s.bookRecord gp mw).headroom, none, false⟩) := by
  rw [State.lres, accepted]
  simp only [State.bookRecord, State.setPt_ticks, State.f_setPt _ _ _ _ (ledger_resto_ne_ptAddr _ _)]

/-! ## LCOM (R311, R312) -/

/-- The record committed by LCOM: COMMITTED with its stamp, its timer stopped, its peak restarted. -/
def State.commitRecord (s : State) (gp : Nat) : State :=
  (((s.setPt gp Pt.LSTATE 2).setPt gp Pt.TSTAMP s.stamp).setResDue gp none).setPt gp Pt.PEAKMW 0

section
variable {s : State} {gp : Nat}

theorem State.lcom_quiet (inTable : gp < 512) (reserved : s.pt gp Pt.LSTATE = 1) :
    s.lcom gp 4 = (s.commitRecord gp, ⟨BitVec.ofNat 32 (s.commitRecord gp).commitTotal, none, false⟩) :=
  if_pos ⟨reserved, inTable⟩

theorem State.lcom_forecast {b : Nat} (inTable : gp < 512) (reserved : s.pt gp Pt.LSTATE = 1) (loop : b < 4) {v : State}
    (sent : v = (s.commitRecord gp).forecast b (s.pt gp Pt.RESMW)) :
    s.lcom gp b = (v, ⟨BitVec.ofNat 32 v.commitTotal, none, false⟩) := by
  unfold State.lcom
  rw [if_pos ⟨reserved, inTable⟩, sent]
  simp only [if_pos loop]
  rfl

theorem State.lcom_refused (b : Nat) (other : s.pt gp Pt.LSTATE ≠ 1 ∨ 512 ≤ gp) : s.lcom gp b = (s, ledgerRefusal 10) :=
  if_neg (by omega)

/-! ## LREL (R313) -/

theorem State.lrel_refused (other : s.pt gp Pt.LSTATE = 0 ∨ 512 ≤ gp) : s.lrel gp = (s, ledgerRefusal 10) := if_pos other

theorem State.lrel_released (inTable : gp < 512) (booked : s.pt gp Pt.LSTATE ≠ 0) :
    s.lrel gp = ((s.releaseRecord gp).1, ⟨BitVec.ofNat 32 (s.releaseRecord gp).2, none, false⟩) := if_neg (by omega)

/-- A record that holds power releases it. -/
theorem State.releaseRecord_mw_of_holds (holds : s.pt gp Pt.LSTATE = 1 ∨ s.pt gp Pt.LSTATE = 2) :
    (s.releaseRecord gp).2 = s.pt gp Pt.RESMW :=
  if_pos ((s.recHolds_iff gp).2 holds)

/-- A SHED record has nothing to release. -/
theorem State.releaseRecord_mw_of_shed (shed : s.pt gp Pt.LSTATE = 3) : (s.releaseRecord gp).2 = 0 :=
  if_neg fun holds => by
    have := (s.recHolds_iff gp).1 holds
    omega

end

section
variable (s : State) (gp : Nat)

theorem State.releaseRecord_fst :
    (s.releaseRecord gp).1 = ((s.setPt gp Pt.LSTATE 0).setPt gp Pt.RESMW 0).setResDue gp none := rfl

theorem State.releaseRecord_lstate : (s.releaseRecord gp).1.pt gp Pt.LSTATE = 0 := by
  rw [State.releaseRecord_fst, State.pt_setResDue, State.pt_setPt_apart _ _ _ _ _ (by decide) (by decide),
    State.pt_setPt_self _ _ _ _ (by decide), Nat.zero_mod]

theorem State.releaseRecord_resmw : (s.releaseRecord gp).1.pt gp Pt.RESMW = 0 := by
  rw [State.releaseRecord_fst, State.pt_setResDue, State.pt_setPt_self _ _ _ _ (by decide), Nat.zero_mod]

theorem State.releaseRecord_resDue : (s.releaseRecord gp).1.resDue gp = none := State.resDue_setResDue _ _ _

/-- A release changes the record's first word alone. -/
theorem State.rd_releaseRecord {a : Nat} (other : a ≠ ptAddr gp 0x20) : (s.releaseRecord gp).1.rd a = s.rd a := by
  rw [State.releaseRecord_fst, State.rd_setResDue, State.rd_setPt _ _ _ _ _ other, State.rd_setPt _ _ _ _ _ other]

/-! ## The shed-scan (R315) -/

/-- The record of a point shed: its power moved to LASTMW, SHED with its stamp. -/
def State.shedRecord : State :=
  (((s.setPt gp Pt.LASTMW (s.pt gp Pt.RESMW)).setPt gp Pt.RESMW 0).setPt gp Pt.LSTATE 3).setPt gp Pt.TSTAMP s.stamp

theorem State.shedRecord_lstate : (s.shedRecord gp).pt gp Pt.LSTATE = 3 := by
  simp (disch := decide) only [State.shedRecord, State.pt_setPt_off, State.pt_setPt_self]
  rfl

theorem State.shedRecord_resmw : (s.shedRecord gp).pt gp Pt.RESMW = 0 := by
  simp (disch := decide) only [State.shedRecord, State.pt_setPt_off, State.pt_setPt_apart, State.pt_setPt_self]
  rfl

theorem State.shedRecord_lastmw : (s.shedRecord gp).pt gp Pt.LASTMW = s.pt gp Pt.RESMW := by
  simp (disch := decide) only [State.shedRecord, State.pt_setPt_off, State.pt_setPt_self]
  exact Nat.mod_eq_of_lt (s.pt_lt gp Pt.RESMW)

/-- A point shed joins its port's shed set, which abandons a frame of lower rank there (R270, R289). -/
theorem State.shedPoint_eq : s.shedPoint gp =
    ((s.shedRecord gp).orReg (Reg.LINK_SHEDMASK (gp / 64) (gp % 64 / 32)) (bitAt (gp % 32))).abandon (gp / 64) 2 := by
  have inWord : gp % 32 < 32 := Nat.mod_lt _ (by decide)
  have joins : bitAt (gp % 32) ≠ 0 := fun none => by simpa [none] using bitAt_getLsbD _ inWord
  exact if_neg joins

end

section
variable {s : State} {need : Int}

/-- A scan that finds no point frees nothing, and falls short of any need. -/
theorem State.lshed_nothing {prio : Nat} (empty : s.shedOrder prio = []) :
    s.lshed need prio = (s, ⟨0, some 0, decide (0 < need)⟩) := by
  unfold State.lshed
  rw [empty]
  rfl

theorem shedUntil_done {gp freed n : Nat} {rest : List Nat} (enough : need ≤ (freed : Int)) :
    shedUntil need (gp :: rest) s freed n = (s, freed, n) := if_pos enough

theorem shedUntil_sheds {gp freed n : Nat} {rest : List Nat} (short : (freed : Int) < need) :
    shedUntil need (gp :: rest) s freed n = shedUntil need rest (s.shedPoint gp) (freed + s.pt gp Pt.RESMW) (n + 1) :=
  if_neg (not_le.2 short)

end

/-- Settles O45: each operation by the lemma of its case, the record it leaves read through `bookRecord`, `commitRecord`,
`releaseRecord` or `shedRecord`. -/
theorem ledgerOps : Obligations.LedgerOps := by
  intro s gp
  refine ⟨fun mw c => State.lres_refused, fun mw accepted => ?books, fun mw => ⟨State.lresCode_disabled, fun on out => ?range,
      fun on high compact => ?compact, State.lresCode_absent, State.lresCode_accepts⟩, ?commits,
    State.lcom_refused, State.lrel_refused,
    fun inTable holds => ?releases, fun inTable shed => ?frees,
    ⟨s.shedRecord gp, s.shedRecord_lstate gp, s.shedRecord_lastmw gp, s.shedRecord_resmw gp, s.shedPoint_eq gp⟩,
    fun _ _ => State.lshed_nothing, fun _ _ _ _ => shedUntil_done, fun _ _ _ _ => shedUntil_sheds⟩
  case books =>
    have fits : mw ≤ 65535 := by
      obtain ⟨_, _, _, _, fits⟩ := State.lresCode_accepts accepted
      exact fits
    exact ⟨_, _, State.lres_accepted accepted, rfl, rfl, s.bookRecord_lstate gp mw, s.bookRecord_resmw gp mw fits,
      s.bookRecord_bprio gp mw, s.bookRecord_bgroup gp mw, s.bookRecord_resDue gp mw, fun _ => s.rd_bookRecord gp mw⟩
  case range => exact State.lresCode_range on (by omega)
  case compact => exact State.lresCode_range on (by simp [high, compact])
  case commits =>
    rintro b u inTable reserved rfl
    refine ⟨?_, fun loop => ⟨_, _, rfl, rfl, State.lcom_forecast inTable reserved loop rfl⟩⟩
    rintro rfl
    exact State.lcom_quiet inTable reserved
  case releases =>
    refine ⟨_, _, State.lrel_released inTable (by omega), rfl, ?_, s.releaseRecord_lstate gp, s.releaseRecord_resmw gp,
      s.releaseRecord_resDue gp, fun _ => s.rd_releaseRecord gp⟩
    rw [State.releaseRecord_mw_of_holds holds]
  case frees =>
    refine ⟨_, _, State.lrel_released inTable (by omega), rfl, ?_, s.releaseRecord_lstate gp, s.releaseRecord_resDue gp,
      fun _ => s.rd_releaseRecord gp⟩
    rw [State.releaseRecord_mw_of_shed shed]
    rfl

end Sys2Proof.Machine
end

section
/-! PROOF. The fault collector: ends, Lulls, clears, REACT, the history ring and the external fault input (R341–R354). -/

namespace Sys2Proof.Machine

/-! ## A source beside the registers and beside itself -/

@[simp] theorem State.setSrc_setSrc (s : State) (k : Nat) (x y : FaultSrc) : (s.setSrc k x).setSrc k y = s.setSrc k y := by
  simp only [State.setSrc, tset_tset]

@[simp] theorem State.src_wr (s : State) (a k : Nat) (w : Word) : (s.wr a w).src k = s.src k := rfl

@[simp] theorem State.src_setF (s : State) (fd : Fld) (v k : Nat) : (s.setF fd v).src k = s.src k := rfl

/-! ## The end of a source (R347) -/

/-- The end of FS14 is SFLT# high, which CONV.STAT shows. -/
def State.stageLineUp (s : State) (k : Nat) : State := if k = 14 then s.setF Fd.CONV_STAT_SFLT 0 else s

/-- The sources whose end another block reports; FAULT_ENDED of one has no effect before that. -/
def endsElsewhere (k : Nat) : Prop := k = 4 ∨ k = 6 ∨ k = 7 ∨ k = 44

theorem contains_iff_endsElsewhere (k : Nat) : [4, 6, 7, 44].contains k = true ↔ endsElsewhere k := by
  simp [endsElsewhere]

section
variable (s : State) (k : Nat)

@[simp] theorem State.stageLineUp_ticks : (s.stageLineUp k).ticks = s.ticks := by
  unfold State.stageLineUp
  split <;> rfl

/-- The registers other than CONV.STAT, which holds SFLT. -/
theorem State.f_stageLineUp {fd : Fld} (other : fd.addr ≠ Reg.CONV_STAT) : (s.stageLineUp k).f fd = s.f fd := by
  unfold State.stageLineUp
  split
  · exact State.f_setF_ne _ _ other
  · rfl

theorem react_ne_convStat : Reg.FAULT_REACT k ≠ Reg.CONV_STAT := by
  unfold Reg.FAULT_REACT Reg.CONV_STAT
  omega

theorem recov_ne_convStat : Reg.FAULT_RECOV k ≠ Reg.CONV_STAT := by
  unfold Reg.FAULT_RECOV Reg.CONV_STAT
  omega

theorem State.auto_stageLineUp : (s.stageLineUp k).fb (Fd.FAULT_REACT_AUTO k) = s.fb (Fd.FAULT_REACT_AUTO k) := by
  rw [State.fb, State.f_stageLineUp s k (react_ne_convStat k), State.fb]

theorem State.lullTicks_stageLineUp : (s.stageLineUp k).lullTicks k = s.lullTicks k := by
  rw [State.lullTicks, State.f_stageLineUp s k (recov_ne_convStat k), State.lullTicks]

end

section
variable {s : State} {k : Nat}

theorem State.faultEnded_of_over (ceased : (s.src k).live = false) : s.faultEnded k = s.stageLineUp k :=
  if_pos (.inl (by rw [ceased]; rfl))

theorem State.faultEnded_of_holds (holds : (s.src k).hw = true) (elsewhere : endsElsewhere k) : s.faultEnded k = s := by
  have notStage : k ≠ 14 := by
    unfold endsElsewhere at elsewhere
    omega
  have stays : s.faultEnded k = s.stageLineUp k := if_pos (.inr ⟨holds, (contains_iff_endsElsewhere k).2 elsewhere⟩)
  rw [stays, State.stageLineUp, if_neg notStage]

/-- A source whose condition ends goes on to its Lull where it is ACTIVE with AUTO = 1, and is only noted as ended otherwise. -/
theorem State.faultEnded_of_ends (live : (s.src k).live = true) (ends : (s.src k).hw = false ∨ ¬ endsElsewhere k) :
    s.faultEnded k =
      if (s.src k).st = .active ∧ s.fb (Fd.FAULT_REACT_AUTO k) then
        ((s.stageLineUp k).setSrc k { s.src k with live := false, hw := false }).toLull k
      else (s.stageLineUp k).setSrc k { s.src k with live := false, hw := false } := by
  have acts : ¬ ((!(s.src k).live) = true ∨ ((s.src k).hw = true ∧ [4, 6, 7, 44].contains k = true)) := by
    rw [contains_iff_endsElsewhere, live]
    rintro (h | ⟨holds, elsewhere⟩)
    · exact absurd h (by decide)
    · exact ends.elim (ne_true_of_eq_false · holds) (· elsewhere)
  rw [← State.auto_stageLineUp s k]
  exact if_neg acts

/-- A Lull starts at the present tick and lasts ⌈LULL × 327.68⌉ AO ticks. -/
theorem State.toLull_of_ended :
    ((s.stageLineUp k).setSrc k { s.src k with live := false, hw := false }).toLull k =
      (s.stageLineUp k).setSrc k { s.src k with
        live := false, hw := false, st := .lull, lullNext := false
        lullDue := s.ticks + divCeil (s.f (Fd.FAULT_RECOV_LULL k) * 32768) 100 } := by
  have span : ((s.stageLineUp k).setSrc k { s.src k with live := false, hw := false }).lullTicks k = s.lullTicks k :=
    State.lullTicks_stageLineUp s k
  rw [State.toLull, State.setSrc_setSrc, State.src_setSrc, span, State.setSrc_ticks, State.stageLineUp_ticks, State.lullTicks]

end

/-! ## The end of a Lull (R348) -/

theorem State.f_wakeUp (s : State) (fd : Fld) : s.wakeUp.f fd = s.f fd := by
  rw [State.f, State.rd_wakeUp, State.f]

/-- The recovery that makes the count `n` in the window that began at `window`. Its history entry carries the CAUSE and
DETAIL of the latest raise (log entry 38). -/
def State.recovered (s : State) (k n : Nat) (window : Option Nat) : State :=
  if s.f (Fd.FAULT_RECOV_RECMAX k) < n then
    ((s.wakeUp.setSrc k { s.src k with st := .squall, rcnt := n, window := window }).history k histSquall
      (s.src k).cause (s.src k).detail none).ev Fd.FAULT_EVRAW_SQUALL
  else
    ((s.wakeUp.setSrc k { s.src k with st := .idle, rcnt := n, window := window }).history k histRecover
      (s.src k).cause (s.src k).detail none).ev Fd.FAULT_EVRAW_RECOVER

section
variable {s : State} {k : Nat}

theorem State.lullExpire_inWindow {w : Nat} (lull : (s.src k).st = .lull) (due : (s.src k).lullDue ≤ s.ticks)
    (since : (s.src k).window = some w) (within : s.ticks - w < secTicks (s.f (Fd.FAULT_RECOV_WINDOW k))) :
    s.lullExpire k = s.recovered k ((s.src k).rcnt + 1) (s.src k).window := by
  simp only [State.lullExpire, State.recovered, lull, due, since, State.f_wakeUp, not_le.2 within, and_self, if_true,
    decide_false, Bool.false_eq_true, if_false]

theorem State.lullExpire_newWindow (lull : (s.src k).st = .lull) (due : (s.src k).lullDue ≤ s.ticks)
    (past : (s.src k).window = none ∨
      ∃ w, (s.src k).window = some w ∧ secTicks (s.f (Fd.FAULT_RECOV_WINDOW k)) ≤ s.ticks - w) :
    s.lullExpire k = s.recovered k 1 (some s.ticks) := by
  obtain fresh | ⟨w, since, gone⟩ := past
  · simp only [State.lullExpire, State.recovered, lull, due, fresh, State.f_wakeUp, and_self, if_true, Nat.zero_add]
  · simp only [State.lullExpire, State.recovered, lull, due, since, gone, State.f_wakeUp, and_self, if_true, decide_true,
      Nat.zero_add]

theorem State.lullExpire_of_notDue (notDue : (s.src k).st ≠ .lull ∨ s.ticks < (s.src k).lullDue) : s.lullExpire k = s :=
  if_neg fun ⟨lull, due⟩ => notDue.elim (· lull) (·.not_ge due)

end

/-! ## Clears (R349) -/

section
variable {s : State} {k : Nat}

theorem State.clearSource_refused {host : Bool}
    (refused : (s.src k).st = .idle ∨ (s.src k).hw = true ∨ ((s.src k).st = .squall ∧ host = false)) :
    s.clearSource k host = s :=
  if_pos (refused.imp_right <| Or.imp_right fun ⟨squall, row⟩ => ⟨squall, by rw [row]; rfl⟩)

theorem State.clearSource_uncleared {host : Bool} (uncleared : (s.src k).st = .active ∨ (s.src k).st = .lull)
    (ceased : (s.src k).hw = false) :
    s.clearSource k host =
      ((s.setSrc k { s.src k with st := .idle, live := false, lullNext := false }).history k histClear (s.src k).cause
        (s.src k).detail none).ev Fd.FAULT_EVRAW_CLEARED := by
  obtain st | st := uncleared <;>
    simp only [State.clearSource, st, ceased, reduceCtorEq, Bool.false_eq_true, false_and, or_self, if_false]

/-- A host's clear of SQUALL also sets RCNT to 0 and closes the window. -/
theorem State.clearSource_squall (squall : (s.src k).st = .squall) (ceased : (s.src k).hw = false) :
    s.clearSource k true =
      ((s.setSrc k { s.src k with st := .idle, live := false, lullNext := false, rcnt := 0, window := none }).history k
        histClear (s.src k).cause (s.src k).detail none).ev Fd.FAULT_EVRAW_CLEARED := by
  simp only [State.clearSource, squall, ceased, reduceCtorEq, Bool.not_true, Bool.false_eq_true, and_false, or_self, if_false,
    if_true]

end

theorem busWordAddr_faultClear (i : Fin 2) : busWordAddr (Reg.FAULT_CLEAR i) = Reg.FAULT_CLEAR i := by revert i; decide

/-! ## REACT (R342, R347) -/

/-- The word that REACTk stores: reserved codes of NOTIFY and RST as 0, and RST = BLOCK of a source without a block. -/
def reactWord (k : Nat) (v : Word) : Word :=
  putBits (putBits (v &&& 0x7F) 0 2 (if getBits v 0 2 = 3 then 0 else getBits v 0 2)) 2 2
    (if getBits v 2 2 = 3 ∨ (getBits v 2 2 = 1 ∧ (blockOf k 0).isNone) then 0 else getBits v 2 2)

/-- A source after AUTO is written (the last rows of R347's table). -/
def FaultSrc.autoWritten (x : FaultSrc) (auto : Bool) : FaultSrc :=
  if auto then (if x.st = .active ∧ !x.live then { x with lullNext := true } else x)
  else (if x.st = .lull then { x with st := .active, lullNext := false } else { x with lullNext := false })

section
variable {x : FaultSrc}

theorem FaultSrc.autoWritten_on_ended (active : x.st = .active) (ceased : x.live = false) :
    x.autoWritten true = { x with lullNext := true } :=
  (if_pos rfl).trans (if_pos ⟨active, by rw [ceased]; rfl⟩)

theorem FaultSrc.autoWritten_on_other (other : x.st ≠ .active ∨ x.live = true) : x.autoWritten true = x :=
  (if_pos rfl).trans <| if_neg fun ⟨active, ceased⟩ => other.elim (· active) fun live => by simp [live] at ceased

theorem FaultSrc.autoWritten_off_lull (lull : x.st = .lull) :
    x.autoWritten false = { x with st := .active, lullNext := false } :=
  (if_neg Bool.false_ne_true).trans (if_pos lull)

theorem FaultSrc.autoWritten_off_other (other : x.st ≠ .lull) : x.autoWritten false = { x with lullNext := false } :=
  (if_neg Bool.false_ne_true).trans (if_neg other)

end

theorem FaultSrc.uncleared_iff (x : FaultSrc) : x.uncleared = true ↔ x.st ≠ .idle := bne_iff_ne

/-- Only the code 2 is stored as NOTIFY = NMI. -/
theorem notify_stored_nmi_iff (v : Word) : (if getBits v 0 2 = 3 then 0 else getBits v 0 2) = 2 ↔ getBits v 0 2 = 2 := by
  split <;> omega

theorem nmiReg_ne_evraw (k : Nat) : nmiReg k ≠ Reg.INTC_EVRAW := by
  unfold nmiReg
  split <;> decide

section
variable {s : State} {k : Nat} {v : Word}

theorem State.reactWrite_eq : s.reactWrite k v = State.setSrc
    (if (s.src k).uncleared ∧ (if getBits v 0 2 = 3 then 0 else getBits v 0 2) = 2 ∧ s.f (Fd.FAULT_REACT_NOTIFY k) ≠ 2 then
      s.noteOutputs ((s.wr (Reg.FAULT_REACT k) (reactWord k v)).orReg (nmiReg k) (bitAt (k % 32)))
    else s.wr (Reg.FAULT_REACT k) (reactWord k v)) k ((s.src k).autoWritten (bit v 6)) := rfl

/-- A write that does not turn NOTIFY of an uncleared source to NMI stores its word and moves the source as its AUTO says. -/
theorem State.reactWrite_stores
    (noEdge : getBits v 0 2 ≠ 2 ∨ s.f (Fd.FAULT_REACT_NOTIFY k) = 2 ∨ (s.src k).st = .idle) :
    s.reactWrite k v = (s.wr (Reg.FAULT_REACT k) (reactWord k v)).setSrc k ((s.src k).autoWritten (bit v 6)) := by
  rw [State.reactWrite_eq, if_neg]
  rw [FaultSrc.uncleared_iff, notify_stored_nmi_iff]
  rintro ⟨uncleared, nmi, change⟩
  exact noEdge.elim (· nmi) (·.elim change uncleared)

/-- A write that turns NOTIFY of an uncleared source to NMI sets its NMIPEND bit (R344). -/
theorem State.reactWrite_nmipend (nmi : getBits v 0 2 = 2) (change : s.f (Fd.FAULT_REACT_NOTIFY k) ≠ 2)
    (uncleared : (s.src k).st ≠ .idle) : bit ((s.reactWrite k v).rd (nmiReg k)) (k % 32) = true := by
  rw [State.reactWrite_eq,
    if_pos ⟨(FaultSrc.uncleared_iff _).2 uncleared, (notify_stored_nmi_iff v).2 nmi, change⟩, State.rd_setSrc,
    State.rd_noteOutputs _ _ _ (nmiReg_ne_evraw k), State.orReg, State.rd_wr_self, bit, BitVec.getLsbD_or,
    bitAt_getLsbD _ (Nat.mod_lt k (by decide)), Bool.or_true]

end

/-! ## The history ring (R351) -/

/-- The words of entry `j` of the ring. -/
def histWords (j : Nat) : List Nat := [Reg.FAULT_HISTW0 j, Reg.FAULT_HISTW1 j, Reg.FAULT_HISTW2 j, Reg.FAULT_HISTW3 j]

/-- Entry `j` emptied. -/
def State.clearEntry (s : State) (j : Nat) : State :=
  (((s.wr (Reg.FAULT_HISTW0 j) 0).wr (Reg.FAULT_HISTW1 j) 0).wr (Reg.FAULT_HISTW2 j) 0).wr (Reg.FAULT_HISTW3 j) 0

/-- The words of entry `j` read 0 once it is emptied, and every other register as before. -/
theorem State.rd_clearEntry (s : State) (j a : Nat) : (s.clearEntry j).rd a = if a ∈ histWords j then 0 else s.rd a := by
  simp only [State.clearEntry, State.rd_wr, histWords, List.mem_cons, List.not_mem_nil, or_false]
  grind

theorem State.rd_clearEntries (l : List Nat) (s : State) (a : Nat) :
    (l.foldl State.clearEntry s).rd a = if ∃ j ∈ l, a ∈ histWords j then 0 else s.rd a := by
  induction l generalizing s with
  | nil => simp
  | cons j l ih =>
    rw [List.foldl_cons, ih, State.rd_clearEntry]
    by_cases here : a ∈ histWords j
    · simp [here]
    · simp [here]

section
variable (s : State)

theorem State.historyClear_eq : s.historyClear =
    (List.range 16).foldl State.clearEntry ((s.setF Fd.FAULT_HISTSTAT_NUM 0).setF Fd.FAULT_HISTSTAT_NEXT 0) := rfl

theorem State.rd_historyClear_entry {j a : Nat} (inRing : j < 16) (word : a ∈ histWords j) : s.historyClear.rd a = 0 := by
  rw [State.historyClear_eq, State.rd_clearEntries]
  exact if_pos ⟨j, List.mem_range.2 inRing, word⟩

/-- HISTSTAT stands outside the ring. -/
theorem State.f_historyClear {fd : Fld} (status : fd.addr = Reg.FAULT_HISTSTAT) :
    s.historyClear.f fd = ((s.setF Fd.FAULT_HISTSTAT_NUM 0).setF Fd.FAULT_HISTSTAT_NEXT 0).f fd := by
  have outside : ¬ ∃ j ∈ List.range 16, Reg.FAULT_HISTSTAT ∈ histWords j := by decide
  rw [State.f, status, State.historyClear_eq, State.rd_clearEntries, if_neg outside, State.f, status]

theorem State.num_historyClear : s.historyClear.f Fd.FAULT_HISTSTAT_NUM = 0 := by
  rw [State.f_historyClear s rfl, State.f_setF_apart _ _ (by decide) (by decide), State.f_setF_self _ _ (by decide)]
  rfl

theorem State.next_historyClear : s.historyClear.f Fd.FAULT_HISTSTAT_NEXT = 0 := by
  rw [State.f_historyClear s rfl, State.f_setF_self _ _ (by decide)]
  rfl

theorem State.total_historyClear : s.historyClear.f Fd.FAULT_HISTSTAT_TOTAL = s.f Fd.FAULT_HISTSTAT_TOTAL := by
  rw [State.f_historyClear s rfl, State.f_setF_apart _ _ (by decide) (by decide),
    State.f_setF_apart _ _ (by decide) (by decide)]

end

/-- HCLR from a host empties the ring. -/
theorem busWrite_hclr (s : State) (p : Proc) : s.busWrite (.host p) Reg.FAULT_CTRL 1 = s.historyClear :=
  (busWrite_at (p := 0x10) (k := Reg.FAULT_CTRL) rfl (by decide) (by decide) rfl rfl rfl).trans rfl

/-! ## The external fault input (R354) -/

/-- The word that EXTIN stores: PIN at most 11, DEGL at least 1, the reserved bits 0. -/
def extinWord (v : Word) : Word :=
  putBits (putBits (v &&& 0xCF0000FF) 24 4 (min 11 (getBits v 24 4))) 0 8 (max 1 (getBits v 0 8))

section
variable {s : State}

theorem State.extFault_begins (on : s.fb Fd.FAULT_EXTIN_EN = true) (begins : (s.src 44).hw = false) :
    s.extFault true = s.raiseLevel 44 0 (s.f Fd.FAULT_EXTIN_PIN) := by
  rw [State.extFault, if_pos on, if_pos rfl, if_neg (ne_true_of_eq_false begins)]

theorem State.extFault_holds (on : s.fb Fd.FAULT_EXTIN_EN = true) (holds : (s.src 44).hw = true) : s.extFault true = s := by
  rw [State.extFault, if_pos on, if_pos rfl, if_pos holds]

theorem State.extFault_ends (on : s.fb Fd.FAULT_EXTIN_EN = true) : s.extFault false = s.endLevel 44 := by
  rw [State.extFault, if_pos on, if_neg Bool.false_ne_true]

theorem State.extFault_off (active : Bool) (off : s.fb Fd.FAULT_EXTIN_EN = false) : s.extFault active = s :=
  if_neg (ne_true_of_eq_false off)

/-- A write of EN = 0 ends FS44's condition. -/
theorem State.extinWrite_disables {v : Word} (off : bit v 31 = false) :
    s.extinWrite v = (s.wr Reg.FAULT_EXTIN (extinWord v)).endLevel 44 :=
  if_pos (by rw [off]; rfl)

/-- A write that enables the input, with whatever PIN and POL, leaves FS44 to the ball. -/
theorem State.extinWrite_enables {v : Word} (on : bit v 31 = true) (was : s.fb Fd.FAULT_EXTIN_EN = false) :
    s.extinWrite v = s.wr Reg.FAULT_EXTIN (extinWord v) := by
  have stopped : bit (s.rd Reg.FAULT_EXTIN) 31 = false := (s.fb_eq_bit _ _).symm.trans was
  exact if_neg (by rw [on, stopped]; exact Bool.false_ne_true)

end

theorem busWrite_extin (s : State) (w : Writer) (d : Word) :
    s.busWrite w Reg.FAULT_EXTIN d = s.extinWrite (normWord 0x10 0x68 d) :=
  (busWrite_at (p := 0x10) (k := Reg.FAULT_EXTIN) rfl (by decide) (by decide) rfl rfl rfl).trans rfl

/-! ## A repeat (R343): what a raise of an uncleared source leaves -/

section
variable (s : State) (k : Nat)

theorem State.wakeUp_parts : s.wakeUp.resetReq = s.resetReq ∧ s.wakeUp.faults = s.faults := by
  unfold State.wakeUp
  split <;> exact ⟨rfl, rfl⟩

theorem State.pulse_parts : (s.pulse k).resetReq = s.resetReq ∧ (s.pulse k).faults = s.faults := by
  unfold State.pulse
  split <;> exact ⟨rfl, rfl⟩

theorem State.history_parts (type cause detail : Nat) (origin : Option Nat) :
    (s.history k type cause detail origin).resetReq = s.resetReq ∧
    (s.history k type cause detail origin).faults = s.faults := by
  unfold State.history
  simp only [State.setFb, State.incF, State.almanacAdd_parts, State.setF_resetReq, State.setF_faults, State.wr_resetReq,
    State.wr_faults, and_self]

theorem State.presentFault_parts (first : Bool) :
    (s.presentFault k first).resetReq = s.resetReq ∧ (s.presentFault k first).faults = s.faults := by
  unfold State.presentFault
  split
  · split
    · exact ⟨rfl, rfl⟩
    · exact s.pulse_parts k
  · split_ifs
    · exact State.noteOutputs_parts ..
    · exact ⟨rfl, rfl⟩
    · exact ⟨rfl, rfl⟩
  · exact ⟨rfl, rfl⟩

/-- What a raise stores in its source. -/
def FaultSrc.raised (x : FaultSrc) (cause detail : Nat) (hw : Bool) : FaultSrc :=
  { x with st := if x.st == .squall then .squall else .active, hw := x.hw || hw, live := true, lullNext := false,
           cause := cause, detail := detail }

/-- A raise noted: by the source, by the gauge for FS27, and in the count. -/
def State.raiseNoted (cause detail : Nat) (hw : Bool) : State :=
  let t := s.setSrc k ((s.src k).raised cause detail hw)
  (if k = 27 then { t with gauge := { t.gauge with fs27 := true } } else t).incF (cntFld k)

theorem State.raiseNoted_parts (cause detail : Nat) (hw : Bool) :
    (s.raiseNoted k cause detail hw).resetReq = s.resetReq ∧
    (s.raiseNoted k cause detail hw).src k = (s.src k).raised cause detail hw := by
  have src := s.src_setSrc k ((s.src k).raised cause detail hw)
  unfold State.raiseNoted
  split <;> exact ⟨rfl, src⟩

end

section
variable {s : State} {k : Nat} (cause detail : Nat) (hw : Bool) (origin : Option Nat)

/-- A repeat counts, makes its history entry and presents the source again, and does no more. -/
theorem State.raiseFrom_repeat (uncleared : (s.src k).st ≠ .idle) :
    s.raiseFrom k cause detail hw origin =
      ((((s.raiseNoted k cause detail hw).history k histRepeat cause detail origin).ev
        Fd.FAULT_EVRAW_REPEAT).presentFault k false).wakeUp := by
  have notFirst : ((s.src k).st == .idle) = false := beq_false_of_ne uncleared
  simp only [State.raiseFrom, notFirst, Bool.false_eq_true, if_false]
  rfl

theorem State.raiseFrom_repeat_parts (uncleared : (s.src k).st ≠ .idle) :
    (s.raiseFrom k cause detail hw origin).resetReq = s.resetReq ∧
    (s.raiseFrom k cause detail hw origin).src k = (s.src k).raised cause detail hw := by
  obtain ⟨notedReq, notedSrc⟩ := s.raiseNoted_parts k cause detail hw
  obtain ⟨histReq, histFaults⟩ := (s.raiseNoted k cause detail hw).history_parts k histRepeat cause detail origin
  rw [State.raiseFrom_repeat cause detail hw origin uncleared]
  constructor
  · rw [(State.wakeUp_parts _).1, (State.presentFault_parts _ _ _).1, State.ev_resetReq, histReq, notedReq]
  · rw [State.src, (State.wakeUp_parts _).2, (State.presentFault_parts _ _ _).2, State.ev_faults, histFaults]
    exact notedSrc

end

theorem FaultSrc.raised_st_of_squall {x : FaultSrc} {cause detail : Nat} {hw : Bool} (squall : x.st = .squall) :
    (x.raised cause detail hw).st = .squall := if_pos (beq_iff_eq.2 squall)

theorem FaultSrc.raised_st_of_ne_squall {x : FaultSrc} {cause detail : Nat} {hw : Bool} (other : x.st ≠ .squall) :
    (x.raised cause detail hw).st = .active := if_neg (mt beq_iff_eq.1 other)

/-! ## The commands -/

section
variable {s : State} {k : Fin 48} {w : Writer} {d : Word}

theorem exec_faultEnded_next (ao : s.power.ao = true) (on : s.power.state ≠ .off) :
    exec (.faultEnded k) s = .next (s.faultEnded k).settle := by
  rw [exec_faultEnded, awake_next _ ao on]

theorem exec_lullExpire_next (ao : s.power.ao = true) (on : s.power.state ≠ .off) :
    exec (.lullExpire k) s = .next (s.lullExpire k).settle := by
  rw [exec_lullExpire, awake_next _ ao on]

theorem exec_faultClear_next {i : Fin 2} (ao : s.power.ao = true) (m : s.mayWrite w (Reg.FAULT_CLEAR i) = true) :
    exec (.faultClear w i d) s = .next (s.clearWrite i d (isHost w)).settle := by
  rw [exec_faultClear, write_word ao m (busWordAddr_faultClear i), busWrite_faultClear]

theorem exec_reactWrite_next (ao : s.power.ao = true) (m : s.mayWrite w (Reg.FAULT_REACT k) = true) :
    exec (.reactWrite w k d) s = .next (s.reactWrite k (normWord 0x10 (0x100 + 4 * k) d)).settle := by
  rw [exec_reactWrite, write_word ao m (busWordAddr_react k), busWrite_react]

theorem exec_historyClear_next {p : Proc} (ao : s.power.ao = true) (m : s.mayWrite (.host p) Reg.FAULT_CTRL = true) :
    exec (.historyClear p) s = .next s.historyClear.settle := by
  rw [exec_historyClear, write_word ao m rfl, busWrite_hclr]

theorem exec_extFaultIn_next {active : Bool} (ao : s.power.ao = true) (up : s.portUp = true) :
    exec (.extFaultIn active) s = .next (s.extFault active).settle := by
  rw [exec_extFaultIn, live_next _ ao up]

theorem exec_extinWrite_next (ao : s.power.ao = true) (m : s.mayWrite w Reg.FAULT_EXTIN = true) :
    exec (.extinWrite w d) s = .next (s.extinWrite (normWord 0x10 0x68 d)).settle := by
  rw [exec_extinWrite, write_word ao m rfl, busWrite_extin]

end

/-- Settles O48: each command is its operation of the collector, taken in the case of its hypotheses; a raise of an
uncleared source is a repeat, which asks for no reset. -/
theorem faultSources : Obligations.FaultSources := by
  refine ⟨fun s k ao on => ⟨?ends, fun ceased => ?isOver, fun holds elsewhere => ?holds, ?inWindow, ?newWindow,
      fun notDue => ?notDue⟩,
    fun s ao => ⟨fun w i d m => ?clear, fun k h => State.clearSource_refused, fun k h => State.clearSource_uncleared,
      fun k => State.clearSource_squall, ?react, fun p m => exec_historyClear_next ao m,
      ⟨s.num_historyClear, s.next_historyClear, s.total_historyClear, fun j inRing => ?ring⟩,
      fun up on begins => ?extBegins, fun up on holds => ?extHolds, fun up on => ?extEnds, fun a up off => ?extOff, ?extin⟩,
    fun s k cause detail hw origin uncleared => ?repeats⟩
  case ends =>
    rintro _ _ rfl rfl live ends
    have ended := State.faultEnded_of_ends live (ends.imp_right fun other => by unfold endsElsewhere; omega)
    refine ⟨fun active auto => ?_, fun stays => ?_⟩
    · rw [exec_faultEnded_next ao on, ended, if_pos ⟨active, auto⟩, State.toLull_of_ended, State.setSrc_setSrc]
      rfl
    · rw [exec_faultEnded_next ao on, ended,
        if_neg fun ⟨active, auto⟩ => stays.elim (· active) (ne_true_of_eq_false · auto)]
      rfl
  case isOver =>
    rw [exec_faultEnded_next ao on, State.faultEnded_of_over ceased]
    rfl
  case holds => rw [exec_faultEnded_next ao on, State.faultEnded_of_holds holds elsewhere]
  case inWindow =>
    intro w lull due since within
    rw [exec_lullExpire_next ao on, State.lullExpire_inWindow lull due since within]
    exact ⟨fun few => by rw [State.recovered, if_neg few.not_gt], fun many => by rw [State.recovered, if_pos many]⟩
  case newWindow =>
    intro lull due past
    rw [exec_lullExpire_next ao on, State.lullExpire_newWindow lull due past]
    exact ⟨fun few => by rw [State.recovered, if_neg few.not_gt], fun never => by rw [State.recovered, if_pos (by omega)]⟩
  case notDue => rw [exec_lullExpire_next ao on, State.lullExpire_of_notDue notDue]
  case clear =>
    rw [exec_faultClear_next ao m, State.clearWrite]
    simp only [Fin.val_eq_zero_iff]
  case react =>
    rintro w k d _ _ m rfl rfl
    rw [exec_reactWrite_next ao m]
    refine ⟨fun nmi change uncleared => ⟨State.reactWrite_nmipend nmi change uncleared, rfl⟩, fun noEdge => ?_⟩
    rw [State.reactWrite_stores noEdge]
    refine ⟨fun auto active ceased => ?_, fun auto other => ?_, fun auto lull => ?_, fun auto other => ?_⟩
    · rw [auto, FaultSrc.autoWritten_on_ended active ceased]
      rfl
    · rw [auto, FaultSrc.autoWritten_on_other other]
      rfl
    · rw [auto, FaultSrc.autoWritten_off_lull lull]
      rfl
    · rw [auto, FaultSrc.autoWritten_off_other other]
      rfl
  case ring =>
    have empty : ∀ a ∈ histWords j, s.historyClear.rd a = 0 := fun _ => s.rd_historyClear_entry inRing
    simpa only [histWords, List.forall_mem_cons, List.not_mem_nil, false_imp_iff, implies_true, and_true] using empty
  case extBegins => rw [exec_extFaultIn_next ao up, State.extFault_begins on begins]
  case extHolds => rw [exec_extFaultIn_next ao up, State.extFault_holds on holds]
  case extEnds => rw [exec_extFaultIn_next ao up, State.extFault_ends on, State.endLevel]
  case extOff => rw [exec_extFaultIn_next ao up, State.extFault_off a off]
  case extin =>
    rintro w d _ _ m rfl rfl
    rw [exec_extinWrite_next ao m]
    refine ⟨fun off => ?_, fun on was => ?_⟩
    · rw [State.extinWrite_disables off]
      rfl
    · rw [State.extinWrite_enables on was]
      rfl
  case repeats =>
    obtain ⟨asksNothing, source⟩ := State.raiseFrom_repeat_parts cause detail hw origin uncleared
    rw [source]
    exact ⟨asksNothing, FaultSrc.raised_st_of_squall, FaultSrc.raised_st_of_ne_squall⟩

end Sys2Proof.Machine
end

section
/-! PROOF. The OTP's commands, refusals, locks and overrides (R393, R394, R398, R399, R405–R408). -/

namespace Sys2Proof.Machine

/-! ## The page's registers with an action of their own (R398, R405) -/

section
variable (s : State) (w : Writer) (d : Word)

theorem busWrite_otpRlock : s.busWrite w Reg.OTP_RLOCK d = s.orReg Reg.OTP_RLOCK (d &&& 0x7F) :=
  (busWrite_at (p := 0x14) (k := Reg.OTP_RLOCK) rfl (by decide) (by decide) rfl rfl rfl).trans rfl

theorem busWrite_otpWlock : s.busWrite w Reg.OTP_WLOCK d = s.orReg Reg.OTP_WLOCK (d &&& 0x7F) :=
  (busWrite_at (p := 0x14) (k := Reg.OTP_WLOCK) rfl (by decide) (by decide) rfl rfl rfl).trans rfl

theorem busWrite_ovrclr : s.busWrite w Reg.OTP_CTRL 1 = s.overrideClear :=
  (busWrite_at (p := 0x14) (k := Reg.OTP_CTRL) rfl (by decide) (by decide) rfl rfl rfl).trans rfl

end

theorem busWordAddr_shadow (i : Fin 320) : busWordAddr (0x150300 + 4 * i.val) = 0x150300 + 4 * i.val := by
  unfold busWordAddr
  omega

/-! ## A command written (R406) -/

section
variable {c : Instr} {w : Writer} {op m key arg : Nat}

/-- The operations of the command table are 1 to 6, and the word of CMD carries OP, MARGIN, KEY and ARG. -/
theorem otpCommand_word (h : OtpCommand c w op m key arg) :
    ¬ (op = 0 ∨ 6 < op) ∧ getBits (otpWord op m key arg) 28 4 = op ∧ getBits (otpWord op m key arg) 26 2 = m ∧
      getBits (otpWord op m key arg) 16 8 = key ∧ getBits (otpWord op m key arg) 0 11 = arg := by
  have bits (op m key arg : Nat) (known : 1 ≤ op ∧ op ≤ 6) (hm : m < 4) (hk : key < 256) (ha : arg < 2048) :=
    And.intro (show ¬ (op = 0 ∨ 6 < op) by omega) (otpWord_bits op m key arg (by omega) hm hk ha)
  cases h with
  | read _ a m => exact bits 1 _ 0 _ (by decide) m.isLt (by decide) a.isLt
  | program _ a k => exact bits 2 0 _ _ (by decide) (by decide) k.isLt a.isLt
  | lock _ a k => exact bits 3 0 _ _ (by decide) (by decide) k.isLt a.isLt
  | repair _ a k => exact bits 4 0 _ _ (by decide) (by decide) k.isLt a.isLt
  | check _ a => exact bits 5 0 0 _ (by decide) (by decide) (by decide) a.isLt
  | reapply _ => exact bits 6 0 0 0 (by decide) (by decide) (by decide) (by decide)

variable {s : State} (by' : Option Proc)

/-- A command written while the controller runs one, or serves a boot-plan load, completes with BUSY. -/
theorem State.otpCmd_busy (h : OtpCommand c w op m key arg) (busy : s.otp.cmd ≠ none ∨ s.otpLoading = true) :
    s.otpCmd by' (otpWord op m key arg) = (s.setF Fd.OTP_RES_DONE 0).otpEnd by' 1 false false none := by
  obtain ⟨known, hop, -⟩ := otpCommand_word h
  have taken : (s.setF Fd.OTP_RES_DONE 0).otp.cmd.isSome ∨ (s.setF Fd.OTP_RES_DONE 0).otpLoading :=
    busy.imp_left Option.isSome_iff_ne_none.2
  simp only [State.otpCmd, hop, if_neg known, if_pos taken]

/-- A command that finds the controller free is judged: accepted with code 0, it takes the controller, and any other code
ends it. -/
theorem State.otpCmd_free (h : OtpCommand c w op m key arg) (free : s.otp.cmd = none) (noLoad : s.otpLoading = false)
    {u v : State} {code : Nat} (hu : u = s.setF Fd.OTP_RES_DONE 0) (judged : u.otpRefuse op arg key (s.rd Reg.OTP_DATA) = code)
    (hv : v = u.otpJudge op arg code) :
    (code = 0 → s.otpCmd by' (otpWord op m key arg) =
      State.otpBusy (v.setOtp { v.otp with cmd := some ⟨op, min 2 m, arg, s.rd Reg.OTP_DATA, by'⟩ })) ∧
    (code ≠ 0 → s.otpCmd by' (otpWord op m key arg) =
      (v.when (code == 9) fun s => s.spareGone 4).otpEnd by' code false false none) := by
  obtain ⟨known, hop, hm, hkey, harg⟩ := otpCommand_word h
  have idle : ¬ (u.otp.cmd.isSome ∨ u.otpLoading) := by
    rw [hu, State.setF_otp, free]
    exact fun h => h.elim (by decide) (ne_true_of_eq_false noLoad)
  have data : u.rd Reg.OTP_DATA = s.rd Reg.OTP_DATA := by rw [hu, State.rd_setF_ne _ _ (by decide)]
  simp only [State.otpCmd, hop, hm, hkey, harg, if_neg known, ← hu, if_neg idle, data, judged, ← hv]
  cases code with
  | zero => exact ⟨fun _ => rfl, fun h => absurd rfl h⟩
  | succ n => exact ⟨fun h => absurd h n.succ_ne_zero, fun _ => rfl⟩

/-- Judging a command that ends with NOSPARE, a REPAIR, reads nothing. -/
theorem State.otpJudge_noSpare : s.otpJudge op arg 9 = s := if_neg fun h => absurd h.2 (by decide)

end

/-! ## Refusals (R398, R399, R407) -/

theorem regionOfWord_le_one {a : Nat} : regionOfWord a ≤ 1 ↔ a < 192 := by
  unfold regionOfWord
  split_ifs <;> omega

section
variable {s : State} {arg key : Nat} {d : Word}

theorem State.otpRefuse_key {op : Nat} (keyed : op = 2 ∨ op = 3 ∨ op = 4) (wrong : key ≠ 0xB7) :
    s.otpRefuse op arg key d = 11 := if_pos ⟨keyed, wrong⟩

/-- READ is refused by its region's read lock alone. -/
theorem State.otpRefuse_read :
    s.otpRefuse 1 arg key d = if (s.f Fd.OTP_RLOCK_REGION).testBit (regionOfWord arg) then 10 else 0 := rfl

/-- A command without KEY is refused, so what is accepted carried it. -/
theorem State.otpRefuse_keyed {op : Nat} (keyed : op = 2 ∨ op = 3 ∨ op = 4) (accepted : s.otpRefuse op arg key d = 0) :
    key = 0xB7 := by
  by_contra wrong
  rw [State.otpRefuse_key keyed wrong] at accepted
  exact absurd accepted (by decide)

/-- PROGRAM with KEY: LOCKED, LOWV and NOTBLANK in this order. -/
theorem State.otpRefuse_program :
    s.otpRefuse 2 arg 0xB7 d =
      if regionOfWord arg ≤ 1 ∨ s.otp.locked (regionOfWord arg) ∨ (s.f Fd.OTP_WLOCK_REGION).testBit (regionOfWord arg) then 3
      else if s.plant.vin.getD 0 < 12000 then 5
      else if s.otpRaw arg &&& (otpEncode d ^^^ (2 ^ 39 - 1)) ≠ 0 then 4
      else 0 := by
  simp only [State.otpRefuse, decide_eq_true_eq]
  rfl

theorem State.otpRefuse_program_locked (locked : arg < 192 ∨ s.otp.locked (regionOfWord arg) = true ∨
    (s.f Fd.OTP_WLOCK_REGION).testBit (regionOfWord arg) = true) : s.otpRefuse 2 arg 0xB7 d = 3 := by
  rw [State.otpRefuse_program, if_pos (locked.imp_left regionOfWord_le_one.2)]

/-- An accepted PROGRAM has passed each refusal. -/
theorem State.otpRefuse_program_accepts (accepted : s.otpRefuse 2 arg key d = 0) :
    192 ≤ arg ∧ 12000 ≤ s.plant.vin.getD 0 ∧ s.otpRaw arg &&& (otpEncode d ^^^ (2 ^ 39 - 1)) = 0 := by
  obtain rfl := State.otpRefuse_keyed (by decide) accepted
  rw [State.otpRefuse_program] at accepted
  split_ifs at accepted with locked low notBlank
  exact ⟨not_lt.1 fun h => locked (.inl (regionOfWord_le_one.2 h)), not_lt.1 low, not_not.1 notBlank⟩

/-- An accepted LOCK names a region that is unlocked and whose words read and check. -/
theorem State.otpRefuse_lock_accepts (accepted : s.otpRefuse 3 arg key d = 0) :
    arg ≤ 6 ∧ s.otp.locked arg = false ∧ ∃ ws, s.regionWords arg = some ws ∧ closingGood ws = true := by
  obtain rfl := State.otpRefuse_keyed (by decide) accepted
  simp only [State.otpRefuse, ne_eq, not_true_eq_false, and_false, if_false] at accepted
  split_ifs at accepted with range locked
  cases words : s.regionWords arg with
  | none => simp [words] at accepted
  | some ws =>
    have good : closingGood ws = true := by
      by_contra bad
      simp [words, bad] at accepted
    exact ⟨not_lt.1 range, by simpa using fun h => locked (.inl h), ws, rfl, good⟩

end

/-! ## The array (R392, R398) -/

theorem Otp.pattern_burn (o : Otp) (w b : Nat) : (o.burn w b).pattern w = o.pattern w ||| b := tget_tset_self _ _ _ _

theorem Otp.fuse_blow (o : Otp) (r i j : Nat) : (o.blow r i).fuse r j = (decide (j = i) || o.fuse r j) := by
  rw [Otp.fuse, Otp.blow, tget_tset, Otp.fuse]
  by_cases h : j = i
  · simp [h]
  · rw [if_neg (by omega), decide_eq_false h, Bool.false_or]

/-- The three fuses of a region lock it. -/
theorem Otp.locked_blow_three (o : Otp) (r : Nat) : (((o.blow r 0).blow r 1).blow r 2).locked r = true := by
  have blown (i : Nat) (h : i < 3) : (((o.blow r 0).blow r 1).blow r 2).fuse r i = true := by
    simp only [Otp.fuse_blow, Bool.or_eq_true, decide_eq_true_eq]
    omega
  rw [Otp.locked, blown 0 (by decide), blown 1 (by decide), blown 2 (by decide)]
  rfl

section
variable {s : State} {o : OtpSense} {w : Nat} {d : Word}

theorem State.otpRead_clean (h : s.otpValue o w = some (d, false)) : s.otpRead o w = (s, some d) := by
  rw [State.otpRead, h]
  rfl

theorem State.otpRead_corrected (h : s.otpValue o w = some (d, true)) :
    s.otpRead o w = (s.incF Fd.OTP_ECC_CORR, some d) := by
  rw [State.otpRead, h]
  rfl

theorem State.otpRead_uncorrectable (h : s.otpValue o w = none) :
    s.otpRead o w = (((s.incF Fd.OTP_ECC_UNCORR).ev Fd.OTP_EVRAW_UNCORR).raise 39 0 (w / 8), none) := by
  rw [State.otpRead, h]

end

/-! ## A command completes (R399, R406, R407) -/

/-- The controller given back by the command that completes. -/
def State.otpFreed (s : State) : State := State.otpBusy (s.setOtp { s.otp with cmd := none })

section
variable {s : State} {c : OtpCmd} {o : OtpSense}

/-- What each operation does when it completes, with the controller given back. -/
theorem State.otpComplete_of_cmd (runs : s.otp.cmd = some c) :
    (c.op = 1 → s.otpComplete o = s.otpFreed.otpReadEnd c o) ∧
    (c.op = 2 → s.otpComplete o = s.otpFreed.otpProgramEnd c o) ∧
    (c.op = 3 → s.otpComplete o = s.otpFreed.otpLockEnd c o) ∧
    (c.op = 4 → s.otpComplete o = s.otpFreed.otpRepairEnd c o) ∧
    (c.op = 5 → s.otpComplete o = s.otpFreed.otpCheckEnd c o) ∧
    (c.op = 6 → s.otpComplete o = s.otpFreed.otpEnd c.by' 0 false false none) := by
  simp only [State.otpComplete, runs]
  and_intros <;> (intro op; rw [op]; rfl)

theorem State.otpDone_idle (idle : s.otp.cmd = none) : s.otpDone o = s := by rw [State.otpDone, idle]

/-- Every command but REAPPLY completes in the state it finds. -/
theorem State.otpDone_of_cmd (runs : s.otp.cmd = some c) (other : c.op ≠ 6) : s.otpDone o = s.otpComplete o := by
  simp only [State.otpDone, runs, if_neg other]

/-- REAPPLY completes with the shadow's records applied. -/
theorem State.otpDone_reapply (runs : s.otp.cmd = some c) (op : c.op = 6) :
    s.otpDone o = (s.applyRecords s.bootRecords).otpComplete o := by
  simp only [State.otpDone, runs, if_pos op]

/-- A READ at normal margin of a word that reads: the word in RDATA, in the state that reading it leaves. -/
theorem State.otpReadEnd_reads {u : State} {d : Word} {corr : Bool} (margin : c.margin = 0)
    (value : s.otpValue o c.arg = some (d, corr)) (read : s.otpRead o c.arg = (u, some d)) :
    s.otpReadEnd c o = (u.wr Reg.OTP_RDATA d).otpEnd c.by' 0 false corr none := by
  simp [State.otpReadEnd, value, read, margin]

theorem State.otpReadEnd_uncorrectable (value : s.otpValue o c.arg = none) :
    s.otpReadEnd c o =
      (((s.incF Fd.OTP_ECC_UNCORR).ev Fd.OTP_EVRAW_UNCORR).raise 39 0 (c.arg / 8)).otpEnd c.by' 7 false false none := by
  simp only [State.otpReadEnd, State.otpRead_uncorrectable value]

/-- Burning the array leaves the redirection as it is, which stands in registers. -/
@[simp] theorem State.redirOf_setOtp (s : State) (o : Otp) (row : Nat) : (s.setOtp o).redirOf row = s.redirOf row := rfl

theorem State.otpProgramEnd_burns (power : o.lowv = none) (verifies : o.fails = none) (direct : s.redirOf (c.arg / 8) = none) :
    s.otpProgramEnd c o =
      State.otpEnd (s.setOtp (s.otp.burn c.arg (otpEncode c.data))) c.by' 0 false false (some o.pulses) := by
  simp [State.otpProgramEnd, power, verifies, direct]

theorem State.otpLockEnd_blows (verifies : o.fails = none) :
    s.otpLockEnd c o = State.otpEnd (State.otpStat (s.setOtp (((s.otp.blow c.arg 0).blow c.arg 1).blow c.arg 2))) c.by' 0
      false false none := by
  rw [State.otpLockEnd, verifies]
  rfl

end

/-! ## The shadow (R405) -/

@[simp] theorem State.setBytes_otp (s : State) (a : Nat) (bs : List Byte) : (s.setBytes a bs).otp = s.otp := by
  induction bs generalizing s a with
  | nil => rfl
  | cons b bs ih => rw [State.setBytes, ih, State.setByte_otp]

@[simp] theorem State.setMemWord_otp (s : State) (a : Nat) (d : Word) : (s.setMemWord a d).otp = s.otp := s.setBytes_otp _ _

/-- A write of an unlocked shadow replaces one word and counts the words that are overridden. -/
theorem State.shadowWrite_unlocked {s : State} (unlocked : s.shadowLocked = false) (i : Fin 320) (d : Word) {l : List Nat}
    (counted : l = if s.otp.overridden.contains (192 + i.val) then s.otp.overridden else (192 + i.val) :: s.otp.overridden) :
    s.shadowWrite (192 + i) d =
      ((s.setMemWord (0x150300 + 4 * i) d).setOtp { s.otp with overridden := l }).setF Fd.OTP_STAT_OVR l.length := by
  have writable : ¬ (s.shadowLocked ∨ 192 + i.val < 192 ∨ 511 < 192 + i.val) :=
    fun h => h.elim (ne_true_of_eq_false unlocked) (by omega)
  have addr : shadowAddr (192 + i.val) = 0x150300 + 4 * i.val := by
    unfold shadowAddr
    omega
  simp only [State.shadowWrite, if_neg writable, addr, State.setMemWord_otp, ← counted]

theorem State.overrideClear_overridden (s : State) : s.overrideClear.otp.overridden = [] := rfl

theorem State.overrideClear_ovr (s : State) : s.overrideClear.f Fd.OTP_STAT_OVR = 0 := State.f_setF_self _ _ (by decide)

/-! ## The commands -/

section
variable {s : State} {w : Writer} {d : Word}

theorem exec_otpCommand_next {c : Instr} {op m key arg : Nat} (h : OtpCommand c w op m key arg) (ao : s.power.ao = true)
    (may : s.mayWrite w Reg.OTP_CMD = true) : exec c s = .next (s.otpCmd (hostOf w) (otpWord op m key arg)).settle := by
  have written (d : Word) : write s w Reg.OTP_CMD d = .next (s.otpCmd (hostOf w) d).settle := by
    rw [write_word ao may rfl, busWrite_otpCmd]
  cases h with
  | read _ a m => exact (exec_otpRead s w a m).trans (written _)
  | program _ a k => exact (exec_otpProgram s w a k).trans (written _)
  | lock _ a k => exact (exec_otpLock s w a k).trans (written _)
  | repair _ a k => exact (exec_otpRepair s w a k).trans (written _)
  | check _ a => exact (exec_otpCheck s w a).trans (written _)
  | reapply _ => exact (exec_otpReapply s w).trans (written _)

theorem exec_otpCmdComplete_next (o : OtpSense) (ao : s.power.ao = true) (up : s.portUp = true) :
    exec (.otpCmdComplete o) s = .next (s.otpDone o).settle := by
  rw [exec_otpCmdComplete, live_next _ ao up]

theorem exec_otpRlockWrite_next (ao : s.power.ao = true) (may : s.mayWrite w Reg.OTP_RLOCK = true) :
    exec (.otpRlockWrite w d) s = .next (s.orReg Reg.OTP_RLOCK (d &&& 0x7F)).settle := by
  rw [exec_otpRlockWrite, write_word ao may rfl, busWrite_otpRlock]

theorem exec_otpWlockWrite_next (ao : s.power.ao = true) (may : s.mayWrite w Reg.OTP_WLOCK = true) :
    exec (.otpWlockWrite w d) s = .next (s.orReg Reg.OTP_WLOCK (d &&& 0x7F)).settle := by
  rw [exec_otpWlockWrite, write_word ao may rfl, busWrite_otpWlock]

theorem exec_overrideClear_next (ao : s.power.ao = true) (may : s.mayWrite w Reg.OTP_CTRL = true) :
    exec (.overrideClear w) s = .next s.overrideClear.settle := by
  rw [exec_overrideClear, write_word ao may rfl, busWrite_ovrclr]

theorem exec_shadowWrite_unlocked {i : Fin 320} (ao : s.power.ao = true) (may : s.mayWrite w (0x150300 + 4 * i.val) = true)
    (unlocked : s.shadowLocked = false) : exec (.shadowWrite w i d) s = .next (s.shadowWrite (192 + i) d).settle := by
  rw [exec_shadowWrite, write_word ao may (busWordAddr_shadow i), busWrite_shadow, if_neg (ne_true_of_eq_false unlocked)]

/-- A locked shadow takes no write, whether or not the bus lets it through. -/
theorem exec_shadowWrite_locked {i : Fin 320} (ao : s.power.ao = true) (locked : s.shadowLocked = true) :
    exec (.shadowWrite w i d) s = .next s.settle := by
  rw [exec_shadowWrite, write, act_next _ ao, busWordAddr_shadow, State.regWrite, busWrite_shadow, if_pos locked, ite_self]

end

/-- Settles O52: a command written is busy, refused or accepted as the controller stands and as judging it says; each one
completes by the lemma of its operation; the locks and the shadow are writes of the page and of the window. -/
theorem otpCommands : Obligations.OtpCommands := by
  intro s ao
  refine ⟨?written, fun op arg key d => ⟨State.otpRefuse_key, fun locked => ?readLocked, fun unlocked => ?readOpen,
      State.otpRefuse_program_locked, State.otpRefuse_program_accepts, State.otpRefuse_lock_accepts⟩,
    fun up idle o => ?idle, ?completes, fun o w b r => ⟨o.pattern_burn w b, o.locked_blow_three r⟩,
    fun w d may => exec_otpRlockWrite_next ao may, fun w d may => exec_otpWlockWrite_next ao may, ?override,
    fun w i d locked => exec_shadowWrite_locked ao locked, fun w may => exec_overrideClear_next ao may,
    s.overrideClear_overridden, s.overrideClear_ovr⟩
  case written =>
    intro c w op m key arg u h may hu
    rw [exec_otpCommand_next h ao may]
    have judge {code : Nat} (idle : s.otp.cmd = none) (noLoad : s.otpLoading = false)
        (judged : u.otpRefuse op arg key (s.rd Reg.OTP_DATA) = code) :=
      State.otpCmd_free (hostOf w) h idle noLoad hu judged rfl
    refine ⟨fun busy => ?_, fun idle noLoad accepted => ?_, fun code idle noLoad judged refused notSpare => ?_,
      fun idle noLoad noSpare => ?_⟩
    · rw [State.otpCmd_busy _ h busy, hu]
    · rw [(judge idle noLoad accepted).1 rfl]
    · rw [(judge idle noLoad judged).2 refused, State.when, if_neg (by simpa using notSpare)]
    · rw [(judge idle noLoad noSpare).2 (by decide), State.otpJudge_noSpare]
      rfl
  case readLocked => rw [State.otpRefuse_read, if_pos locked]
  case readOpen => rw [State.otpRefuse_read, if_neg (ne_true_of_eq_false unlocked)]
  case idle => rw [exec_otpCmdComplete_next o ao up, State.otpDone_idle idle]
  case completes =>
    intro c o u up runs hu
    obtain rfl : u = s.otpFreed := hu
    obtain ⟨read, program, lock, repair, check, -⟩ := State.otpComplete_of_cmd (o := o) runs
    have ends (other : c.op ≠ 6) : exec (.otpCmdComplete o) s = .next (s.otpComplete o).settle := by
      rw [exec_otpCmdComplete_next o ao up, State.otpDone_of_cmd runs other]
    refine ⟨fun d op margin clean => ?_, fun d op margin corrected => ?_, fun op uncorrectable => ?_,
      fun op power verifies direct => ?_, fun op verifies => ?_, fun op => ?_, fun op => ?_, ?_⟩
    · rw [ends (by omega), read op, State.otpReadEnd_reads margin clean (State.otpRead_clean clean)]
    · rw [ends (by omega), read op, State.otpReadEnd_reads margin corrected (State.otpRead_corrected corrected)]
    · rw [ends (by omega), read op, State.otpReadEnd_uncorrectable uncorrectable]
    · rw [ends (by omega), program op, State.otpProgramEnd_burns power verifies direct]
    · rw [ends (by omega), lock op, State.otpLockEnd_blows verifies]
    · rw [ends (by omega), repair op]
    · rw [ends (by omega), check op]
    · rintro v op rfl runs'
      obtain ⟨-, -, -, -, -, reapply⟩ := State.otpComplete_of_cmd (o := o) runs'
      rw [exec_otpCmdComplete_next o ao up, State.otpDone_reapply runs op, reapply op, State.otpFreed]
  case override =>
    rintro w i d l _ may unlocked counted rfl
    rw [exec_shadowWrite_unlocked ao may unlocked, State.shadowWrite_unlocked unlocked i d counted]

end Sys2Proof.Machine
end

section
/-! PROOF. What every command and every step keep: the queue, the canonical forms, and what is burned in OTP. -/

namespace Sys2Proof.Machine

/-- What a command leaves of the queue, of the register table and the SRAM windows, and of the OTP array. -/
structure Preserves (s t : State) : Prop where
  pending : t.pending = s.pending
  wf      : s.wf = true → t.wf = true
  burned  : OtpLe s.otp t.otp

theorem Keeps.preserves {s t : State} (h : Keeps s t) : Preserves s t := ⟨h.pending, h.wf, h.burned⟩

/-- A command's outcome is a next state that preserves those. -/
def Answers (s : State) (o : Out) : Prop := ∃ t, o = .next t ∧ Preserves s t

section
variable {s : State} {f : State → State} {o : Out}

theorem act_answers (e : o = act s f) (hf : ∀ u, Keeps s u → Keeps s (f u)) : Answers s o :=
  ⟨_, e, (act_keeps hf rfl).preserves⟩

theorem row_answers (e : o = row s f) (hf : ∀ u, Keeps s u → Keeps s (f u)) : Answers s o :=
  ⟨_, e, (row_keeps hf rfl).preserves⟩

theorem live_answers (e : o = live s f) (hf : ∀ u, Keeps s u → Keeps s (f u)) : Answers s o :=
  ⟨_, e, (live_keeps hf rfl).preserves⟩

theorem awake_answers (e : o = awake s f) (hf : ∀ u, Keeps s u → Keeps s (f u)) : Answers s o :=
  ⟨_, e, (awake_keeps hf rfl).preserves⟩

theorem ready_answers (e : o = ready s f) (hf : ∀ u, Keeps s u → Keeps s (f u)) : Answers s o :=
  ⟨_, e, (ready_keeps hf rfl).preserves⟩

theorem write_answers {w : Writer} {a : Nat} {d : Word} (e : o = write s w a d) : Answers s o :=
  ⟨_, e, (write_keeps rfl).preserves⟩

theorem thcmd_answers {p : Proc} {d : Word} (e : o = thcmd s p d) : Answers s o := ⟨_, e, (thcmd_keeps rfl).preserves⟩

theorem aoPowerOn_answers : Answers s (execAoPowerOn s) :=
  have ⟨pending, wf, burned⟩ := State.aoPowerOn_parts (s := s)
  ⟨_, rfl, pending, wf, burned⟩

theorem aoPowerLoss_answers : Answers s (execAoPowerLoss s) :=
  have ⟨pending, wf, burned⟩ := State.aoPowerLoss_parts (s := s)
  ⟨_, rfl, pending, wf, burned⟩

theorem subtickAlign_answers : Answers s (execSubtickAlign s) :=
  have ⟨pending, wf, burned⟩ := subtickAlign_parts (s := s) rfl
  ⟨_, rfl, pending, wf, burned⟩

end

/-- Every command answers: by its shape, and by the lemma of its operation. -/
theorem exec_answers (c : Instr) (s : State) : Answers s (exec c s) := by
  cases c with
  | aoPowerOn => exact aoPowerOn_answers
  | aoPowerLoss => exact aoPowerLoss_answers
  | subtickAlign => exact subtickAlign_answers
  | bootStart => exact act_answers (exec_bootStart s) fun _ => State.bootStart_keeps
  | bootSuppliesReady => exact act_answers (exec_bootSuppliesReady s) fun _ => State.bootSupplies_keeps
  | bootTrimReadDone => exact act_answers (exec_bootTrimReadDone s _ _) fun _ => State.bootTrimDone_keeps
  | bootShadowLoaded => exact act_answers (exec_bootShadowLoaded s _) fun _ => State.bootShadowDone_keeps
  | rstoRelease => exact live_answers (exec_rstoRelease s) fun _ => State.rstoExpire_keeps
  | fallowEntry => exact act_answers (exec_fallowEntry s) fun _ => State.fallowEntry_keeps
  | wake => exact act_answers (exec_wake s _) fun _ => State.wakeUp_keeps
  | engLock => exact act_answers (exec_engLock s) fun _ => State.engLock_keeps
  | pllLockTimeout => exact act_answers (exec_pllLockTimeout s) fun _ => State.pllTimeout_keeps
  | pllLockRetry => exact act_answers (exec_pllLockRetry s) fun _ => State.pllRetry_keeps
  | aoXtalLost => exact act_answers (exec_aoXtalLost s) fun _ => State.xtalLost_keeps
  | xtalReturn => exact act_answers (exec_xtalReturn s) fun _ => State.xtalReturn_keeps
  | pwmOscLost => exact awake_answers (exec_pwmOscLost s) fun _ => State.pwmLost_keeps
  | gaugeOscLost => exact awake_answers (exec_gaugeOscLost s) fun _ => State.gaugeLost_keeps
  | wakeOscFail => exact act_answers (exec_wakeOscFail s) fun _ => State.wakeFailed_keeps
  | timecapGo | chipReset | registerWrite | mboxOutWrite | watchdogEnable | watchdogKick | planRowLowerWrite
    | planRowUpperWrite | hostPostSet | threadRegWrite | wlockSet | semRelease | planLoadOtp | planLoadPlanA
    | planLoadPlanB | phaseAssignWrite | loopOnRequest | loopOffRequest | targetWrite | probeGo | probeAbort | rebase
    | healthApply | adcScanGo | slotOnRequest | slotOffRequest | seqDown | slotDepWrite | ffarmWrite | inenWrite
    | hoenWrite | batgo | chgenOn | chgenOff | trst | gaugeEnWrite | azgo | storego | relearnWrite | proveGo
    | proveAbort | fccWrite | rmWrite | designMahWrite | linkEnable | linkDisable | hostpush | descriptorWrite
    | hostopLres | hostopLcom | hostopLrel | hostopLshed | thawKey | faultClear | reactWrite | historyClear
    | extinWrite | pendClear | nmipendClear | intcCfgWrite | recordReadpage | recordTails | recordSdwrite | recordTrig
    | recordResume | flashHostRead | flashHostProgram | flashHostErase | flashRediscover | flashEnWrite | otpRead
    | otpProgram | otpLock | otpRepair | otpCheck | otpReapply | otpRlockWrite | otpWlockWrite | shadowWrite
    | overrideClear | timerSnap | timerPop | timerLoad | timerClrq | crcInit | crcDin8 | crcDin16 | crcDin32
    | crcOwnerWrite => exact write_answers rfl
  | resetPin => exact act_answers (exec_resetPin s) fun _ => State.resetPin_keeps
  | read => exact act_answers (exec_read s _) fun _ => State.frameOf_keeps
  | readBurst => exact act_answers (exec_readBurst s _) fun _ => State.frameOf_keeps
  | write => exact act_answers (exec_write s _) fun _ => State.frameOf_keeps
  | writeBurst => exact act_answers (exec_writeBurst s _) fun _ => State.frameOf_keeps
  | burstWordApply => exact act_answers (exec_burstWordApply s) fun _ => State.burstApply_keeps
  | status => exact act_answers (exec_status s _) fun _ => State.frameOf_keeps
  | id => exact act_answers (exec_id s _) fun _ => State.frameOf_keeps
  | mboxInRead => exact live_answers (exec_mboxInRead s _) fun _ h => keeps_ite (State.mboxIn_keeps h) h
  | watchdogWarn => exact live_answers (exec_watchdogWarn s _) fun _ => State.wdWarn_keeps
  | watchdogExpire => exact live_answers (exec_watchdogExpire s _) fun _ => State.wdTimeout_keeps
  | nop => exact act_answers (exec_nop s _ _) fun _ => rowNop_keeps
  | illegalRow => exact act_answers (exec_illegalRow s _) fun _ => rowIllegal_keeps
  | jmp => exact row_answers (exec_jmp s _) fun _ => rowJmp_keeps
  | call => exact act_answers (exec_call s _) fun _ => rowCall_keeps
  | ret => exact act_answers (exec_ret s _) fun _ => rowRet_keeps
  | dbnz => exact row_answers (exec_dbnz s _) fun _ => rowDbnz_keeps
  | halt => exact row_answers (exec_halt s _) fun _ => rowHalt_keeps
  | start => exact row_answers (exec_start s _) fun _ => rowStart_keeps
  | stop => exact row_answers (exec_stop s _) fun _ => rowStop_keeps
  | jmpx => exact act_answers (exec_jmpx s _) fun _ => rowJmpx_keeps
  | mov => exact row_answers (exec_mov s _) fun _ => State.aluRow_keeps
  | ldh => exact row_answers (exec_ldh s _) fun _ => State.aluRow_keeps
  | add => exact row_answers (exec_add s _) fun _ => State.aluRow_keeps
  | sub => exact row_answers (exec_sub s _) fun _ => State.aluRow_keeps
  | cmp => exact row_answers (exec_cmp s _) fun _ => State.aluRow_keeps
  | and => exact row_answers (exec_and s _) fun _ => State.aluRow_keeps
  | or => exact row_answers (exec_or s _) fun _ => State.aluRow_keeps
  | xor => exact row_answers (exec_xor s _) fun _ => State.aluRow_keeps
  | tst => exact row_answers (exec_tst s _) fun _ => State.aluRow_keeps
  | shl => exact row_answers (exec_shl s _) fun _ => State.aluRow_keeps
  | shr => exact row_answers (exec_shr s _) fun _ => State.aluRow_keeps
  | asr => exact row_answers (exec_asr s _) fun _ => State.aluRow_keeps
  | mul => exact row_answers (exec_mul s _) fun _ => State.aluRowBusy_keeps
  | div => exact row_answers (exec_div s _) fun _ => State.aluRowBusy_keeps
  | adds => exact row_answers (exec_adds s _) fun _ => State.aluRow_keeps
  | subs => exact row_answers (exec_subs s _) fun _ => State.aluRow_keeps
  | min => exact row_answers (exec_min s _) fun _ => State.aluRow_keeps
  | max => exact row_answers (exec_max s _) fun _ => State.aluRow_keeps
  | ld => exact act_answers (exec_ld s _) fun _ => rowLd_keeps
  | st => exact act_answers (exec_st s _) fun _ => rowSt_keeps
  | storeApply => exact act_answers (exec_storeApply s _) fun _ => State.storeApply_keeps
  | sync => exact row_answers (exec_sync s _) fun _ => rowSync_keeps
  | rowComplete => exact act_answers (exec_rowComplete s _ _) fun _ => State.rowComplete_keeps
  | semget => exact row_answers (exec_semget s _) fun _ => rowSemget_keeps
  | semput => exact row_answers (exec_semput s _) fun _ => rowSemput_keeps
  | wait => exact row_answers (exec_wait s _) fun _ => rowWait_keeps
  | waitEventEnd => exact ready_answers (exec_waitEventEnd s _) fun _ => waitEventEnd_keeps
  | waitp => exact row_answers (exec_waitp s _) fun _ => rowWaitp_keeps
  | waitpEnd => exact ready_answers (exec_waitpEnd s _) fun _ => waitpEnd_keeps
  | waitTimeout => exact ready_answers (exec_waitTimeout s _) fun _ => waitTimeout_keeps
  | post => exact row_answers (exec_post s _) fun _ => rowPost_keeps
  | dly => exact row_answers (exec_dly s _) fun _ => rowDly_keeps
  | dlyEnd => exact row_answers (exec_dlyEnd s _) fun _ => dlyEnd_keeps
  | signal => exact row_answers (exec_signal s _) fun _ => rowSignal_keeps
  | tcap => exact row_answers (exec_tcap s _) fun _ => rowTcap_keeps
  | log => exact row_answers (exec_log s _) fun _ => rowLog_keeps
  | raise => exact act_answers (exec_raise s _) fun _ => rowRaise_keeps
  | lres => exact act_answers (exec_lres s _) fun _ => rowLres_keeps
  | lcom => exact act_answers (exec_lcom s _) fun _ => rowLcom_keeps
  | lrel => exact act_answers (exec_lrel s _) fun _ => rowLrel_keeps
  | lshed => exact act_answers (exec_lshed s _) fun _ => rowLshed_keeps
  | lsend => exact act_answers (exec_lsend s _ _) fun _ => rowLsend_keeps
  | rail => exact act_answers (exec_rail s _) fun _ => rowRail_keeps
  | thcmdHalt => exact thcmd_answers (exec_thcmdHalt s _ _)
  | thcmdStart => exact thcmd_answers (exec_thcmdStart s _ _ _)
  | thcmdResume => exact thcmd_answers (exec_thcmdResume s _ _)
  | thcmdStep => exact thcmd_answers (exec_thcmdStep s _ _)
  | loadThreadsHalted => exact live_answers (exec_loadThreadsHalted s) fun _ => State.loadHalted_keeps
  | loadHeaderRead => exact live_answers (exec_loadHeaderRead s _) fun _ => State.loadHeader_keeps
  | loadPass1Done => exact live_answers (exec_loadPass1Done s _ _) fun _ => State.loadPass1_keeps
  | loadPass2Done => exact live_answers (exec_loadPass2Done s _ _) fun _ => State.loadPass2_keeps
  | otpPlanHeaderRead => exact live_answers (exec_otpPlanHeaderRead s _) fun _ => State.otpHeader_keeps
  | otpPlanReadDone => exact live_answers (exec_otpPlanReadDone s _) fun _ => State.otpPlanRead_keeps
  | otpPlanWriteDone => exact live_answers (exec_otpPlanWriteDone s) fun _ => State.otpPlanWritten_keeps
  | loopStartComplete => exact live_answers (exec_loopStartComplete s _ _) fun _ => State.loopStarted_keeps
  | slewDone => exact live_answers (exec_slewDone s _) fun _ => State.slewDone_keeps
  | softoffDone => exact live_answers (exec_softoffDone s _) fun _ => State.softoffDone_keeps
  | periodStart => exact live_answers (exec_periodStart s _ _ _) fun _ => State.periodBegin_keeps
  | shedCommit => exact live_answers (exec_shedCommit s _) fun _ => State.shedCommit_keeps
  | phaseAdded => exact live_answers (exec_phaseAdded s _) fun _ => State.phaseAdded_keeps
  | shedInhibitEnd => exact live_answers (exec_shedInhibitEnd s _) fun _ => State.shedInhibitEnd_keeps
  | burstEntry => exact live_answers (exec_burstEntry s _) fun _ => State.burstEntry_keeps
  | burstTick => exact live_answers (exec_burstTick s _ _) fun _ => State.burstTick_keeps
  | gustTrip => exact live_answers (exec_gustTrip s _ _) fun _ => State.gustTrip_keeps
  | phaseCurrentLimit => exact live_answers (exec_phaseCurrentLimit s _ _ _) fun _ => State.phaseLimit_keeps
  | loopOcFault => exact live_answers (exec_loopOcFault s _ _) fun _ => State.loopOc_keeps
  | negativeCurrentLimit => exact live_answers (exec_negativeCurrentLimit s _ _) fun _ => State.negLimit_keeps
  | ovCrowbar => exact live_answers (exec_ovCrowbar s _ _) fun _ => State.crowbar_keeps
  | crowbarRelease => exact live_answers (exec_crowbarRelease s _ _) fun _ => State.crowbarRelease_keeps
  | loopUvFault => exact live_answers (exec_loopUvFault s _ _) fun _ => State.loopUv_keeps
  | loopPgoodLost => exact live_answers (exec_loopPgoodLost s _ _) fun _ => State.pgoodLost_keeps
  | stageFault => exact live_answers (exec_stageFault s) fun _ => State.stageFault_keeps
  | syncLock => exact live_answers (exec_syncLock s _) fun _ => State.syncLock_keeps
  | syncLoss => exact live_answers (exec_syncLoss s) fun _ => State.syncLoss_keeps
  | probeMeasDone => exact live_answers (exec_probeMeasDone s _) fun _ => State.probeMeas_keeps
  | healthDue => exact live_answers (exec_healthDue s _) fun _ => State.healthDue_keeps
  | railWindowChange => exact live_answers (exec_railWindowChange s _ _) fun _ => State.railWindow_keeps
  | vmonWindowChange => exact live_answers (exec_vmonWindowChange s _ _) fun _ => State.vmonChange_keeps
  | regulatorFault => exact live_answers (exec_regulatorFault s _ _ _ _) fun _ => State.railFault_keeps
  | adcScanStart => exact live_answers (exec_adcScanStart s) fun _ => State.scanStart_keeps
  | adcScanDone => exact live_answers (exec_adcScanDone s _) fun _ => State.scanDone_keeps
  | adcSelftestDone => exact live_answers (exec_adcSelftestDone s _ _) fun _ => State.selfTestDone_keeps
  | gpioEdge => exact live_answers (exec_gpioEdge s _ _) fun _ => State.gpioEdge_keeps
  | slotQualified => exact live_answers (exec_slotQualified s _) fun _ => State.slotQualified_keeps
  | slotStartTimeout => exact live_answers (exec_slotStartTimeout s _) fun _ => State.slotStartTimeout_keeps
  | slotDischarged => exact live_answers (exec_slotDischarged s _ _) fun _ => State.slotDischarged_keeps
  | slotDischargeTimeout => exact live_answers (exec_slotDischargeTimeout s _) fun _ => State.slotDischargeTimeout_keeps
  | slotPendDue => exact live_answers (exec_slotPendDue s _) fun _ => State.slotPendDue_keeps
  | vsysCollapseWarn => exact live_answers (exec_vsysCollapseWarn s _) fun _ => State.vsysCollapse_keeps
  | firstfailRearm => exact live_answers (exec_firstfailRearm s _ _) fun _ => State.firstFailRearm_keeps
  | vinUv => exact act_answers (exec_vinUv s _) fun _ => State.vinUv_keeps
  | vinOv => exact act_answers (exec_vinOv s _) fun _ => State.vinOv_keeps
  | vholdLow => exact act_answers (exec_vholdLow s _) fun _ => State.vholdLow_keeps
  | collapseRelease => exact act_answers (exec_collapseRelease s _) fun _ => State.collapse_keeps
  | vacWindowChange => exact live_answers (exec_vacWindowChange s _) fun _ => State.vacChange_keeps
  | vacQualified => exact live_answers (exec_vacQualified s) fun _ => State.vacQualified_keeps
  | reconnectBatdrvOff => exact live_answers (exec_reconnectBatdrvOff s) fun _ => State.batdrvOff_keeps
  | reconnectComplete => exact live_answers (exec_reconnectComplete s) fun _ => State.reconnected_keeps
  | detectTimeout => exact live_answers (exec_detectTimeout s) fun _ => State.detectTimeout_keeps
  | bridgeSettled => exact live_answers (exec_bridgeSettled s _) fun _ => State.bridgeSettled_keeps
  | bypassClose => exact live_answers (exec_bypassClose s _ _) fun _ => State.bypassClose_keeps
  | reverseCurrentBlock => exact live_answers (exec_reverseCurrentBlock s) fun _ => State.reverseBlock_keeps
  | reverseBlockRelease => exact live_answers (exec_reverseBlockRelease s _ _) fun _ => State.reverseRelease_keeps
  | inputTrip => exact live_answers (exec_inputTrip s _) fun _ => State.inputTrip_keeps
  | supplementStart => exact live_answers (exec_supplementStart s _) fun _ => State.supplementStart_keeps
  | supplementEnd => exact live_answers (exec_supplementEnd s _) fun _ => State.supplementEnd_keeps
  | inputSaturated => exact live_answers (exec_inputSaturated s _) fun _ => State.inputSaturated_keeps
  | bounceClear => exact live_answers (exec_bounceClear s) fun _ => State.bounceClear_keeps
  | chargeResume => exact live_answers (exec_chargeResume s _) fun _ => State.chargeResume_keeps
  | chargePhaseAdvance => exact live_answers (exec_chargePhaseAdvance s _) fun _ => State.phaseAdvance_keeps
  | chargeTerminated =>
    exact live_answers (exec_chargeTerminated s _) fun _ h => keeps_ite (State.fullSync_keeps (State.chargeDone_keeps h)) h
  | recharge => exact live_answers (exec_recharge s _) fun _ => State.recharge_keeps
  | chargeTimeout => exact live_answers (exec_chargeTimeout s) fun _ => State.chargeTimeout_keeps
  | chargerStopped => exact live_answers (exec_chargerStopped s) fun _ => State.chargerStopped_keeps
  | chargerPendDue => exact live_answers (exec_chargerPendDue s) fun _ => State.chargerPendDue_keeps
  | chargerHwLimit => exact live_answers (exec_chargerHwLimit s _ _) fun _ => State.hwLimit_keeps
  | chargerLimitRelease => exact live_answers (exec_chargerLimitRelease s _ _) fun _ => State.limRelease_keeps
  | presenceTestStart => exact live_answers (exec_presenceTestStart s) fun _ => State.testStart_keeps
  | presenceTestDone => exact live_answers (exec_presenceTestDone s _) fun _ => State.testDone_keeps
  | batteryPresent => exact live_answers (exec_batteryPresent s _) fun _ => State.batteryIn_keeps
  | batteryAbsent => exact live_answers (exec_batteryAbsent s _) fun _ => State.batteryGone_keeps
  | autozeroStart => exact awake_answers (exec_autozeroStart s) fun _ => State.autozeroStart_keeps
  | autozeroDone => exact awake_answers (exec_autozeroDone s _) fun _ => State.autozeroDone_keeps
  | gaugeUpdate => exact awake_answers (exec_gaugeUpdate s _ _) fun _ => State.gaugeUpdate_keeps
  | gaugeWakeActive => exact awake_answers (exec_gaugeWakeActive s _ _ _) fun _ => State.gaugeWake_keeps
  | gaugeSample => exact awake_answers (exec_gaugeSample s _ _ _) fun _ => State.gaugeSample_keeps
  | impedanceUpdate => exact awake_answers (exec_impedanceUpdate s _ _) fun _ => State.gaugeImpedance_keeps
  | gaugeStorePeriodic => exact awake_answers (exec_gaugeStorePeriodic s) fun _ => State.gStorePeriodic_keeps
  | gaugeStoreDone => exact awake_answers (exec_gaugeStoreDone s) fun _ => State.gStoreDone_keeps
  | gaugeStoreRetry => exact awake_answers (exec_gaugeStoreRetry s) fun _ => State.gStoreRetry_keeps
  | linkTransactionStart => exact live_answers (exec_linkTransactionStart s _) fun _ => State.linkStart_keeps
  | frameSent => exact live_answers (exec_frameSent s _) fun _ => State.frameSent_keeps
  | statusReply => exact live_answers (exec_statusReply s _ _ _ _) fun _ => State.statusReply_keeps
  | ackReply => exact live_answers (exec_ackReply s _ _ _) fun _ => State.ackReply_keeps
  | nakReply => exact live_answers (exec_nakReply s _ _ _) fun _ => State.nakReply_keeps
  | nakEpochReply => exact live_answers (exec_nakEpochReply s _ _) fun _ => State.nakEpochReply_keeps
  | dataReply => exact live_answers (exec_dataReply s _ _ _ _) fun _ => State.dataReply_keeps
  | identRReply => exact live_answers (exec_identRReply s _ _ _ _ _) fun _ => State.identReply_keeps
  | badReply => exact live_answers (exec_badReply s _ _) fun _ => State.badReply_keeps
  | replyTimeout => exact live_answers (exec_replyTimeout s _) fun _ => State.replyTimeout_keeps
  | lineAlert => exact live_answers (exec_lineAlert s _) fun _ => State.lineAlert_keeps
  | alertPollSlotsDone => exact live_answers (exec_alertPollSlotsDone s _ _ _) fun _ => State.alertSlots_keeps
  | linkCollision => exact live_answers (exec_linkCollision s _) fun _ => State.collision_keeps
  | linkStuck => exact live_answers (exec_linkStuck s _) fun _ => State.stuck_keeps
  | scanRoundStart => exact live_answers (exec_scanRoundStart s _) fun _ => State.scanRound_keeps
  | shedmaskSet => exact act_answers (exec_shedmaskSet s _ _ _ _) fun _ => State.shedWrite_keeps
  | grantLatchDue => exact live_answers (exec_grantLatchDue s _ _) fun _ => State.grantDue_keeps
  | ledgerOpDequeue => exact live_answers (exec_ledgerOpDequeue s) fun _ => State.ledgerDequeue_keeps
  | reservationTimeout => exact live_answers (exec_reservationTimeout s _) fun _ => State.reservationTimeout_keeps
  | forecastHoldEnd => exact live_answers (exec_forecastHoldEnd s _) fun _ => State.forecastHoldEnd_keeps
  | thermalSample => exact awake_answers (exec_thermalSample s _ _ _) fun _ => State.sampleAll_keeps
  | dieShutdown => exact awake_answers (exec_dieShutdown s _) fun _ => State.dieShutdown_keeps
  | shutdownRecordWritten => exact awake_answers (exec_shutdownRecordWritten s) fun _ => State.holdBegin_keeps
  | thawAuto => exact awake_answers (exec_thawAuto s) fun _ => State.thawAuto_keeps
  | recentThawExpire => exact act_answers (exec_recentThawExpire s) fun _ => State.recentExpire_keeps
  | faultEnded => exact awake_answers (exec_faultEnded s _) fun _ => State.faultEnded_keeps
  | lullExpire => exact awake_answers (exec_lullExpire s _) fun _ => State.lullExpire_keeps
  | extFaultIn => exact live_answers (exec_extFaultIn s _) fun _ => State.extFault_keeps
  | intcSourceEdge => exact live_answers (exec_intcSourceEdge s _) fun _ h => keeps_ite (State.intcEdge_keeps h) h
  | holdoffReopen => exact live_answers (exec_holdoffReopen s _) fun _ => State.groupReopen_keeps
  | almanacFreeze => exact live_answers (exec_almanacFreeze s) fun _ => State.almanacFreeze_keeps
  | freezeCopyDone => exact live_answers (exec_freezeCopyDone s) fun _ => State.freezeCopyDone_keeps
  | recordProgramDone => exact act_answers (exec_recordProgramDone s _) fun _ => State.recProgramDone_keeps
  | recordEraseDone => exact act_answers (exec_recordEraseDone s) fun _ => State.recEraseDone_keeps
  | logbookFlush => exact live_answers (exec_logbookFlush s) fun _ => State.logbookFlush_keeps
  | flashWorkStart => exact live_answers (exec_flashWorkStart s) fun _ => State.flashStart_keeps
  | flashOpDone => exact live_answers (exec_flashOpDone s _ _) fun _ => State.flashOpDone_keeps
  | flashOpTimeout => exact live_answers (exec_flashOpTimeout s _) fun _ => State.flashTimeout_keeps
  | flashDiscoveryStart => exact live_answers (exec_flashDiscoveryStart s) fun _ => State.discStart_keeps
  | flashDiscoveryDone => exact live_answers (exec_flashDiscoveryDone s _ _) fun _ => State.discFinish_keeps
  | otpCmdComplete => exact live_answers (exec_otpCmdComplete s _) fun _ => State.otpDone_keeps
  | timerIncrement => exact live_answers (exec_timerIncrement s _) fun _ => State.timerIncrement_keeps
  | timerCapture => exact live_answers (exec_timerCapture s _ _ _) fun _ => State.timerCapture_keeps
  | crcQueueApply => exact live_answers (exec_crcQueueApply s) fun _ => State.crcApply_keeps
  | resetPinRelease => exact act_answers (exec_resetPinRelease s) fun _ => State.resetPinHigh_keeps
  | wakeStable => exact act_answers (exec_wakeStable s) fun _ => State.wakeStable_keeps
  | wakeStartRetry => exact act_answers (exec_wakeStartRetry s) fun _ => State.wakeRetry_keeps
  | gaugeOscReturn => exact awake_answers (exec_gaugeOscReturn s) fun _ => State.setPower_keeps rfl
  | loopPgoodRegained => exact live_answers (exec_loopPgoodRegained s _ _) fun _ => State.pgoodRegained_keeps
  | headroomChange => exact live_answers (exec_headroomChange s _ _) fun _ => State.headroomChange_keeps
  | vholdCharged => exact awake_answers (exec_vholdCharged s) fun _ => State.vholdCharged_keeps

/-! ## A step -/

theorem step_front {c : Instr} {rest : List Instr} {s : State} (front : s.pending = c :: rest) :
    step s = exec c { s with pending := rest } := by
  rw [step, front]

theorem step_idle {s : State} (idle : s.pending = []) : step s = .next s.clock := by rw [step, idle]

/-- A step, of the command at the front or of the clock, keeps the canonical forms and what is burned. -/
theorem step_keeps {s t : State} (e : step s = .next t) : (s.wf = true → t.wf = true) ∧ OtpLe s.otp t.otp := by
  cases queue : s.pending with
  | nil =>
    rw [step_idle queue] at e
    cases e
    obtain ⟨-, wf, burned, -⟩ := State.clock_parts (s := s)
    exact ⟨wf, burned⟩
  | cons c rest =>
    rw [step_front queue] at e
    obtain ⟨u, answer, kept⟩ := exec_answers c { s with pending := rest }
    rw [answer] at e
    cases e
    exact ⟨kept.wf, kept.burned⟩

theorem b2n_mono {x y : Bool} (h : x = true → y = true) : b2n x ≤ b2n y := by
  cases x
  · exact Nat.zero_le _
  · rw [h rfl]

/-- A region is locked while two of its three fuses are blown, so burning more leaves it locked (R398). -/
theorem OtpLe.locked {a b : Otp} (h : OtpLe a b) {r : Nat} (locked : a.locked r = true) : b.locked r = true := by
  have two : 2 ≤ b2n (a.fuse r 0) + b2n (a.fuse r 1) + b2n (a.fuse r 2) := of_decide_eq_true locked
  have more (i : Nat) : b2n (a.fuse r i) ≤ b2n (b.fuse r i) := b2n_mono (h.fuses r i)
  exact decide_eq_true (two.trans (Nat.add_le_add (Nat.add_le_add (more 0) (more 1)) (more 2)))

/-- Settles O57: by the answer of the command. -/
theorem commandsAnswer : Obligations.CommandsAnswer := fun c s =>
  have ⟨t, answer, kept⟩ := exec_answers c s
  ⟨t, answer, kept.pending⟩

/-- Settles O58: a step keeps the canonical forms. -/
theorem stepKeepsForm : Obligations.StepKeepsForm := fun _ _ form e => (step_keeps e).1 form

/-- Settles O60: a step keeps every burned cell and fuse, and so every lock. -/
theorem burnedStays : Obligations.BurnedStays := by
  intro s t e
  obtain ⟨-, burned⟩ := step_keeps e
  exact ⟨burned.words, burned.spare, burned.copies, fun _ => burned.locked⟩

/-- Settles O55: a step runs the command at the front of the queue. -/
theorem stepRunsFront : Obligations.StepRunsFront := fun _ _ _ => step_front

end Sys2Proof.Machine
end

section
/-! PROOF. The clock of an idle block, and the state after reset. -/

namespace Sys2Proof.Machine

section
variable {s : State}

theorem State.clock_down (down : s.power.ao = false) : s.clock = s := if_pos (by rw [down]; rfl)

theorem State.clock_engCycle (ao : s.power.ao = true) (full : s.power.state = .full) (within : s.sub < 6103) :
    s.clock = { s with sub := s.sub + 1 } :=
  (if_neg (by simp [ao])).trans (if_pos ⟨full, within⟩)

theorem State.clock_tick (ao : s.power.ao = true) (edge : s.power.state ≠ .full ∨ 6103 ≤ s.sub) : s.clock = s.tickEdge :=
  (if_neg (by simp [ao])).trans (if_neg fun ⟨full, within⟩ => edge.elim (· full) within.not_ge)

end

/-- Settles O56: an idle step is the clock, in the case of the AO domain, the power state and the sub-tick. -/
theorem idleClock : Obligations.IdleClock := by
  intro s idle
  rw [step_idle idle]
  refine ⟨fun down => by rw [State.clock_down down], fun ao full within => by rw [State.clock_engCycle ao full within], ?_⟩
  rintro _ ao edge rfl
  rw [State.clock_tick ao edge]
  rfl

/-- Settles O59: both tables are empty, so every register and byte reads as its default. -/
theorem resetForm : Obligations.ResetForm := ⟨rfl, fun _ => rfl, fun _ => rfl, rfl, rfl⟩

end Sys2Proof.Machine
end

section
/-! PROOF. The arithmetic rows: what a taken row does (R81, R86) and its results and flags over the numbers (R86, R87). -/

namespace Sys2Proof.Machine

/-! ## One-cycle and multi-cycle arithmetic rows -/

section
variable {s : State} {t : Fin 16} {r : Row} {op : Nat}

/-- A row's result written to a register of its thread; a row without one writes none. -/
def Thread.put (x : Thread) (a : Nat) : Option Word → Thread
  | some v => x.setReg a v
  | none => x

/-- A taken one-cycle row writes its result, if it has one, and its flags, and goes to the next row. -/
theorem State.aluRow_taken (h : s.Takes t op r) (f : Alu) {res : Option Word} {fl : Flags}
    (result : f ((s.th t).reg (regOf r.a)) ((s.th t).val r.b) (s.th t).flags = (res, fl)) :
    s.aluRow t op f = (s.issued t).setTh t
      (({ (s.th t).put (regOf r.a) res with flags := fl } : Thread).past ((s.th t).pc + 1)) := by
  rw [State.aluRow, h.issue]
  simp only [State.th_issued, result]
  cases res with
  | none =>
    rw [State.setFlags_eq, State.endRow_eq, State.th_setTh_self, State.setTh_setTh]
    rfl
  | some v =>
    simp only [State.setW_eq, State.setFlags_eq, State.endRow_eq, State.th_setTh_self, State.setTh_setTh]
    rfl

/-- A taken multi-cycle row keeps its thread busy with its result. -/
theorem State.aluRowBusy_taken (h : s.Takes t op r) (f : Alu) {v : Word} {fl : Flags}
    (result : f ((s.th t).reg (regOf r.a)) ((s.th t).val r.b) (s.th t).flags = (some v, fl)) :
    s.aluRowBusy t op f =
      (s.issued t).setTh t { s.th t with busy := some (.result [(regOf r.a, v)] fl) } := by
  rw [State.aluRowBusy, h.issue]
  simp only [State.th_issued, result, State.setBusy_eq]

end

/-- A command that is an arithmetic row satisfies what its function satisfies. -/
theorem aluRow_of {c : Fin 16 → Instr} {op : Nat} {P : Word → Word → Flags → Option Word → Flags → Prop} {f : Alu}
    (command : ∀ s t, exec (c t) s = row s fun s => s.aluRow t op f) (result : ∀ a b fl, P a b fl (f a b fl).1 (f a b fl).2) :
    AluRow c op P := fun s t _ h =>
  ⟨_, _, result _ _ _, (command s t).trans <| (row_next _ h.ao).trans <| congrArg _ <| State.aluRow_taken h f rfl⟩

/-- Settles O1: the results and flags of the moves and the logic rows are those of their functions. -/
theorem logicRows : Obligations.LogicRows := by
  refine ⟨aluRow_of exec_mov fun _ _ _ => ⟨rfl, rfl⟩, aluRow_of exec_ldh fun a b _ => ⟨_, rfl, ?_, rfl⟩,
    aluRow_of exec_and fun _ _ _ => ⟨rfl, rfl⟩, aluRow_of exec_or fun _ _ _ => ⟨rfl, rfl⟩,
    aluRow_of exec_xor fun _ _ _ => ⟨rfl, rfl⟩, aluRow_of exec_tst fun _ _ _ => ⟨rfl, rfl⟩⟩
  rw [BitVec.toNat_ofNat]
  omega

/-! ## Overflow of the signed numbers -/

/-- The sum's sign differs from that of two operands of one sign just when the signed sum is out of range. -/
theorem add_overflow_iff (a b : Word) :
    (a.msb == b.msb && (a + b).msb != a.msb) = decide ((a + b).toInt ≠ a.toInt + b.toInt) := by
  have rule : (a.msb == b.msb && (a + b).msb != a.msb) = a.saddOverflow b := (BitVec.saddOverflow_eq a b).symm
  rw [rule, Bool.eq_iff_iff, decide_eq_true_iff]
  refine ⟨fun out => ?_, fun ne => by_contra fun fits => ne (BitVec.toInt_add_of_not_saddOverflow fits)⟩
  have low := BitVec.le_toInt (a + b)
  have high := BitVec.toInt_lt (x := a + b)
  simp only [BitVec.saddOverflow, Bool.or_eq_true, decide_eq_true_eq] at out
  omega

/-- The difference likewise, of operands of two signs. -/
theorem sub_overflow_iff (a b : Word) :
    (a.msb != b.msb && (a - b).msb != a.msb) = decide ((a - b).toInt ≠ a.toInt - b.toInt) := by
  have signs : ∀ x y z : Bool, (x != y && z != x) = (!x && y && z || x && !y && !z) := by decide
  have rule : (a.msb != b.msb && (a - b).msb != a.msb) = a.ssubOverflow b :=
    (signs _ _ _).trans (BitVec.ssubOverflow_eq a b).symm
  rw [rule, Bool.eq_iff_iff, decide_eq_true_iff]
  refine ⟨fun out => ?_, fun ne => by_contra fun fits => ne (BitVec.toInt_sub_of_not_ssubOverflow fits)⟩
  have low := BitVec.le_toInt (a - b)
  have high := BitVec.toInt_lt (x := a - b)
  simp only [BitVec.ssubOverflow, Bool.or_eq_true, decide_eq_true_eq] at out
  omega

theorem subFlags_eq (a b : Word) (f : Flags) :
    subFlags a b f = ⟨a - b == 0, (a - b).msb, decide (a.toNat < b.toNat), decide ((a - b).toInt ≠ a.toInt - b.toInt)⟩ := by
  rw [← sub_overflow_iff]
  rfl

/-! ## Saturation -/

/-- The word that shows `n` saturated at 0xFFFF_FFFF. -/
theorem toNat_saturated (n : Nat) :
    (if 2 ^ 32 ≤ n then BitVec.allOnes 32 else BitVec.ofNat 32 n).toNat = min (2 ^ 32 - 1) n := by
  split
  · rw [BitVec.toNat_allOnes]
    omega
  · rw [BitVec.toNat_ofNat]
    omega

theorem toNat_sub_floored (a b : Word) : (if a.toNat < b.toNat then 0 else a - b).toNat = a.toNat - b.toNat := by
  split
  next below => exact (Nat.sub_eq_zero_of_le below.le).symm
  next => bv_omega

/-- Settles O2: carry, borrow and saturation are those of the functions, overflow by `add_overflow_iff` and
`sub_overflow_iff`. -/
theorem addSubRows : Obligations.AddSubRows := by
  refine ⟨aluRow_of exec_add fun a b _ => ⟨rfl, ?_⟩, aluRow_of exec_sub fun a b f => ⟨rfl, subFlags_eq a b f⟩,
    aluRow_of exec_cmp fun a b f => ⟨rfl, subFlags_eq a b f⟩, aluRow_of exec_adds fun a b _ => ⟨_, rfl, toNat_saturated _, rfl⟩,
    aluRow_of exec_subs fun a b _ => ⟨_, rfl, toNat_sub_floored a b, rfl⟩,
    aluRow_of exec_min fun a b _ => ⟨_, rfl, ?_, rfl⟩, aluRow_of exec_max fun a b _ => ⟨_, rfl, ?_, rfl⟩⟩
  · rw [← add_overflow_iff]
    rfl
  · split <;> omega
  · split <;> omega

/-! ## Shifts (R87) -/

section
variable (a : Word) {k : Nat} (inWord : k < 32)
include inWord

/-- The last bit that a left shift pushes out of the word. -/
theorem shl_carry : (k != 0 && a.getLsbD (32 - k)) = (a.toNat * 2 ^ k).testBit 32 := by
  have reach : k ≤ 32 := inWord.le
  rw [Nat.testBit_mul_two_pow, decide_eq_true reach, Bool.true_and, BitVec.getLsbD]
  by_cases none : k = 0
  · rw [none, Nat.testBit_lt_two_pow (by simpa using a.isLt)]
    rfl
  · rw [bne_iff_ne.2 none, Bool.true_and]

/-- The last bit that a right shift pushes out; with nothing shifted it is the bit that doubling puts below the word. -/
theorem shr_carry : (k != 0 && a.getLsbD (k - 1)) = (2 * a.toNat / 2 ^ k).testBit 0 := by
  rw [← Nat.shiftRight_eq_div_pow, Nat.testBit_shiftRight, Nat.add_zero]
  cases k with
  | zero => simp [Nat.testBit_zero]
  | succ n => simp [Nat.testBit_succ, BitVec.getLsbD]

end

/-- Settles O3: the carries by `shl_carry` and `shr_carry`, the results by the library's laws of shifts. -/
theorem shiftRows : Obligations.ShiftRows := by
  have inWord (b : Word) : b.toNat % 32 < 32 := Nat.mod_lt _ (by decide)
  refine ⟨aluRow_of exec_shl fun a b f => ⟨_, rfl, ?_, ?_⟩, aluRow_of exec_shr fun a b f => ⟨_, rfl, ?_, ?_⟩,
    aluRow_of exec_asr fun a b f => ⟨_, rfl, ?_, ?_⟩⟩
  · rw [BitVec.toNat_shiftLeft, Nat.shiftLeft_eq]
  · rw [← shl_carry a (inWord b)]
    rfl
  · rw [BitVec.toNat_ushiftRight, Nat.shiftRight_eq_div_pow]
  · rw [← shr_carry a (inWord b)]
    rfl
  · rw [BitVec.toInt_sshiftRight, Int.shiftRight_eq_div_pow]
    rfl
  · rw [← shr_carry a (inWord b)]
    rfl

/-! ## MUL and DIV (R81, R87) -/

theorem toNat_quotient (a b : Word) :
    (if b = 0 then BitVec.allOnes 32 else BitVec.ofNat 32 (a.toNat / b.toNat)).toNat =
      if b = 0 then 2 ^ 32 - 1 else a.toNat / b.toNat := by
  split
  · exact BitVec.toNat_allOnes
  · exact (BitVec.toNat_ofNat _ _).trans (Nat.mod_eq_of_lt ((Nat.div_le_self _ _).trans_lt a.isLt))

/-- A row that ends writes its one register and its flags and goes to the next row. -/
theorem State.finishRow_one (s : State) (t a : Nat) (v : Word) (f : Flags) :
    s.finishRow t [(a, v)] f = s.setTh t (({ (s.th t).setReg a v with flags := f } : Thread).past ((s.th t).pc + 1)) := by
  simp only [State.finishRow, List.foldl_cons, List.foldl_nil, State.setW_eq, State.setFlags_eq, State.endRow_eq,
    State.th_setTh_self, State.setTh_setTh]
  rfl

/-- A thread that the ledger does not serve leaves it to whom it serves. -/
theorem State.ledgerLeave_other {s : State} {t : Fin 16} (other : s.eng.ledgerBusy ≠ some (.row t)) : s.ledgerLeave t = s := by
  unfold State.ledgerLeave
  split
  next u serves => exact if_neg fun same => other (by rw [serves, Fin.eq_of_val_eq same])
  next => rfl

/-- A row whose one result has been reached ends with it. -/
theorem State.rowComplete_result {s : State} {t : Fin 16} {a : Nat} {v : Word} {f : Flags} (ecc : Ecc)
    (runs : s.engineRuns = true) (other : s.eng.ledgerBusy ≠ some (.row t)) (busy : (s.th t).busy = some (.result [(a, v)] f)) :
    s.rowComplete t ecc = s.setTh t (({ (s.th t).setReg a v with flags := f } : Thread).past ((s.th t).pc + 1)) := by
  simp only [State.rowComplete, runs, busy, if_true, State.finishRow_one]
  exact State.ledgerLeave_other other

/-- Settles O4: the row is busy with the word that its function gives, which its completion writes. -/
theorem mulDivRows : Obligations.MulDivRows := by
  refine ⟨fun s t r h => ⟨_, toNat_saturated _, ?_⟩, fun s t r h => ⟨_, toNat_quotient _ _, ?_⟩,
    fun s t ecc a v f ao runs other busy => ?_⟩
  · rw [exec_mul, row_next _ h.ao, State.aluRowBusy_taken h aluMul rfl]
    rfl
  · rw [exec_div, row_next _ h.ao, State.aluRowBusy_taken h aluDiv rfl]
    rfl
  · rw [exec_rowComplete, act_next _ ao, State.rowComplete_result ecc runs other busy]

end Sys2Proof.Machine
end

section
/-! PROOF. The rows that move the PC (R86–R88). -/

namespace Sys2Proof.Machine

section
variable {s : State} {t : Fin 16} {r : Row}

/-- A row that writes its thread and ends at `pc`. -/
theorem State.endRowAt_setTh (s : State) (t : Nat) (x : Thread) (pc : BitVec 14) :
    (s.setTh t x).endRowAt t pc = s.setTh t (x.past pc) := by
  rw [State.endRowAt_eq, State.th_setTh_self, State.setTh_setTh]

theorem State.endRow_setTh (s : State) (t : Nat) (x : Thread) : (s.setTh t x).endRow t = s.setTh t (x.past (x.pc + 1)) := by
  rw [State.endRow_eq, State.th_setTh_self, State.setTh_setTh]

theorem rowCall_pushes (h : s.Takes t 0x03 r) (room : (s.th t).stack.length < 4) :
    rowCall s t = (s.issued t).setTh t
      (({ s.th t with stack := ((s.th t).pc + 1) :: (s.th t).stack } : Thread).past r.tgt) := by
  rw [rowCall, h.issue, State.th_issued, if_pos room, State.endRowAt_setTh]

theorem rowRet_pops {pc : BitVec 14} {rest : List (BitVec 14)} (h : s.Takes t 0x04 r) (top : (s.th t).stack = pc :: rest) :
    rowRet s t = (s.issued t).setTh t (({ s.th t with stack := rest } : Thread).past pc) := by
  simp only [rowRet, h.issue, State.th_issued, top, State.endRowAt_setTh]

/-- A word reaches 0 when it is counted down just when it is 1. -/
theorem sub_one_eq_zero_iff (v : Word) : v - 1 = 0 ↔ v = 1 := by
  constructor
  · intro h
    bv_omega
  · rintro rfl
    rfl

theorem rowDbnz_counts (h : s.Takes t 0x05 r) :
    rowDbnz s t = (s.issued t).setTh t
      (({ (s.th t).setReg (regOf r.a) ((s.th t).reg (regOf r.a) - 1) with
            flags := { (s.th t).flags with z := (s.th t).reg (regOf r.a) == 1 } } : Thread).past
        (if (s.th t).reg (regOf r.a) = 1 then (s.th t).pc + 1 else r.tgt)) := by
  have zero : ((s.th t).reg (regOf r.a) - 1 == 0) = ((s.th t).reg (regOf r.a) == 1) := by
    rw [Bool.eq_iff_iff, beq_iff_eq, beq_iff_eq, sub_one_eq_zero_iff]
  simp only [rowDbnz, h.issue, State.th_issued, State.setW_eq, State.setFlags_eq, State.th_setTh_self, State.setTh_setTh, zero,
    sub_one_eq_zero_iff]
  split
  · exact State.endRow_setTh _ _ _
  · exact State.endRowAt_setTh _ _ _ _

theorem rowJmpx_within (h : s.Takes t 0x09 r) (within : r.tgt.toNat + ((s.th t).reg (regOf r.a)).toNat ≤ 16383) :
    rowJmpx s t = (s.issued t).setTh t
      ((s.th t).past (BitVec.ofNat 14 (r.tgt.toNat + ((s.th t).reg (regOf r.a)).toNat))) := by
  rw [rowJmpx, h.issue, State.th_issued, if_pos within, State.endRowAt_eq, State.th_issued]

end

/-- Settles O5: each row taken in the case of its hypothesis. -/
theorem flowRows : Obligations.FlowRows := by
  refine ⟨fun s t r h => ?_, fun s t r h => ?_, fun s t r h room => ?_, fun s t r pc rest h top => ?_, fun s t r h => ?_,
    fun s t r h => ?_, fun s t r h within => ?_⟩
  · rw [exec_nop, act_next _ h.ao, rowNop, h.issue, State.endRow_eq, State.th_issued]
  · rw [exec_jmp, row_next _ h.ao, rowJmp, h.issue, State.endRowAt_eq, State.th_issued]
  · rw [exec_call, act_next _ h.ao, rowCall_pushes h room]
  · rw [exec_ret, act_next _ h.ao, rowRet_pops h top]
  · rw [exec_dbnz, row_next _ h.ao, rowDbnz_counts h]
  · rw [exec_halt, row_next _ h.ao, rowHalt, h.issue, State.th_issued]
  · rw [exec_jmpx, act_next _ h.ao, rowJmpx_within h within]

end Sys2Proof.Machine
end

section
/-! PROOF. Semaphores, post flags and signals (R86, R94, R98). -/

namespace Sys2Proof.Machine

/-- The lower half of a word. -/
theorem ofNat_low_half (v : Word) : BitVec.ofNat 32 (v.toNat % 2 ^ 16) = v &&& 0xFFFF := by
  apply BitVec.eq_of_toNat_eq
  rw [BitVec.toNat_and, BitVec.toNat_ofNat]
  show v.toNat % 2 ^ 16 % 2 ^ 32 = v.toNat &&& (2 ^ 16 - 1)
  rw [Nat.and_two_pow_sub_one_eq_mod]
  omega

section
variable {s : State} {t : Fin 16} {r : Row} {k : Nat}

/-- The semaphore `k` taken by thread `t` (R98). -/
def State.takeSem (s : State) (k t : Nat) : State :=
  { s.orReg Reg.PLAN_SEM (bitAt k) with eng := { s.eng with semOwner := tset (fun _ => none) s.eng.semOwner k (some t) } }

theorem rowSemget_free (h : s.Takes t 0x2B r) (arg : s.threadArg t r.a = some k) (free : bit (s.rd Reg.PLAN_SEM) k = false) :
    rowSemget s t = ((s.issued t).takeSem k t).setTh t ((s.th t).pastC false) := by
  simp only [rowSemget, h.issue, State.threadArg_issued, arg, State.rd_issued, free, Bool.false_eq_true, if_false,
    State.endRow_setC]
  rfl

theorem rowSemget_held (h : s.Takes t 0x2B r) (arg : s.threadArg t r.a = some k) (held : bit (s.rd Reg.PLAN_SEM) k = true) :
    rowSemget s t = (s.issued t).setTh t ((s.th t).pastC true) := by
  simp only [rowSemget, h.issue, State.threadArg_issued, arg, State.rd_issued, held, if_true, State.endRow_setC,
    State.th_issued]

theorem rowSemput_holder (h : s.Takes t 0x2C r) (arg : s.threadArg t r.a = some k) (held : bit (s.rd Reg.PLAN_SEM) k = true)
    (holder : tget (fun _ => none) s.eng.semOwner k = some t.val) :
    rowSemput s t = ((s.issued t).freeSem k).setTh t ((s.th t).pastC false) := by
  rw [rowSemput, h.issue]
  simp only [State.threadArg_issued, arg, State.endRow_setC]
  exact if_pos ⟨held, holder⟩

theorem rowSemput_other (h : s.Takes t 0x2C r) (arg : s.threadArg t r.a = some k)
    (other : tget (fun _ => none) s.eng.semOwner k ≠ some t.val) :
    rowSemput s t = (s.issued t).setTh t ((s.th t).pastC true) := by
  rw [rowSemput, h.issue]
  simp only [State.threadArg_issued, arg, State.endRow_setC]
  exact if_neg fun ⟨_, holder⟩ => other holder

theorem rowPost_sets (h : s.Takes t 0x32 r) :
    rowPost s t = ((s.issued t).wr Reg.PLAN_POST (s.rd Reg.PLAN_POST ||| ((s.th t).val r.a &&& 0xFFFF))).setTh t
      ((s.th t).past ((s.th t).pc + 1)) := by
  rw [rowPost, h.issue, State.th_issued, ofNat_low_half, State.endRow_eq]
  rfl

theorem rowSignal_sets {n : Nat} (h : s.Takes t 0x34 r) (arg : (s.th t).inRange r.a 0 7 = some n) :
    rowSignal s t = (State.noteOutputs ((s.issued t).wr (Reg.PLAN_SIGDATA n) ((s.th t).val r.b))
      (((s.issued t).wr (Reg.PLAN_SIGDATA n) ((s.th t).val r.b)).orReg Reg.INTC_PEND1 (bitAt (16 + n)))).endRow t := by
  simp only [rowSignal, h.issue, State.th_issued, arg]

end

theorem State.th_noteOutputs (s t : State) (n : Nat) : (s.noteOutputs t).th n = t.th n := by
  unfold State.noteOutputs
  exact apply_ite (State.th · n) _ _ _ |>.trans (ite_self _)

/-- PEND1 stands outside the engine's page. -/
theorem pend1_ne_sigdata (n : Nat) (inTable : n ≤ 7) : Reg.INTC_PEND1 ≠ Reg.PLAN_SIGDATA n := by
  unfold Reg.INTC_PEND1 Reg.PLAN_SIGDATA
  omega

theorem Thread.inRange_le {x : Thread} {field lo hi v : Nat} (h : x.inRange field lo hi = some v) : v ≤ hi := by
  obtain ⟨within, value⟩ := Option.ite_none_right_eq_some.1 h
  exact Option.some.inj value ▸ within.2

/-- Settles O8: each row taken in the case of its hypotheses; SIGNAL's pending bit is set beside its data. -/
theorem semaphoreRows : Obligations.SemaphoreRows := by
  refine ⟨fun s t r k arg => ⟨fun h free => ⟨_, ?_, rfl⟩, fun h held => ?_, fun h held holder => ⟨_, ?_, rfl⟩,
    fun h held other => ?_⟩, fun s t r => ⟨fun h => ?_, fun n h arg => ?_⟩⟩
  · rw [exec_semget, row_next _ h.ao, rowSemget_free h arg free]
    rfl
  · rw [exec_semget, row_next _ h.ao, rowSemget_held h arg held]
    rfl
  · rw [exec_semput, row_next _ h.ao, rowSemput_holder h arg held holder]
    rfl
  · rw [exec_semput, row_next _ h.ao, rowSemput_other h arg other]
    rfl
  · rw [exec_post, row_next _ h.ao, rowPost_sets h]
  · rw [exec_signal, row_next _ h.ao, rowSignal_sets h arg, State.endRow_eq, State.th_noteOutputs,
      State.orReg, State.rd_wr_ne _ _ (pend1_ne_sigdata n (Thread.inRange_le arg))]
    rfl

end Sys2Proof.Machine
end

section
/-! PROOF. Waits and delays (R92–R95). -/

namespace Sys2Proof.Machine

section
variable (s : State) (t : Fin 16)

/-- A wait that ends wakes its thread past its row. -/
theorem State.endWait_eq (n : Nat) (w7 : Word) (timedOut : Bool) :
    s.endWait n w7 timedOut = s.setTh n (((s.th n).woken w7 timedOut).past ((s.th n).pc + 1)) := State.endRow_setTh _ _ _

theorem State.takePosts_eq (n mask : Nat) :
    s.takePosts n mask = (s.wr Reg.PLAN_POST (s.rd Reg.PLAN_POST &&& ~~~ BitVec.ofNat 32 (s.postsIn mask))).setTh n
      (((s.th n).woken (BitVec.ofNat 32 (s.postsIn mask)) false).past ((s.th n).pc + 1)) := State.endWait_eq _ _ _ _

/-- A thread that starts to wait for B ticks, without an end where B is 0. -/
theorem State.enterWait_eq (n : Nat) (wf : WaitFor) (b : Word) :
    s.enterWait n wf b.toNat = s.setTh n { s.th n with
      st := .wait, waiting := some wf, waitDue := if b = 0 then none else some (s.ticks + b.toNat) } := by
  have zero : b.toNat = 0 ↔ b = 0 := BitVec.toNat_eq (y := 0#32).symm
  simp only [State.enterWait, zero]

end

section
variable {s : State} {t : Fin 16} {r : Row}

theorem rowWait_present (h : s.Takes t 0x30 r) (present : s.eventsIn (waitMask (s.th t) r.a) ≠ 0) :
    rowWait s t = (s.issued t).endWait t (s.eventsIn (waitMask (s.th t) r.a)) false := by
  rw [rowWait, h.issue]
  exact if_pos present

theorem rowWait_absent (h : s.Takes t 0x30 r) (absent : s.eventsIn (waitMask (s.th t) r.a) = 0) :
    rowWait s t = (s.issued t).enterWait t (.events (waitMask (s.th t) r.a)) ((s.th t).val r.b).toNat := by
  rw [rowWait, h.issue]
  exact if_neg (not_not.2 absent)

theorem rowWaitp_present (h : s.Takes t 0x31 r) (present : s.postsIn (((s.th t).val r.a).toNat % 2 ^ 16) ≠ 0) :
    rowWaitp s t = (s.issued t).takePosts t (((s.th t).val r.a).toNat % 2 ^ 16) := by
  rw [rowWaitp, h.issue]
  exact if_pos present

theorem rowWaitp_absent (h : s.Takes t 0x31 r) (absent : s.postsIn (((s.th t).val r.a).toNat % 2 ^ 16) = 0) :
    rowWaitp s t =
      (s.issued t).enterWait t (.posts (((s.th t).val r.a).toNat % 2 ^ 16)) ((s.th t).val r.b).toNat := by
  rw [rowWaitp, h.issue]
  exact if_neg (not_not.2 absent)

theorem waitEventEnd_present {m : Word} (runs : s.engineRuns = true) (waits : (s.th t).st = .wait)
    (waiting : (s.th t).waiting = some (.events m)) (present : s.eventsIn m ≠ 0) :
    waitEventEnd s t = s.endWait t (s.eventsIn m) false := by
  simp only [waitEventEnd, waiting]
  exact if_pos ⟨runs, waits, present⟩

theorem waitpEnd_taker {m : Nat} (runs : s.engineRuns = true) (waiting : (s.th t).waiting = some (.posts m))
    (taker : s.postTaker = some t.val) : waitpEnd s t = s.takePosts t m := by
  simp only [waitpEnd, waiting]
  exact if_pos ⟨runs, taker⟩

theorem State.th_wakeUp (s : State) (n : Nat) : s.wakeUp.th n = s.th n := by
  unfold State.wakeUp
  split <;> rfl

theorem waitTimeout_due {m : Word} {due : Nat} (waits : (s.th t).st = .wait) (waiting : (s.th t).waiting = some (.events m))
    (absent : s.eventsIn m = 0) (ends : (s.th t).waitDue = some due) (reached : due ≤ s.ticks) :
    waitTimeout s t = s.wakeUp.endWait t 0 true := by
  simp only [waitTimeout, waiting, ends, absent]
  exact if_pos ⟨waits, reached, rfl⟩

theorem rowDly_busy {n : Nat} (h : s.Takes t 0x33 r) (arg : (s.th t).inRange r.a 1 (2 ^ 32 - 1) = some n) :
    rowDly s t = (s.issued t).setTh t { s.th t with busy := some .dly } := by
  simp only [rowDly, h.issue, State.th_issued, arg, State.setBusy_eq]

theorem dlyEnd_ends (runs : s.engineRuns = true) (run : (s.th t).st = .run) (busy : (s.th t).busy = some .dly) :
    dlyEnd s t = s.setTh t ((s.th t).past ((s.th t).pc + 1)) :=
  (if_pos ⟨runs, run, busy⟩).trans (State.endRow_eq _ _)

end

/-- Settles O9: a row that waits finds what it waits for or enters WAIT; a wait ends in the case of its hypotheses. -/
theorem waitRows : Obligations.WaitRows := by
  intro s t r
  refine ⟨fun h present => ?_, fun h absent => ?_, fun h present => ⟨_, rfl, ?_⟩, fun h absent => ?_,
    fun m ao runs waits waiting present => ?_, fun m ao runs waiting taker => ⟨_, rfl, ?_⟩,
    fun m due ao waits waiting absent ends reached => ?_, fun n h arg => ?_, fun ao runs run busy => ?_⟩
  · rw [exec_wait, row_next _ h.ao, rowWait_present h present, State.endWait_eq, State.th_issued]
  · rw [exec_wait, row_next _ h.ao, rowWait_absent h absent, State.enterWait_eq]
    rfl
  · rw [exec_waitp, row_next _ h.ao, rowWaitp_present h present, State.takePosts_eq]
    rfl
  · rw [exec_waitp, row_next _ h.ao, rowWaitp_absent h absent, State.enterWait_eq]
    rfl
  · rw [exec_waitEventEnd, ready_next _ ao, waitEventEnd_present runs waits waiting present, State.endWait_eq]
  · rw [exec_waitpEnd, ready_next _ ao, waitpEnd_taker runs waiting taker, State.takePosts_eq]
  · rw [exec_waitTimeout, ready_next _ ao, waitTimeout_due waits waiting absent ends reached, State.endWait_eq, State.th_wakeUp]
  · rw [exec_dly, row_next _ h.ao, rowDly_busy h arg]
  · rw [exec_dlyEnd, row_next _ ao, dlyEnd_ends runs run busy]

end Sys2Proof.Machine
end

section
/-! PROOF. Rows that reach the register space: loads, stores and their check bits (R25, R89, R90). -/

namespace Sys2Proof.Machine

section
variable {s : State} {t : Fin 16} {r : Row}

theorem rowLd_busy (h : s.Takes t 0x28 r) (open' : forbidden ((s.th t).addrOf r.b) = false) :
    rowLd s t = (s.issued t).setTh t { s.th t with busy := some (.load (regOf r.a) ((s.th t).addrOf r.b)) } := by
  rw [rowLd, h.issue, State.th_issued, if_neg (ne_true_of_eq_false open'), State.setBusy_eq, State.th_issued]

theorem rowLd_faults (h : s.Takes t 0x28 r) (closed : forbidden ((s.th t).addrOf r.b) = true) :
    rowLd s t = (s.issued t).faulted t 4 := by
  rw [rowLd, h.issue, State.th_issued, if_pos closed, State.threadFault_33]

/-- A store posted by thread `t`. -/
def State.postStore (s : State) (t : Fin 16) (addr : Nat) (d : Word) : State :=
  { s with eng := { s.eng with stores := s.eng.stores ++ [(⟨t, addr, d⟩ : PostedStore)] } }

theorem rowSt_posts (h : s.Takes t 0x29 r) (open' : forbidden ((s.th t).addrOf r.a) = false)
    (noPlan : regionOf ((s.th t).addrOf r.a) ≠ .planMem) :
    rowSt s t = ((s.issued t).postStore t ((s.th t).addrOf r.a) ((s.th t).val r.b)).setTh t
      ((s.th t).past ((s.th t).pc + 1)) := by
  rw [rowSt, h.issue, State.th_issued, if_neg fun closed => closed.elim (ne_true_of_eq_false open') noPlan, State.endRow_eq]
  rfl

theorem rowSt_faults (h : s.Takes t 0x29 r)
    (closed : forbidden ((s.th t).addrOf r.a) = true ∨ regionOf ((s.th t).addrOf r.a) = .planMem) :
    rowSt s t = (s.issued t).faulted t 4 := by
  rw [rowSt, h.issue, State.th_issued, if_pos closed, State.threadFault_33]

/-- A thread has a store waiting just when the list of posted stores holds one of its own. -/
theorem any_own_store (l : List PostedStore) (t : Fin 16) : (l.any fun x => x.t == t) = true ↔ ∃ x ∈ l, x.t = t := by
  simp only [List.any_eq_true, beq_iff_eq]

theorem rowSync_ends (h : s.Takes t 0x2A r) (none : ∀ x ∈ s.eng.stores, x.t ≠ t) :
    rowSync s t = (s.issued t).setTh t ((s.th t).past ((s.th t).pc + 1)) := by
  rw [rowSync, h.issue]
  refine (if_neg ?_).trans (State.endRow_eq _ _)
  rw [any_own_store]
  rintro ⟨x, mem, own⟩
  exact none x mem own

theorem rowSync_waits (h : s.Takes t 0x2A r) (own : ∃ x ∈ s.eng.stores, x.t = t) :
    rowSync s t = (s.issued t).setTh t { s.th t with busy := some .sync } := by
  rw [rowSync, h.issue]
  exact (if_pos ((any_own_store _ _).2 own)).trans (State.setBusy_eq _ _ _)

theorem State.storeApply_next {x : PostedStore} (runs : s.engineRuns = true) (next : nextStore t s.eng.stores = some x) :
    s.storeApply t = ({ s with eng := { s.eng with stores := dropStore t s.eng.stores } } : State).busWrite (.row t) x.addr
      x.data := by
  simp only [State.storeApply, runs, next]

/-- A load waits only for its thread's own stores to its domain. -/
theorem State.rowComplete_load {a addr : Nat} (ecc : Ecc) (runs : s.engineRuns = true)
    (busy : (s.th t).busy = some (.load a addr))
    (order : ∀ x ∈ s.eng.stores, x.t = t → domainOf x.addr ≠ domainOf addr) :
    s.rowComplete t ecc = s.loadEnd t a addr ecc := by
  simp only [State.rowComplete, runs, busy, if_true]
  refine if_neg ?_
  simp only [List.any_eq_true, Bool.and_eq_true, beq_iff_eq, not_exists, not_and]
  exact order

theorem State.loadEnd_eq {addr : Nat} {ecc : Ecc} {u : State} {v : Option Word} (a : Nat)
    (fetched : s.eccFetch addr t ecc = (u, v)) :
    s.loadEnd t a addr ecc = (u.rocClear (.row t) addr).finishRow t [(a, v.getD (s.busRead (.row t) addr))]
      ((u.th t).flags.zn (v.getD (s.busRead (.row t) addr))) := by
  simp only [State.loadEnd, fetched]

end

section
variable (s : State) (a t : Nat)

theorem State.eccFetch_clean : s.eccFetch a t .clean = (s, none) := by
  simp only [State.eccFetch]

theorem State.eccFetch_double {d : Nat} (window : sramRegion a = some d) :
    s.eccFetch a t .double = ((s.nextFree).raise 35 0 d, some (BitVec.ofNat 32 s.free)) := by
  simp only [State.eccFetch, window]

theorem State.eccFetch_corrected (plan : regionOf a = .planMem) :
    s.eccFetch a t .corrected = (s.incF Fd.PLAN_ECC_CORR, none) := by
  have none : sramRegion a = none := by rw [sramRegion, plan]
  simp only [State.eccFetch, none, plan]
  rfl

end

/-- Settles O10: each row in the case of its address or of the stores that wait, and the ends of a store and of a load. -/
theorem memoryRows : Obligations.MemoryRows := by
  intro s t r
  refine ⟨fun h open' => ?_, fun h closed => ?_, fun h open' noPlan => ?_, fun h closed => ?_, fun h none => ?_,
    fun h own => ?_, fun x ao runs next => ?_, fun a addr ecc u v w ao runs busy order fetched word => ?_,
    fun a => ⟨s.eccFetch_clean a t, fun d => s.eccFetch_double a t, s.eccFetch_corrected a t⟩⟩
  · rw [exec_ld, act_next _ h.ao, rowLd_busy h open']
  · rw [exec_ld, act_next _ h.ao, rowLd_faults h closed]
  · rw [exec_st, act_next _ h.ao, rowSt_posts h open' noPlan]
    rfl
  · rw [exec_st, act_next _ h.ao, rowSt_faults h closed]
  · rw [exec_sync, row_next _ h.ao, rowSync_ends h none]
  · rw [exec_sync, row_next _ h.ao, rowSync_waits h own]
  · rw [exec_storeApply, act_next _ ao, State.storeApply_next runs next]
  · rw [exec_rowComplete, act_next _ ao, State.rowComplete_load ecc runs busy order, State.loadEnd_eq a fetched, word]

end Sys2Proof.Machine
end

section
/-! PROOF. Rows that act on other blocks: TCAP, LOG, RAISE and RAIL (R43, R86, R99, R196), and the ledger's rows and LSEND
(R286, R310–R317). -/

namespace Sys2Proof.Machine

section
variable {s : State} {t : Fin 16} {r : Row}

theorem rowTcap_captures (h : s.Takes t 0x35 r) :
    rowTcap s t = ({ (s.issued t) with eng := { (s.issued t).eng with planBank := s.chipTime } } : State).setTh t
      { s.th t with busy := some (.result [(regOf r.a, BitVec.ofNat 32 s.chipTime),
        (regOf r.a + 1, BitVec.ofNat 32 (s.chipTime / 2 ^ 32))] (s.th t).flags) } := by
  rw [rowTcap, h.issue, ← Nat.shiftRight_eq_div_pow]
  rfl

theorem rowLog_adds (h : s.Takes t 0x36 r) :
    rowLog s t = ((s.issued t).almanacAdd 2 t (((s.th t).val r.a).toNat % 2 ^ 16) ((s.th t).val r.b).toNat 0 0).endRow t := by
  rw [rowLog, h.issue, State.th_issued]

theorem rowRaise_raises {k : Nat} (h : s.Takes t 0x37 r) (arg : (s.th t).inRange r.a 0 47 = some k) :
    rowRaise s t = ((s.issued t).raiseFrom k 0 0 false (some t.val)).setBusy t
      (.result [] { (((s.issued t).raiseFrom k 0 0 false (some t.val)).th t).flags with c := false }) := by
  simp only [rowRaise, h.issue, State.th_issued, arg]

/-- RAIL's row busy with the status of slot `k` and the C flag `c`. -/
def State.railRow (s : State) (t k : Nat) (c : Bool) : State :=
  s.setTh t { s.th t with busy := some (.result [(7, s.rd (Reg.SEQ_SLOTSTAT k))]
    { ((s.th t).flags.zn (s.rd (Reg.SEQ_SLOTSTAT k))) with c := c }) }

theorem rowRail_queries {k : Nat} (h : s.Takes t 0x3D r) (slot : (s.th t).inRange r.a 0 31 = some k)
    (op : (s.th t).inRange r.b 0 2 = some 2) : rowRail s t = (s.issued t).railRow t k false := by
  simp only [rowRail, h.issue, State.th_issued, slot, op, State.setBusy_eq, State.railRow]

theorem rowRail_off {k : Nat} (h : s.Takes t 0x3D r) (slot : (s.th t).inRange r.a 0 31 = some k)
    (op : (s.th t).inRange r.b 0 2 = some 0) : rowRail s t = ((s.issued t).slotOffReq k).railRow t k false := by
  simp only [rowRail, h.issue, State.th_issued, slot, op, State.setBusy_eq, State.railRow]

theorem rowRail_on {k : Nat} {u : State} {c : Bool} (h : s.Takes t 0x3D r) (slot : (s.th t).inRange r.a 0 31 = some k)
    (op : (s.th t).inRange r.b 0 2 = some 1) (asked : (s.issued t).slotOn k = (u, c)) : rowRail s t = u.railRow t k c := by
  simp only [rowRail, h.issue, State.th_issued, slot, op, asked, State.setBusy_eq, State.railRow]

end

/-- Settles O11: each row taken, with the operation that it asks of its block. -/
theorem deviceRows : Obligations.DeviceRows := by
  intro s t r
  refine ⟨fun h => ?_, fun h => ?_, fun k h arg => ⟨_, rfl, ?_⟩, fun k h slot op => ?_, fun k u h slot op asked => ?_,
    fun k u c h slot op asked => ?_⟩
  · rw [exec_tcap, row_next _ h.ao, rowTcap_captures h]
  · rw [exec_log, row_next _ h.ao, rowLog_adds h]
  · rw [exec_raise, act_next _ h.ao, rowRaise_raises h arg, State.setBusy_eq]
  · rw [exec_rail, act_next _ h.ao, rowRail_queries h slot op]
    rfl
  · rw [exec_rail, act_next _ h.ao, rowRail_off h slot op, asked, State.railRow]
  · rw [exec_rail, act_next _ h.ao, rowRail_on h slot op asked, State.railRow]

/-! ## Rows of the ledger (R18, R310–R315) -/

section
variable {s : State} {t : Fin 16} {r : Row} {c : Instr} {op : LedgerOp}

/-- A ledger row in range issues its operation on behalf of its thread. -/
theorem exec_ledgerRow (h : s.LedgerRow t r c op) : exec c s = .next ((s.issued t).ledgerIssue (.row t) op).settle := by
  obtain ⟨h, rfl, gp, point, rfl⟩ | ⟨h, rfl, gp, b, point, loop, rfl⟩ | ⟨h, rfl, gp, point, rfl⟩ | ⟨h, rfl, b, prio, rfl⟩ := h
  · simp only [exec_lres, act_next _ h.ao, rowLres, h.issue, State.th_issued, point]
  · simp only [exec_lcom, act_next _ h.ao, rowLcom, h.issue, State.th_issued, point, loop]
  · simp only [exec_lrel, act_next _ h.ao, rowLrel, h.issue, State.th_issued, point]
  · simp only [exec_lshed, act_next _ h.ao, rowLshed, h.issue, State.th_issued, prio]

theorem State.ledgerFree_iff (s : State) : s.ledgerFree = true ↔ s.eng.ledgerBusy = none ∧ s.eng.ledgerQ = [] := by
  rw [State.ledgerFree, Bool.and_eq_true, Option.isNone_iff_eq_none, List.isEmpty_iff]

/-- On a free ledger a row's operation runs at once, and its answer waits for the row to complete. -/
theorem State.ledgerIssue_row_free (idle : s.eng.ledgerBusy = none) (empty : s.eng.ledgerQ = []) {u : State} {a : LedgerRes}
    (answer : s.ledgerRun op = (u, a)) :
    s.ledgerIssue (.row t) op = (u.setLedgerBusy (some (.row t))).setBusy t (.result
      ((match a.w6 with
        | some w => [(6, w)]
        | none => []) ++ [(7, a.w7)]) { ((u.th t).flags.zn a.w7) with c := a.c }) := by
  rw [State.ledgerIssue, if_pos (s.ledgerFree_iff.2 ⟨idle, empty⟩), State.ledgerTake, answer]
  rfl

theorem State.ledgerIssue_row_queued (busy : s.eng.ledgerBusy ≠ none) :
    s.ledgerIssue (.row t) op =
      ({ s with eng := { s.eng with ledgerQ := s.eng.ledgerQ ++ [(.row t, op)] } } : State).setBusy t .ledger :=
  if_neg fun free => busy (s.ledgerFree_iff.1 free).1

end

/-! ## LSEND (R286) -/

section
variable {s v u : State} {t : Fin 16} {r : Row} {ecc : List Ecc} {gp : Nat} {ws : List Word} {w7 : Word}

/-- An image at addresses that rows may read is fetched and pushed. -/
theorem rowLsend_pushes (h : s.Takes t 0x3C r) (point : (s.th t).inRange r.a 0 511 = some gp)
    (open' : ∀ i : Fin 4, forbidden (busWordAddr ((s.th t).addrOf r.b + 4 * i.val)) = false)
    (image : fetchWords (.row t) t ecc ((List.range 4).map fun i => busWordAddr ((s.th t).addrOf r.b + 4 * i)) (s.issued t) =
      (v, ws))
    (pushed : v.push (gp / 64) (gp % 64) (ws.getD 0 0) (ws.getD 1 0) (ws.getD 2 0) (ws.getD 3 0) (bit (ws.getD 0 0) 24) =
      (u, w7)) :
    rowLsend s t ecc = u.setBusy t (.result [(7, w7)] { ((u.th t).flags.zn w7) with c := w7.msb }) := by
  have noFault : ¬ (((List.range 4).map fun i => busWordAddr ((s.th t).addrOf r.b + 4 * i)).any forbidden) = true := by
    simp only [List.any_map, List.any_eq_true, List.mem_range, Function.comp_apply, not_exists, not_and]
    intro i inImage
    exact ne_true_of_eq_false (open' ⟨i, inImage⟩)
  simp only [rowLsend, h.issue, State.th_issued, point, if_neg noFault, image, pushed]

end

/-- Settles O12: a ledger row issues its operation, which a free ledger runs and another queues; LSEND pushes its image. -/
theorem ledgerRows : Obligations.LedgerRows := by
  refine ⟨fun s t r c op h => ⟨fun idle empty => ⟨_, _, rfl, ?_⟩, fun busy => ?_⟩,
    fun s v u t r ecc gp ws w7 h point open' image pushed => ?_⟩
  · rw [exec_ledgerRow h, State.ledgerIssue_row_free (s := s.issued t) idle empty rfl]
    rfl
  · rw [exec_ledgerRow h, State.ledgerIssue_row_queued (s := s.issued t) busy]
    rfl
  · rw [exec_lsend, act_next _ h.ao, rowLsend_pushes h point open' image pushed, State.setBusy_eq]

end Sys2Proof.Machine
end

section
/-! PROOF. Power states and clocks (R27–R40), resets (R206–R208), the AO domain (R28) and the boot flow (R202, R203). -/

namespace Sys2Proof.Machine

/-! ## The wake sequence (R29–R34, R38) -/

section
variable {s : State}

theorem State.wakeUp_fallow (fallow : s.power.state = .fallow) :
    s.wakeUp = { s with power := { s.power with
      state := .awake, wakeRuns := false, pll := .off, subValid := false, idleTicks := 0 } } := if_pos fallow

theorem State.wakeStable_starts (awake : s.power.state = .awake) (stopped : s.power.wakeRuns = false) :
    s.wakeStable = State.wakeTakeIn { s with power := { s.power with wakeRuns := true, wakeFail := false, pll := .locking } } :=
  if_pos ⟨awake, by rw [stopped]; rfl⟩

theorem State.engLock_locks (awake : s.power.state = .awake) (runs : s.power.wakeRuns = true) (locking : s.power.pll = .locking) :
    s.engLock = { s with sub := 0, power := { s.power with state := .full, pll := .locked, subValid := false } } :=
  if_pos ⟨awake, runs, locking⟩

theorem State.subtickAlign_aligns (full : s.power.state = .full) (waits : s.power.subValid = false) :
    s.subtickAlign = s.tickEdge := if_pos ⟨full, by rw [waits]; rfl⟩

theorem State.pllTimeout_fails (h : (s.power.state = .awake ∧ s.power.pll = .locking) ∨ s.power.state = .full) :
    s.pllTimeout = State.clockLost { s with power := { s.power with
      state := .awake, pll := .failed, subValid := false, retryTick := s.ticks + s.f Fd.SYS_PWRCTRL_IDLE } } 4 := if_pos h

theorem State.pllRetry_retries (awake : s.power.state = .awake) (failed : s.power.pll = .failed)
    (due : s.power.retryTick ≤ s.ticks) : s.pllRetry = { s with power := { s.power with pll := .locking } } :=
  if_pos ⟨awake, failed, due⟩

theorem State.fallowEntry_enters (on : s.power.state = .full ∨ s.power.state = .awake) (edge : s.atEdge = true)
    (idle : s.idleNow = true) (long : s.f Fd.SYS_PWRCTRL_IDLE ≤ s.power.idleTicks) :
    s.fallowEntry = { s with power := { s.power with
      state := .fallow, wakeRuns := false, pll := .off, subValid := false, idleTicks := 0 } } := if_pos ⟨on, edge, idle, long⟩

theorem State.wakeFailed_fallsBack (awake : s.power.state = .awake) (stopped : s.power.wakeRuns = false) :
    s.wakeFailed = { s.clockLost 5 with power := { (s.clockLost 5).power with
      state := .fallow, wakeRuns := false, pll := .off, wakeFail := true, retryTick := (s.clockLost 5).ticks + 1 } } :=
  if_pos ⟨awake, by rw [stopped]; rfl⟩

theorem State.wakeRetry_wakes (fallow : s.power.state = .fallow) (failed : s.power.wakeFail = true)
    (due : s.power.retryTick ≤ s.ticks) :
    s.wakeRetry = { s with power := { s.power with
      state := .awake, wakeRuns := false, wakeFail := false, pll := .off, subValid := false, idleTicks := 0 } } :=
  (if_pos ⟨fallow, failed, due⟩).trans (State.wakeUp_fallow fallow)

end

/-- Settles O13: each command is its step of the sequence, taken in the state that its hypotheses give. -/
theorem wakeSequence : Obligations.WakeSequence := by
  intro s ao
  refine ⟨fun src fallow => ?_, fun awake stopped => ?_, fun awake runs locking => ?_, fun full waits => ?_, fun h => ?_,
    fun awake failed due => ?_, fun on edge idle long => ?_, fun awake stopped => ⟨_, rfl, ?_⟩, fun fallow failed due => ?_⟩
  · rw [exec_wake, act_next _ ao, State.wakeUp_fallow fallow]
  · rw [exec_wakeStable, act_next _ ao, State.wakeStable_starts awake stopped]
  · rw [exec_engLock, act_next _ ao, State.engLock_locks awake runs locking]
  · rw [exec_subtickAlign, act_next _ ao, State.subtickAlign_aligns full waits]
  · rw [exec_pllLockTimeout, act_next _ ao, State.pllTimeout_fails h]
  · rw [exec_pllLockRetry, act_next _ ao, State.pllRetry_retries awake failed due]
  · rw [exec_fallowEntry, act_next _ ao, State.fallowEntry_enters on edge idle long]
  · rw [exec_wakeOscFail, act_next _ ao, State.wakeFailed_fallsBack awake stopped]
  · rw [exec_wakeStartRetry, act_next _ ao, State.wakeRetry_wakes fallow failed due]

/-! ## Clock monitors (R38–R40, R142, R250) -/

section
variable {s : State}

theorem State.clockLost_first {b : Nat} (first : bit (s.rd Reg.SYS_PWRSTAT) b = false) :
    s.clockLost b = ((s.orReg Reg.SYS_PWRSTAT (bitAt b)).ev Fd.SYS_EVRAW_CLOCK).raise 40 b 0 := by
  simp only [State.clockLost, first, Bool.false_eq_true, if_false]

theorem State.clockLost_again {b : Nat} (seen : bit (s.rd Reg.SYS_PWRSTAT) b = true) :
    s.clockLost b = (s.orReg Reg.SYS_PWRSTAT (bitAt b)).raise 40 b 0 := by
  simp only [State.clockLost, seen, if_true]

theorem State.xtalLost_switches (crystal : s.f Fd.SYS_PWRSTAT_AOSRC = 0) :
    s.xtalLost = (s.setF Fd.SYS_PWRSTAT_AOSRC 1).clockLost 3 := if_pos crystal

theorem State.xtalReturn_switches (asked : s.fb Fd.SYS_PWRCTRL_XTALRET = true) (edge : s.atEdge = true) :
    s.xtalReturn = s.setF Fd.SYS_PWRSTAT_AOSRC 0 := if_pos ⟨asked, edge⟩

/-- The loss of the PWM oscillator as it meets loop `n`: a loop that is not OFF faults and its phases stop. -/
def State.pwmLossAt (u : State) (n : Nat) : State :=
  if u.lstate n = lpOff then u
  else State.respread ((u.loopFault n 4 (u.f (Fd.LOOP_MEAS_VOUT n))).setPhases
    ((u.loopFault n 4 (u.f (Fd.LOOP_MEAS_VOUT n))).phasesOf n fun _ => true) phOff) n

theorem State.loopsPwmLost_eq (s : State) : s.loopsPwmLost = List.foldl State.pwmLossAt s [0, 1, 2, 3] := by
  have each : (fun (u : State) (n : Nat) => if u.lstate n ≠ lpOff then
      State.respread ((u.loopFault n 4 (u.f (Fd.LOOP_MEAS_VOUT n))).setPhases
        ((u.loopFault n 4 (u.f (Fd.LOOP_MEAS_VOUT n))).phasesOf n fun _ => true) phOff) n else u) = State.pwmLossAt := by
    funext u n
    exact ite_not _ _ _
  rw [← each]
  rfl

theorem State.gaugeLost_marks (runs : s.power.gaugeOk = true) :
    s.gaugeLost = (State.clockLost { s with power := { s.power with gaugeOk := false } } 7).gaugeOscLost := if_pos runs

end

/-- Settles O14: a loss by whether its bit was set, and each command in the case of its hypotheses. -/
theorem clockLosses : Obligations.ClockLosses := by
  refine ⟨fun s b first => State.clockLost_first first, fun s b seen => State.clockLost_again seen, fun s ao =>
    ⟨fun crystal => ?_, fun asked edge => ?_, fun on => ?_, fun on runs => ⟨_, rfl, ?_⟩, fun on => ?_⟩⟩
  · rw [exec_aoXtalLost, act_next _ ao, State.xtalLost_switches crystal]
  · rw [exec_xtalReturn, act_next _ ao, State.xtalReturn_switches asked edge]
  · rw [exec_pwmOscLost, awake_next _ ao on, State.pwmLost, State.loopsPwmLost_eq]
    rfl
  · rw [exec_gaugeOscLost, awake_next _ ao on, State.gaugeLost_marks runs]
    rfl
  · rw [exec_gaugeOscReturn, awake_next _ ao on]
    rfl

/-! ## Resets that a command asks for (R43, R207) -/

section
variable {s : State}

theorem State.resetPin_asks (high : s.seq.resetPin = false) (on : s.power.state ≠ .off) :
    s.resetPin = State.orReg { s with
      seq := { s.seq with resetPin := true }, resetReq := { s.resetReq with chip := true } } Reg.SEQ_RSTCAUSE 2 :=
  (if_neg (ne_true_of_eq_false high)).trans (if_neg on)

theorem State.resetPin_off (high : s.seq.resetPin = false) (off : s.power.state = .off) :
    s.resetPin = { s with seq := { s.seq with resetPin := true } } :=
  (if_neg (ne_true_of_eq_false high)).trans (if_pos off)

theorem busWrite_sysCtrl (s : State) (w : Writer) (d : Word) :
    s.busWrite w Reg.SYS_CTRL d = if getBits d 16 16 = 0x5AFE ∧ bit d 0 then
      ({ s with resetReq := { s.resetReq with chip := true } } : State).orReg Reg.SEQ_RSTCAUSE 4 else s :=
  (busWrite_at (p := 0) (k := Reg.SYS_CTRL) rfl (by decide) (by decide) rfl rfl rfl).trans rfl

theorem busWrite_timecap (s : State) (w : Writer) : s.busWrite w Reg.SYS_TIMECAP 1 = s.timeCap w :=
  (busWrite_at (p := 0) (k := Reg.SYS_TIMECAP) rfl (by decide) (by decide) rfl rfl rfl).trans rfl

/-- A word with bit 0 set by the command keeps its key. -/
theorem chipReset_word {d : Word} (key : getBits d 16 16 = 0x5AFE) :
    getBits (d ||| 1) 16 16 = 0x5AFE ∧ bit (d ||| 1) 0 = true := by
  refine ⟨(getBits_or_mask d 1 16 16 (by decide)).trans key, ?_⟩
  rw [bit, BitVec.getLsbD_or]
  exact Bool.or_true _

end

/-! ## A collapse release (R206) -/

theorem State.thermHold_parts (s : State) :
    s.thermHold.eng = s.eng ∧ s.thermHold.links = s.links ∧ s.thermHold.loops = s.loops := by
  unfold State.thermHold
  dsimp only
  split_ifs <;> exact ⟨rfl, rfl, rfl⟩

/-- What is judged again after a chip reset leaves the threads, the ports and the loops as they were cleared. -/
theorem State.chipTail_parts (s : State) (hold : Bool) :
    (s.chipTail hold).eng = s.eng ∧ (s.chipTail hold).links = s.links ∧ (s.chipTail hold).loops = s.loops := by
  unfold State.chipTail
  dsimp only
  cases hold
  · exact State.thermHold_parts _
  · exact ⟨rfl, rfl, rfl⟩

/-- A field that every step of a fold leaves is left by the fold. -/
theorem foldl_field {α β : Type} (field : State → β) {g : State → α → State} (kept : ∀ s a, field (g s a) = field s)
    (s : State) (l : List α) : field (l.foldl g s) = field s := by
  induction l generalizing s with
  | nil => rfl
  | cons a l ih => exact (ih (g s a)).trans (kept s a)

theorem State.flashCommit_eng (s : State) (o : FlashOp) : (s.flashCommit o).eng = s.eng := by
  cases o with
  | read cs a n =>
    refine foldl_field State.eng (g := fun u i => u.wr (Reg.FLASH_BUF i) (wordBE (((s.xBytes cs a n ++
      List.replicate ((4 - n % 4) % 4) 0).drop (4 * i)).take 4))) (fun _ _ => rfl) s _
  | prog | erase => rfl

/-- The end of the work under way on chip select `cs` at a reset (R458). -/
def State.xflashEnd (s : State) (cs : Nat) : State :=
  match s.xflash.busy cs with
  | some j =>
    let u := match s.jobOp j with
      | some (.read _ _ _) => s
      | some o => s.flashCommit o
      | none => s
    u.setX { u.xflash.setBusy cs none with
      queue := if (j.kind == .health || j.kind == .gauge) ∧ (u.jobNext j).ops ≠ [] then u.jobNext j :: u.xflash.queue
        else u.xflash.queue }
  | none => s

theorem State.xflashEnd_eng (s : State) (cs : Nat) : (s.xflashEnd cs).eng = s.eng := by
  unfold State.xflashEnd
  split
  · dsimp only [State.setX_eng]
    split
    · rfl
    · exact State.flashCommit_eng _ _
    · rfl
  · rfl

theorem State.xflashReset_eng (s : State) : s.xflashReset.eng = s.eng :=
  (show s.xflashReset.eng = ((s.xflashEnd 0).xflashEnd 1).eng from rfl).trans
    ((State.xflashEnd_eng _ 1).trans (State.xflashEnd_eng s 0))

theorem State.chipStop_threads (s : State) : s.chipStop.eng.threads = [] := by
  unfold State.chipStop
  generalize (s.outputsOff.proveEnd 8).otpCut = u
  exact congrArg Engine.threads (State.xflashReset_eng u.engineReset.recReset)

/-- A chip reset halts every thread and clears the ports and the loops. -/
theorem State.chipClear_parts (s : State) (hold : Bool) :
    (s.chipClear hold).eng.threads = [] ∧ (s.chipClear hold).links = [] ∧ (s.chipClear hold).loops = [] := by
  obtain ⟨eng, links, loops⟩ := (s.chipStop.chipFields hold (s.chg != chOff)).chipTail_parts hold
  exact ⟨(congrArg Engine.threads eng).trans s.chipStop_threads, links, loops⟩

section
variable {s : State} {vin : Nat}

/-- The chip as a collapse release clears it, with the cause kept and the release counted. -/
def State.collapseCleared (s : State) : State :=
  let t := s.orReg Reg.SEQ_RSTCAUSE 16
  State.chipClear (t.setRec { t.rflash with
    counters := { t.rflash.counters with collapse := satInc (2 ^ 32 - 1) t.rflash.counters.collapse } }) false

/-- The queues of both flash memories emptied; a gauge store whose job was among them is dropped. -/
def State.flushQueues (s : State) : State :=
  let t := (s.setRec { s.rflash with queue := [] }).setX { s.xflash with queue := [] }
  if t.gauge.writing.isSome ∧ !t.recPending .gauge then
    (t.setGauge { t.gauge with writing := none, failed := false, again := false }).setF Fd.GAUGE_STAT_STOREPEND 0
  else t

theorem State.flushQueues_parts (s : State) :
    s.flushQueues.rflash.queue = [] ∧ s.flushQueues.xflash.queue = [] ∧ s.flushQueues.eng = s.eng ∧
      s.flushQueues.links = s.links ∧ s.flushQueues.loops = s.loops := by
  unfold State.flushQueues
  dsimp only
  split_ifs <;> exact ⟨rfl, rfl, rfl, rfl, rfl⟩

/-- A device that does not wait for VIN is released: cleared, its queues flushed, held in OFF. -/
theorem State.collapse_releases (released : s.seq.stage ≠ .waitVin) :
    s.collapse vin =
      let t := s.collapseCleared.flushQueues
      { t with
        power := { t.power with
          state := .off, wakeRuns := false, wakeFail := false, pll := .off, subValid := false, idleTicks := 0 }
        plant := { t.plant with vin := some vin }
        seq := { t.seq with
          stage := if 8000 ≤ vin then .step1 else .waitVin, step6 := false, rsto := false, rstoDue := none,
          reload := false, hold := false } } := if_neg released

end

/-- Settles O15: each command in the case of its hypotheses; what a collapse release leaves is read from `chipClear` and from
the flushed queues. -/
theorem resetCommands : Obligations.ResetCommands := by
  intro s ao
  refine ⟨fun high on => ?_, fun high off => ?_, ?_, fun w d m key => ?_, fun p m => ?_, fun t m => ?_,
    fun vin released => ?_⟩
  · rw [exec_resetPin, act_next _ ao, State.resetPin_asks high on]
  · rw [exec_resetPin, act_next _ ao, State.resetPin_off high off]
  · rw [exec_resetPinRelease, act_next _ ao]
    rfl
  · rw [exec_chipReset, write_word ao m rfl, busWrite_sysCtrl, if_pos (chipReset_word key)]
  · rw [exec_timecapGo, write_word ao m rfl, busWrite_timecap]
    rfl
  · rw [exec_timecapGo, write_word ao m rfl, busWrite_timecap]
    rfl
  · obtain ⟨threads, links, loops⟩ := State.chipClear_parts _ false
    obtain ⟨rqueue, xqueue, eng, links', loops'⟩ := s.collapseCleared.flushQueues_parts
    refine ⟨s.collapse vin, by rw [exec_collapseRelease, act_next _ ao], ?_⟩
    rw [State.collapse_releases released]
    exact ⟨rfl, rfl, rfl, (congrArg Engine.threads eng).trans threads, links'.trans links, loops'.trans loops, rfl, rfl, rqueue,
      xqueue⟩

/-! ## The AO domain (R28, R208) -/

section
variable {s : State}

theorem State.xflashTorn_parts (s : State) (cs : Nat) :
    (s.xflashTorn cs).rflash = s.rflash ∧ (s.xflashTorn cs).otp = s.otp := by
  unfold State.xflashTorn
  dsimp only
  split <;> exact ⟨rfl, rfl⟩

theorem State.rflashTorn_otp (s : State) : s.rflashTorn.otp = s.otp := by
  unfold State.rflashTorn
  split <;> rfl

theorem State.rflashTorn_idle (idle : s.rflash.busy = none) : s.rflashTorn = s := by
  rw [State.rflashTorn, idle]

theorem State.repairBurn_rflash (s : State) (e row : Nat) (ws : List Word) (steps : Nat) (cut : Bool) :
    (s.repairBurn e row ws steps cut).rflash = s.rflash := by
  unfold State.repairBurn
  dsimp only
  split_ifs <;> rfl

theorem State.otpCut_rflash (s : State) : s.otpCut.rflash = s.rflash := by
  unfold State.otpCut
  split
  · rfl
  · dsimp only
    split
    · rfl
    · refine foldl_field State.rflash (fun s i => ?_) _ _
      split_ifs <;> rfl
    · split
      · exact State.repairBurn_rflash _ _ _ _ _ _
      · rfl
    · rfl

theorem State.otpCut_idle (idle : s.otp.cmd = none) : s.otpCut = s := by
  rw [State.otpCut, idle]

/-- The state whose non-volatile stores the AO power-on reset keeps: the work under way has been cut. -/
def State.aoTorn (s : State) : State := ((s.otpCut.rflashTorn).xflashTorn 0).xflashTorn 1

theorem State.aoTorn_otp (idle : s.otp.cmd = none) : s.aoTorn.otp = s.otp := by
  rw [State.aoTorn, (State.xflashTorn_parts _ 1).2, (State.xflashTorn_parts _ 0).2, State.rflashTorn_otp, State.otpCut_idle idle]

theorem State.aoTorn_rflash (idle : s.rflash.busy = none) : s.aoTorn.rflash = s.rflash := by
  rw [State.aoTorn, (State.xflashTorn_parts _ 1).1, (State.xflashTorn_parts _ 0).1,
    State.rflashTorn_idle ((congrArg RecFlash.busy s.otpCut_rflash).trans idle), State.otpCut_rflash]

theorem State.aoReset_after (s : State) (ao : Bool) : (s.aoReset ao).power.ao = ao ∧ (s.aoReset ao).After s := by
  refine ⟨rfl, rfl, rfl, rfl, rfl, rfl, rfl, rfl, rfl, (State.aoReset_parts ao).1, fun idle => ?_, fun idle => ?_⟩
  · have stores : (s.aoReset ao).otp.words = s.aoTorn.otp.words ∧ (s.aoReset ao).otp.spare = s.aoTorn.otp.spare ∧
        (s.aoReset ao).otp.copies = s.aoTorn.otp.copies ∧ (s.aoReset ao).otp.fuses = s.aoTorn.otp.fuses := ⟨rfl, rfl, rfl, rfl⟩
    rwa [State.aoTorn_otp idle] at stores
  · have cells : (s.aoReset ao).rflash.cells = s.aoTorn.rflash.cells := rfl
    rwa [State.aoTorn_rflash idle] at cells

end

/-- Settles O16: both commands are the AO power-on reset, each with its own supply. -/
theorem aoPower : Obligations.AoPower := by
  refine fun s => ⟨fun down => ⟨s.aoReset true, ?_, s.aoReset_after true⟩, fun up => ⟨s.aoReset false, ?_, s.aoReset_after false⟩⟩
  · rw [exec_aoPowerOn, State.aoPowerOn, if_neg (ne_true_of_eq_false down)]
  · rw [exec_aoPowerLoss, State.aoPowerLoss, if_pos up]

/-! ## The boot flow (R202, R203) -/

section
variable {s : State} {o : OtpSense}

theorem State.bootStart_begins (waits : s.seq.stage = .waitVin) :
    s.bootStart = { s with seq := { s.seq with stage := .step1 } } := if_pos waits

theorem State.bootSupplies_start (step : s.seq.stage = .step1) :
    s.bootSupplies = s.bootClocks.setSeq { s.seq with stage := .step2 } := if_pos step

theorem State.bootTrimDone_reads (bad : List Nat) (step : s.seq.stage = .step2) (released : s.heldInReset = false) :
    s.bootTrimDone o bad = { s.bootTrim o bad with seq := { (s.bootTrim o bad).seq with stage := .step4 } } :=
  if_pos ⟨step, by rw [released]; rfl⟩

theorem State.bootTrimDone_held (bad : List Nat) (held : s.heldInReset = true) : s.bootTrimDone o bad = s :=
  if_neg fun h => absurd h.2 (by rw [held]; decide)

theorem State.bootShadowDone_applies (step : s.seq.stage = .step4) (released : s.heldInReset = false) :
    s.bootShadowDone o = ((((s.bootApply o).bootRestore s.seq.cold).bootThawed).loadStart .otp).recStart :=
  if_pos ⟨step, by rw [released]; rfl⟩

theorem State.rstoExpire_due {due : Nat} (asked : s.seq.rstoDue = some due) (passed : due ≤ s.ticks) :
    s.rstoExpire = s.rstoRelease false := by
  simp only [State.rstoExpire, asked, if_pos passed]

/-- The shadow taken in, its records applied, after a boot that is not cold (steps 4 and 5). -/
theorem State.bootApply_warm (warm : s.seq.cold = false) :
    ∃ b c u : State, b = (s.bootShadow o).setF Fd.SYS_CONFIG_CLASS (getBits ((s.bootShadow o).shadow 192) 0 1) ∧
      c = { b with seq := { b.seq with stage := .running, cold := false } } ∧ u = c.applyRecords c.bootRecords ∧
      s.bootApply o = List.foldl (fun (t : State) k => (t.slotOn k).1) u (bitList 32 (u.rd Reg.SEQ_BOOTON).toNat) := by
  refine ⟨_, _, _, rfl, rfl, rfl, ?_⟩
  simp only [State.bootApply, warm, Bool.false_eq_true, if_false]
  rfl

end

/-- Settles O18: each command is its step of the flow, in the case of its hypotheses. -/
theorem bootFlow : Obligations.BootFlow := by
  intro s ao
  refine ⟨fun waits => ?_, fun step => ⟨_, rfl, ?_⟩, fun o bad step released => ⟨_, rfl, ?_⟩, fun o bad held => ?_,
    fun o step released => ?_, fun o warm => State.bootApply_warm warm, rfl, fun due up asked passed => ?_⟩
  · rw [exec_bootStart, act_next _ ao, State.bootStart_begins waits]
  · rw [exec_bootSuppliesReady, act_next _ ao, State.bootSupplies_start step]
    rfl
  · rw [exec_bootTrimReadDone, act_next _ ao, State.bootTrimDone_reads bad step released]
  · rw [exec_bootTrimReadDone, act_next _ ao, State.bootTrimDone_held bad held]
  · rw [exec_bootShadowLoaded, act_next _ ao, State.bootShadowDone_applies step released]
  · rw [exec_rstoRelease, live_next _ ao up, State.rstoExpire_due asked passed]
    rfl

end Sys2Proof.Machine
end

section
/-! PROOF. The host port: what a frame does, and the status word (R50–R65). -/

namespace Sys2Proof.Machine

/-! ## Frames (R50, R53, R54, R57–R60) -/

section
variable {s v : State} {f : Frame} {k : Nat}

theorem State.frameOf_eq (own : frameCmd f = some k ∨ frameCmd f = none) : s.frameOf k f = s.hostFrame f := by
  obtain own | own := own <;> simp [State.frameOf, own]

theorem State.frameReason_both (both : f.both = true) : s.frameReason f = 6 := if_pos both

/-- A frame on an idle chip select is judged in the device that it has woken. -/
theorem State.hostFrame_accepts (on : s.power.state ≠ .off) (cmd : frameCmd f = some k)
    (accepted : s.selected.frameReason f = 0) : s.hostFrame f = s.selected.takeFrame f k := by
  refine (if_neg on).trans ?_
  simp only [State.selected] at accepted
  simp only [accepted, cmd, State.selected]

theorem State.hostFrame_both (on : s.power.state ≠ .off) (both : f.both = true) :
    s.hostFrame f = (s.selected.discardOn f.p 6 f).discardOn (Proc.other f.p) 6 f := by
  refine (if_neg on).trans ?_
  simp only [State.frameReason_both both, State.selected]

theorem State.hostFrame_discards (on : s.power.state ≠ .off) (accepted : s.selected.frameReason f ≠ 0)
    (single : s.selected.frameReason f ≠ 6) :
    s.hostFrame f = s.selected.discardOn f.p (s.selected.frameReason f) f := by
  refine (if_neg on).trans ?_
  simp only [State.selected] at accepted single ⊢

theorem State.takeFrame_free (free : v.burst = none) : v.takeFrame f k = v.acceptFrame f k := by
  simp [State.takeFrame, free]

theorem State.takeFrame_noAddr (noAddr : hasAddr k = false) : v.takeFrame f k = v.acceptFrame f k := by
  simp [State.takeFrame, noAddr]

theorem State.takeFrame_waits (addr : hasAddr k = true) (held : v.burst ≠ none) :
    v.takeFrame f k = if f.words = 0 then (v.silent f.p f).countFrame f.p else { v with reads := v.reads ++ [f] } :=
  if_pos ⟨addr, Option.isSome_iff_ne_none.mpr held⟩

/-- A write is BUSY behind a burst (R54), so an accepted one finds none. -/
theorem State.burst_of_accepted_write (cmd : frameCmd f = some k) (write : isWrite k = true) (addr : hasAddr k = true)
    (accepted : v.frameReason f = 0) : v.burst = none := by
  by_contra held
  have busy : hasAddr k = true ∧ v.burst.isSome = true ∧ (isWrite k = true ∨ f.waits.isNone = true) :=
    ⟨addr, Option.isSome_iff_ne_none.mpr held, .inl write⟩
  rw [State.frameReason, cmd] at accepted
  dsimp only at accepted
  rw [if_pos busy] at accepted
  split_ifs at accepted

theorem State.acceptFrame_write {d : Word} (data : frameWords v f = [d]) : v.acceptFrame f 0x02 =
    (((v.silent f.p f).countFrame f.p).logbook 1 f.p (frameAddr f) d).hostWrite f.p (frameAddr f) d := by
  simp only [State.acceptFrame, data, List.headD_cons]

/-- The first word of a burst is applied, or the burst waits, by the clock of its block. -/
theorem State.acceptFrame_burst {d : Word} {rest : List Word} (data : frameWords v f = d :: rest) :
    v.acceptFrame f 0x0A =
      let t := (v.silent f.p f).countFrame f.p
      let u := (t.logbookAt 2 f.p (frameAddr f) d t.chipTime).busWrite (.host f.p) (frameAddr f) d
      if t.clocked (frameAddr f) then
        { u with burst := if rest = [] then u.burst else some ⟨f.p, frameAddr f + 4, rest, t.chipTime⟩ }
      else { t with burst := some ⟨f.p, frameAddr f, d :: rest, t.chipTime⟩ } := by
  simp only [State.acceptFrame, data]
  cases rest <;> rfl

theorem State.burstApply_next {b : Burst} {d : Word} {rest : List Word} (held : s.burst = some b)
    (clocked : s.clocked b.addr = true) (data : b.words = d :: rest) :
    s.burstApply = ((State.logbookAt { s with
      burst := if rest = [] then none else some { b with addr := b.addr + 4, words := rest } } 2 b.p b.addr d b.time).busWrite
        (.host b.p) b.addr d).serveReads := by
  simp only [State.burstApply, held, clocked, data, if_true, List.isEmpty_iff]

end

section
variable {s : State} {f : Frame} {c : Frame → Instr} {k : Nat}

theorem exec_frame (cmd : (c, k) ∈ frameCommands) : exec (c f) s = act s fun s => s.frameOf k f := by
  simp only [frameCommands, List.mem_cons, Prod.mk.injEq, List.not_mem_nil, or_false] at cmd
  obtain ⟨rfl, rfl⟩ | ⟨rfl, rfl⟩ | ⟨rfl, rfl⟩ | ⟨rfl, rfl⟩ | ⟨rfl, rfl⟩ | ⟨rfl, rfl⟩ := cmd <;> rfl

/-- A frame command with the AO domain up ends its frame. -/
theorem exec_frame_ends (ao : s.power.ao = true) (cmd : (c, k) ∈ frameCommands)
    (own : frameCmd f = some k ∨ frameCmd f = none) : exec (c f) s = .next (s.hostFrame f).settle := by
  rw [exec_frame cmd, act_next _ ao, State.frameOf_eq own]

theorem exec_frame_accepts (ao : s.power.ao = true) (on : s.power.state ≠ .off) (cmd : (c, k) ∈ frameCommands)
    (own : frameCmd f = some k) (accepted : s.selected.frameReason f = 0) :
    exec (c f) s = .next (s.selected.takeFrame f k).settle := by
  rw [exec_frame_ends ao cmd (.inl own), State.hostFrame_accepts on own accepted]

end

/-- Settles O19: an accepted frame by its command, a discarded one by its reason. -/
theorem hostFrames : Obligations.HostFrames := by
  rintro s v f ao on rfl
  refine ⟨fun own ok free => ?_, fun own ok free => ?_, fun c k cmd addr _ own ok held => ?_,
    fun d own ok data => ⟨_, rfl, ?_⟩, fun d rest own ok data => ⟨_, _, rfl, rfl, ?_⟩, fun own ok => ?_, fun own ok => ?_,
    fun c k r cmd own reason nz single => ?_, fun c k cmd own both => ?_, fun b d rest held clocked data => ?_⟩
  · rw [exec_frame_accepts ao on (c := .read) (by simp [frameCommands]) own ok, State.takeFrame_free free]
    rfl
  · rw [exec_frame_accepts ao on (c := .readBurst) (by simp [frameCommands]) own ok, State.takeFrame_free free]
    rfl
  · rw [exec_frame_accepts ao on cmd own ok, State.takeFrame_waits addr held]
  · rw [exec_frame_accepts ao on (c := .write) (by simp [frameCommands]) own ok,
      State.takeFrame_free (State.burst_of_accepted_write own rfl rfl ok), State.acceptFrame_write data, State.hostWrite]
  · rw [exec_frame_accepts ao on (c := .writeBurst) (by simp [frameCommands]) own ok,
      State.takeFrame_free (State.burst_of_accepted_write own rfl rfl ok), State.acceptFrame_burst data]
  · rw [exec_frame_accepts ao on (c := .status) (by simp [frameCommands]) own ok, State.takeFrame_noAddr rfl]
    rfl
  · rw [exec_frame_accepts ao on (c := .id) (by simp [frameCommands]) own ok, State.takeFrame_noAddr rfl]
    rfl
  · subst reason
    rw [exec_frame_ends ao cmd own, State.hostFrame_discards on nz single]
  · rw [exec_frame_ends ao cmd own, State.hostFrame_both on both]
  · rw [exec_burstWordApply, act_next _ ao, State.burstApply_next held clocked data]

/-! ## The status word and the counts (R59, R60, R64) -/

theorem b2n_mod_two (b : Bool) : b2n b % 2 ^ 1 = b2n b := by cases b <;> rfl

theorem PowerState.code_mod (p : PowerState) : p.code % 2 ^ 2 = p.code := by cases p <;> rfl

section
variable {s : State} {p : Proc} {f : Frame}

theorem State.countFrame_count (s : State) (p : Proc) :
    (s.countFrame p).f (Fd.HOSTIF_ACCEPT_COUNT (procIx p)) = (s.f (Fd.HOSTIF_ACCEPT_COUNT (procIx p)) + 1) % 2 ^ 32 := by
  rw [State.countFrame, State.f_setF_ne _ _ (by cases p <;> decide)]
  exact State.f_setF_self _ _ (by cases p <;> decide)

theorem State.countFrame_lastok (s : State) (p : Proc) : (s.countFrame p).f (Fd.HOSTIF_STAT_LASTOK (procIx p)) = 1 :=
  State.f_setF_self _ _ (by cases p <;> decide)

theorem State.countFrame_rd {a : Nat} (accept : a ≠ Reg.HOSTIF_ACCEPT (procIx p)) (stat : a ≠ Reg.HOSTIF_STAT (procIx p)) :
    (s.countFrame p).rd a = s.rd a :=
  (State.rd_setF_ne _ _ stat).trans (State.rd_setF_ne _ _ accept)

theorem State.frameReason_busy {c : Nat} (single : f.both = false) (cmd : frameCmd f = some c) (addr : hasAddr c = true)
    (held : s.burst ≠ none) (behind : isWrite c = true ∨ f.waits = none) : s.frameReason f = 7 := by
  simp only [State.frameReason, single, cmd, Bool.false_eq_true, if_false]
  exact if_pos ⟨addr, Option.isSome_iff_ne_none.mpr held, behind.imp_right Option.isNone_iff_eq_none.mpr⟩

theorem hasAddr_of_not_cmd {c : Nat} (unknown : isCmd c = false) : hasAddr c = false := by
  simp only [isCmd, hasAddr, List.contains_cons, Bool.or_eq_false_iff] at unknown ⊢
  tauto

theorem State.frameReason_command {c : Nat} (single : f.both = false) (cmd : frameCmd f = some c) (unknown : isCmd c = false) :
    s.frameReason f = 3 := by
  simp [State.frameReason, single, cmd, unknown, hasAddr_of_not_cmd unknown]

theorem State.frameReason_length {c : Nat} (single : f.both = false) (cmd : frameCmd f = some c) (known : isCmd c = true)
    (noAddr : hasAddr c = false) (short : lengthOk s f c = false) : s.frameReason f = 1 := by
  simp [State.frameReason, single, cmd, known, noAddr, short]

end

/-- Settles O20: each field of the status word is read past those put in after it; the discard reasons are the first branches
of `frameReason`. -/
theorem hostStatus : Obligations.HostStatus := by
  intro s p f
  refine ⟨?_, ?_, ?_, ?_, ?_, ?_, ?_, s.countFrame_count p, s.countFrame_lastok p, fun a => State.countFrame_rd,
    State.frameReason_both, fun c => State.frameReason_busy, fun c => State.frameReason_command, fun c => State.frameReason_length⟩
  all_goals
    simp (disch := decide) only [State.statusWord, getBits_putBits_apart, getBits_putBits_self, b2n_mod_two,
      PowerState.code_mod]

end Sys2Proof.Machine
end

section
/-! PROOF. Register writes, aliases and plan rows (R8–R10, R67, R70, R102), and a host's thread commands (R94, R98,
R100–R102). -/

namespace Sys2Proof.Machine

/-! ## Writes and aliases (R8–R10, R67) -/

section
variable {s : State} {w : Writer} {a k : Nat} {d : Word} {r : RegRow}

theorem State.regWrite_allowed (m : s.mayWrite w a = true) : s.regWrite w a d = s.busWrite w a d := if_pos m

theorem State.regWrite_discarded (m : s.mayWrite w a = false) : s.regWrite w a d = s :=
  if_neg (ne_true_of_eq_false m)

theorem busWrite_set {pg : Nat} (page : regionOf a = .page pg) (set : accessOf w a = some (k, r, 1)) (sc : r.sc ≠ 0)
    (other : k ≠ Reg.PLAN_SEM) : s.busWrite w a d = s.scWrite k (s.rd k ||| (d &&& r.sc)) := by
  rw [State.busWrite, page]
  simp only [set]
  rw [if_neg (by decide), if_neg sc, if_neg other, if_pos trivial]

theorem busWrite_clr {pg : Nat} (page : regionOf a = .page pg) (clr : accessOf w a = some (k, r, 2)) (sc : r.sc ≠ 0)
    (other : k ≠ Reg.PLAN_SEM) : s.busWrite w a d = s.scWrite k (s.rd k &&& ~~~ (d &&& r.sc)) := by
  rw [State.busWrite, page]
  simp only [clr]
  rw [if_neg (by decide), if_neg sc, if_neg other, if_neg (by decide)]

theorem busWrite_readOnly {pg : Nat} (page : regionOf a = .page pg) (base : accessOf w a = some (k, r, 0)) (sc : r.sc = 0)
    (readOnly : r.writable = false) : s.busWrite w a d = s := by
  simp [State.busWrite, page, base, sc, readOnly]

end

/-! ## Plan rows (R70, R102) -/

section
variable {s : State} {p : Proc} {d : Word}

/-- The window of plan memory (R68). -/
theorem regionOf_planMem {a : Nat} (lo : 0x100000 ≤ a) (hi : a < 0x120000) : regionOf a = .planMem := by
  rw [regionOf, if_neg (by omega), if_neg (by omega), if_pos ⟨lo, hi⟩]

theorem busWrite_planLower (r : Fin 16384) (writable : s.planLocked = false) :
    s.busWrite (.host p) (0x100000 + 8 * r.val) d = s.planLower p r.val d := by
  have row : (0x100000 + 8 * r.val - 0x100000) / 8 = r.val := by omega
  rw [State.busWrite, regionOf_planMem (by omega) (by omega)]
  dsimp only [State.planWrite]
  rw [if_neg (ne_true_of_eq_false writable), if_pos (by omega), row]

theorem busWrite_planUpper (r : Fin 16384) (writable : s.planLocked = false) :
    s.busWrite (.host p) (0x100000 + 8 * r.val + 4) d = s.planUpper p r.val d := by
  have row : (0x100000 + 8 * r.val + 4 - 0x100000) / 8 = r.val := by omega
  rw [State.busWrite, regionOf_planMem (by omega) (by omega)]
  dsimp only [State.planWrite]
  rw [if_neg (ne_true_of_eq_false writable), if_neg (by omega), row]

theorem State.planUpper_staged {r : Nat} {l : Word} (staged : (s.port p).staged = some (r, l)) :
    s.planUpper p r d = ((s.setPort p { s.port p with staged := none }).setRow r l d).setF Fd.PLAN_STAT_PATCHED 1 := by
  simp only [State.planUpper, staged, if_true]

theorem State.planUpper_unstaged {r : Nat} (other : ∀ l, (s.port p).staged ≠ some (r, l)) :
    s.planUpper p r d =
      ((s.setPort p { s.port p with staged := none }).setRow r (s.memWord (rowAddr r)) d).setF Fd.PLAN_STAT_PATCHED 1 := by
  unfold State.planUpper
  split
  next r' l staged =>
    have ne : r' ≠ r := fun e => other l (e ▸ staged)
    rw [if_neg ne]
  next => rfl

end

/-- Settles O22: the write of its address, by kind of address and by half of a plan row. -/
theorem registerWrites : Obligations.RegisterWrites := by
  intro s w a d ao
  refine ⟨fun m => ?_, fun m => ?_, fun pg k r page set sc other => busWrite_set page set sc other,
    fun pg k r page clr sc other => busWrite_clr page clr sc other, fun pg k r page base sc ro => busWrite_readOnly page base sc ro,
    fun p r m writable => ?_, fun p r l m writable staged => ?_, fun p r m writable other => ?_⟩
  · rw [exec_registerWrite, write_next ao m]
  · rw [exec_registerWrite, write, act_next _ ao, State.regWrite_discarded m]
  · rw [exec_planRowLowerWrite, write_word ao m (by unfold busWordAddr; omega), busWrite_planLower r writable, State.planLower]
  · rw [exec_planRowUpperWrite, write_word ao m (by unfold busWordAddr; omega), busWrite_planUpper r writable,
      State.planUpper_staged staged]
  · rw [exec_planRowUpperWrite, write_word ao m (by unfold busWordAddr; omega), busWrite_planUpper r writable,
      State.planUpper_unstaged other]

/-! ## Host commands to threads (R94, R98, R100–R102) -/

@[simp] theorem State.setBytes_eng (s : State) (a : Nat) (bs : List Byte) : (s.setBytes a bs).eng = s.eng := by
  induction bs generalizing s a with
  | nil => rfl
  | cons b bs ih => rw [State.setBytes, ih, State.setByte_eng]

@[simp] theorem State.pulse_eng (s : State) (k : Nat) : (s.pulse k).eng = s.eng := by
  unfold State.pulse
  split <;> rfl

theorem State.logbook_eng (s : State) (kind : Nat) (p : Proc) (a : Nat) (d : Word) : (s.logbook kind p a d).eng = s.eng := by
  unfold State.logbook State.logbookAt
  dsimp only
  split <;> simp only [State.pulse_eng, State.setF_eng, State.setBytes_eng]

theorem State.th_logbook (s : State) (kind : Nat) (p : Proc) (a : Nat) (d : Word) (t : Nat) :
    (s.logbook kind p a d).th t = s.th t := by
  rw [State.th, State.logbook_eng, ← State.th]

section
variable {s : State} {p : Proc} {t : Fin 16}

/-- The command word of `PLAN.THCMD` for action `n` is entered in the Logbook and acts on thread `t`. -/
theorem thcmd_acts (ao : s.power.ao = true) (m : s.mayWrite (.host p) Reg.PLAN_THCMD = true) (d : Word) :
    thcmd s p d = .next (thcmdWrite (s.logbook 1 p Reg.PLAN_THCMD d) d).settle := by
  rw [thcmd, act_next _ ao, if_pos m, busWrite_thcmd]

theorem thcmdWrite_halt (s : State) (t : Fin 16) : thcmdWrite s (thcmdWord 1 t 0) = s.setTh t (s.th t).halted := by
  obtain ⟨thread, action, _⟩ := thcmd_bits 1 t 0 (by decide) t.isLt (by decide)
  simp only [thcmdWrite, thread, action, thcmdHalt]

theorem thcmdWrite_start (s : State) (t : Fin 16) (pc : BitVec 14) :
    thcmdWrite s (thcmdWord 2 t pc.toNat) = if (s.th t).startable then s.setTh t ((s.th t).started pc) else s := by
  obtain ⟨thread, action, target⟩ := thcmd_bits 2 t pc.toNat (by decide) t.isLt pc.isLt
  simp only [thcmdWrite, thread, action, target, thcmdStart, BitVec.ofNat_toNat, BitVec.setWidth_eq]

theorem thcmdWrite_resume (s : State) (t : Fin 16) :
    thcmdWrite s (thcmdWord 3 t 0) = if (s.th t).startable then s.setTh t ((s.th t).resumed false) else s := by
  obtain ⟨thread, action, _⟩ := thcmd_bits 3 t 0 (by decide) t.isLt (by decide)
  simp only [thcmdWrite, thread, action, thcmdResume]

theorem thcmdWrite_step (s : State) (t : Fin 16) :
    thcmdWrite s (thcmdWord 4 t 0) = if (s.th t).startable then s.setTh t ((s.th t).resumed true) else s := by
  obtain ⟨thread, action, _⟩ := thcmd_bits 4 t 0 (by decide) t.isLt (by decide)
  simp only [thcmdWrite, thread, action, thcmdStep]

theorem busWrite_postSet (s : State) (p : Proc) (d : Word) :
    s.busWrite (.host p) (Reg.PLAN_POST + 0x400) d = s.wr Reg.PLAN_POST (s.rd Reg.PLAN_POST ||| (d &&& 0xFFFF)) :=
  (busWrite_set (pg := 2) rfl rfl (by decide) (by decide)).trans rfl

theorem busWrite_semRelease (s : State) (p : Proc) (d : Word) :
    s.busWrite (.host p) (Reg.PLAN_SEM + 0x800) d = List.foldl State.freeSem s (bitList 16 (d &&& s.rd Reg.PLAN_SEM).toNat) := by
  rfl

theorem busWrite_planCtrl (s : State) (w : Writer) :
    s.busWrite w Reg.PLAN_CTRL 1 = s.wr Reg.PLAN_CTRL (s.rd Reg.PLAN_CTRL ||| 1) :=
  (busWrite_at (p := 2) (k := Reg.PLAN_CTRL) rfl (by decide) (by decide) rfl rfl rfl).trans rfl

theorem thwWrite_stopped {m : Fin 8} {d : Word} (stopped : (s.th t).startable = true) :
    thwWrite s t m d = s.setTh t ((s.th t).setReg m d) := if_pos stopped

theorem thwWrite_live {m : Fin 8} {d : Word} (live : (s.th t).startable = false) : thwWrite s t m d = s :=
  if_neg (ne_true_of_eq_false live)

end

/-- Settles O23: a thread command by its action and the thread's state; every other command by its register. -/
theorem threadCommands : Obligations.ThreadCommands := by
  intro s p t ao
  refine ⟨?_, fun w m d ok stopped => ?_, fun w m d ok live => ?_, fun d ok => ?_, fun d ok => ?_, fun w ok => ?_⟩
  · rintro v rfl ok
    refine ⟨fun pc stopped => ?_, fun pc live => ?_, fun stopped => ?_, fun stopped => ?_, fun wait => ?_, fun run idle => ?_,
      fun run ⟨b, busy, ne⟩ => ?_⟩
    · rw [exec_thcmdStart, thcmd_acts ao ok, thcmdWrite_start, State.th_logbook, if_pos stopped, Thread.started]
    · rw [exec_thcmdStart, thcmd_acts ao ok, thcmdWrite_start, State.th_logbook, if_neg (ne_true_of_eq_false live)]
    · rw [exec_thcmdResume, thcmd_acts ao ok, thcmdWrite_resume, State.th_logbook, if_pos stopped, Thread.resumed]
    · rw [exec_thcmdStep, thcmd_acts ao ok, thcmdWrite_step, State.th_logbook, if_pos stopped, Thread.resumed]
    · rw [exec_thcmdHalt, thcmd_acts ao ok, thcmdWrite_halt, State.th_logbook, Thread.halted_wait wait]
    · rw [exec_thcmdHalt, thcmd_acts ao ok, thcmdWrite_halt, State.th_logbook, Thread.halted_idle run idle]
    · rw [exec_thcmdHalt, thcmd_acts ao ok, thcmdWrite_halt, State.th_logbook, Thread.halted_busy run busy ne]
  · rw [exec_threadRegWrite, write_word ao ok (busWordAddr_thw t m), busWrite_thw, thwWrite_stopped stopped]
  · rw [exec_threadRegWrite, write_word ao ok (busWordAddr_thw t m), busWrite_thw, thwWrite_live live]
  · rw [exec_hostPostSet, write_word ao ok rfl, busWrite_postSet]
  · rw [exec_semRelease, write_word ao ok rfl, busWrite_semRelease]
  · rw [exec_wlockSet, write_word ao ok rfl, busWrite_planCtrl]

end Sys2Proof.Machine
end

section
/-! PROOF. Plan loads (R103–R108, R383). -/

namespace Sys2Proof.Machine

section
variable {s : State} {src : PlanSrc} {l : Load}

/-! ## The start of a load -/

theorem busWrite_planLoad (s : State) (w : Writer) (d : Word) : s.busWrite w Reg.PLAN_LOAD d = s.loadWrite d :=
  (busWrite_at (p := 2) (k := Reg.PLAN_LOAD) rfl (by decide) (by decide) rfl rfl rfl).trans rfl

/-- A write of PLAN.LOAD that names a source starts its load. -/
theorem write_planLoad {w : Writer} {d : Word} (ao : s.power.ao = true) (m : s.mayWrite w Reg.PLAN_LOAD = true)
    (named : planSrcOf (getBits d 0 2) = some src) : write s w Reg.PLAN_LOAD d = .next (s.loadStart src).settle := by
  rw [write_word ao m rfl, busWrite_planLoad, State.loadWrite, named]

theorem State.loadStart_busy (busy : s.eng.load = some l) : s.loadStart src = s := if_pos (by rw [busy]; rfl)

theorem State.loadStart_begins (idle : s.eng.load = none) (port : src = .otp ∨ s.f Fd.FLASH_CTRL_EN ≠ 0) :
    s.loadStart src = s.loadBegun src := by
  refine (if_neg (by rw [idle]; decide)).trans ((if_neg fun ⟨flash, off⟩ => ?_).trans rfl)
  exact port.elim flash fun on => on off

theorem State.loadStart_portOff (idle : s.eng.load = none) (flash : src ≠ .otp) (off : s.f Fd.FLASH_CTRL_EN = 0) :
    s.loadStart src = ((s.setF Fd.PLAN_LOADSTAT_SRC src.code).setF Fd.PLAN_LOADSTAT_RESULT 2).flashFail 1 :=
  (if_neg (by rw [idle]; decide)).trans (if_pos ⟨flash, off⟩)

/-! ## The stages of an image's load -/

theorem State.loadHalted_all (load : s.eng.load = some l) (stage : l.stage = .halting)
    (halted : ∀ t : Fin 16, (s.th t).st = .halted ∨ (s.th t).st = .fault) :
    s.loadHalted = s.setStage { l with stage := .header } := by
  have all : (List.range 16).all (fun t => (s.th t).st == .halted || (s.th t).st == .fault) = true := by
    rw [List.all_eq_true]
    intro t ht
    obtain h | h := halted ⟨t, List.mem_range.mp ht⟩ <;> simp [h]
  simp only [State.loadHalted, load]
  exact if_pos ⟨stage, all⟩

section
variable (load : s.eng.load = some l) (stage : l.stage = .header)
include load stage

theorem State.loadHeader_good {h : List Byte} (flash : l.src ≠ .otp) (free : s.imageWaits l.src = false)
    (read : s.imageBytes l.src 0 0x40 = some h) (good : headerGood h = true) :
    s.loadHeader true = s.setStage { l with
      stage := .pass1, rows := recField h 8 4, planid := BitVec.ofNat 32 (recField h 0xC 4),
      version := BitVec.ofNat 32 (recField h 0x10 4) } := by
  simp [State.loadHeader, load, stage, flash, free, read, good]

theorem State.loadHeader_bad {h : List Byte} (flash : l.src ≠ .otp) (free : s.imageWaits l.src = false)
    (read : s.imageBytes l.src 0 0x40 = some h) (bad : headerGood h = false) : s.loadHeader true = s.loadFail l 3 := by
  simp [State.loadHeader, load, stage, flash, free, read, bad]

theorem State.loadHeader_unread (flash : l.src ≠ .otp) (free : s.imageWaits l.src = false) :
    s.loadHeader false = s.loadFail l 2 := by
  simp only [State.loadHeader, load]
  rw [if_pos ⟨stage, flash, by rw [free]; rfl⟩]
  cases s.imageBytes l.src 0 0x40 <;> rfl

omit stage in
theorem State.loadHeader_waits (waits : s.imageWaits l.src = true) (ok : Bool) : s.loadHeader ok = s := by
  simp only [State.loadHeader, load]
  exact if_neg fun ⟨_, _, free⟩ => by rw [waits] at free; exact absurd free (by decide)

theorem State.otpHeader_good {o : OtpSense} {u : State} {w : Word} (otp : l.src = .otp)
    (read : s.otpRead o 1534 = (u, some w)) (nz : w ≠ 0) (lo : 1 ≤ getBits w 0 16) (hi : getBits w 0 16 ≤ 511) :
    s.otpHeader o = u.setStage { l with
      stage := .otpRead, rows := getBits w 0 16, version := BitVec.ofNat 32 (getBits w 16 16) } := by
  have range : ¬(getBits w 0 16 < 1 ∨ 511 < getBits w 0 16) := by omega
  simp only [State.otpHeader, load]
  rw [if_pos ⟨stage, otp⟩, read]
  exact (if_neg nz).trans (if_neg range)

theorem State.otpHeader_empty {o : OtpSense} {u : State} (otp : l.src = .otp) (read : s.otpRead o 1534 = (u, some 0)) :
    s.otpHeader o = u.loadFail l 9 := by
  simp only [State.otpHeader, load]
  rw [if_pos ⟨stage, otp⟩, read]
  exact if_pos rfl

end

section
variable (load : s.eng.load = some l)
include load

theorem State.loadPass1_accepts {h body c : List Byte} {o : OtpSense} {u : State} {ws : List (Option Word)} {w : Bool}
    (stage : l.stage = .pass1) (header : s.imageBytes l.src 0 0x40 = some h)
    (rows : s.imageBytes l.src 0x40 (8 * l.rows) = some body) (sum : s.imageBytes l.src (0x40 + 8 * l.rows) 4 = some c)
    (bcrc : crc32c body = natBE c) (cls : recField h 6 1 = 0xFF ∨ recField h 6 1 = s.f Fd.SYS_CONFIG_CLASS)
    (reads : s.otpReads o (otpWords 4) = (u, ws))
    (entry : imageCheck (u.otp.locked 4) ws l.planid l.version (recField h 6 1) l.rows (crc32c body) = (1, w)) :
    s.loadPass1 true o = u.setStage { l with stage := .pass2, bcrc := crc32c body, unsealed := w } := by
  have known : ¬(recField h 6 1 ≠ 0xFF ∧ recField h 6 1 ≠ s.f Fd.SYS_CONFIG_CLASS) := by tauto
  simp only [State.loadPass1, load, header, rows, sum]
  rw [if_pos stage, if_neg (by decide), if_neg (not_not_intro bcrc), if_neg known, reads]
  simp only [entry]

theorem State.loadPass2_good {body : List Byte} (stage : l.stage = .pass2)
    (rows : s.imageBytes l.src 0x40 (8 * l.rows) = some body) (bcrc : crc32c body = l.bcrc) :
    s.loadPass2 true true = (s.fillPlan (State.loadPass2.planOrder body)).loadDone l l.planid := by
  simp [State.loadPass2, load, stage, rows, bcrc]

theorem State.loadPass2_differs {body : List Byte} (stage : l.stage = .pass2)
    (rows : s.imageBytes l.src 0x40 (8 * l.rows) = some body) :
    s.loadPass2 true false = (s.fillPlan (State.loadPass2.planOrder body)).loadFail l 8 := by
  simp [State.loadPass2, load, stage, rows]

theorem State.otpPlanRead_good {o : OtpSense} {u : State} {ws : List (Option Word)} {vs : List Word}
    (stage : l.stage = .otpRead) (reads : s.otpReads o (otpWords 3) = (u, ws)) (whole : ws.mapM id = some vs)
    (good : closingGood vs = true) : s.otpPlanRead o = u.setStage { l with stage := .otpWrite, staging := vs } := by
  simp only [State.otpPlanRead, load]
  rw [if_pos stage, reads]
  simp only [whole]
  exact if_pos good

theorem State.otpPlanWritten_done (stage : l.stage = .otpWrite) :
    s.otpPlanWritten = (s.fillPlan ((l.staging.take (2 * l.rows)).flatMap fun w => bytesBE 4 w.toNat)).loadDone l 0 := by
  simp only [State.otpPlanWritten, load]
  exact if_pos stage

end

end

/-- Settles O24: the start of a load by its source and the port, then each stage by what was read. -/
theorem planLoads : Obligations.PlanLoads := by
  refine fun s ao => ⟨fun w m idle => ⟨?_, fun on => ⟨?_, ?_⟩, fun off => ⟨?_, ?_⟩⟩, fun w l m busy => ?_, fun l up load =>
    ⟨fun stage halted => ?_, fun h stage flash free read good => ?_, fun h stage flash free read bad => ?_,
      fun stage flash free => ?_, fun _ waits ok => ?_,
      fun h body c o u ws w stage header rows sum bcrc cls reads entry => ?_, fun body stage rows bcrc => ?_,
      fun body stage rows => ?_, fun o u w stage otp read nz lo hi => ?_, fun o u stage otp read => ?_,
      fun o u ws vs stage reads whole good => ?_, fun stage => ?_⟩⟩
  · rw [exec_planLoadOtp, write_planLoad ao m (src := .otp) rfl, State.loadStart_begins idle (.inl rfl)]
  · rw [exec_planLoadPlanA, write_planLoad ao m (src := .planA) rfl, State.loadStart_begins idle (.inr on)]
  · rw [exec_planLoadPlanB, write_planLoad ao m (src := .planB) rfl, State.loadStart_begins idle (.inr on)]
  · rw [exec_planLoadPlanA, write_planLoad ao m (src := .planA) rfl, State.loadStart_portOff idle (by decide) off, PlanSrc.code]
  · rw [exec_planLoadPlanB, write_planLoad ao m (src := .planB) rfl, State.loadStart_portOff idle (by decide) off, PlanSrc.code]
  · rw [exec_planLoadOtp, write_planLoad ao m (src := .otp) rfl, State.loadStart_busy busy]
  · rw [exec_loadThreadsHalted, live_next _ ao up, State.loadHalted_all load stage halted]
  · rw [exec_loadHeaderRead, live_next _ ao up, State.loadHeader_good load stage flash free read good]
  · rw [exec_loadHeaderRead, live_next _ ao up, State.loadHeader_bad load stage flash free read bad]
  · rw [exec_loadHeaderRead, live_next _ ao up, State.loadHeader_unread load stage flash free]
  · rw [exec_loadHeaderRead, live_next _ ao up, State.loadHeader_waits load waits]
  · rw [exec_loadPass1Done, live_next _ ao up, State.loadPass1_accepts load stage header rows sum bcrc cls reads entry]
  · rw [exec_loadPass2Done, live_next _ ao up, State.loadPass2_good load stage rows bcrc]
  · rw [exec_loadPass2Done, live_next _ ao up, State.loadPass2_differs load stage rows]
  · rw [exec_otpPlanHeaderRead, live_next _ ao up, State.otpHeader_good load stage otp read nz lo hi]
  · rw [exec_otpPlanHeaderRead, live_next _ ao up, State.otpHeader_empty load stage otp read]
  · rw [exec_otpPlanReadDone, live_next _ ao up, State.otpPlanRead_good load stage reads whole good]
  · rw [exec_otpPlanWriteDone, live_next _ ao up, State.otpPlanWritten_done load stage]

/-! ## The end of a load (R20, R107) -/

/-- A load that ends well as its registers are written, before the loading state ends. -/
def State.planTaken (s : State) (l : Load) (id : Word) : State :=
  let u := s.setEng { s.eng with threads := [], semOwner := [] }
  let u := ((((u.wr Reg.PLAN_SEM 0).wr Reg.PLAN_POST 0).wr Reg.PLAN_PLANID id).wr Reg.PLAN_PLANVER l.version)
  let u := ((u.setF Fd.SYS_STAT_PLANSRC l.src.code).setF Fd.PLAN_LOADSTAT_ROWS l.rows).setF Fd.PLAN_LOADSTAT_RESULT 1
  (u.setFb Fd.PLAN_STAT_UNSEALED l.unsealed).setF Fd.PLAN_STAT_PATCHED 0

theorem State.loadDone_eq (s : State) (l : Load) (id : Word) :
    s.loadDone l id = ((s.planTaken l id).loadOver).setTh 0 { Thread.init with st := .run } := rfl

theorem State.loadOver_eng (s : State) : s.loadOver.eng = { s.eng with load := none } := by
  unfold State.loadOver State.discBegin
  dsimp only
  split_ifs <;> rfl

/-- Without a discovery owed the end of a load writes only its status. -/
theorem State.loadOver_plain {s : State} (owed : s.xflash.discOwed = false) :
    s.loadOver = ((s.setEng { s.eng with load := none }).setF Fd.PLAN_STAT_LOADING 0).setF Fd.PLAN_LOADSTAT_BUSY 0 :=
  if_neg (ne_true_of_eq_false owed)

theorem PlanSrc.code_mod (src : PlanSrc) : src.code % 2 ^ 2 = src.code := by cases src <;> rfl

/-- The registers that a load which ends well has written, read past the writes that follow their own. -/
theorem State.planTaken_reads (s : State) (l : Load) (id : Word) : ∃ u : State, u = s.planTaken l id ∧
    u.rd Reg.PLAN_SEM = 0 ∧ u.rd Reg.PLAN_POST = 0 ∧ u.rd Reg.PLAN_PLANID = id ∧ u.rd Reg.PLAN_PLANVER = l.version ∧
    u.f Fd.SYS_STAT_PLANSRC = l.src.code ∧ u.f Fd.PLAN_LOADSTAT_ROWS = l.rows % 2 ^ Fd.PLAN_LOADSTAT_ROWS.width ∧
    u.f Fd.PLAN_LOADSTAT_RESULT = 1 ∧ u.f Fd.PLAN_STAT_PATCHED = 0 ∧ u.f Fd.PLAN_STAT_UNSEALED = b2n l.unsealed := by
  refine ⟨_, rfl, ?_⟩
  simp (disch := decide) only [State.setFb, State.rd_setF_ne, State.rd_wr_ne, State.rd_wr_self, State.f_setF_ne,
    State.f_setF_apart, State.f_setF_self, State.planTaken, PlanSrc.code_mod, b2n_mod_two, true_and, and_true]
  decide

/-- Settles O25: the threads and semaphores by the engine that `planTaken` leaves; the registers are those that it has
written, and the end of the loading state. -/
theorem loadDone : Obligations.LoadDone := by
  intro s l id
  obtain ⟨u, taken, sem, post, planid, version, source, rows, result, patched, unsealed⟩ := s.planTaken_reads l id
  have threads : u.eng.threads = [] := by rw [taken]; rfl
  have owners : u.eng.semOwner = [] := by rw [taken]; rfl
  have owed : u.xflash.discOwed = s.xflash.discOwed := by rw [taken]; rfl
  refine ⟨_, rfl, ?_⟩
  rw [State.loadDone_eq, ← taken, ← owed]
  refine ⟨State.th_setTh_self _ _ _, fun t ne => ?_, ?_, ?_, fun none => ?_⟩
  · rw [State.th_setTh_ne _ _ ne, State.th, u.loadOver_eng, threads]
    rfl
  · rw [← owners, State.setTh, u.loadOver_eng]
  · rw [State.setTh, u.loadOver_eng]
  · rw [State.loadOver_plain none]
    simp (disch := decide) only [State.rd_setTh, State.f_setTh, State.rd_setEng, State.f_setEng, State.rd_setF_ne,
      State.f_setF_ne, State.f_setF_apart, State.f_setF_self, sem, post, planid, version, source, rows, result, patched,
      unsealed, true_and, and_true]
    decide

end Sys2Proof.Machine
end

section
/-! PROOF. The multiphase converter: roles, enables, targets, starts and stops (R112, R113, R119–R124). -/

namespace Sys2Proof.Machine

/-! ## What a loop keeps -/

@[simp] theorem State.loop_setLoop_self (s : State) (n : Nat) (x : Loop) : (s.setLoop n x).loop n = x := tget_tset_self _ _ _ _

theorem State.loop_setF (s : State) (fd : Fld) (v n : Nat) : (s.setF fd v).loop n = s.loop n := rfl

theorem State.lstate_setLoop (s : State) (n : Nat) (x : Loop) (m : Nat) : (s.setLoop n x).lstate m = s.lstate m := rfl

/-! ## Roles (R112, R113) -/

section
variable {s : State} {k : Nat} {d : Word}

theorem busWordAddr_phaseAssign (k : Fin 16) : busWordAddr (Reg.PHASE_ASSIGN k) = Reg.PHASE_ASSIGN k := by revert k; decide

theorem State.phaseAssign_takes (ok : s.assignReason k (getBits d 4 2) (getBits d 0 2) = 0) :
    s.phaseAssign k d =
      let u := (s.setRole k (getBits d 4 2)).setF (Fd.PHASE_ASSIGN_LOOP k) (getBits d 0 2)
      (u.setF (Fd.LOOP_STAT_NACT (getBits d 0 2)) (u.activeOf (getBits d 0 2)).length).probeAbort
        (s.f (Fd.PHASE_ASSIGN_LOOP k)) 9 := by
  refine (if_pos ok).trans ?_
  simp only [State.assignWrite, ok]

theorem State.phaseAssign_refuses {r : Nat} (reason : s.assignReason k (getBits d 4 2) (getBits d 0 2) = r) (nz : r ≠ 0) :
    s.phaseAssign k d = s.convRefuse r (getBits d 0 2) k := by
  subst reason
  refine (if_neg nz).trans ?_
  simp only [State.assignWrite]

end

/-! ## Enables (R119, R122, R197) -/

section
variable {s u : State} {n : Nat} {d : Word} {r : Bool}

section
variable (on : bit d 0 = true) (asked : (s.loopCtrlWrite n d).slotOn n = (u, r))
include on asked

theorem State.loopCtrl_pends (stopping : s.lstate n = lpSoftoff ∨ s.lstate n = lpCrowbar) :
    s.loopCtrl n d = u.setPend n true := by
  simp only [State.loopCtrl, on, if_true, asked, stopping]

theorem State.loopCtrl_asks (soft : s.lstate n ≠ lpSoftoff) (bar : s.lstate n ≠ lpCrowbar)
    (taken : r = false ∨ u.f (Fd.SEQ_SLOTSTAT_RREASON n) ≠ 4) : s.loopCtrl n d = u := by
  have other : ¬(r = true ∧ u.f (Fd.SEQ_SLOTSTAT_RREASON n) = 4) := by
    rintro ⟨rfl, reason⟩
    exact taken.elim (by decide) fun ne => ne reason
  simp only [State.loopCtrl, on, if_true, asked, soft, bar, or_self, if_false]
  exact if_neg other

theorem State.loopCtrl_refused (soft : s.lstate n ≠ lpSoftoff) (bar : s.lstate n ≠ lpCrowbar) (refused : r = true)
    (reason : u.f (Fd.SEQ_SLOTSTAT_RREASON n) = 4) : s.loopCtrl n d = (s.slotOn n).1 := by
  simp only [State.loopCtrl, on, if_true, asked, soft, bar, or_self, if_false, refused, reason, and_self]

end

theorem State.loopCtrl_off (off : bit d 0 = false) (taken : u = (s.loopCtrlWrite n d).slotOffReq n)
    (bar : u.lstate n ≠ lpCrowbar) : s.loopCtrl n d = u := by
  subst taken
  simp only [State.loopCtrl, off, Bool.false_eq_true, if_false, bar]

theorem bit_or_one (d : Word) : bit (d ||| 1) 0 = true := by
  rw [bit, BitVec.getLsbD_or]
  exact Bool.or_true _

theorem bit_and_not_one (d : Word) : bit (d &&& ~~~1) 0 = false := by
  rw [bit, BitVec.getLsbD_and]
  exact Bool.and_false _

end

/-! ## The reference (R120–R123) -/

theorem divDen_cases (d : Nat) : divDen d = 1 ∨ divDen d = 4 ∨ divDen d = 8 := by
  unfold divDen
  split
  · exact .inl rfl
  · exact .inr (.inl rfl)
  · exact .inr (.inr rfl)

/-- At a DAC code REFNOW shows the output of that code, and the field holds it. -/
theorem refShown_dacFine {den code : Nat} (pos : 0 < den) :
    refShown den (dacFine den code) false = dacMv den code := by
  have up : dacFine den code - dacFine den 0 = code * (400000 * den) := by
    unfold dacFine
    rw [← Nat.sub_mul, ← Nat.mul_assoc, Nat.add_sub_add_left, Nat.mul_zero, Nat.sub_zero, Nat.mul_comm code]
  have above : ¬dacFine den code < dacFine den 0 := by
    unfold dacFine
    exact Nat.not_lt.mpr (Nat.mul_le_mul_right _ (by omega))
  rw [refShown, if_neg above, up]
  simp only [Bool.false_eq_true, if_false, Nat.mul_div_cancel _ (show 0 < 400000 * den by omega)]

theorem dacMv_fits {den code : Nat} (range : den ≤ 8) (bound : code < 1024) : dacMv den code ≤ 0xFFFF := by
  have : (6400 + 25 * code) * den ≤ 32000 * 8 := Nat.mul_le_mul (by omega) range
  unfold dacMv
  omega

/-- The reference stands at the target's DAC code. -/
theorem State.refLand_eq (s : State) (n : Fin 4) :
    s.refLand n = (s.setF (Fd.LOOP_REFNOW_MV n) (dacMv (s.loopDen n) (s.f (Fd.LOOP_TARGET_CODE n)))).setLoop n
      { s.loop n with refFine := dacFine (s.loopDen n) (s.f (Fd.LOOP_TARGET_CODE n)) } := by
  have bound : s.f (Fd.LOOP_TARGET_CODE n) < 1024 := Nat.mod_lt _ (by revert n; decide)
  have den := divDen_cases (s.f (Fd.LOOP_CTRL_DIV n))
  have pos : 0 < s.loopDen n := by unfold State.loopDen; omega
  have range : s.loopDen n ≤ 8 := by unfold State.loopDen; omega
  rw [State.refLand, State.setRef, refShown_dacFine pos, Nat.min_eq_right (dacMv_fits range bound)]

section
variable {s : State} {n : Fin 4}

theorem State.targetWrite_eq (s : State) (n : Fin 4) (d : Word) :
    s.targetWrite n d = ((s.setF (Fd.LOOP_TARGET_MV n) (getBits d 0 16)).setF (Fd.LOOP_TARGET_CODE n)
      (dacCode (s.loopDen n) (getBits d 0 16))).setLoop n { s.loop n with
        rate := s.f (Fd.LOOP_SLEW_RATE n), moving := true, ovDue := none,
        ovBase := if s.refMoves n = true ∧ getBits d 0 16 < s.f (Fd.LOOP_REFNOW_MV n) then s.f (Fd.LOOP_REFNOW_MV n)
          else s.ovHeld n } := by
  have slew : (Fd.LOOP_SLEW_RATE n).addr ≠ (Fd.LOOP_TARGET_MV n).addr := by revert n; decide
  have base : (if s.refMoves n = true then s.moveBase n (s.f (Fd.LOOP_REFNOW_MV n)) (getBits d 0 16) else s.ovHeld n) =
      if s.refMoves n = true ∧ getBits d 0 16 < s.f (Fd.LOOP_REFNOW_MV n) then s.f (Fd.LOOP_REFNOW_MV n) else s.ovHeld n := by
    unfold State.moveBase
    rw [← ite_and]
  rw [State.targetWrite]
  simp only [State.f_setF_ne _ _ slew, State.f_setF_ne (fd := Fd.LOOP_TARGET_CODE n) _ _ slew, base]

theorem State.slewDone_lands (moves : s.refMoves n = true) (moving : (s.loop n).moving = true) :
    s.slewDone n = ((s.refLand n).setLoop n { (s.refLand n).loop n with
      moving := false, ovDue := some ((s.refLand n).ticks + 4) }).ev (Fd.LOOP_EVRAW_SLEWDONE n) :=
  if_pos (by rw [moves, moving]; rfl)

theorem State.loopStarted_runs {vout : Nat} (start : s.lstate n = lpStart) (moving : (s.loop n).moving = true)
    (window : s.pgWindow n vout (dacMv (s.loopDen n) (s.f (Fd.LOOP_TARGET_CODE n))) = true) :
    s.loopStarted n vout =
      let v := (((s.setF (Fd.LOOP_MEAS_VOUT n) vout).refLand n).setF (Fd.LOOP_STAT_STATE n) lpRun).ev (Fd.LOOP_EVRAW_SLEWDONE n)
      ((v.setLoop n { v.loop n with
        moving := false, rampDue := false, lowOk := true, ran := true, ovDue := some (v.ticks + 4) }).setF
          (Fd.LOOP_STAT_PGOOD n) 1).ev (Fd.LOOP_EVRAW_PGOOD n) := by
  have moves : ((((s.setF (Fd.LOOP_MEAS_VOUT n) vout).refLand n).setF (Fd.LOOP_STAT_STATE n) lpRun).loop n).moving = true := by
    rw [State.refLand_eq, State.loop_setF, State.loop_setLoop_self]
    exact moving
  refine (if_pos ⟨start, window⟩).trans ?_
  simp only [moves, if_true]

theorem State.softoffDone_off (soft : s.lstate n = lpSoftoff) : s.softoffDone n = s.loopOff n := if_pos soft

end

/-- Settles O26: each write by its register and its reason; the reference by what it shows at a DAC code. -/
theorem loopReference : Obligations.LoopReference := by
  refine fun s ao => ⟨fun w k d m ok => ⟨_, _, rfl, rfl, ?_⟩, fun w k d r m reason nz => ?_, fun n vout =>
    ⟨fun w d u r m asked => ⟨fun stopping => ?_, fun soft bar taken => ?_, fun soft bar refused reason => ?_⟩,
      fun w d u m taken bar => ?_, fun w d m => ?_, fun up moves moving => ⟨_, rfl, ?_⟩,
      fun up start moving window => ⟨_, _, _, rfl, rfl, rfl, ?_⟩, fun up soft => ?_⟩⟩
  · rw [exec_phaseAssignWrite, write_word ao m (busWordAddr_phaseAssign k), busWrite_phaseAssign, State.phaseAssign_takes ok]
  · rw [exec_phaseAssignWrite, write_word ao m (busWordAddr_phaseAssign k), busWrite_phaseAssign,
      State.phaseAssign_refuses reason nz, State.convRefuse]
  · rw [exec_loopOnRequest, write_word ao m (busWordAddr_loopCtrl n), busWrite_loopCtrl,
      State.loopCtrl_pends (bit_or_one d) asked stopping]
  · rw [exec_loopOnRequest, write_word ao m (busWordAddr_loopCtrl n), busWrite_loopCtrl,
      State.loopCtrl_asks (bit_or_one d) asked soft bar taken]
  · rw [exec_loopOnRequest, write_word ao m (busWordAddr_loopCtrl n), busWrite_loopCtrl,
      State.loopCtrl_refused (bit_or_one d) asked soft bar refused reason]
  · rw [exec_loopOffRequest, write_word ao m (busWordAddr_loopCtrl n), busWrite_loopCtrl,
      State.loopCtrl_off (bit_and_not_one d) taken bar]
  · rw [exec_targetWrite, write_word ao m (busWordAddr_target n), busWrite_target, State.targetWrite_eq]
  · rw [exec_slewDone, live_next _ ao up, State.slewDone_lands moves moving, State.refLand_eq]
  · rw [exec_loopStartComplete, live_next _ ao up, State.loopStarted_runs start moving window, State.refLand_eq]
  · rw [exec_softoffDone, live_next _ ao up, State.softoffDone_off soft]

end Sys2Proof.Machine
end

section
/-! PROOF. The multiphase converter: periods, add and shed, burst and Gust (R112, R119, R126, R129–R133, R135), limits and
faults (R125, R127, R135–R143). -/

namespace Sys2Proof.Machine

/-! ## Periods (R112, R119, R126, R131, R135) -/

section
variable {s : State} {n : Nat} {vout : Nat} {ms : List PhaseMeas}

theorem State.periodBegin_off (off : s.lstate n = lpOff) : s.periodBegin n vout ms = s := if_pos off

/-- What a period start takes in before the machine of the loop's state acts: measurements, reference, bank, injection. -/
def State.periodTaken (s : State) (n vout : Nat) (ms : List PhaseMeas) : State :=
  (((s.takePeriod n vout ms).refPeriod n vout).nextPeriod n vout).injectPeriod n

/-- With the role changes that a loop in state `st` takes in. -/
def State.periodRoles (s : State) (n vout : Nat) (ms : List PhaseMeas) : State :=
  if s.lstate n = lpCrowbar then (s.periodTaken n vout ms).adoptLow n else (s.periodTaken n vout ms).adoptRoles n

/-- The machine of the loop's state acts on what the period start has taken in. -/
theorem State.periodBegin_on (on : s.lstate n ≠ lpOff) (still : (s.takeItems n).lstate n ≠ lpOff) :
    s.periodBegin n vout ms =
      let t := s.takeItems n
      let v := t.periodRoles n vout ms
      let w := if t.lstate n = lpRun ∧ v.fb (Fd.LOOP_CTRL_ADDSHEDEN n) then v.addShed n else v
      (if t.lstate n = lpBurst then w.burstPeriod n vout else w).placeSlots n :=
  (if_neg on).trans (if_neg still)

theorem State.periodBegin_run (on : s.lstate n ≠ lpOff) (run : (s.takeItems n).lstate n = lpRun) :
    s.periodBegin n vout ms =
      let v := (s.takeItems n).periodRoles n vout ms
      (if v.fb (Fd.LOOP_CTRL_ADDSHEDEN n) then v.addShed n else v).placeSlots n := by
  rw [State.periodBegin_on on (by rw [run]; decide)]
  dsimp only
  rw [if_neg (show (s.takeItems n).lstate n ≠ lpBurst by rw [run]; decide)]
  simp only [run, true_and]

theorem State.periodBegin_burst (on : s.lstate n ≠ lpOff) (burst : (s.takeItems n).lstate n = lpBurst) :
    s.periodBegin n vout ms = (((s.takeItems n).periodRoles n vout ms).burstPeriod n vout).placeSlots n := by
  rw [State.periodBegin_on on (by rw [burst]; decide)]
  dsimp only
  rw [if_pos burst, if_neg fun h => absurd h.1 (by rw [burst]; decide)]

theorem State.periodBegin_other (on : s.lstate n ≠ lpOff) (other : (s.takeItems n).lstate n = lpStart ∨
    (s.takeItems n).lstate n = lpSoftoff ∨ (s.takeItems n).lstate n = lpCrowbar) :
    s.periodBegin n vout ms = ((s.takeItems n).periodRoles n vout ms).placeSlots n := by
  have states : (s.takeItems n).lstate n ≠ lpOff ∧ (s.takeItems n).lstate n ≠ lpRun ∧ (s.takeItems n).lstate n ≠ lpBurst := by
    obtain st | st | st := other <;> rw [st] <;> decide
  obtain ⟨still, run, burst⟩ := states
  rw [State.periodBegin_on on still]
  dsimp only
  rw [if_neg burst, if_neg fun h => run h.1]

theorem State.nextPeriod_loop (s : State) (n vout : Nat) : (s.nextPeriod n vout).loop n = { s.loop n with
    bank := (s.loop n).bankNext.getD (s.loop n).bank, bankNext := none, ilim := s.ilim n vout, limited := 0, midLevel := 0,
    ocRun := if (s.loop n).limited = 0 then 0 else (s.loop n).ocRun,
    burstLow := if s.f (Fd.LOOP_MEAS_ITOT n) < 10 * s.f (Fd.LOOP_BURST_ENTER n) then (s.loop n).burstLow + 1 else 0 } := by
  simp only [State.nextPeriod, State.loop_setLoop_self, decide_eq_true_eq]

/-! ## Add and shed (R131) -/

theorem State.addShed_adds (short : (s.onOf n).length * (10 * s.f (Fd.LOOP_ADDSHED_ADD n)) < s.addCurrent n) :
    s.addShed n = ((s.setLoop n { s.loop n with below := 0 }).abortShed n false).addPhases n (s.addWant n) := if_pos short

/-- The highest phase on is the one shed. -/
theorem State.addShed_sheds {k : Nat} {l : List Nat} {u : State}
    (counted : u = s.setLoop n { s.loop n with below := (s.loop n).below + 1 })
    (enough : s.addCurrent n ≤ (s.onOf n).length * (10 * s.f (Fd.LOOP_ADDSHED_ADD n)))
    (low : s.f (Fd.LOOP_MEAS_ITOT n) < ((s.onOf n).length - 1) * (10 * s.f (Fd.LOOP_ADDSHED_SHED n)))
    (dwell : s.f (Fd.LOOP_SHEDCFG_DWELL n) * 8 ≤ (s.loop n).below + 1) (min : s.f (Fd.LOOP_ADDSHED_MINPH n) < (s.onOf n).length)
    (pend : (s.phasesOf n fun k => s.phState k == phShedPend) = []) (fcast : s.f (Fd.LOOP_STAT_FCAST n) = 0)
    (inhibit : s.f (Fd.LOOP_STAT_INHIBIT n) = 0) (on : (s.phasesOf n fun k => s.phState k == phOn) = l ++ [k]) :
    s.addShed n = (u.setPh k phShedPend).setLoop n { u.loop n with below := 0 } := by
  have last : (u.phasesOf n fun k => u.phState k == phOn).reverse = k :: l.reverse := by
    rw [counted]
    exact (congrArg List.reverse on).trans List.reverse_concat
  have settled : (u.phasesOf n fun k => u.phState k == phShedPend).isEmpty = true := by
    rw [counted]
    exact congrArg List.isEmpty pend
  have field (fd : Fld) : u.f fd = s.f fd := by rw [counted]; rfl
  refine (if_neg (Nat.not_lt.mpr enough)).trans ?_
  simp only [low, decide_true, if_true, ← counted, last, settled, field, dwell, min, fcast, inhibit, Bool.not_true, Bool.not_false, and_self]

theorem State.shedCommit_sheds {k : Nat} (pend : s.phState k = phShedPend) :
    s.shedCommit k = ((s.wakeUp.setPh k phShed).respread (s.f (Fd.PHASE_ASSIGN_LOOP k))).ev
      (Fd.LOOP_EVRAW_SHED (s.f (Fd.PHASE_ASSIGN_LOOP k))) := if_pos pend

theorem State.phaseAdded_joins {k : Nat} (pend : s.phState k = phAddPend) :
    s.phaseAdded k = ((s.wakeUp.setPh k phOn).respread (s.f (Fd.PHASE_ASSIGN_LOOP k))).ev
      (Fd.LOOP_EVRAW_ADD (s.f (Fd.PHASE_ASSIGN_LOOP k))) := if_pos pend

theorem State.shedInhibitEnd_ends (inhibit : s.fb (Fd.LOOP_STAT_INHIBIT n) = true) :
    s.shedInhibitEnd n = (s.setF (Fd.LOOP_STAT_INHIBIT n) 0).setLoop n { s.loop n with below := 0 } := if_pos inhibit

/-! ## Burst and Gust (R129, R130, R133) -/

theorem State.burstEntry_enters (ready : s.burstReady n = true) (low : 64 ≤ (s.loop n).burstLow) :
    s.burstEntry n =
      let u := (s.wakeUp.leadOnly n).respread n
      ((u.setLoop n { u.loop n with burstLow := 0, pulsing := false, tickPer := 0, tickPul := 0 }).setF
        (Fd.LOOP_STAT_STATE n) lpBurst).ev (Fd.LOOP_EVRAW_BURSTIN n) := if_pos ⟨ready, low⟩

theorem State.burstEntry_stays (ready : s.burstReady n = false) : s.burstEntry n = s :=
  if_neg fun h => absurd h.1 (ne_true_of_eq_false ready)

section
variable {u : State} (burst : s.lstate n = lpBurst) (sensed : u = s.setF (Fd.LOOP_MEAS_VOUT n) vout)
include burst sensed

theorem State.burstTick_gust (gust : (u.fb (Fd.LOOP_CTRL_GUSTEN n) && u.gustBelow n vout) = true) :
    s.burstTick n vout = u.gust n := by
  subst sensed
  exact (if_pos burst).trans (if_pos gust)

theorem State.burstTick_exits (calm : (u.fb (Fd.LOOP_CTRL_GUSTEN n) && u.gustBelow n vout) = false)
    (heavy : (u.loop n).tickPer < 2 * (u.loop n).tickPul) :
    s.burstTick n vout = u.burstExit n (u.f (Fd.LOOP_ADDSHED_MINPH n)) := by
  subst sensed
  exact (if_pos burst).trans ((if_neg (ne_true_of_eq_false calm)).trans (if_pos (decide_eq_true heavy)))

theorem State.burstTick_stays (calm : (u.fb (Fd.LOOP_CTRL_GUSTEN n) && u.gustBelow n vout) = false)
    (light : 2 * (u.loop n).tickPul ≤ (u.loop n).tickPer) : s.burstTick n vout = u.setLoop n { u.loop n with
      pulsing := decide (vout < u.f (Fd.LOOP_REFNOW_MV n)), tickPer := 0, tickPul := 0 } := by
  subst sensed
  have notHeavy : ¬((s.setF (Fd.LOOP_MEAS_VOUT n) vout).loop n).heavy = true := by
    simpa [Loop.heavy] using light
  exact (if_pos burst).trans ((if_neg (ne_true_of_eq_false calm)).trans (if_neg notHeavy))

end

theorem State.gustTrip_trips (run : s.lstate n = lpRun) (below : s.gustBelow n vout = true) :
    s.gustTrip n vout = (s.setF (Fd.LOOP_MEAS_VOUT n) vout).gust n := if_pos ⟨below, run⟩

end

/-- A register that a probe does not report in is left by its abort. -/
theorem State.rd_probeAbort (s : State) (n cause : Nat) {a : Nat} (res : a ≠ Reg.HEALTH_PROBERES) (stat : a ≠ Reg.HEALTH_STAT)
    (evraw : a ≠ Reg.HEALTH_EVRAW) : (s.probeAbort n cause).rd a = s.rd a := by
  unfold State.probeAbort
  dsimp only
  split
  · rw [State.rd_ev_ne _ evraw]
    exact (State.rd_setF_ne _ _ stat).trans ((State.rd_setF_ne _ _ res).trans (State.rd_setF_ne _ _ res))
  · rfl

section
variable {s : State} {n : Fin 4}

/-- A loop in RUN on which Gust has woken the device and ended the probe. -/
def State.gustNoted (s : State) (n : Nat) : State := (s.wakeUp.ev (Fd.LOOP_EVRAW_GUST n)).probeAbort n 1

theorem State.lstate_gustNoted (s : State) (n : Fin 4) : (s.gustNoted n).lstate n = s.lstate n := by
  have res : (Fd.LOOP_STAT_STATE n).addr ≠ Reg.HEALTH_PROBERES := by revert n; decide
  have stat : (Fd.LOOP_STAT_STATE n).addr ≠ Reg.HEALTH_STAT := by revert n; decide
  have evraw : (Fd.LOOP_STAT_STATE n).addr ≠ Reg.HEALTH_EVRAW := by revert n; decide
  have own : (Fd.LOOP_STAT_STATE n).addr ≠ (Fd.LOOP_EVRAW_GUST n).addr := by revert n; decide
  rw [State.lstate, State.f, State.gustNoted, State.rd_probeAbort _ _ _ res stat evraw, State.rd_ev_ne _ own, State.rd_wakeUp]
  rfl

section
variable (run : s.lstate n = lpRun) (enabled : s.fb (Fd.LOOP_CTRL_GUSTEN n) = true)
include run enabled

theorem State.gust_unshed (none : ((s.gustNoted n).phasesOf n fun k => (s.gustNoted n).phState k == phShed) = []) :
    s.gust n = (s.gustNoted n).abortShed n true := by
  have trips : (s.fb (Fd.LOOP_CTRL_GUSTEN n) && (s.lstate n == lpRun || s.lstate n == lpBurst)) = true := by rw [enabled, run]; rfl
  have stays : (s.gustNoted n).lstate n ≠ lpBurst := by rw [State.lstate_gustNoted, run]; decide
  refine (if_pos trips).trans ((if_neg stays).trans (if_pos ?_))
  exact List.isEmpty_iff.mpr none

theorem State.gust_shed (some : ((s.gustNoted n).phasesOf n fun k => (s.gustNoted n).phState k == phShed) ≠ []) :
    s.gust n = (((s.gustNoted n).abortShed n true).addPhases n 16).setF (Fd.LOOP_STAT_INHIBIT n) 1 := by
  have trips : (s.fb (Fd.LOOP_CTRL_GUSTEN n) && (s.lstate n == lpRun || s.lstate n == lpBurst)) = true := by rw [enabled, run]; rfl
  have stays : (s.gustNoted n).lstate n ≠ lpBurst := by rw [State.lstate_gustNoted, run]; decide
  refine (if_pos trips).trans ((if_neg stays).trans (if_neg fun e => some ?_))
  exact List.isEmpty_iff.mp e

end

end

/-- Settles O27: a period start by the loop's state; the machine's steps by their conditions. -/
theorem loopPhases : Obligations.LoopPhases := by
  refine fun s ao up => ⟨fun n vout ms off => ?_, fun n vout ms on => ⟨_, _, _, rfl, rfl, rfl, fun run => ?_, fun burst => ?_,
      fun other => ?_⟩, fun n vout => s.nextPeriod_loop n vout, fun n short => ⟨_, rfl, State.addShed_adds short⟩,
    fun n k l enough low dwell min pend fcast inhibit on => ⟨_, rfl,
      State.addShed_sheds rfl enough low dwell min pend fcast inhibit on⟩, fun k pend => ?_, fun k pend => ?_,
    fun n => ⟨fun inhibit => ?_, fun ready low => ⟨_, rfl, ?_⟩, fun ready => ?_,
      fun vout burst => ⟨_, rfl, fun gust => ?_, fun calm heavy => ?_, fun calm light => ?_⟩, fun vout run below => ?_,
      fun run enabled => ⟨_, rfl, fun none => ?_, fun some => ?_⟩⟩⟩
  · rw [exec_periodStart, live_next _ ao up, State.periodBegin_off off]
  · rw [exec_periodStart, live_next _ ao up, State.periodBegin_run on run]
    rfl
  · rw [exec_periodStart, live_next _ ao up, State.periodBegin_burst on burst]
    rfl
  · rw [exec_periodStart, live_next _ ao up, State.periodBegin_other on other]
    rfl
  · rw [exec_shedCommit, live_next _ ao up, State.shedCommit_sheds pend]
  · rw [exec_phaseAdded, live_next _ ao up, State.phaseAdded_joins pend]
  · rw [exec_shedInhibitEnd, live_next _ ao up, State.shedInhibitEnd_ends inhibit]
  · rw [exec_burstEntry, live_next _ ao up, State.burstEntry_enters ready low]
  · rw [exec_burstEntry, live_next _ ao up, State.burstEntry_stays ready]
  · rw [exec_burstTick, live_next _ ao up, State.burstTick_gust burst rfl gust]
  · rw [exec_burstTick, live_next _ ao up, State.burstTick_exits burst rfl calm heavy]
  · rw [exec_burstTick, live_next _ ao up, State.burstTick_stays burst rfl calm light]
  · rw [exec_gustTrip, live_next _ ao up, State.gustTrip_trips run below]
  · exact State.gust_unshed run enabled none
  · exact State.gust_shed run enabled some

/-! ## Limits (R135–R137) -/

section
variable {s : State} {k n t vout : Nat} {uv : Int}

theorem State.phaseLimit_limits (own : n = s.f (Fd.PHASE_ASSIGN_LOOP k)) (on : s.phState k = phOn) (blank : 768 ≤ t)
    (max : t ≤ s.maxOn n) (reached : ((10 * (s.loop n).ilim : Nat) : Int) ≤ s.senseCur n uv) :
    s.phaseLimit k t uv =
      let u := (((s.orReg Reg.PHASE_EVRAW (bitAt k)).incF (Fd.PHASE_ILIMCNT_COUNT k)).probeAbort n 6).setOnTime n k t
      u.setLoop n { u.loop n with
        limited := (u.loop n).limited ||| 2 ^ k,
        ocRun := if (u.loop n).limited = 0 then (u.loop n).ocRun + 1 else (u.loop n).ocRun } := by
  subst own
  exact if_pos ⟨on, blank, max, reached⟩

theorem State.negLimit_limits (own : n = s.f (Fd.PHASE_ASSIGN_LOOP k)) (on : s.phState k = phOn) (bar : s.lstate n ≠ lpCrowbar)
    (below : s.senseCur n uv < -((10 * s.f (Fd.LOOP_ILIMNEG_NEG n) : Nat) : Int)) :
    s.negLimit k uv = s.setLoop n { s.loop n with midLevel := (s.loop n).midLevel ||| 2 ^ k } := by
  subst own
  exact if_pos ⟨on, bar, below⟩

theorem State.loopOc_faults (armed : s.f (Fd.LOOP_ILIMNEG_OCCYC n) ≠ 0)
    (run : s.f (Fd.LOOP_ILIMNEG_OCCYC n) ≤ (s.loop n).ocRun) (on : s.lstate n ≠ lpOff) :
    s.loopOc n vout = (s.setLoop n { s.loop n with ocRun := 0 }).loopFault n 3 vout := if_pos ⟨armed, run, on⟩

theorem State.loopOc_disarmed (disarmed : s.f (Fd.LOOP_ILIMNEG_OCCYC n) = 0) : s.loopOc n vout = s :=
  if_neg fun h => h.1 disarmed

/-! ## The crowbar, under-voltage and PGOOD (R125, R138–R140) -/

theorem State.crowbar_fires (on : s.lstate n ≠ lpOff) (above : (100 + s.f (Fd.LOOP_PROT_OV n)) * s.ovBase n < 100 * vout) :
    s.crowbar n vout =
      let u := (((s.setF (Fd.LOOP_MEAS_VOUT n) vout).loopFault n 1 vout).pgoodDrop n).setF (Fd.LOOP_STAT_STATE n) lpCrowbar
      let v := u.setLoop n { u.loop n with enZero := false }
      (v.setPhases (v.crowbarPhases n) phLow).respread n := if_pos ⟨on, above⟩

theorem State.crowbarRelease_off (bar : s.lstate n = lpCrowbar) (en : (s.loop n).enZero = true)
    (low : 10 * vout < s.f (Fd.LOOP_TARGET_MV n)) :
    s.crowbarRelease n vout = (s.setF (Fd.LOOP_MEAS_VOUT n) vout).loopOff n := if_pos ⟨bar, en, low⟩

theorem State.crowbarRelease_holds (en : (s.loop n).enZero = false) : s.crowbarRelease n vout = s :=
  if_neg fun h => absurd h.2.1 (ne_true_of_eq_false en)

theorem ite_not_isEmpty {α β : Type} (l : List α) (a b : β) : (if (!l.isEmpty) = true then a else b) = if l = [] then b else a := by
  cases l <;> rfl

theorem State.loopUv_faults (on : s.lstate n = lpRun ∨ s.lstate n = lpBurst)
    (low : 100 * vout < (100 - s.f (Fd.LOOP_PROT_UV n)) * s.f (Fd.LOOP_REFNOW_MV n)) :
    s.loopUv n vout =
      let u := (s.setF (Fd.LOOP_MEAS_VOUT n) vout).loopFault n 2 vout
      let v := ((u.burstExit n 16).abortShed n true).addPhases n 16
      if u.phasesOf n (fun k => u.phState k == phShed) = [] then v else v.setF (Fd.LOOP_STAT_INHIBIT n) 1 :=
  (if_pos ⟨on, low⟩).trans (ite_not_isEmpty _ _ _)

theorem State.pgoodLost_drops (good : s.fb (Fd.LOOP_STAT_PGOOD n) = true)
    (out : s.pgWindow n vout (s.f (Fd.LOOP_REFNOW_MV n)) = false) :
    s.pgoodLost n vout = (s.setF (Fd.LOOP_MEAS_VOUT n) vout).pgoodDrop n := if_pos (by rw [good, out]; rfl)

theorem State.pgoodRegained_sets (on : s.lstate n = lpRun ∨ s.lstate n = lpBurst) (bad : s.f (Fd.LOOP_STAT_PGOOD n) = 0)
    (window : s.pgWindow n vout (s.f (Fd.LOOP_REFNOW_MV n)) = true) :
    s.pgoodRegained n vout =
      ((s.setF (Fd.LOOP_MEAS_VOUT n) vout).setF (Fd.LOOP_STAT_PGOOD n) 1).ev (Fd.LOOP_EVRAW_PGOOD n) := if_pos ⟨on, bad, window⟩

/-! ## SFLT# and SYNCI (R127, R141) -/

theorem State.stageFault_captures (enabled : s.fb Fd.CONV_CTRL_SFLTEN = true) :
    s.stageFault = (List.foldl (fun (v : State) n =>
      if v.loopEnabled n then v.loopCapture n 5 (v.f (Fd.LOOP_MEAS_VOUT n)) else v)
        ((s.setF Fd.CONV_STAT_SFLT 1).ev Fd.CONV_EVRAW_SFLT) [0, 1, 2, 3]).raiseLevel 14 0 0 := if_pos enabled

theorem State.stageFault_shows (disabled : s.fb Fd.CONV_CTRL_SFLTEN = false) :
    s.stageFault = s.wakeUp.setF Fd.CONV_STAT_SFLT 1 := if_neg (ne_true_of_eq_false disabled)

section
variable {per : Nat} (enabled : s.fb Fd.CONV_CTRL_SYNCIEN = true)
include enabled

theorem State.syncLock_pulls (range : s.syncInRange per = true) :
    s.syncLock per =
      let t : State := { s with trim := ⟨per, s.f (Fd.LOOP_FSW_PERIOD (s.f Fd.CONV_SYNC_REFLOOP))⟩ }
      if t.fb Fd.CONV_STAT_SYNCLOCK then t else (t.setF Fd.CONV_STAT_SYNCLOCK 1).ev Fd.CONV_EVRAW_SYNCLOCK :=
  if_pos ⟨enabled, range⟩

theorem State.syncLoss_reports : s.syncLoss = (s.setF Fd.CONV_STAT_SYNCLOCK 0).ev Fd.CONV_EVRAW_SYNCLOSS := if_pos enabled

end

end

/-- Settles O28: each command in the case of its hypotheses. -/
theorem loopFaults : Obligations.LoopFaults := by
  refine fun s ao up => ⟨fun k t uv n own on blank max reached => ⟨_, rfl, ?_⟩, fun k uv n own on bar below => ?_,
    fun n vout => ⟨fun armed run on => ?_, fun disarmed => ?_, fun on above => ⟨_, _, rfl, rfl, ?_⟩, fun bar en low => ?_,
      fun bar en => ?_, fun on low => ⟨_, _, rfl, rfl, ?_⟩, fun good out => ?_, fun on bad window => ?_⟩,
    fun enabled => ⟨_, rfl, ?_⟩, fun disabled => ?_, fun per enabled range => ⟨_, rfl, fun locked => ?_, fun free => ?_⟩,
    fun enabled => ?_⟩
  · rw [exec_phaseCurrentLimit, live_next _ ao up, State.phaseLimit_limits own on blank max reached]
  · rw [exec_negativeCurrentLimit, live_next _ ao up, State.negLimit_limits own on bar below]
  · rw [exec_loopOcFault, live_next _ ao up, State.loopOc_faults armed run on]
  · rw [exec_loopOcFault, live_next _ ao up, State.loopOc_disarmed disarmed]
  · rw [exec_ovCrowbar, live_next _ ao up, State.crowbar_fires on above]
    rfl
  · rw [exec_crowbarRelease, live_next _ ao up, State.crowbarRelease_off bar en low]
  · rw [exec_crowbarRelease, live_next _ ao up, State.crowbarRelease_holds en]
  · rw [exec_loopUvFault, live_next _ ao up, State.loopUv_faults on low]
  · rw [exec_loopPgoodLost, live_next _ ao up, State.pgoodLost_drops good out]
  · rw [exec_loopPgoodRegained, live_next _ ao up, State.pgoodRegained_sets on bad window]
  · rw [exec_stageFault, live_next _ ao up, State.stageFault_captures enabled]
  · rw [exec_stageFault, live_next _ ao up, State.stageFault_shows disabled]
  · rw [exec_syncLock, live_next _ ao up, State.syncLock_pulls enabled range]
    exact next_settle (if_pos locked)
  · rw [exec_syncLock, live_next _ ao up, State.syncLock_pulls enabled range]
    exact next_settle (if_neg (ne_true_of_eq_false free))
  · rw [exec_syncLoss, live_next _ ao up, State.syncLoss_reports enabled]

end Sys2Proof.Machine
end

section
/-! PROOF. Converter health: probes (R149–R153, R155), rebase and the application of a proposal (R154, R161, R162), the
schedule (R165). -/

namespace Sys2Proof.Machine

/-! ## The start and the abort of a probe (R149, R152) -/

theorem busWrite_probe (s : State) (w : Writer) (d : Word) : s.busWrite w Reg.HEALTH_PROBE d = s.probeWrite d :=
  (busWrite_at (p := 0xA) (k := Reg.HEALTH_PROBE) rfl (by decide) (by decide) rfl rfl rfl).trans rfl

theorem probeGo_bits (n : Fin 4) (meas : BitVec 5) :
    bit (BitVec.ofNat 32 (0x40000000 + 0x100 * n.val + meas.toNat)) 31 = false ∧
    bit (BitVec.ofNat 32 (0x40000000 + 0x100 * n.val + meas.toNat)) 30 = true ∧
    getBits (BitVec.ofNat 32 (0x40000000 + 0x100 * n.val + meas.toNat)) 8 2 = n.val ∧
    getBits (BitVec.ofNat 32 (0x40000000 + 0x100 * n.val + meas.toNat)) 0 5 = meas.toNat := by
  revert n meas
  decide

theorem bitList_five_ne_nil (meas : BitVec 5) (some : meas ≠ 0) : bitList 5 meas.toNat ≠ [] := by
  revert meas
  decide

section
variable {s : State} {n : Nat}

theorem State.probeGo_starts {meas : Nat} (ok : s.probeReason n = 0) (some' : bitList 5 meas ≠ []) :
    s.probeGo n meas =
      let u := ((((s.wr Reg.HEALTH_PROBERES 0).setF Fd.HEALTH_PROBERES_LOOP n).setF Fd.HEALTH_STAT_PLOOP n).clrReg
        Reg.HEALTH_DUE (bitAt n)).setF Fd.HEALTH_STAT_BUSY 1
      { u with health := { u.health with
        probe := some ⟨n, bitList 5 meas, [], s.plant.vsys, s.f Fd.PATH_STAT_HOSTATE, s.f (Fd.LOOP_MEAS_ITOT n)⟩ } } := by
  have left : (bitList 5 meas).isEmpty = false := by simpa using some'
  simp only [State.probeGo, ok, left, Bool.false_eq_true, if_false]
  rfl

theorem State.probeGo_refused {meas r : Nat} (reason : s.probeReason n = r) (nz : r ≠ 0) :
    s.probeGo n meas = s.setF Fd.HEALTH_PROBERES_RESULT r := by
  subst reason
  simp only [State.probeGo]

theorem State.probeWrite_go {d : Word} (quiet : bit d 31 = false) (go : bit d 30 = true) :
    s.probeWrite d = s.probeGo (getBits d 8 2) (getBits d 0 5) := by
  simp only [State.probeWrite, quiet, go, Bool.false_eq_true, if_false, if_true]

theorem State.probeWrite_abort {p : Probe} (probe : s.health.probe = some p) :
    s.probeWrite 0x80000000 = s.probeAbort p.loop 11 := by
  have bits : bit (0x80000000 : Word) 31 = true ∧ bit (0x80000000 : Word) 30 = false := by decide
  simp only [State.probeWrite, bits, probe, Bool.false_eq_true, if_false, if_true]

theorem State.probeWrite_abort_idle (idle : s.health.probe = none) : s.probeWrite 0x80000000 = s := by
  have bits : bit (0x80000000 : Word) 31 = true ∧ bit (0x80000000 : Word) 30 = false := by decide
  simp only [State.probeWrite, bits, idle, Bool.false_eq_true, if_false, if_true]

end

/-! ## The measurements (R151–R153) -/

section
variable {s : State} {m : Measured} {p : Probe} {q : Nat} {rest : List Nat} (probe : s.health.probe = some p)
  (left : p.left = q :: rest)
include probe left

theorem State.probeMeas_skips (cond : s.measCond p.loop q = false) : s.probeMeas m = s.probeNext p q rest none := by
  simp only [State.probeMeas, probe, left, cond, Bool.not_false, if_true]

theorem State.probeMeas_takes (kind : measKind m = some q) (cond : s.measCond p.loop q = true) (range : measInRange m = true) :
    s.probeMeas m = s.probeNext p q rest (some m) := by
  simp [State.probeMeas, probe, left, kind, cond, range]

theorem State.probeMeas_aborts (kind : measKind m = some q) (cond : s.measCond p.loop q = true)
    (out : measInRange m = false) : s.probeMeas m = s.probeAbort p.loop 12 := by
  simp [State.probeMeas, probe, left, kind, cond, out]

end

section
variable {s : State} {m : Measured} {p : Probe} {q : Nat} {rest : List Nat}

/-- The probe goes on with what is left. -/
def State.setProbe (s : State) (p : Probe) : State := s.setHealth { s.health with probe := some p }

theorem State.probeNext_done (more : rest ≠ []) :
    s.probeNext p q rest (some m) =
      let u := s.setF Fd.HEALTH_PROBERES_DONE (s.f Fd.HEALTH_PROBERES_DONE ||| 2 ^ q)
      u.setProbe { p with left := rest, got := p.got ++ [m], itot := u.f (Fd.LOOP_MEAS_ITOT p.loop) } :=
  if_neg fun e => more (List.isEmpty_iff.mp e)

theorem State.probeNext_skipped (more : rest ≠ []) :
    s.probeNext p q rest none =
      let u := s.setF Fd.HEALTH_PROBERES_SKIP (s.f Fd.HEALTH_PROBERES_SKIP ||| 2 ^ q)
      u.setProbe { p with left := rest, itot := u.f (Fd.LOOP_MEAS_ITOT p.loop) } := by
  refine (if_neg fun e => more (List.isEmpty_iff.mp e)).trans ?_
  simp only [Option.toList_none, List.append_nil, Option.isNone_none, if_true, State.setProbe]

theorem State.probeNext_last :
    s.probeNext p q [] (some m) =
      let u := s.setF Fd.HEALTH_PROBERES_DONE (s.f Fd.HEALTH_PROBERES_DONE ||| 2 ^ q)
      let p' : Probe := { p with left := [], got := p.got ++ [m], itot := u.f (Fd.LOOP_MEAS_ITOT p.loop) }
      (u.setProbe p').probeEnd p' := by
  simp only [State.probeNext, List.isEmpty_nil, if_true, Option.isNone_some, Bool.false_eq_true, if_false,
    Option.toList_some, State.setProbe]

end

/-! ## Scores (R155) -/

theorem State.scoreOf_le (s : State) (k o : Nat) : s.scoreOf k o ≤ 100 := by
  unfold State.scoreOf
  dsimp only
  split
  · exact Nat.sub_le _ _
  · exact Nat.div_le_of_le_mul ((Nat.sub_le _ _).trans (le_of_eq (by omega)))

/-- Settles O29: a probe's start by its reason, a measurement by what is left of the probe, the score by its bound. -/
theorem healthProbe : Obligations.HealthProbe := by
  refine fun s ao => ⟨fun w n meas ok may some => ⟨_, rfl, ?_⟩, fun w n meas r ok reason nz => ?_, fun w p ok probe => ?_,
    fun w ok idle => ?_, fun m p q rest up probe left more kind cond range => ⟨_, rfl, ?_⟩,
    fun m p q rest up probe left more cond => ⟨_, rfl, ?_⟩, fun m p q up probe left kind cond range => ⟨_, _, rfl, rfl, ?_⟩,
    fun m p q rest up probe left kind cond out => ?_, s.scoreOf_le⟩
  · obtain ⟨quiet, go, loop, list⟩ := probeGo_bits n meas
    rw [exec_probeGo, write_word ao ok rfl, busWrite_probe, State.probeWrite_go quiet go, loop, list,
      State.probeGo_starts may (bitList_five_ne_nil meas some)]
  · obtain ⟨quiet, go, loop, list⟩ := probeGo_bits n meas
    rw [exec_probeGo, write_word ao ok rfl, busWrite_probe, State.probeWrite_go quiet go, loop,
      State.probeGo_refused reason nz]
  · rw [exec_probeAbort, write_word ao ok rfl, busWrite_probe, State.probeWrite_abort probe]
  · rw [exec_probeAbort, write_word ao ok rfl, busWrite_probe, State.probeWrite_abort_idle idle]
  · rw [exec_probeMeasDone, live_next _ ao up, State.probeMeas_takes probe left kind cond range, State.probeNext_done more]
    rfl
  · rw [exec_probeMeasDone, live_next _ ao up, State.probeMeas_skips probe left cond, State.probeNext_skipped more]
    rfl
  · rw [exec_probeMeasDone, live_next _ ao up, State.probeMeas_takes probe left kind cond range, State.probeNext_last]
    rfl
  · rw [exec_probeMeasDone, live_next _ ao up, State.probeMeas_aborts probe left kind cond out]

/-! ## The schedule and a rebase (R154, R165) -/

section
variable {s : State} {n t : Nat}

theorem State.healthDue_sets (enabled : s.f Fd.HEALTH_SCHED_PERIOD ≠ 0) (last : (s.hl n).lastOk = some t)
    (due : t + secTicks (3600 * s.f Fd.HEALTH_SCHED_PERIOD) ≤ s.ticks) (quiet : (s.hl n).confirm = none) :
    s.healthDue n = ((s.setHl n { s.hl n with lastOk := none, confirm := none }).orReg Reg.HEALTH_DUE (bitAt n)).ev
      Fd.HEALTH_EVRAW_DUE := by
  simp [State.healthDue, enabled, last, due, quiet]

theorem State.healthDue_disabled (disabled : s.f Fd.HEALTH_SCHED_PERIOD = 0) : s.healthDue n = s :=
  if_neg fun h => h.1 disabled

/-- A write of HEALTH.CTRL with REBASE = 1. -/
theorem busWrite_rebase (s : State) (w : Writer) (d : Word) {r : RegRow} (row : findRow 0xA 0x04 = some r) :
    s.busWrite w Reg.HEALTH_CTRL (d ||| 0x10) =
      (s.wr Reg.HEALTH_CTRL (s.writtenWord Reg.HEALTH_CTRL r (d ||| 0x10) &&& 0x7)).rebase (getBits d 8 2) := by
  have facts : (findRow 0xA 0x04).map (fun r => (r.sc, r.writable)) = some (0, true) := by decide
  rw [row] at facts
  obtain ⟨sc, writable⟩ := Prod.mk.inj (Option.some.inj facts)
  have access : accessOf .boot Reg.HEALTH_CTRL = some (Reg.HEALTH_CTRL, r, 0) :=
    (show accessOf .boot Reg.HEALTH_CTRL = (findRow 0xA 0x04).map fun r => (Reg.HEALTH_CTRL, r, 0) from rfl).trans (by rw [row]; rfl)
  have rebase : bit (d ||| 0x10) 4 = true := by
    rw [bit, BitVec.getLsbD_or]
    exact Bool.or_true _
  rw [busWrite_at (p := 0xA) rfl (by decide) (by decide) access sc writable, ← getBits_or_mask d 0x10 8 2 (by decide)]
  exact if_pos rebase

end

/-! ## The application of a proposal (R162) -/

section
variable {s u : State} {d : Word} {n : Nat} (loop : n = getBits d 0 2)
  (noted : u = ((s.wr Reg.HEALTH_APPLYRES 0).setF Fd.HEALTH_APPLYRES_LOOP n).setF Fd.HEALTH_APPLYRES_SEQ (getBits d 16 8))
include loop noted

theorem State.healthApply_none (none : u.fb (Fd.HEALTH_LPROP0_VALID n) = false) :
    s.healthApply d = u.setF Fd.HEALTH_APPLYRES_RESULT 2 := by
  subst loop noted
  exact if_pos (by rw [none]; rfl)

theorem State.healthApply_other (valid : u.fb (Fd.HEALTH_LPROP0_VALID n) = true)
    (other : getBits d 16 8 ≠ u.f (Fd.HEALTH_LPROP0_SEQ n)) : s.healthApply d = u.setF Fd.HEALTH_APPLYRES_RESULT 3 := by
  subst loop noted
  refine (if_neg (by rw [valid]; decide)).trans (if_pos ?_)
  rw [bne_iff_ne.mpr other]
  rfl

section
variable (valid : u.fb (Fd.HEALTH_LPROP0_VALID n) = true) (same : getBits d 16 8 = u.f (Fd.HEALTH_LPROP0_SEQ n))
  (swap : (s.itemsNow n).mask.testBit 0 = false) (retire : (s.itemsNow n).mask.testBit 1 = false)
include valid same swap retire

theorem State.healthApply_probing (probing : u.probing n = true) :
    s.healthApply d = u.setF Fd.HEALTH_APPLYRES_RESULT 6 := by
  subst loop
  simp only [State.healthApply, ← noted]
  simp [valid, ← same, swap, retire, probing]

theorem State.healthApply_applies (free : u.probing n = false) (off : u.loopEnabled n = false) :
    s.healthApply d = ((u.applyItems n (s.itemsNow n).mask).dropProposal n).setF Fd.HEALTH_APPLYRES_RESULT 1 := by
  subst loop
  simp only [State.healthApply, ← noted]
  simp [State.rolesReason, valid, ← same, swap, retire, free, off]

end

end

theorem busWrite_healthApply (s : State) (w : Writer) (d : Word) : s.busWrite w Reg.HEALTH_APPLY d = s.healthApply d :=
  (busWrite_at (p := 0xA) (k := Reg.HEALTH_APPLY) rfl (by decide) (by decide) rfl rfl rfl).trans rfl

/-- Settles O30: the schedule by its period, an application by the proposal and its sequence number. -/
theorem healthApply : Obligations.HealthApply := by
  refine fun s ao => ⟨fun n t up enabled last due quiet => ?_, fun n up disabled => ?_, fun w d r m row => ⟨_, rfl, ?_⟩,
    fun n => ⟨_, _, rfl, rfl, rfl⟩, fun w d n u m loop noted => ⟨fun none => ?_, fun valid other => ?_,
      fun valid same swap retire probing => ?_, fun valid same swap retire free off => ?_⟩⟩
  · rw [exec_healthDue, live_next _ ao up, State.healthDue_sets enabled last due quiet]
  · rw [exec_healthDue, live_next _ ao up, State.healthDue_disabled disabled]
  · rw [exec_rebase, write_word ao m rfl, busWrite_rebase s w d row]
  · rw [exec_healthApply, write_word ao m rfl, busWrite_healthApply, State.healthApply_none loop noted none]
  · rw [exec_healthApply, write_word ao m rfl, busWrite_healthApply, State.healthApply_other loop noted valid other]
  · rw [exec_healthApply, write_word ao m rfl, busWrite_healthApply,
      State.healthApply_probing loop noted valid same swap retire probing]
  · rw [exec_healthApply, write_word ao m rfl, busWrite_healthApply,
      State.healthApply_applies loop noted valid same swap retire free off]

end Sys2Proof.Machine
end

section
/-! PROOF. Integrated rails, supervisors and GPIO (R174–R183, R190), and the housekeeping ADC (R185–R188). -/

namespace Sys2Proof.Machine

/-! ## Rails (R175, R177, R178) -/

section
variable {s u : State} {k mv : Nat}

section
variable (seen : u = (s.railSeen k mv).railUp k)
include seen

theorem State.railWindow_enters (on : u.f (railState k) = 2) (lo : (100 - u.railPgwin k) * u.railRef k ≤ 100 * mv)
    (hi : 100 * mv ≤ (100 + u.railPgwin k) * u.railRef k) :
    s.railWindow k mv = (u.setF (railGood k) 1).orReg Reg.RAILS_STAT (bitAt (8 + k)) := by
  subst seen
  refine (if_pos on).trans (if_pos ?_)
  rw [State.railInside, decide_eq_true lo, decide_eq_true hi]
  rfl

theorem State.railWindow_leaves (on : u.f (railState k) = 2)
    (out : 100 * mv < (100 - u.railPgwin k) * u.railRef k ∨ (100 + u.railPgwin k) * u.railRef k < 100 * mv) :
    s.railWindow k mv = u.railExit k := by
  subst seen
  refine (if_pos on).trans (if_neg ?_)
  rw [State.railInside, Bool.and_eq_true, decide_eq_true_eq, decide_eq_true_eq]
  omega

theorem State.railWindow_off (off : u.f (railState k) ≠ 2) : s.railWindow k mv = u := by
  subst seen
  exact if_neg off

theorem State.railFault_uv (vin : Nat) (on : u.f (railState k) = 2) (below : 100 * mv < (100 - u.railPgwin k) * u.railRef k) :
    s.railFault k 2 mv vin = u.railReport k 2 mv vin := by
  subst seen
  refine if_pos ?_
  rw [on, decide_eq_true below]
  rfl

end

theorem State.railExit_good (good : s.fb (railGood k) = true) : s.railExit k =
    (((s.setF (railGood k) 0).clrReg Reg.RAILS_STAT (bitAt (8 + k))).evBit Fd.RAILS_EVRAW_RAILEXIT k).wakeUp := if_pos good

theorem State.railReport_buck {cause vout vin : Nat} (buck : k < 2) : s.railReport k cause vout vin =
    (((s.setF (railCause k) cause).ev Fd.RAILS_EVRAW_BFAULT).buckCapture k cause vout vin).raise (16 + k) cause 0 := if_pos buck

theorem State.railReport_ldo {cause vout vin : Nat} (ldo : 2 ≤ k) : s.railReport k cause vout vin =
    ((s.setF (railCause k) cause).ev Fd.RAILS_EVRAW_LFAULT).raise 18 cause (k - 2) := if_neg (Nat.not_lt.mpr ldo)

theorem State.railRuns_iff : s.railRuns k = true ↔ s.f (railState k) = 1 ∨ s.f (railState k) = 2 := by
  rw [State.railRuns, Bool.or_eq_true, beq_iff_eq, beq_iff_eq]

/-- LIN below its limit is reported by every LDO that runs. -/
theorem State.linLow_eq (vout vin : Nat) : s.linLow vout vin = List.foldl (fun (t : State) j =>
    if t.f (railState j) = 1 ∨ t.f (railState j) = 2 then ((t.setF (railCause j) 4).ev Fd.RAILS_EVRAW_LFAULT).raise 18 4 (j - 2)
    else t) s [2, 3, 4, 5] := by
  refine List.foldl_ext _ _ _ fun t j ldo => ?_
  have ge : 2 ≤ j := by
    revert j
    decide
  simp only [State.railRuns_iff, State.railReport_ldo ge]

theorem State.railFault_lin {vout vin : Nat} (ldo : 2 ≤ k) (low : vin < 2500) :
    s.railFault k 4 vout vin = ((s.railSeen k vout).railUp k).linLow vout vin := if_pos ⟨ldo, low⟩

end

/-! ## Supervisors (R180) -/

theorem State.slot_wakeUp (s : State) (k : Nat) : s.wakeUp.slot k = s.slot k := by
  unfold State.wakeUp
  split <;> rfl

section
variable {s : State} {n mv : Nat}

/-- A supervisor input that leaves its window, with its event and the wake. -/
def State.vmonLeft (s : State) (n : Nat) : State :=
  ((s.clrReg Reg.RAILS_STAT (bitAt (16 + n))).evBit Fd.RAILS_EVRAW_VMONEXIT n).wakeUp

theorem State.vmonLeft_eq (s : State) (n : Nat) :
    ((s.clrReg Reg.RAILS_STAT (bitAt (16 + n))).evBit Fd.RAILS_EVRAW_VMONEXIT n).wakeUp = s.vmonLeft n := rfl

theorem State.vmonChange_disabled (disabled : s.f (Fd.RAILS_VMONCFG_EN n) = 0) : s.vmonChange n mv = s := if_pos disabled

section
variable (enabled : s.f (Fd.RAILS_VMONCFG_EN n) ≠ 0) (seen : (s.slot (10 + n)).ovSeen = false)
include enabled seen

section
variable (inside : s.vmonIn n = true)
  (low : 2 * mv + 12 * s.f (Fd.RAILS_VMONCFG_HYST n) < 3 * s.f (Fd.RAILS_VMONTH_UV n))
  (notOver : 2 * mv ≤ 3 * s.f (Fd.RAILS_VMONTH_OV n))
include inside low notOver

omit seen in
/-- FS19 of a slot that is GOOD outside a run. -/
theorem State.vmonChange_leaves_good (good : (s.vmonLeft n).slotSt (10 + n) = slGood)
    (out : ((s.vmonLeft n).slot (10 + n)).inRun = false) (still : (((s.vmonLeft n).raise 19 1 n).slot (10 + n)).ovSeen = false) :
    s.vmonChange n mv = (s.vmonLeft n).raise 19 1 n := by
  have fault : (s.vmonLeft n).slotSt (10 + n) = 2 ∧ (!((s.vmonLeft n).slot (10 + n)).inRun) = true := ⟨good, by rw [out]; rfl⟩
  refine (if_neg enabled).trans ?_
  simp only [inside, if_true, low, true_or]
  rw [if_neg (Nat.not_lt.mpr notOver)]
  simp only [State.vmonLeft_eq, fault, and_self, if_true, still, Bool.false_eq_true, if_false]

theorem State.vmonChange_leaves (other : (s.vmonLeft n).slotSt (10 + n) ≠ slGood) : s.vmonChange n mv = s.vmonLeft n := by
  have quiet : (s.vmonLeft n).slotSt (10 + n) ≠ 2 := other
  have still : ((s.vmonLeft n).slot (10 + n)).ovSeen = false := by
    rw [State.vmonLeft, State.slot_wakeUp]
    exact seen
  refine (if_neg enabled).trans ?_
  simp only [inside, if_true, low, true_or]
  rw [if_neg (Nat.not_lt.mpr notOver)]
  simp only [State.vmonLeft_eq, quiet, false_and, still, Bool.false_eq_true, if_false]

end

theorem State.vmonChange_enters (outside : s.vmonIn n = false) (lo : 3 * s.f (Fd.RAILS_VMONTH_UV n) < 2 * mv)
    (hi : 2 * mv < 3 * s.f (Fd.RAILS_VMONTH_OV n)) :
    s.vmonChange n mv = ((s.orReg Reg.RAILS_STAT (bitAt (16 + n))).evBit Fd.RAILS_EVRAW_VMONENTER n).wakeUp := by
  have still : ((((s.orReg Reg.RAILS_STAT (bitAt (16 + n))).evBit Fd.RAILS_EVRAW_VMONENTER n).wakeUp).slot (10 + n)).ovSeen =
      false := by
    rw [State.slot_wakeUp]
    exact seen
  refine (if_neg enabled).trans ?_
  simp only [outside, Bool.false_eq_true, if_false, lo, hi, and_self, if_true]
  rw [if_neg (Nat.not_lt.mpr hi.le), still]
  rfl

end

end

/-! ## GPIO (R190) -/

section
variable {s : State} {k : Nat} {l : Bool}

theorem State.gpioEdge_same (same : s.fb (Fd.GPIO_PIN_IN k) = l) : s.gpioEdge k l = s := if_pos same

theorem State.gpioEdge_rises (low : s.fb (Fd.GPIO_PIN_IN k) = false)
    (wake : s.f (Fd.GPIO_PIN_WAKE k) = 1 ∨ s.f (Fd.GPIO_PIN_WAKE k) = 3)
    (kept : (s.setFb (Fd.GPIO_PIN_IN k) true).f (Fd.GPIO_PIN_WAKE k) = s.f (Fd.GPIO_PIN_WAKE k)) :
    s.gpioEdge k true = ((s.setFb (Fd.GPIO_PIN_IN k) true).orReg Reg.GPIO_EVRAW (bitAt k)).wakeUp := by
  refine (if_neg (by rw [low]; decide)).trans (if_pos ?_)
  obtain w | w := wake <;> rw [kept, w] <;> rfl

end

/-- Settles O31: a rail or a supervisor by the side of its window, a fault by its cause, a GPIO by its edge. -/
theorem railEvents : Obligations.RailEvents := by
  refine fun s ao up => ⟨fun k mv => ⟨_, rfl, fun on lo hi => ?_, fun on out => ?_, fun off => ?_⟩,
    fun k good => State.railExit_good good, fun n mv disabled => ?_,
    fun n mv enabled inside seen low notOver => ⟨_, rfl, fun good out still => ?_, fun other => ?_⟩,
    fun n mv enabled outside seen lo hi => ?_, fun k vout vin u seen on below => ⟨fun buck => ?_, fun ldo => ?_⟩,
    fun k vout vin ldo low => ?_, fun k low wake kept => ?_, fun k l same => ?_⟩
  · rw [exec_railWindowChange, live_next _ ao up, State.railWindow_enters rfl on lo hi]
  · rw [exec_railWindowChange, live_next _ ao up, State.railWindow_leaves rfl on out]
  · rw [exec_railWindowChange, live_next _ ao up, State.railWindow_off rfl off]
  · rw [exec_vmonWindowChange, live_next _ ao up, State.vmonChange_disabled disabled]
  · rw [exec_vmonWindowChange, live_next _ ao up,
      State.vmonChange_leaves_good enabled inside low notOver good out still, State.vmonLeft]
  · rw [exec_vmonWindowChange, live_next _ ao up, State.vmonChange_leaves enabled seen inside low notOver other, State.vmonLeft]
  · rw [exec_vmonWindowChange, live_next _ ao up, State.vmonChange_enters enabled seen outside lo hi]
  · rw [exec_regulatorFault, live_next _ ao up, State.railFault_uv seen vin on below, State.railReport_buck buck]
  · rw [exec_regulatorFault, live_next _ ao up, State.railFault_uv seen vin on below, State.railReport_ldo ldo]
  · rw [exec_regulatorFault, live_next _ ao up, State.railFault_lin ldo low, State.linLow_eq]
  · rw [exec_gpioEdge, live_next _ ao up, State.gpioEdge_rises low wake kept]
  · rw [exec_gpioEdge, live_next _ ao up, State.gpioEdge_same same]

/-! ## Scans (R185–R187) -/

section
variable {s : State}

theorem State.scanStart_due (enabled : s.fb Fd.RAILS_SCANCFG_SCANEN = true) (period : s.f Fd.RAILS_SCANCFG_PERIOD ≠ 0)
    (due : s.adc.scanDue ≤ s.ticks) :
    s.scanStart = (State.wakeUp { s with adc := { s.adc with scanDue := s.ticks + s.f Fd.RAILS_SCANCFG_PERIOD } }).scanBegin :=
  if_pos ⟨enabled, period, due⟩

theorem State.scanStart_disabled (disabled : s.fb Fd.RAILS_SCANCFG_SCANEN = false) : s.scanStart = s :=
  if_neg fun h => absurd h.1 (ne_true_of_eq_false disabled)

theorem State.scanBegin_begins (enabled : s.fb Fd.RAILS_SCANCFG_SCANEN = true) (idle : s.f Fd.RAILS_STAT_SCANBUSY = 0)
    (converter : s.f Fd.RAILS_STAT_ADCSEL ≠ 3) : s.scanBegin = s.setF Fd.RAILS_STAT_SCANBUSY 1 := if_pos ⟨enabled, idle, converter⟩

/-- A write of SCANCFG with GO = 1: the period starts again, and a scan begins. -/
theorem busWrite_scanGo (s : State) (w : Writer) (d : Word) {r : RegRow} (row : findRow 0xB 0xC8 = some r) :
    s.busWrite w Reg.RAILS_SCANCFG (d ||| 0x200) =
      let u := s.wr Reg.RAILS_SCANCFG (s.writtenWord Reg.RAILS_SCANCFG r (d ||| 0x200) &&& ~~~ 0x200)
      State.scanBegin { u with adc := { u.adc with scanDue := u.ticks + u.f Fd.RAILS_SCANCFG_PERIOD } } := by
  have facts : (findRow 0xB 0xC8).map (fun r => (r.sc, r.writable)) = some (0, true) := by decide
  rw [row] at facts
  obtain ⟨sc, writable⟩ := Prod.mk.inj (Option.some.inj facts)
  have access : accessOf .boot Reg.RAILS_SCANCFG = some (Reg.RAILS_SCANCFG, r, 0) :=
    (show accessOf .boot Reg.RAILS_SCANCFG = (findRow 0xB 0xC8).map fun r => (Reg.RAILS_SCANCFG, r, 0) from rfl).trans
      (by rw [row]; rfl)
  have go : bit (d ||| 0x200) 9 = true := by
    rw [bit, BitVec.getLsbD_or]
    exact Bool.or_true _
  rw [busWrite_at (p := 0xB) rfl (by decide) (by decide) access sc writable]
  exact if_pos go

section
variable {xs ys : List AdcSample} {u : State} (busy : s.fb Fd.RAILS_STAT_SCANBUSY = true) (scan : s.scanOf xs = some ys)
  (stored : u = ys.foldl State.storeSample s) (both : u.f Fd.RAILS_STAT_ADCSEL = 0)
include busy scan stored both

theorem State.scanDone_compares (check : u.fb Fd.RAILS_CTRL_XCHKEN = true) :
    s.scanDone xs = ((ys.foldl State.crossCheck { u with
      adc := { u.adc with dis := u.adc.dis.filter fun p => ys.any fun x => x.ch == p.1 } }).setF Fd.RAILS_STAT_SCANBUSY 0).ev
        Fd.RAILS_EVRAW_SCANDONE := by
  simp only [State.scanDone, scan, busy, if_true, ← stored, State.scanJudge, both, check]

theorem State.scanDone_stores (plain : u.fb Fd.RAILS_CTRL_XCHKEN = false) :
    s.scanDone xs = (State.setF { u with adc := { u.adc with dis := [] } } Fd.RAILS_STAT_SCANBUSY 0).ev
      Fd.RAILS_EVRAW_SCANDONE := by
  simp only [State.scanDone, scan, busy, if_true, ← stored, State.scanJudge, both, plain, Bool.false_eq_true, if_false,
    List.any_nil, List.filter_false, List.foldl_nil]

end

theorem State.storeSample_a {x : AdcSample} (both : s.f Fd.RAILS_STAT_ADCSEL = 0) :
    s.storeSample x = ((((s.setF (Fd.RAILS_ADC_VALUE x.ch) (adcValueOf x.ch (meanCode x.a) x.value)).setF
      (Fd.RAILS_ADC_VALID x.ch) 1).setFb (Fd.RAILS_ADC_SRC x.ch) false).setF (Fd.RAILS_ADC_RAW x.ch) (meanCode x.a)).noteSample
        x.ch (adcValueOf x.ch (meanCode x.a) x.value) := by
  simp only [State.storeSample, both]
  rfl

/-! ## The self-test (R187, R188) -/

/-- Converter `sel` is the only one left. -/
def State.adcSole (s : State) (sel : Nat) : State :=
  ((s.setF Fd.RAILS_STAT_ADCSEL sel).setF Fd.HEALTH_SPARESTAT_ADCSOLE 1).ev Fd.RAILS_EVRAW_ADCSUB

/-- What a self-test with both converters in use leaves. -/
def State.selfTestBoth (s : State) (passA passB : Bool) : State :=
  match passA, passB with
  | true, true => s
  | false, true => (s.adcSole 2).spareUsed
  | true, false => s.adcSole 1
  | false, false => s.adcGone

section
variable {a b : Nat × Nat} (test : s.adc.selfTest = true)
include test

theorem State.selfTestDone_both (both : s.f Fd.RAILS_STAT_ADCSEL = 0) :
    s.selfTestDone a b =
      State.selfTestBoth { s with adc := { s.adc with selfTest := false } } (s.adcPasses 0 a) (s.adcPasses 1 b) := by
  have both' : ({ s with adc := { s.adc with selfTest := false } } : State).f Fd.RAILS_STAT_ADCSEL = 0 := both
  refine (if_pos test).trans ?_
  simp only [both']
  rfl

theorem State.selfTestDone_a (alone : s.f Fd.RAILS_STAT_ADCSEL = 1) :
    s.selfTestDone a b =
      let u : State := { s with adc := { s.adc with selfTest := false } }
      if s.adcPasses 0 a then u else u.adcGone := by
  have alone' : ({ s with adc := { s.adc with selfTest := false } } : State).f Fd.RAILS_STAT_ADCSEL = 1 := alone
  refine (if_pos test).trans ?_
  simp only [alone']

theorem State.selfTestDone_b (alone : s.f Fd.RAILS_STAT_ADCSEL = 2) :
    s.selfTestDone a b =
      let u : State := { s with adc := { s.adc with selfTest := false } }
      if s.adcPasses 1 b then u else u.adcGone := by
  have alone' : ({ s with adc := { s.adc with selfTest := false } } : State).f Fd.RAILS_STAT_ADCSEL = 2 := alone
  refine (if_pos test).trans ?_
  simp only [alone']

end

end

/-- Settles O32: a scan by its start and its converters, a self-test by what passes. -/
theorem adcScan : Obligations.AdcScan := by
  refine fun s ao => ⟨fun up enabled period due => ?_, fun up disabled => ?_,
    fun enabled idle converter => State.scanBegin_begins enabled idle converter, fun w d r m row => ⟨_, _, rfl, rfl, ?_⟩,
    fun xs ys u up busy scan stored both => ⟨fun check => ?_, fun plain => ?_⟩,
    fun x r v both code value => ?_, fun a b up test => ⟨_, rfl, fun both => ⟨fun pa pb => ?_, fun pa pb => ?_, fun pa pb => ?_,
      fun pa pb => ?_⟩, fun alone => ?_, fun alone => ?_⟩⟩
  · rw [exec_adcScanStart, live_next _ ao up, State.scanStart_due enabled period due]
  · rw [exec_adcScanStart, live_next _ ao up, State.scanStart_disabled disabled]
  · rw [exec_adcScanGo, write_word ao m rfl, busWrite_scanGo s w d row]
  · rw [exec_adcScanDone, live_next _ ao up, State.scanDone_compares busy scan stored both check]
  · rw [exec_adcScanDone, live_next _ ao up, State.scanDone_stores busy scan stored both plain]
  · rw [State.storeSample_a both, value, code]
  · rw [exec_adcSelftestDone, live_next _ ao up, State.selfTestDone_both test both, pa, pb, State.selfTestBoth]
  · rw [exec_adcSelftestDone, live_next _ ao up, State.selfTestDone_both test both, pa, pb, State.selfTestBoth, State.adcSole]
  · rw [exec_adcSelftestDone, live_next _ ao up, State.selfTestDone_both test both, pa, pb, State.selfTestBoth, State.adcSole]
  · rw [exec_adcSelftestDone, live_next _ ao up, State.selfTestDone_both test both, pa, pb, State.selfTestBoth]
  · rw [exec_adcSelftestDone, live_next _ ao up, State.selfTestDone_a test alone]
  · rw [exec_adcSelftestDone, live_next _ ao up, State.selfTestDone_b test alone]

end Sys2Proof.Machine
end

section
/-! PROOF. The rail table: requests (R196–R201), and its events with the first-failure capture (R191–R195, R198, R204). -/

namespace Sys2Proof.Machine

/-! ## Requests (R193, R196–R199) -/

section
variable {s : State} {k : Nat}

theorem State.slotOn_unused (unused : s.slotUse k = false) : s.slotOn k = (s.slotRefuse k 1, true) := if_pos unused

section
variable (used : s.slotUse k = true)
include used

theorem State.slotOn_held (held : s.therm.holding = true) : s.slotOn k = (s.setPend k true, false) :=
  (if_neg (by rw [used]; decide)).trans (if_pos held)

section
variable (running : s.therm.holding = false)
include running

theorem State.slotOn_failed (failed : s.slotSt k = slFailed) : s.slotOn k = (s.slotRefuse k 2, true) :=
  (if_neg (by rw [used]; decide)).trans ((if_neg (ne_true_of_eq_false running)).trans (if_pos failed))

section
variable (off : s.slotSt k = slOff)
include off

theorem State.slotOn_lost (lost : ∃ j ∈ s.deps k, s.depLost j = true) : s.slotOn k = (s.slotRefuse k 3, true) := by
  have any : (s.deps k).any s.depLost = true := List.any_eq_true.mpr lost
  simp [State.slotOn, used, running, off, slOff, slFailed, any]

section
variable (alive : ∀ j ∈ s.deps k, s.depLost j = false) (noLoop : 4 ≤ k)
include alive noLoop

theorem State.slotOn_minoff (early : s.ticks < (s.slot k).minoffDue) : s.slotOn k = (s.setPend k true, false) := by
  have any : (s.deps k).any s.depLost = false := by simpa using alive
  have loop : ¬k < 4 := Nat.not_lt.mpr noLoop
  simp [State.slotOn, used, running, off, slOff, slFailed, any, loop, early]

theorem State.slotOn_starts (late : (s.slot k).minoffDue ≤ s.ticks) (good : ∀ j ∈ s.deps k, s.slotSt j = slGood) :
    s.slotOn k = (s.slotStart k, false) := by
  have any : (s.deps k).any s.depLost = false := by simpa using alive
  have all : ((s.deps k).all fun j => s.slotSt j == slGood) = true := by simpa using good
  have loop : ¬k < 4 := Nat.not_lt.mpr noLoop
  have past : ¬s.ticks < (s.slot k).minoffDue := Nat.not_lt.mpr late
  simp [State.slotOn, used, running, off, slOff, slFailed, any, loop, past, all]

theorem State.slotOn_waits (late : (s.slot k).minoffDue ≤ s.ticks) (bad : ∃ j ∈ s.deps k, s.slotSt j ≠ slGood) :
    s.slotOn k = (s.setSlotSt k slWaitdep, false) := by
  have any : (s.deps k).any s.depLost = false := by simpa using alive
  have all : ((s.deps k).all fun j => s.slotSt j == slGood) = false := by simpa using bad
  have loop : ¬k < 4 := Nat.not_lt.mpr noLoop
  have past : ¬s.ticks < (s.slot k).minoffDue := Nat.not_lt.mpr late
  simp [State.slotOn, used, running, off, slOff, slFailed, any, loop, past, all]

end

end

end

end

theorem State.slotOffReq_cancels (waits : (s.setPend k false).slotSt k = slWaitdep) :
    s.slotOffReq k = (s.setPend k false).setSlotSt k slOff := if_pos waits

theorem State.slotOffReq_runs (on : (s.setPend k false).slotSt k = slStart ∨ (s.setPend k false).slotSt k = slGood ∨
    (s.setPend k false).slotSt k = slFailed) : s.slotOffReq k = (s.setPend k false).downRun [k] := by
  refine (if_neg fun waits => ?_).trans (if_pos on)
  rw [waits] at on
  revert on
  decide

theorem State.slotOffReq_off (off : (s.setPend k false).slotSt k = slOff) : s.slotOffReq k = s.setPend k false := by
  refine (if_neg fun waits => ?_).trans (if_neg fun on => ?_)
  · rw [waits] at off
    exact absurd off (by decide)
  · rw [off] at on
    revert on
    decide

theorem State.seqReq_on (s : State) (k : Fin 32) : s.seqReq (BitVec.ofNat 32 (0x100 + k.val)) = (s.slotOn k).1 := by
  obtain ⟨slot, on, _, _⟩ := seqReq_bits k
  rw [State.seqReq, slot, on]
  rfl

theorem State.seqReq_off (s : State) (k : Fin 32) : s.seqReq (BitVec.ofNat 32 k.val) = s.slotOffReq k := by
  obtain ⟨_, _, slot, off⟩ := seqReq_bits k
  rw [State.seqReq, slot, off]
  rfl

theorem busWrite_seqDown (s : State) (w : Writer) (d : Word) : s.busWrite w Reg.SEQ_DOWN d = s.seqDown d :=
  (busWrite_at (p := 0xC) (k := Reg.SEQ_DOWN) rfl (by decide) (by decide) rfl rfl rfl).trans rfl

/-! ## Dependency masks (R201) -/

theorem State.depWrite_on {d : Word} (on : s.slotSt k ≠ slOff) : s.depWrite k d = s.slotRefuse k 6 := if_pos on

theorem State.depWrite_cycle {d : Word} (off : s.slotSt k = slOff) (cycle : s.makesCycle k (d &&& ~~~ bitAt k) = true) :
    s.depWrite k d = s.slotRefuse k 5 := (if_neg (not_not_intro off)).trans (if_pos cycle)

theorem State.depWrite_takes {d : Word} (off : s.slotSt k = slOff) (acyclic : s.makesCycle k (d &&& ~~~ bitAt k) = false) :
    s.depWrite k d = s.wr (Reg.SEQ_SLOTDEP k) (d &&& ~~~ bitAt k) :=
  (if_neg (not_not_intro off)).trans (if_neg (ne_true_of_eq_false acyclic))

end

section
variable {s : State} {w : Writer} {k : Fin 32}

theorem exec_slotOnRequest_next (ao : s.power.ao = true) (m : s.mayWrite w Reg.SEQ_REQ = true) :
    exec (.slotOnRequest w k) s = .next (s.slotOn k).1.settle := by
  rw [exec_slotOnRequest, write_word ao m rfl, busWrite_seqReq, State.seqReq_on]

theorem exec_slotOffRequest_next (ao : s.power.ao = true) (m : s.mayWrite w Reg.SEQ_REQ = true) :
    exec (.slotOffRequest w k) s = .next (s.slotOffReq k).settle := by
  rw [exec_slotOffRequest, write_word ao m rfl, busWrite_seqReq, State.seqReq_off]

end

/-- Settles O33: an on request by the branches of R196, an off request by the slot's state, a mask by R201. -/
theorem slotRequests : Obligations.SlotRequests := by
  refine fun s w k ao => ⟨fun m => ⟨fun unused => ?_, fun used held => ?_, fun used running failed => ?_,
      fun used running off lost => ?_, fun used running off alive noLoop => ⟨fun early => ?_, fun late good => ?_, fun late bad => ?_⟩,
      fun waits => ?_, fun on => ?_, fun off => ?_⟩, fun d m => ?_, fun d m on => ?_, fun d m off cycle => ?_,
    fun d m off acyclic => ?_, fun off => if_pos off, _, rfl, rfl⟩
  · rw [exec_slotOnRequest_next ao m, State.slotOn_unused unused]
  · rw [exec_slotOnRequest_next ao m, State.slotOn_held used held]
  · rw [exec_slotOnRequest_next ao m, State.slotOn_failed used running failed]
  · rw [exec_slotOnRequest_next ao m, State.slotOn_lost used running off lost]
  · rw [exec_slotOnRequest_next ao m, State.slotOn_minoff used running off alive noLoop early]
  · rw [exec_slotOnRequest_next ao m, State.slotOn_starts used running off alive noLoop late good]
  · rw [exec_slotOnRequest_next ao m, State.slotOn_waits used running off alive noLoop late bad]
  · rw [exec_slotOffRequest_next ao m, State.slotOffReq_cancels waits]
  · rw [exec_slotOffRequest_next ao m, State.slotOffReq_runs on]
  · rw [exec_slotOffRequest_next ao m, State.slotOffReq_off off]
  · rw [exec_seqDown, write_word ao m rfl, busWrite_seqDown, State.seqDown]
  · rw [exec_slotDepWrite, write_word ao m (busWordAddr_slotDep k), busWrite_slotDep, State.depWrite_on on]
  · rw [exec_slotDepWrite, write_word ao m (busWordAddr_slotDep k), busWrite_slotDep, State.depWrite_cycle off cycle]
  · rw [exec_slotDepWrite, write_word ao m (busWordAddr_slotDep k), busWrite_slotDep, State.depWrite_takes off acyclic]

/-! ## Events of a slot (R191, R193, R195, R198) -/

section
variable {s : State} {k mv : Nat}

theorem State.slotQualified_good (start : s.slotSt k = slStart) (inside : (s.slot k).inWin = true)
    (held : getBits (s.slot k).time 0 12 ≤ s.ticks - (s.slot k).qualFrom) :
    s.slotQualified k = ((s.setSlotSt k slGood).setF (Fd.SEQ_SLOTSTAT_CHAT k) 0).ev Fd.SEQ_EVRAW_GOOD :=
  if_pos ⟨start, inside, held⟩

section
variable {due : Nat} (start : s.slotSt k = slStart) (timer : (s.slot k).startDue = some due) (passed : due ≤ s.ticks)
include start timer passed

theorem State.slotStartTimeout_fails (out : (s.slot k).inRun = false) : s.slotStartTimeout k = s.slotFail k 1 := by
  simp [State.slotStartTimeout, State.startOver, start, timer, passed, out]

theorem State.slotStartTimeout_run (run : (s.slot k).inRun = true) :
    s.slotStartTimeout k = ((s.setSlot k { s.slot k with startDue := none }).ev Fd.SEQ_EVRAW_RUNFAULT).almanacBlock 12 6 k 0 := by
  simp only [State.slotStartTimeout, State.startOver, start, timer, decide_eq_true passed, run, and_self, if_true]
  rfl

end

section
variable (stop : s.slotSt k = slStop)
include stop

theorem State.slotDischarged_loop (loop : k < 4) (below : mv < 20 * getBits (s.slot k).cfg 12 8) :
    s.slotDischarged k mv = (s.setF (Fd.LOOP_MEAS_VOUT k) mv).slotReachOff k := by
  have output : k < 18 := by omega
  simp [State.slotDischarged, stop, loop, output, below]

theorem State.slotDischarged_output (lo : 4 ≤ k) (hi : k < 18) (below : mv < 20 * getBits (s.slot k).cfg 12 8) :
    s.slotDischarged k mv = (if k < 10 then s.railSeen (k - 4) mv else s).slotReachOff k := by
  have noLoop : ¬k < 4 := Nat.not_lt.mpr lo
  simp [State.slotDischarged, stop, noLoop, hi, below]

theorem State.slotDischarged_group (group : 18 ≤ k) (released : s.groupCommit (k - 18) = 0) :
    s.slotDischarged k mv = s.slotReachOff k := by
  have noLoop : ¬k < 4 := by omega
  have noRail : ¬k < 10 := by omega
  have noOutput : ¬k < 18 := by omega
  simp [State.slotDischarged, stop, noLoop, noRail, noOutput, released]

theorem State.slotDischargeTimeout_forces (passed : (s.slot k).disDue ≤ s.ticks) :
    s.slotDischargeTimeout k = ((((s.slotReachOff k).setFb (Fd.SEQ_SLOTSTAT_FORCED k) (decide (k < 18))).ev
      Fd.SEQ_EVRAW_DTIMEOUT).almanacBlock 12 4 k 0).raise 21 0 k := if_pos ⟨stop, passed⟩

end

theorem State.slotPendDue_acts (pend : s.fb (Fd.SEQ_SLOTSTAT_PEND k) = true) (off : s.slotSt k = slOff)
    (passed : (s.slot k).minoffDue ≤ s.ticks) : s.slotPendDue k = ((s.setPend k false).slotOn k).1 := if_pos ⟨pend, off, passed⟩

/-- A failing slot while RSTO# is released. -/
theorem State.slotFail_released {cause : Nat}
    (released : ((((s.setSlotSt k slFailed).setF (Fd.SEQ_SLOTSTAT_CAUSE k) cause).ev Fd.SEQ_EVRAW_FAILED).raise 20 cause k).seq.rsto =
      true) : s.slotFail k cause =
        (((s.setSlotSt k slFailed).setF (Fd.SEQ_SLOTSTAT_CAUSE k) cause).ev Fd.SEQ_EVRAW_FAILED).raise 20 cause k :=
  if_neg fun h => absurd h.1 (by rw [released]; decide)

/-! ## The collapse warning and the capture (R204, R205) -/

theorem State.vcwLow_seeVsys {v : Nat} (low : v < 100 * s.f Fd.SEQ_COLLAPSE_VCW) : (s.seeVsys v).vcwLow = true :=
  decide_eq_true low

theorem State.vsysCollapse_warns {v : Nat} (low : v < 100 * s.f Fd.SEQ_COLLAPSE_VCW) :
    s.vsysCollapse v = ((((({ s.seeVsys v with
      seq := { (s.seeVsys v).seq with lastLoss := s.ticks } } : State).ev Fd.SEQ_EVRAW_VCW).firstFail 0x40).raise 2 0 0)).gaugeOwe :=
  if_pos (State.vcwLow_seeVsys low)

theorem State.firstFailRearm_arms {v since : Nat} (high : 100 * (s.f Fd.SEQ_COLLAPSE_VCW + s.f Fd.SEQ_COLLAPSE_HYST) < v)
    (stood : since + msTicks (s.f Fd.SEQ_COLLAPSE_REARM) ≤ s.ticks)
    (noLoss : s.seq.lastLoss + msTicks (s.f Fd.SEQ_COLLAPSE_REARM) ≤ s.ticks) (released : s.seq.rsto = true) :
    s.firstFailRearm v since = (s.seeVsys v).setF Fd.SEQ_STAT_FFARMED 1 := by
  have past : max since s.seq.lastLoss + msTicks (s.f Fd.SEQ_COLLAPSE_REARM) ≤ s.ticks := by
    rw [← Nat.add_max_add_right]
    exact Nat.max_le.mpr ⟨stood, noLoss⟩
  exact if_pos ⟨high, past, released⟩

theorem busWrite_seqCtrl_arm (s : State) (w : Writer) : s.busWrite w Reg.SEQ_CTRL 1 = s.setF Fd.SEQ_STAT_FFARMED 1 :=
  (busWrite_at (p := 0xC) (k := Reg.SEQ_CTRL) rfl (by decide) (by decide) rfl rfl rfl).trans rfl

theorem State.firstFail_unarmed (unarmed : s.fb Fd.SEQ_STAT_FFARMED = false) (t : Nat) : s.firstFail t = s :=
  if_neg (ne_true_of_eq_false unarmed)

end

/-- Settles O34: each event of a slot by the slot's state; the capture by whether it is armed. -/
theorem slotEvents : Obligations.SlotEvents := by
  refine fun s k ao => ⟨fun up start inside held => ?_, fun due up start timer passed => ⟨fun out => ?_, fun run => ?_⟩,
    fun mv up stop lo hi below => ?_, fun mv up stop loop below => ?_, fun mv up stop group released => ?_,
    fun up stop passed => ?_, fun up pend off passed => ?_, fun v up low => ⟨_, _, rfl, rfl, State.vcwLow_seeVsys low, ?_⟩,
    fun v since up high stood noLoss released => ?_, fun w m => ?_, fun unarmed t => State.firstFail_unarmed unarmed t,
    _, rfl, fun released => State.slotFail_released released⟩
  · rw [exec_slotQualified, live_next _ ao up, State.slotQualified_good start inside held]
  · rw [exec_slotStartTimeout, live_next _ ao up, State.slotStartTimeout_fails start timer passed out]
  · rw [exec_slotStartTimeout, live_next _ ao up, State.slotStartTimeout_run start timer passed run]
  · rw [exec_slotDischarged, live_next _ ao up, State.slotDischarged_output stop lo hi below]
  · rw [exec_slotDischarged, live_next _ ao up, State.slotDischarged_loop stop loop below]
  · rw [exec_slotDischarged, live_next _ ao up, State.slotDischarged_group stop group released]
  · rw [exec_slotDischargeTimeout, live_next _ ao up, State.slotDischargeTimeout_forces stop passed]
  · rw [exec_slotPendDue, live_next _ ao up, State.slotPendDue_acts pend off passed]
  · rw [exec_vsysCollapseWarn, live_next _ ao up, State.vsysCollapse_warns low]
    rfl
  · rw [exec_firstfailRearm, live_next _ ao up, State.firstFailRearm_arms high stood noLoss released]
    rfl
  · rw [exec_ffarmWrite, write_word ao m rfl, busWrite_seqCtrl_arm]

end Sys2Proof.Machine
end

section
/-! PROOF. Input protection (O36), the writes of `PATH.CTRL` (O37), the charger (O38), hardware limits and battery presence (O39). -/

namespace Sys2Proof.Machine

/-! ## Input protection (R214–R218) -/

section
variable {s : State}

theorem State.reverseBlock_source (on : s.fb Fd.PATH_STAT_ACON = true)
    (source : (((s.setF Fd.PATH_STAT_ACON 0).ev Fd.PATH_EVRAW_REVERSE).setPath
      { s.path with reverse := true, revDet := s.ho == hoDetect }).ho = hoSource) :
    s.reverseBlock = (((s.setF Fd.PATH_STAT_ACON 0).ev Fd.PATH_EVRAW_REVERSE).setPath
      { s.path with reverse := true, revDet := s.ho == hoDetect }).inputLost 4 :=
  (if_pos on).trans (if_pos source)

theorem State.reverseBlock_other (on : s.fb Fd.PATH_STAT_ACON = true)
    (other : (((s.setF Fd.PATH_STAT_ACON 0).ev Fd.PATH_EVRAW_REVERSE).setPath
      { s.path with reverse := true, revDet := s.ho == hoDetect }).ho ≠ hoSource) :
    s.reverseBlock = ((s.setF Fd.PATH_STAT_ACON 0).ev Fd.PATH_EVRAW_REVERSE).setPath
      { s.path with reverse := true, revDet := s.ho == hoDetect } :=
  (if_pos on).trans (if_neg other)

theorem State.reverseBlock_off (off : s.fb Fd.PATH_STAT_ACON = false) : s.reverseBlock = s := if_neg (ne_true_of_eq_false off)

theorem State.reverseRelease_source {vac vsys : Nat} (blocked : s.path.reverse = true) (source : s.ho = hoSource)
    (above : vsys + 100 < vac) (below : vac ≤ 100 * s.f Fd.PATH_VACWIN_HI) : s.reverseRelease vac vsys =
      State.setF { s with
        plant := { s.plant with vac := some vac, vsys := some vsys }, path := { s.path with reverse := false } } Fd.PATH_STAT_ACON 1 :=
  if_pos ⟨blocked, .inl source, above, below⟩

theorem State.ho_setMeas (n : Nat) : (s.setF Fd.PATH_MEAS_IIN n).ho = s.ho := s.f_setF_ne n (by decide)

theorem State.inputTrip_detect {iin : Nat} (armed : s.f Fd.PATH_INLIM_TRIP ≠ 0)
    (above : s.f Fd.PATH_INLIM_TRIP * s.f Fd.PATH_INLIM_MA < 100 * iin) (on : s.fb Fd.PATH_STAT_ACON = true)
    (carries : s.ho = hoSource ∨ s.ho = hoReconnect) :
    s.inputTrip iin = (s.setF Fd.PATH_MEAS_IIN (min 0xFFFF (iin / 10))).toDetect 3 :=
  (if_pos ⟨armed, above, on⟩).trans (if_pos (by rwa [State.ho_setMeas]))

theorem State.inputTrip_disarmed {iin : Nat} (disarmed : s.f Fd.PATH_INLIM_TRIP = 0) : s.inputTrip iin = s :=
  if_neg fun h => h.1 disarmed

/-- R218: the law's sample, with its part in proportion named. -/
theorem State.hbSample_eq (x : HbSample) {p u : Int} (hp : p = (s.f Fd.PATH_INLIM_MA : Int) - (x.iin : Int))
    (hu : u = max s.uLow (min s.uHigh (p + s.path.integ + x.acc))) :
    s.hbSample x = ((s.setF Fd.PATH_MEAS_IIN (min 0xFFFF (x.iin / 10))).setPath { s.path with u := u, integ := u - p }).setFb
      Fd.PATH_STAT_INREG (decide (u < 0) && !s.path.supp) := by
  subst hp hu
  rfl

section
variable {x : HbSample} (source : s.ho = hoSource)
include source

theorem State.supplementStart_supplements (deficit : (s.hbSample x).path.u < -200)
    (enabled : (s.hbSample x).testCut.fb Fd.PATH_CTRL_SUPEN = true) (free : (s.hbSample x).testCut.dischargeFree = true) :
    s.supplementStart x =
      ((s.hbSample x).testCut.setPath { (s.hbSample x).testCut.path with supp := true }).setF Fd.PATH_STAT_INREG 0 :=
  (if_pos source).trans ((if_pos deficit).trans (if_pos (by rw [enabled, free]; rfl)))

theorem State.supplementStart_barred (deficit : (s.hbSample x).path.u < -200)
    (barred : (s.hbSample x).testCut.fb Fd.PATH_CTRL_SUPEN = false ∨ (s.hbSample x).testCut.dischargeFree = false) :
    s.supplementStart x = (s.hbSample x).testCut := by
  refine (if_pos source).trans ((if_pos deficit).trans (if_neg ?_))
  rcases barred with h | h <;> simp [h]

theorem State.supplementStart_supplied (supplied : -200 ≤ (s.hbSample x).path.u) : s.supplementStart x = s.hbSample x :=
  (if_pos source).trans (if_neg (not_lt.mpr supplied))

theorem State.supplementEnd_ends (above : 0 < (s.hbSample x).path.u) :
    s.supplementEnd x = (s.hbSample x).setPath { (s.hbSample x).path with supp := false } :=
  (if_pos source).trans (if_pos above)

theorem State.supplementEnd_stays (below : (s.hbSample x).path.u ≤ 0) : s.supplementEnd x = s.hbSample x :=
  (if_pos source).trans (if_neg (not_lt.mpr below))

theorem State.inputSaturated_event (held : (s.hbSample x).fb Fd.PATH_STAT_INREG = true) :
    s.inputSaturated x = (s.hbSample x).ev Fd.PATH_EVRAW_INSAT := (if_pos source).trans (if_pos held)

theorem State.inputSaturated_free (free : (s.hbSample x).fb Fd.PATH_STAT_INREG = false) : s.inputSaturated x = s.hbSample x :=
  (if_pos source).trans (if_neg (ne_true_of_eq_false free))

theorem State.bounceClear_source : s.bounceClear = (s.setF Fd.PATH_HOCOUNT_BOUNCE 0).setPath { s.path with settled := true } :=
  if_pos source

end

theorem State.bounce_reaches {u : State} (hu : u = (s.incF Fd.PATH_HOCOUNT_BOUNCE).ev Fd.PATH_EVRAW_BOUNCE)
    (before : s.f Fd.PATH_HOCOUNT_BOUNCE < u.f Fd.PATH_QUAL_BOUNCEMAX)
    (reached : u.f Fd.PATH_QUAL_BOUNCEMAX ≤ u.f Fd.PATH_HOCOUNT_BOUNCE) : s.bounce = u.raise 23 0 (u.f Fd.PATH_HOCOUNT_BOUNCE) := by
  subst hu
  exact if_pos ⟨before, reached⟩

theorem State.bounce_counts {u : State} (hu : u = (s.incF Fd.PATH_HOCOUNT_BOUNCE).ev Fd.PATH_EVRAW_BOUNCE)
    (apart : u.f Fd.PATH_QUAL_BOUNCEMAX ≤ s.f Fd.PATH_HOCOUNT_BOUNCE ∨ u.f Fd.PATH_HOCOUNT_BOUNCE < u.f Fd.PATH_QUAL_BOUNCEMAX) :
    s.bounce = u := by
  subst hu
  exact if_neg fun h => apart.elim (not_le.mpr h.1) (not_lt.mpr h.2)

end

/-- Settles O36: each protection by the state it acts in; the supplement by the sign of u after the sample. -/
theorem inputProtection : Obligations.InputProtection := by
  refine fun s ao up => ⟨fun on => ⟨_, rfl, fun source => ?_, fun other => ?_⟩, fun off => ?_,
    fun vac vsys blocked source above below => ?_, fun iin armed above on carries => ?_, fun iin disarmed => ?_,
    fun x p u hp hu => State.hbSample_eq x hp hu, fun x u v source hu hv => ?_, fun source => ⟨_, rfl, ?_⟩,
    fun u hu => ⟨State.bounce_reaches hu, State.bounce_counts hu⟩⟩
  · rw [exec_reverseCurrentBlock, live_next _ ao up, State.reverseBlock_source on source]
    rfl
  · rw [exec_reverseCurrentBlock, live_next _ ao up, State.reverseBlock_other on other]
  · rw [exec_reverseCurrentBlock, live_next _ ao up, State.reverseBlock_off off]
  · rw [exec_reverseBlockRelease, live_next _ ao up, State.reverseRelease_source blocked source above below]
  · rw [exec_inputTrip, live_next _ ao up, State.inputTrip_detect armed above on carries]
  · rw [exec_inputTrip, live_next _ ao up, State.inputTrip_disarmed disarmed]
  · subst hv hu
    refine ⟨fun deficit enabled free => ?_, fun deficit barred => ?_, fun supplied => ?_, fun above => ?_, fun below => ?_,
      fun held => ?_, fun free => ?_⟩
    · rw [exec_supplementStart, live_next _ ao up, State.supplementStart_supplements source deficit enabled free]
    · rw [exec_supplementStart, live_next _ ao up, State.supplementStart_barred source deficit barred]
    · rw [exec_supplementStart, live_next _ ao up, State.supplementStart_supplied source supplied]
    · rw [exec_supplementEnd, live_next _ ao up, State.supplementEnd_ends source above]
    · rw [exec_supplementEnd, live_next _ ao up, State.supplementEnd_stays source below]
    · rw [exec_inputSaturated, live_next _ ao up, State.inputSaturated_event source held]
    · rw [exec_inputSaturated, live_next _ ao up, State.inputSaturated_free source free]
  · rw [exec_bounceClear, live_next _ ao up, State.bounceClear_source source]
    rfl

/-! ## Writes of `PATH.CTRL` (R221, R222, R226, R228, R232) -/

section
variable {s : State}

theorem State.pathCtrlWrite_holding (holding : s.therm.holding = true) (h : Bool) (d : Word) :
    s.pathCtrlWrite h d = s.pathCtrlStore d := if_pos holding

/-- R228, R226: what a write does after its bits are stored and INEN has acted: CHGEN, then TRST, then BATGO. -/
def State.chargerBits (b : State) (was h : Bool) (d : Word) : State :=
  let c := if bit d 3 then b.chgOn else if was ∨ b.fb Fd.PATH_STAT_CHGPEND then b.chgOff else b
  let c := if bit d 5 ∧ h then c.leaveTimeout else c
  if bit d 4 then c.batGo else c

theorem State.pathCtrlWrite_acts (acts : s.therm.holding = false) (h : Bool) (d : Word) : s.pathCtrlWrite h d =
    ((((s.hoenWrite (bit d 1)).setFb Fd.PATH_CTRL_SUPEN (bit d 2)).setFb Fd.PATH_CTRL_CHGEN (bit d 3)).inenWrite
      (bit d 0)).chargerBits (s.fb Fd.PATH_CTRL_CHGEN) h d := if_neg (ne_true_of_eq_false acts)

section
variable {b : State} {was h : Bool} {d : Word}

theorem State.chargerBits_on (on : bit d 3 = true) (noGo : bit d 4 = false) (noTrst : bit d 5 = false) :
    b.chargerBits was h d = b.chgOn := by
  simp only [State.chargerBits, on, noGo, noTrst, if_true, false_and, if_false, Bool.false_eq_true]

theorem State.chargerBits_onGo (on : bit d 3 = true) (go : bit d 4 = true) (noTrst : bit d 5 = false) :
    b.chargerBits was h d = b.chgOn.batGo := by
  simp only [State.chargerBits, on, go, noTrst, if_true, false_and, if_false, Bool.false_eq_true]

theorem State.chargerBits_trst_host (on : bit d 3 = true) (noGo : bit d 4 = false) (trst : bit d 5 = true) :
    b.chargerBits was true d = b.chgOn.leaveTimeout := by
  simp only [State.chargerBits, on, noGo, trst, if_true, and_self, if_false, Bool.false_eq_true]

/-- TRST acts from a host alone. -/
theorem State.chargerBits_trst_thread (on : bit d 3 = true) (noGo : bit d 4 = false) : b.chargerBits was false d = b.chgOn := by
  simp only [State.chargerBits, on, noGo, if_true, and_false, if_false, Bool.false_eq_true]

theorem State.chargerBits_off (off : bit d 3 = false) (noGo : bit d 4 = false) (noTrst : bit d 5 = false) :
    b.chargerBits true h d = b.chgOff := by
  simp only [State.chargerBits, off, noGo, noTrst, true_or, if_true, false_and, if_false, Bool.false_eq_true]

end

theorem State.inenWrite_on {t : State} (ht : t = s.setFb Fd.PATH_CTRL_INEN true) (off : t.ho = hoOff) :
    s.inenWrite true = t.toHo hoQualify := by
  subst ht
  exact if_pos off

section
variable {t : State} (ht : t = s.setFb Fd.PATH_CTRL_INEN false)
include ht

theorem State.inenWrite_off_qualify (qualify : t.ho = hoQualify) : s.inenWrite false = t.toHo hoOff := by
  subst ht
  exact if_pos qualify

theorem State.inenWrite_off_reconnect (reconnect : t.ho = hoReconnect) : s.inenWrite false = t.reconnectBack false := by
  subst ht
  exact (if_neg (by rw [reconnect]; decide)).trans (if_pos reconnect)

theorem State.inenWrite_off_source (source : t.ho = hoSource) : s.inenWrite false = t.sourceOff := by
  subst ht
  exact (if_neg (by rw [source]; decide)).trans ((if_neg (by rw [source]; decide)).trans (if_pos source))

end

theorem State.sourceOff_bridge (usable : (s.setF Fd.PATH_STAT_ACON 0).batteryUsable = true) :
    s.sourceOff = (((s.setF Fd.PATH_STAT_ACON 0).toHo hoBridge).ev Fd.PATH_EVRAW_BRIDGE).gaugeOwe := if_pos usable

theorem State.sourceOff_off (unusable : (s.setF Fd.PATH_STAT_ACON 0).batteryUsable = false) :
    s.sourceOff = (s.setF Fd.PATH_STAT_ACON 0).toHo hoOff := if_neg (ne_true_of_eq_false unusable)

theorem State.chgOn_past (off : s.chg = chOff) (past : s.chgOffPast = true) : s.chgOn = s.toChg chWait :=
  (if_pos off).trans (if_pos past)

theorem State.chgOn_pending (off : s.chg = chOff) (within : s.chgOffPast = false) : s.chgOn = s.setF Fd.PATH_STAT_CHGPEND 1 :=
  (if_pos off).trans (if_neg (ne_true_of_eq_false within))

theorem State.chgOn_stopping (stopping : s.chg = chStopping) : s.chgOn = s.setF Fd.PATH_STAT_CHGPEND 1 :=
  (if_neg (by rw [stopping]; decide)).trans (if_pos stopping)

theorem State.chgOn_timeout (timeout : s.chg = chTimeout) : s.chgOn = s :=
  (if_neg (by rw [timeout]; decide)).trans (if_neg (by rw [timeout]; decide))

theorem State.chgOff_stops {t : State} (ht : t = s.setF Fd.PATH_STAT_CHGPEND 0) (lo : 1 ≤ t.chg) (hi : t.chg ≤ 6) :
    s.chgOff = (t.setPath { t.path with rampDown := t.f Fd.PATH_STAT_HBMODE == 1 }).toChg chStopping := by
  subst ht
  exact if_pos ⟨lo, hi⟩

theorem State.chgOff_idle {t : State} (ht : t = s.setF Fd.PATH_STAT_CHGPEND 0)
    (idle : t.chg = chTimeout ∨ t.chg = chOff ∨ t.chg = chStopping) : s.chgOff = t := by
  subst ht
  refine if_neg ?_
  rcases idle with h | h | h <;> rw [h] <;> decide

theorem State.batGo_qualify (free : s.dischargeFree = true) (qualify : s.ho = hoQualify) (usable : s.batteryUsable = true) :
    s.batGo = ((s.toHo hoBridge).ev Fd.PATH_EVRAW_BRIDGE).gaugeOwe := (if_pos free).trans (if_pos ⟨qualify, usable⟩)

theorem State.batGo_battery (free : s.dischargeFree = true) (battery : s.ho = hoBattery)
    (closed : s.fb Fd.PATH_STAT_BYPASS = true) : s.batGo = s.setF Fd.PATH_STAT_BYPASS 0 :=
  (if_pos free).trans ((if_neg fun h => absurd h.1 (by rw [battery]; decide)).trans (if_pos ⟨battery, closed⟩))

theorem State.batGo_other (free : s.dischargeFree = true) (notQualify : s.ho ≠ hoQualify) (notBattery : s.ho ≠ hoBattery) :
    s.batGo = s :=
  (if_pos free).trans ((if_neg fun h => notQualify h.1).trans (if_neg fun h => notBattery h.1))

theorem State.batGo_stopped (stopped : s.dischargeFree = false) : s.batGo = s.setPath { s.path with batgo := true } :=
  if_neg (ne_true_of_eq_false stopped)

end

/-- Settles O37: the commands are writes of `PATH.CTRL`, whose bits act one after the other. -/
theorem pathControl : Obligations.PathControl := by
  refine ⟨fun s w d ao m => ?_, fun s p d ao m => ?_, fun s => ⟨fun h d holding => State.pathCtrlWrite_holding holding h d,
    fun h d acts => ?_, fun t ht => State.inenWrite_on ht, fun t ht => ⟨State.inenWrite_off_qualify ht,
      State.inenWrite_off_reconnect ht, fun source usable => ?_, fun source unusable => ?_⟩, State.chgOn_past,
    State.chgOn_pending, State.chgOn_stopping, State.chgOn_timeout, fun t ht => ⟨State.chgOff_stops ht, State.chgOff_idle ht⟩,
    fun other => if_neg other, State.batGo_qualify, State.batGo_battery, State.batGo_other, State.batGo_stopped⟩⟩
  · rw [exec_inenWrite, exec_hoenWrite, exec_batgo, exec_chgenOn, exec_chgenOff, write_word ao m rfl, write_word ao m rfl,
      write_word ao m rfl, write_word ao m rfl, busWrite_pathCtrl, busWrite_pathCtrl, busWrite_pathCtrl, busWrite_pathCtrl]
    exact ⟨rfl, rfl, rfl, rfl, rfl⟩
  · rw [exec_trst, write_word ao m rfl, busWrite_pathCtrl]
    rfl
  · refine ⟨_, _, rfl, rfl, fun on noGo noTrst => ?_, fun on go noTrst => ?_, fun on noGo trst => ⟨?_, ?_⟩,
      fun off noGo noTrst was => ?_⟩
    · rw [State.pathCtrlWrite_acts acts, State.chargerBits_on on noGo noTrst]
      rfl
    · rw [State.pathCtrlWrite_acts acts, State.chargerBits_onGo on go noTrst]
      rfl
    · rw [State.pathCtrlWrite_acts acts, State.chargerBits_trst_host on noGo trst]
      rfl
    · rw [State.pathCtrlWrite_acts acts, State.chargerBits_trst_thread on noGo]
      rfl
    · rw [State.pathCtrlWrite_acts acts, was, State.chargerBits_off off noGo noTrst]
      rfl
  · rw [State.inenWrite_off_source ht source, State.sourceOff_bridge usable]
  · rw [State.inenWrite_off_source ht source, State.sourceOff_off unusable]

/-! ## The charger (R228, R229, R231, R232) -/

section
variable {s : State}

theorem State.chargeResume_waits {vbat : Nat} (waits : s.chg = chWait) (conds : s.chargeConds = true) :
    s.chargeResume vbat = State.toChg { s with plant := { s.plant with vbat := some vbat } } (s.phaseFor vbat) :=
  if_pos ⟨waits, conds⟩

section
variable {vbat : Nat}

theorem State.phaseFor_drizzle (low : vbat < s.f Fd.PATH_VTHR_VDRZ) : s.phaseFor vbat = chDrizzle := if_pos low

theorem State.phaseFor_pre (drz : s.f Fd.PATH_VTHR_VDRZ ≤ vbat) (low : vbat < s.f Fd.PATH_VTHR_VPRE) : s.phaseFor vbat = chPre :=
  (if_neg (not_lt.mpr drz)).trans (if_pos low)

theorem State.phaseFor_cc (drz : s.f Fd.PATH_VTHR_VDRZ ≤ vbat) (pre : s.f Fd.PATH_VTHR_VPRE ≤ vbat)
    (low : vbat + 10 * s.f Fd.PATH_VREG_RECHG < s.f Fd.PATH_VREG_MV) : s.phaseFor vbat = chCc :=
  (if_neg (not_lt.mpr drz)).trans ((if_neg (not_lt.mpr pre)).trans (if_pos low))

theorem State.phaseFor_done (drz : s.f Fd.PATH_VTHR_VDRZ ≤ vbat) (pre : s.f Fd.PATH_VTHR_VPRE ≤ vbat)
    (full : s.f Fd.PATH_VREG_MV ≤ vbat + 10 * s.f Fd.PATH_VREG_RECHG) : s.phaseFor vbat = chDone :=
  (if_neg (not_lt.mpr drz)).trans ((if_neg (not_lt.mpr pre)).trans (if_neg (not_lt.mpr full)))

theorem State.phaseAdvance_drizzle (st : s.chg = chDrizzle) (high : s.f Fd.PATH_VTHR_VDRZ ≤ vbat) :
    s.phaseAdvance vbat = s.toChg chPre := if_pos ⟨st, high⟩

theorem State.phaseAdvance_pre (st : s.chg = chPre) (high : s.f Fd.PATH_VTHR_VPRE ≤ vbat) : s.phaseAdvance vbat = s.toChg chCc :=
  (if_neg fun h => absurd h.1 (by rw [st]; decide)).trans (if_pos ⟨st, high⟩)

theorem State.phaseAdvance_cc (st : s.chg = chCc) (high : s.f Fd.PATH_VREG_MV ≤ vbat) : s.phaseAdvance vbat = s.toChg chCv :=
  (if_neg fun h => absurd h.1 (by rw [st]; decide)).trans
    ((if_neg fun h => absurd h.1 (by rw [st]; decide)).trans (if_pos ⟨st, high⟩))

theorem State.recharge_acts (st : s.chg = chDone) (enabled : s.fb Fd.PATH_CHGCFG_RECHGEN = true)
    (low : vbat + 10 * s.f Fd.PATH_VREG_RECHG < s.f Fd.PATH_VREG_MV) : s.recharge vbat = s.toChg chCc := if_pos ⟨st, enabled, low⟩

end

theorem State.chargeTerminates_cv {ma : Nat} (st : s.chg = chCv) (enabled : s.fb Fd.PATH_CHGCFG_TERMEN = true)
    (low : ma < s.f Fd.PATH_ICHG_TERM) : s.chargeTerminates ma = true := by
  simp [State.chargeTerminates, st, enabled, low]

theorem State.chargeTimeout_expired (lo : 2 ≤ s.chg) (hi : s.chg ≤ 5) (expired : s.timerLen ≤ s.path.tCount) :
    s.chargeTimeout = ((s.toChg chTimeout).ev Fd.PATH_EVRAW_TIMEOUT).raise 24 0 s.path.tPhase :=
  if_pos ⟨by simp [charging, lo, hi], expired⟩

theorem State.chargerStopped_stops (st : s.chg = chStopping) :
    s.chargerStopped = State.toChg (s.setPath { s.path with rampDown := false }) chOff := if_pos st

theorem State.chargerPendDue_acts (pend : s.fb Fd.PATH_STAT_CHGPEND = true) (off : s.chg = chOff) (past : s.chgOffPast = true) :
    s.chargerPendDue = (s.setF Fd.PATH_STAT_CHGPEND 0).toChg chWait := if_pos ⟨pend, off, past⟩

section
variable {vsys vbat : Nat}

theorem State.headroomChange_low (low : vsys < vbat + 1500) : s.headroomChange vsys vbat =
    State.setF { s with plant := { s.plant with vsys := some vsys, vbat := some vbat } } Fd.PATH_STAT_HEADROOM 1 := if_pos low

theorem State.headroomChange_between (lo : vbat + 1500 ≤ vsys) (hi : vsys < vbat + 1700) : s.headroomChange vsys vbat =
    { s with plant := { s.plant with vsys := some vsys, vbat := some vbat } } :=
  (if_neg (not_lt.mpr lo)).trans (if_neg (not_le.mpr hi))

theorem State.headroomChange_high (high : vbat + 1700 ≤ vsys) : s.headroomChange vsys vbat =
    State.setF { s with plant := { s.plant with vsys := some vsys, vbat := some vbat } } Fd.PATH_STAT_HEADROOM 0 :=
  (if_neg (by omega)).trans (if_pos high)

end

/-! A change of the charger's state, in the registers: the state and its event, whatever the timer does. -/

/-- A reported event reads as 1. -/
theorem State.f_ev_self {fd : Fld} (h : fd.lo + fd.width ≤ 32) : (s.ev fd).f fd = 2 ^ fd.width - 1 := by
  rw [State.f, State.rd_ev_self]
  apply Nat.eq_of_testBit_eq
  intro i
  rw [getBits_testBit, BitVec.getLsbD_or, maskBits_getLsbD, Nat.testBit_two_pow_sub_one]
  by_cases hi : i < fd.width
  · simp [hi, show fd.lo + i < 32 by omega]
  · simp [hi]

/-- The timer and the OFF time are no registers. -/
theorem State.rd_toChg_ne {st : Nat} (ne : s.chg ≠ st) (a : Nat) :
    (s.toChg st).rd a = ((s.setF Fd.PATH_STAT_CHGSTATE st).ev Fd.PATH_EVRAW_CHGPHASE).rd a := by
  rw [show s.toChg st = _ from if_neg ne]
  dsimp only
  split_ifs <;> rfl

theorem State.toChg_chg {st : Nat} (hst : st ≤ 8) : (s.toChg st).chg = st := by
  by_cases eq : s.chg = st
  · rw [show s.toChg st = s from if_pos eq, eq]
  · have stored : (s.setF Fd.PATH_STAT_CHGSTATE st).f Fd.PATH_STAT_CHGSTATE = st % 2 ^ 4 := State.f_setF_self s st (by decide)
    rw [State.chg, State.f, State.rd_toChg_ne eq, State.rd_ev_ne _ (by decide), ← State.f, stored]
    exact Nat.mod_eq_of_lt (by omega)

theorem State.toChg_event {st : Nat} (ne : s.chg ≠ st) : (s.toChg st).f Fd.PATH_EVRAW_CHGPHASE = 1 := by
  rw [State.f, State.rd_toChg_ne ne, ← State.f]
  exact State.f_ev_self (by decide)

theorem State.toChg_off (ne : s.chg ≠ chOff) : (s.toChg chOff).path.offAt = some s.ticks := by
  rw [show s.toChg chOff = _ from if_neg ne]
  rfl

end

/-- Settles O38: each move by the charger's state, with the three facts of every move at the end. -/
theorem charger : Obligations.Charger := by
  refine fun s ao up => ⟨fun vbat waits conds => ⟨_, rfl, fun low => ?_, fun drz low => ?_, fun drz pre low => ?_,
      fun drz pre full => ?_⟩, fun vbat => ⟨fun st high => ?_, fun st high => ?_, fun st high => ?_⟩,
    fun ma st enabled low => ?_, fun vbat st enabled low => ?_, fun lo hi expired => ?_, fun st => ?_, fun pend off past => ?_,
    fun vsys vbat => ⟨_, rfl, fun low => ?_, fun lo hi => ?_, fun high => ?_⟩,
    fun st hst => ⟨State.toChg_chg hst, State.toChg_event, State.toChg_off⟩⟩
  · rw [exec_chargeResume, live_next _ ao up, State.chargeResume_waits waits conds, State.phaseFor_drizzle low]
  · rw [exec_chargeResume, live_next _ ao up, State.chargeResume_waits waits conds, State.phaseFor_pre drz low]
  · rw [exec_chargeResume, live_next _ ao up, State.chargeResume_waits waits conds, State.phaseFor_cc drz pre low]
  · rw [exec_chargeResume, live_next _ ao up, State.chargeResume_waits waits conds, State.phaseFor_done drz pre full]
  · rw [exec_chargePhaseAdvance, live_next _ ao up, State.phaseAdvance_drizzle st high]
  · rw [exec_chargePhaseAdvance, live_next _ ao up, State.phaseAdvance_pre st high]
  · rw [exec_chargePhaseAdvance, live_next _ ao up, State.phaseAdvance_cc st high]
  · rw [exec_chargeTerminated, live_next _ ao up, if_pos (State.chargeTerminates_cv st enabled low)]
    rfl
  · rw [exec_recharge, live_next _ ao up, State.recharge_acts st enabled low]
  · rw [exec_chargeTimeout, live_next _ ao up, State.chargeTimeout_expired lo hi expired]
  · rw [exec_chargerStopped, live_next _ ao up, State.chargerStopped_stops st]
  · rw [exec_chargerPendDue, live_next _ ao up, State.chargerPendDue_acts pend off past]
  · rw [exec_headroomChange, live_next _ ao up, State.headroomChange_low low]
  · rw [exec_headroomChange, live_next _ ao up, State.headroomChange_between lo hi]
  · rw [exec_headroomChange, live_next _ ao up, State.headroomChange_high high]

/-! ## Hardware limits and battery presence (R233, R234) -/

section
variable {s : State}

section
variable {c v : Nat} {u : State} (trigger : s.limTrigger c v = true) (free : s.limOn c = false)
  (hu : u = (s.setF Fd.PATH_FCAUSE_LIMACT (s.f Fd.PATH_FCAUSE_LIMACT ||| 2 ^ (c - 1))).setF Fd.PATH_FCAUSE_CHGCAUSE c)
include trigger free hu

theorem State.hwLimit_charge (cause : c = 2 ∨ c = 4) : s.hwLimit c v =
    ((u.setPath { u.path with limAt := tset (fun _ => 0) u.path.limAt c u.ticks }).ev Fd.PATH_EVRAW_HWLIM).raise 25 c 0 := by
  subst hu
  have n1 : ¬ c = 1 := by omega
  have n35 : ¬ (c = 3 ∨ c = 5) := by omega
  simp only [State.hwLimit, trigger, free, n1, n35, Bool.not_false, and_self, if_true, if_false]

theorem State.hwLimit_discharge (cause : c = 3 ∨ c = 5) : s.hwLimit c v =
    ((State.dischargeStop (u.setPath { u.path with limAt := tset (fun _ => 0) u.path.limAt c u.ticks })).ev
      Fd.PATH_EVRAW_HWLIM).raise 25 c 0 := by
  subst hu
  have n1 : ¬ c = 1 := by omega
  simp only [State.hwLimit, trigger, free, n1, cause, Bool.not_false, and_self, if_true, if_false]

end

/-- A limit in force acts once. -/
theorem State.hwLimit_inForce {c v : Nat} (inForce : s.limOn c = true) : s.hwLimit c v = s :=
  if_neg fun h => absurd h.2 (by rw [inForce]; decide)

theorem State.dischargeStop_rides {u : State} (hu : u = (s.setPath { s.path with supp := false }).setF Fd.PATH_STAT_BYPASS 0)
    (rides : u.ho = hoBridge ∨ u.ho = hoBattery) : s.dischargeStop = u.toHo hoQualify := by
  subst hu
  exact if_pos rides

theorem State.dischargeStop_other {u : State} (hu : u = (s.setPath { s.path with supp := false }).setF Fd.PATH_STAT_BYPASS 0)
    (notBridge : u.ho ≠ hoBridge) (notBattery : u.ho ≠ hoBattery) : s.dischargeStop = u := by
  subst hu
  exact if_neg fun h => h.elim notBridge notBattery

theorem State.limRelease_releases {c v : Nat} (inForce : s.limOn c = true) (releases : s.limReleases c v = true)
    (noGo : s.path.batgo = false) :
    s.limRelease c v = s.setF Fd.PATH_FCAUSE_LIMACT (s.f Fd.PATH_FCAUSE_LIMACT ^^^ 2 ^ (c - 1)) :=
  (if_pos ⟨inForce, releases⟩).trans (if_neg fun h => absurd h.1 (ne_true_of_eq_false noGo))

theorem State.limRelease_free {c v : Nat} (free : s.limOn c = false) : s.limRelease c v = s :=
  if_neg fun h => absurd h.1 (ne_true_of_eq_false free)

theorem State.testStart_starts (owed : s.testOwed = true) (idle : s.path.testOn = false)
    (st : s.ho = hoOff ∨ s.ho = hoQualify ∨ s.ho = hoSource) (not2 : s.f Fd.PATH_STAT_HBMODE ≠ 2)
    (not3 : s.f Fd.PATH_STAT_HBMODE ≠ 3) :
    s.testStart = s.setPath { s.path with testOn := true, testDue := false, lastTest := s.ticks } :=
  if_pos ⟨owed, by rw [idle]; rfl, st, not2, not3⟩

/-- No test while the half-bridge carries VSYS. -/
theorem State.testStart_boosting (boosts : s.f Fd.PATH_STAT_HBMODE = 3) : s.testStart = s :=
  if_neg fun ⟨_, _, _, _, not3⟩ => not3 boosts

theorem State.batteryOut_present (present : s.fb Fd.PATH_STAT_BATPRES = true) :
    s.batteryOut = ((s.setF Fd.PATH_STAT_BATPRES 0).ev Fd.PATH_EVRAW_BATTOUT).raise 26 0 0 := if_pos present

theorem State.batteryOut_absent (absent : s.fb Fd.PATH_STAT_BATPRES = false) : s.batteryOut = s :=
  if_neg (ne_true_of_eq_false absent)

section
variable {vbat : Nat} {u : State} (on : s.path.testOn = true)
  (hu : u = ({ s with
    plant := { s.plant with vbat := some vbat }
    path := { s.path with testOn := false, ovPassed := s.path.ovPassed || decide (6000 ≤ vbat) } } : State))
include on hu

theorem State.testDone_high (high : 6000 ≤ vbat) : s.testDone vbat = u := by
  subst hu
  exact (if_pos on).trans (if_neg (not_lt.mpr high))

theorem State.testDone_low (low : vbat < 6000) : s.testDone vbat = u.batteryOut := by
  subst hu
  exact (if_pos on).trans (if_pos low)

end

theorem State.batteryIn_present {vbat : Nat} (high : 7000 ≤ vbat) (absent : s.f Fd.PATH_STAT_BATPRES = 0) : s.batteryIn vbat =
    ((State.setF { s with plant := { s.plant with vbat := some vbat } } Fd.PATH_STAT_BATPRES 1).ev
      Fd.PATH_EVRAW_BATTIN).leaveTimeout := if_pos ⟨high, absent⟩

theorem State.batteryGone_low {vbat : Nat} (low : vbat < 6000) :
    s.batteryGone vbat = State.batteryOut { s with plant := { s.plant with vbat := some vbat } } := if_pos low

end

/-- Settles O39: a limit by its cause and whether it is in force; the tests and the presence by VBAT. -/
theorem batteryLimits : Obligations.BatteryLimits := by
  refine fun s ao up => ⟨fun c v u trigger free hu => ⟨fun cause => ?_, fun cause => ?_⟩, fun c v inForce => ?_,
    fun v => ⟨decide_eq_true_iff, decide_eq_true_iff, decide_eq_true_iff, rfl⟩,
    fun u hu => ⟨State.dischargeStop_rides hu, State.dischargeStop_other hu⟩, fun c v inForce releases noGo => ?_,
    fun c v free => ?_, fun owed idle st not2 not3 => ?_, fun boosts => ?_,
    fun vbat u on hu => ⟨fun high => ?_, fun low present => ?_⟩, fun vbat high absent => ?_,
    fun vbat u low hu => ⟨fun present => ?_, fun absent => ?_⟩⟩
  · rw [exec_chargerHwLimit, live_next _ ao up, State.hwLimit_charge trigger free hu cause]
  · rw [exec_chargerHwLimit, live_next _ ao up, State.hwLimit_discharge trigger free hu cause]
  · rw [exec_chargerHwLimit, live_next _ ao up, State.hwLimit_inForce inForce]
  · rw [exec_chargerLimitRelease, live_next _ ao up, State.limRelease_releases inForce releases noGo]
  · rw [exec_chargerLimitRelease, live_next _ ao up, State.limRelease_free free]
  · rw [exec_presenceTestStart, live_next _ ao up, State.testStart_starts owed idle st not2 not3]
  · rw [exec_presenceTestStart, live_next _ ao up, State.testStart_boosting boosts]
  · rw [exec_presenceTestDone, live_next _ ao up, State.testDone_high on hu high]
  · rw [exec_presenceTestDone, live_next _ ao up, State.testDone_low on hu low, State.batteryOut_present present]
  · rw [exec_batteryPresent, live_next _ ao up, State.batteryIn_present high absent]
  · rw [exec_batteryAbsent, live_next _ ao up, State.batteryGone_low low, ← hu, State.batteryOut_present present]
  · rw [exec_batteryAbsent, live_next _ ao up, State.batteryGone_low low, ← hu, State.batteryOut_absent absent]

end Sys2Proof.Machine
end

section
/-! PROOF. The gauge: control, capacity writes, proving runs and stores (O40); samples, updates, synchronisation and learning (O41). -/

namespace Sys2Proof.Machine

/-! ## Control (R241, R245, R253) -/

section
variable {s : State}

/-- R241: the mode that a write of EN leaves. -/
def State.gaugeMode (u : State) (on : Bool) : State :=
  if on then (if u.gMode = gmOff then State.setGauge (u.setF Fd.GAUGE_STAT_MODE gmActive) { u.gauge with small := 0 } else u)
  else State.setGauge (u.setF Fd.GAUGE_STAT_MODE gmOff) { u.gauge with small := 0 }

/-- A write of CTRL: the mode, then RELEARN, the store and the auto-zero. -/
theorem State.gaugeCtrl_eq (d : Word) {v : State} (hv : v = (s.setFb Fd.GAUGE_CTRL_EN (bit d 0)).gaugeMode (bit d 0)) :
    s.gaugeCtrl d =
      let c := if bit d 3 then v.setRelearn true else v
      let c := if bit d 2 then c.gStore else c
      if bit d 1 then c.autozeroStart else c := by
  subst hv
  cases h : bit d 0 <;> simp only [State.gaugeCtrl, State.gaugeMode, h] <;> rfl

theorem State.setRelearn_sets (clear : s.fb Fd.GAUGE_STAT_RELEARN = false) :
    s.setRelearn true = (s.setFb Fd.GAUGE_STAT_RELEARN true).gStore := if_neg (by rw [clear]; decide)

/-! ## Writes of the account (R255, R258) -/

theorem State.setRm_fcc (m r : Nat) : (s.setRm m r).fcc = s.fcc := s.f_setF_ne m (by decide)

theorem State.fccWrite_rescales {d : Nat} (nz : d ≠ 0) (known : s.fcc ≠ 0) :
    s.fccWrite d = (s.setF Fd.GAUGE_FCC_MAH d).setRm (s.f Fd.GAUGE_RM_MAH * d / s.fcc) 0 := by
  simp only [State.fccWrite, nz, known, if_false]

theorem State.fccWrite_first {d : Nat} (nz : d ≠ 0) (unknown : s.fcc = 0) :
    s.fccWrite d = (s.setF Fd.GAUGE_FCC_MAH d).setRm 0 0 := by
  simp only [State.fccWrite, nz, unknown, if_true, if_false]

theorem State.setRm_rm (m r : Nat) (fits : m < 2 ^ 32) : (s.setRm m r).f Fd.GAUGE_RM_MAH = m :=
  (s.f_setF_self m (by decide)).trans (Nat.mod_eq_of_lt fits)

theorem State.rmWrite_soc {d : Nat} (fits : d < 2 ^ 32) (known : s.fcc ≠ 0) (inField : d * 10000 / s.fcc < 2 ^ 16) :
    s.rmWrite d = (s.setRm d 0).setF Fd.GAUGE_SOC_SOC (d * 10000 / s.fcc) := by
  simp only [State.rmWrite, State.socFromRm, State.setRm_fcc, known, if_false, State.setRm_rm _ _ fits, inField, if_true]

theorem State.fcc_setDesign (d : Nat) : (s.setF Fd.GAUGE_DESIGN_MAH d).fcc = s.fcc := s.f_setF_ne d (by decide)

theorem State.designWrite_first {d : Nat} (unknown : s.fcc = 0) (nz : d ≠ 0) :
    s.designWrite d = ((s.setF Fd.GAUGE_DESIGN_MAH d).setF Fd.GAUGE_FCC_MAH d).setRm 0 0 :=
  if_pos ⟨s.fcc_setDesign d ▸ unknown, nz⟩

theorem State.designWrite_known {d : Nat} (known : s.fcc ≠ 0) : s.designWrite d = s.setF Fd.GAUGE_DESIGN_MAH d :=
  if_neg fun h => known (s.fcc_setDesign d ▸ h.1)

theorem toNat_ne_zero {d : Word} (nz : d ≠ 0) : d.toNat ≠ 0 := fun h => nz (BitVec.eq_of_toNat_eq h)

/-! ## The proving run (R252) -/

/-- The settings that a write of GAUGE.PROVE stores. -/
def State.proveSettings (s : State) (d : Word) : State :=
  ((s.setF Fd.GAUGE_PROVE_START (clampNat 50 100 (getBits d 16 8))).setF Fd.GAUGE_PROVE_FLOOR
    (clampNat 5 80 (getBits d 8 8))).setF Fd.GAUGE_PROVE_TMAX (clampNat 1 48 (getBits d 0 8))

theorem State.proveWrite_go {d : Word} (go : bit d 31 = true) (noAbort : bit d 30 = false) :
    s.proveWrite d = (s.proveSettings d).proveGo := by
  simp only [State.proveWrite, go, noAbort, if_true, if_false, Bool.false_eq_true]
  rfl

theorem State.proveWrite_abort {d : Word} (noGo : bit d 31 = false) (abort : bit d 30 = true) :
    s.proveWrite d = (s.proveSettings d).proveEnd 8 := by
  simp only [State.proveWrite, noGo, abort, if_true, if_false, Bool.false_eq_true]
  rfl

/-- GO and ABORT lie above the settings. -/
theorem State.proveSettings_mask (d : Word) {m m' : Word} (hm : ∀ j < 24, m.getLsbD j = false)
    (hm' : ∀ j < 24, m'.getLsbD j = true) : s.proveSettings ((d ||| m) &&& m') = s.proveSettings d := by
  have low : ∀ lo, lo + 8 ≤ 24 → getBits ((d ||| m) &&& m') lo 8 = getBits d lo 8 := fun lo hlo =>
    (getBits_and_mask _ _ _ _ fun i hi => hm' _ (by omega)).trans (getBits_or_mask _ _ _ _ fun i hi => hm _ (by omega))
  rw [State.proveSettings, low 0 (by decide), low 8 (by decide), low 16 (by decide)]
  rfl

theorem bit_go (d : Word) : bit ((d ||| 0x80000000) &&& ~~~0x40000000) 31 = true := by simp [bit]

theorem bit_go_noAbort (d : Word) : bit ((d ||| 0x80000000) &&& ~~~0x40000000) 30 = false := by simp [bit]

theorem bit_abort (d : Word) : bit ((d ||| 0x40000000) &&& ~~~0x80000000) 30 = true := by simp [bit]

theorem bit_abort_noGo (d : Word) : bit ((d ||| 0x40000000) &&& ~~~0x80000000) 31 = false := by simp [bit]

theorem State.proveGo_starts {soc at' : Nat} (idle : s.gauge.prove = none) (counts : s.fb Fd.GAUGE_STAT_CNTINV = false)
    (warm : s.fb Fd.GAUGE_STAT_TINV = false) (anchored : s.gauge.anchor = some (soc, at')) (fresh : s.ticks - at' < secTicks 3600)
    (high : 100 * s.f Fd.GAUGE_PROVE_START ≤ soc) (source : s.ho = hoSource) : s.proveGo =
      ((s.setGauge { s.gauge with prove := some s.ticks, fs27 := false }).setF Fd.GAUGE_STAT_PROVING 1).setF
        Fd.GAUGE_PROVESTAT_MIN 0 := by
  refine if_pos ⟨by rw [idle]; rfl, by rw [counts]; rfl, by rw [warm]; rfl, ?_, source⟩
  simp only [anchored, fresh, high, decide_true, Bool.and_self]

theorem State.proveGo_refused (bar : s.gauge.prove ≠ none ∨ s.fb Fd.GAUGE_STAT_CNTINV = true ∨ s.ho ≠ hoSource ∨
    s.gauge.anchor = none) : s.proveGo = s.setF Fd.GAUGE_PROVESTAT_CAUSE 9 := by
  refine if_neg fun ⟨idle, counts, _, near, source⟩ => ?_
  rcases bar with under | inv | other | unanchored
  · exact under (Option.isNone_iff_eq_none.mp idle)
  · rw [inv] at counts
    exact absurd counts (by decide)
  · exact other source
  · rw [unanchored] at near
    exact absurd near Bool.false_ne_true

theorem State.proveSettings_gauge (d : Word) : (s.proveSettings d).gauge = s.gauge := rfl

/-! ## Stores (R253) -/

theorem State.gStorePeriodic_due (due : s.gauge.perAt + secTicks 3600 * s.f Fd.GAUGE_STORE_PERIOD ≤ s.ticks) :
    s.gStorePeriodic = (s.setGauge { s.gauge with perAt := s.ticks }).gStore := if_pos due

theorem State.gStorePeriodic_early (early : s.ticks < s.gauge.perAt + secTicks 3600 * s.f Fd.GAUGE_STORE_PERIOD) :
    s.gStorePeriodic = s := if_neg (not_le.mpr early)

section
variable {slot : Nat} {bytes : List Byte} (under : s.gauge.writing = some (slot, bytes)) (ended : s.recPending .gauge = false)
include under ended

theorem State.gStoreDone_failed (failed : s.gauge.failed = true) : s.gStoreDone = (State.gev (s.setGauge { s.gauge with
      writing := none, failed := false, again := false, retryAt := some (s.ticks + secTicks 10) })
        Fd.GAUGE_EVRAW_STOREFAIL).raise 28 0 0 := by
  simp only [State.gStoreDone, under, ended, failed, if_true, if_false, Bool.false_eq_true]

theorem State.gStoreDone_stored (stored : s.gauge.failed = false) (once : s.gauge.again = false) :
    s.gStoreDone = (((State.gev (((s.setGauge { s.gauge with writing := none, again := false }).setF
      Fd.GAUGE_STAT_SLOT slot).setF Fd.GAUGE_STORE_SEQ (recField bytes 4 4)) Fd.GAUGE_EVRAW_STORED).flashAppend .gauge bytes).setF
        Fd.GAUGE_STAT_STOREPEND 0) := by
  simp only [State.gStoreDone, under, ended, stored, once, if_false, Bool.false_eq_true]

end

theorem State.gStoreRetry_due {due : Nat} (retry : s.gauge.retryAt = some due) (idle : s.gauge.writing = none)
    (passed : due ≤ s.ticks) : s.gStoreRetry = s.gStoreStart := by
  simp only [State.gStoreRetry, retry, idle, passed, Option.isNone_none, and_self, if_true]

/-- A trigger during a write is kept. -/
theorem State.gStore_again {x : Nat × List Byte} (under : s.gauge.writing = some x) :
    s.gStore = (s.setF Fd.GAUGE_STAT_STOREPEND 1).setGauge { (s.setF Fd.GAUGE_STAT_STOREPEND 1).gauge with again := true } := by
  have kept : (s.setF Fd.GAUGE_STAT_STOREPEND 1).gauge.writing = some x := under
  simp only [State.gStore, kept]

end

/-- Settles O40: each write by what its register's write does, each store by whether one is under way or has failed. -/
theorem gaugeControl : Obligations.GaugeControl := by
  refine fun s ao => ⟨fun w d m => ?_, fun d u v hu hv => ?_, fun w d m nz known => ?_, fun w d m nz unknown => ?_,
    fun w d m known inField => ?_, fun w d m unknown nz => ?_, fun w d m known => ?_, fun w d u m hu => ?_, fun on => ?_,
    fun x under => ⟨_, rfl, State.gStore_again under⟩⟩
  · rw [exec_gaugeEnWrite, exec_azgo, exec_storego, exec_relearnWrite, write_word ao m rfl, write_word ao m rfl,
      write_word ao m rfl, write_word ao m rfl, busWrite_gaugeCtrl, busWrite_gaugeCtrl, busWrite_gaugeCtrl, busWrite_gaugeCtrl]
    exact ⟨rfl, rfl, rfl, rfl⟩
  · have ctrl := s.gaugeCtrl_eq d (v := v) (by rw [hv, hu]; rfl)
    refine ⟨fun b1 b2 b3 => ?_, fun b1 b2 b3 => ?_, fun b1 b2 b3 => ?_, fun b1 b2 b3 clear => ?_⟩
    · simp only [ctrl, b1, b2, b3, Bool.false_eq_true, if_false]
    · simp only [ctrl, b1, b2, b3, Bool.false_eq_true, if_true, if_false]
    · simp only [ctrl, b1, b2, b3, Bool.false_eq_true, if_true, if_false]
    · simp only [ctrl, b1, b2, b3, Bool.false_eq_true, if_true, if_false]
      exact State.setRelearn_sets clear
  · rw [exec_fccWrite, write_word ao m rfl, busWrite_fcc, State.fccWrite_rescales (toNat_ne_zero nz) known]
  · rw [exec_fccWrite, write_word ao m rfl, busWrite_fcc, State.fccWrite_first (toNat_ne_zero nz) unknown]
  · rw [exec_rmWrite, write_word ao m rfl, busWrite_rm, State.rmWrite_soc d.isLt known inField]
  · rw [exec_designMahWrite, write_word ao m rfl, busWrite_design, State.designWrite_first unknown (toNat_ne_zero nz)]
  · rw [exec_designMahWrite, write_word ao m rfl, busWrite_design, State.designWrite_known known]
  · have go : exec (.proveGo w d) s = .next u.proveGo.settle := by
      rw [exec_proveGo, write_word ao m rfl, busWrite_prove, State.proveWrite_go (bit_go d) (bit_go_noAbort d),
        s.proveSettings_mask d (by decide) (by decide), hu]
      rfl
    have gauge : u.gauge = s.gauge := by rw [hu]; rfl
    have ticks : u.ticks = s.ticks := by rw [hu]; rfl
    refine ⟨fun soc at' idle counts warm anchored fresh high source => ?_, fun bar => ?_, ?_⟩
    · rw [go, State.proveGo_starts (gauge ▸ idle) counts warm (gauge ▸ anchored) (ticks ▸ fresh) high source]
    · rw [go, State.proveGo_refused (gauge ▸ bar)]
    · rw [exec_proveAbort, write_word ao m rfl, busWrite_prove, State.proveWrite_abort (bit_abort_noGo d) (bit_abort d),
        s.proveSettings_mask d (by decide) (by decide), hu]
      rfl
  · refine ⟨fun due => ?_, fun early => ?_, fun slot bytes under ended failed => ?_,
      fun slot bytes under ended stored once => ⟨_, rfl, ?_⟩, fun due retry idle passed => ?_⟩
    · rw [exec_gaugeStorePeriodic, awake_next _ ao on, State.gStorePeriodic_due due]
    · rw [exec_gaugeStorePeriodic, awake_next _ ao on, State.gStorePeriodic_early early]
    · rw [exec_gaugeStoreDone, awake_next _ ao on, State.gStoreDone_failed under ended failed]
    · rw [exec_gaugeStoreDone, awake_next _ ao on, State.gStoreDone_stored under ended stored once]
    · rw [exec_gaugeStoreRetry, awake_next _ ao on, State.gStoreRetry_due retry idle passed]

/-! ## Samples and auto-zero (R240–R242, R246) -/

section
variable {s : State}

theorem State.autozeroStart_starts (counting : s.counting = true) (mode : s.gMode = gmActive ∨ s.gMode = gmQuiet) :
    s.autozeroStart =
      (s.setF Fd.GAUGE_STAT_MODE gmAutozero).setGauge { s.gauge with prev := s.gMode, az := s.gauge.az + 1 } :=
  if_pos ⟨counting, mode⟩

theorem State.autozeroDone_folds {meas o : Int} (counting : s.counting = true) (mode : s.gMode = gmAutozero)
    (ho : o = signed 16 (s.f Fd.GAUGE_AZ_OFFSET)) : s.autozeroDone meas =
      (s.setF Fd.GAUGE_AZ_OFFSET (toSigned 16 (o + (meas - o) / 4))).setF Fd.GAUGE_STAT_MODE s.gauge.prev := by
  subst ho
  exact if_pos ⟨counting, mode⟩

/-- R242, R246: a sample while no current is drawn from the battery. -/
theorem State.gaugeSample_idle {uv ms : Nat} {t : Int} {u v : State} (counting : s.counting = true) (known : s.tempBad = false)
    (hu : u = (s.setFb Fd.GAUGE_STAT_TINV false).setF Fd.GAUGE_TEMPMEAS_TCELL (toSigned 16 t))
    (hv : v = (u.setF Fd.GAUGE_VOLT_VBAT (min 0xFFFF (uv / 1000))).setF Fd.GAUGE_VOLT_VCELL (min 0xFFFF
      (((uv : Int) - u.gCurrent * (u.f Fd.GAUGE_IMP_R : Int) / 100).toNat / (100 * u.cells)))) (idle : 0 ≤ v.gCurrent) :
    s.gaugeSample uv t ms =
      v.setGauge { v.gauge with samples := (uv :: v.gauge.samples).take 2, gap := ms, lowMs := none } := by
  simp only [State.gaugeSample, counting, known, Bool.not_true, Bool.false_eq_true, if_false, ← hu, ← hv, not_lt.mpr idle, and_false]

section
variable {dv di : Int} (counting : s.counting = true) (step : s.f Fd.GAUGE_IMP_DI ≤ di.natAbs) (nz : di ≠ 0)
include counting step nz

theorem State.gaugeImpedance_moves (warm : s.fb Fd.GAUGE_STAT_TINV = false) (lo : 100 ≤ -(dv * 100) / di)
    (hi : -(dv * 100) / di ≤ 50000) : s.gaugeImpedance dv di =
      (s.setF Fd.GAUGE_IMP_R ((s.f Fd.GAUGE_IMP_R : Int) + (-(dv * 100) / di - (s.f Fd.GAUGE_IMP_R : Int)) / 8).toNat).gev
        Fd.GAUGE_EVRAW_IMP :=
  (if_pos ⟨counting, step, nz⟩).trans (if_pos ⟨lo, hi, by rw [warm]; rfl⟩)

theorem State.gaugeImpedance_outside (out : -(dv * 100) / di < 100 ∨ 50000 < -(dv * 100) / di) : s.gaugeImpedance dv di = s :=
  (if_pos ⟨counting, step, nz⟩).trans (if_neg fun ⟨lo, hi, _⟩ => out.elim (not_lt.mpr lo) (not_lt.mpr hi))

end

/-! ## Updates (R247–R249, R258) -/

theorem State.proveRule_none (noRun : s.gauge.prove = none) : s.proveRule = s := by
  simp only [State.proveRule, noRun]

/-- R258: an update of a current above ISLEEP, outside a proving run, that neither empties nor asks to learn anew. -/
theorem State.gUpdate_busy {counts : Int} {ms : Nat} {q ma : Int} {u v x y : State} (counting : s.counting = true) (nz : ms ≠ 0)
    (hq : s.charge counts ms = (q, ma))
    (hu : u = (s.setF Fd.GAUGE_CURRENT_MA (toSigned 32 ma)).setGauge { s.gauge with az := 0 })
    (hv : v = (((if ma < 0 then u else u.setGauge { u.gauge with lowMs := none }).addCharge q).socFromRm).energyFromRm)
    (hx : x = v.emptyRule (s.f Fd.GAUGE_SOC_SOC) (s.f Fd.GAUGE_RM_MAH * nCmAh + s.gauge.rmRem : Nat) q)
    (hy : y = ((if x.f Fd.GAUGE_RM_MAH < x.fcc then x.setF Fd.GAUGE_STAT_FULL 0 else x).restRule ms))
    (busy : y.f Fd.GAUGE_CFG_ISLEEP ≤ ma.natAbs) (noRun : y.gauge.prove = none) (charged : y.fb Fd.GAUGE_STAT_EMPTY = false)
    (same : y.fb Fd.GAUGE_STAT_RELEARN = s.fb Fd.GAUGE_STAT_RELEARN) :
    s.gUpdate counts ms = (((y.setGauge { y.gauge with small := 0 }).gev Fd.GAUGE_EVRAW_UPDATE).gPresent).gStoreTake := by
  have not16 : ¬ (16 ≤ 0) := by decide
  simp only [State.gUpdate, counting, nz, Bool.not_true, decide_false, Bool.false_eq_true, if_false, hq, ← hu, ← hv,
    ← hx, ← hy, State.proveRule_none noRun, charged, same, Bool.false_and, bne_self_eq_false, Bool.or_self,
    not_lt.mpr busy, not16, and_false]

theorem State.gaugeWake_wakes {ma counts : Int} {ms : Nat} (counting : s.counting = true) (quiet : s.gMode = gmQuiet)
    (high : 2 * s.f Fd.GAUGE_CFG_ISLEEP ≤ ma.natAbs) : s.gaugeWake ma counts ms =
      ((s.setF Fd.GAUGE_STAT_MODE gmActive).setGauge { (s.setF Fd.GAUGE_STAT_MODE gmActive).gauge with small := 0 }).gUpdate
        counts ms := if_pos ⟨counting, quiet, high⟩

theorem State.fullSync_syncs (counting : s.counting = true) (known : s.fcc ≠ 0) :
    s.fullSync = ((State.setF (((((s.setRm s.fcc 0).setF Fd.GAUGE_SOC_SOC 10000).setF Fd.GAUGE_STAT_FULL 1).setF
      Fd.GAUGE_STAT_HOLD1 0).setQBeyond 0) Fd.GAUGE_STAT_EMPTY 0).gev Fd.GAUGE_EVRAW_FULL).gaugeOwe := by
  simp only [State.fullSync, counting, known, Bool.not_true, Bool.false_eq_true, if_false]

theorem State.fullSync_frozen (frozen : s.counting = false) : s.fullSync = s := if_pos (by rw [frozen]; rfl)

theorem State.fcc_setQPass (q : Int) : (s.setQPass q).fcc = s.fcc := s.f_setF_ne _ (by decide)

theorem State.rm_setQPass (q : Int) : (s.setQPass q).f Fd.GAUGE_RM_MAH = s.f Fd.GAUGE_RM_MAH := s.f_setF_ne _ (by decide)

theorem State.addCharge_known {q t : Int} (known : s.fcc ≠ 0)
    (ht : t = clampInt 0 (s.fcc * nCmAh) ((s.f Fd.GAUGE_RM_MAH * nCmAh + s.gauge.rmRem : Nat) + q)) :
    s.addCharge q = (s.setQPass (s.gauge.qPass + q)).setRm (t.toNat / nCmAh) (t.toNat % nCmAh) := by
  have rem : (s.setQPass (s.gauge.qPass + q)).gauge.rmRem = s.gauge.rmRem := rfl
  simp only [State.addCharge, State.fcc_setQPass, State.rm_setQPass, rem, known, if_false, ← ht]

/-! ## Learning (R245) -/

theorem State.learn_unanchored (unset : s.gauge.anchor = none) (b : Nat) :
    s.learn b = ((s.learnResult 6 0 none).setAnchor (some (b, s.ticks)), false) := by
  simp only [State.learn, unset]

/-- A step of charge that is long enough, recent enough and near enough to FCC. -/
theorem State.learn_accepted {a at' b n : Nat} {u : State} (anchored : s.gauge.anchor = some (a, at'))
    (recent : s.ticks - at' ≤ secTicks 3600 * s.f Fd.GAUGE_LEARN_TMAX) (rises : a < b) (charged : 0 < signed 32 (s.f Fd.GAUGE_QPASS_Q))
    (long : 100 * s.f Fd.GAUGE_LEARN_DSOC ≤ b - a) (learned : s.fb Fd.GAUGE_STAT_RELEARN = false)
    (hn : n = (signed 32 (s.f Fd.GAUGE_QPASS_Q)).natAbs * 1000 / (b - a)) (near : s.deviates n = false)
    (hu : u = s.setF Fd.GAUGE_FCC_MAH ((s.fcc * (8 - s.f Fd.GAUGE_LEARN_W) + n * s.f Fd.GAUGE_LEARN_W) / 8)) :
    (s.learn b).1 =
      (((u.setF Fd.GAUGE_STAT_RELEARN 0).learnResult 1 (b - a) (some n)).setAnchor (some (b, s.ticks))).gaugeOwe := by
  have d : ((b : Int) - (a : Int)).natAbs = b - a := by omega
  have qualifies : ¬ (b - a < 100 * s.f Fd.GAUGE_LEARN_DSOC ∨ b - a = 0 ∨ (a < b ∧ signed 32 (s.f Fd.GAUGE_QPASS_Q) ≤ 0) ∨
      (b < a ∧ 0 ≤ signed 32 (s.f Fd.GAUGE_QPASS_Q))) := by omega
  have ticks : u.ticks = s.ticks := by rw [hu]; rfl
  simp only [State.learn, anchored, d, if_neg (not_lt.mpr recent), if_neg qualifies, ← hn, near, learned, Bool.false_eq_true,
    if_false, ← hu, ticks]

end

/-- Settles O41: each measurement while the gauge counts, the account's moves and the two outcomes of learning. -/
theorem gaugeMeasures : Obligations.GaugeMeasures := by
  refine fun s ao on => ⟨fun counting mode => ⟨_, rfl, ?_⟩, fun meas o counting mode ho => ?_,
    fun uv t ms counting known => ⟨_, _, rfl, rfl, fun idle => ?_⟩,
    fun dv di counting step nz warm => ⟨fun lo hi => ?_, fun out => ?_⟩,
    fun counts ms q ma u v x y counting nz hq hu hv hx hy => ⟨?_, State.gUpdate_busy counting nz hq hu hv hx hy⟩,
    fun ma counts ms counting quiet high => ⟨_, rfl, ?_⟩,
    ⟨fun counting known => ⟨_, rfl, State.fullSync_syncs counting known⟩, State.fullSync_frozen⟩,
    fun q t known ht => State.addCharge_known known ht, fun b unset => State.learn_unanchored unset b,
    fun a at' b u anchored recent rises charged long learned near hu =>
      State.learn_accepted anchored recent rises charged long learned rfl near hu⟩
  · rw [exec_autozeroStart, awake_next _ ao on, State.autozeroStart_starts counting mode]
    rfl
  · rw [exec_autozeroDone, awake_next _ ao on, State.autozeroDone_folds counting mode ho]
  · rw [exec_gaugeSample, awake_next _ ao on, State.gaugeSample_idle counting known rfl rfl idle]
  · rw [exec_impedanceUpdate, awake_next _ ao on, State.gaugeImpedance_moves counting step nz warm lo hi]
  · rw [exec_impedanceUpdate, awake_next _ ao on, State.gaugeImpedance_outside counting step nz out]
  · rw [exec_gaugeUpdate, awake_next _ ao on, State.gaugeUpdate]
  · rw [exec_gaugeWakeActive, awake_next _ ao on, State.gaugeWake_wakes counting quiet high]

end Sys2Proof.Machine
end

section
/-! PROOF. The line of a port (O42) and what a reply does (O43). -/

namespace Sys2Proof.Machine

/-! ## Starts and ends of frames (R264, R267, R288, R291) -/

section
variable {s : State} {n : Nat}

section
variable {order : List Nat} {t : State} (horder : order = if (s.lk n).opening then [0] else s.rankOrder n)
  (up : s.linkOn n = true ∨ (s.lk n).opening = true) (full : s.power.state = .full) (idle : (s.lk n).cur = none)
include horder up full idle

theorem State.linkStart_begins {x : LinkXact} (work : takeFrom n order s = (t, some x)) : s.linkStart n = t.xactBegin n x false := by
  have clock : s.linkClock = true := by rw [State.linkClock, full]; rfl
  simp only [State.linkStart, up, clock, idle, Option.isNone_none, and_self, if_true, ← horder, work]

theorem State.linkStart_idle (work : takeFrom n order s = (t, none)) : s.linkStart n = t := by
  have clock : s.linkClock = true := by rw [State.linkClock, full]; rfl
  simp only [State.linkStart, up, clock, idle, Option.isNone_none, and_self, if_true, ← horder, work]

end

theorem State.linkStart_off (off : s.linkOn n = false) (notOpening : (s.lk n).opening = false) : s.linkStart n = s := by
  simp only [State.linkStart, off, notOpening, Bool.false_eq_true, or_self, false_and, if_false]

theorem State.frameSent_awaits {x : LinkXact} (cur : (s.lk n).cur = some x) (replies : x.replies = true) :
    s.frameSent n = s.modLk n fun l => { l with onLine := false, collRun := 0 } := by
  simp only [State.frameSent, cur, replies, true_or, if_true]

/-- A transaction that serves no descriptor completes none. -/
theorem State.xactDone_own {x : LinkXact} (own : ∀ q d, x.src ≠ .desc q d) (status : Nat) : s.xactDone n x status = s := by
  unfold State.xactDone
  split
  next q d h => exact absurd h (own q d)
  next => rfl

theorem State.xactDone_desc {x : LinkXact} {q d : Nat} (src : x.src = .desc q d) (status : Nat) :
    s.xactDone n x status = (s.setDs n q d Ds.TRIES (x.tries + 1)).descDone n q d status := by
  simp only [State.xactDone, src]

section
variable {x : LinkXact} {u : State} (cur : (s.lk n).cur = some x) (quiet : x.replies = false) (notPoll : x.src ≠ .alertPoll)
  (hu : u = (s.xactEnd n).noCollision n)
include cur quiet notPoll hu

/-- R288: a NOREPLY frame outside a train completes. -/
theorem State.frameSent_alone (alone : x.inTrain = false) :
    s.frameSent n = ((u.xactDone n x 10).quietSent n x).afterXact n := by
  simp only [State.frameSent, cur, quiet, notPoll, Bool.false_eq_true, or_self, if_false, alone, ← hu]

/-- R267: a train goes on with its next frame. -/
theorem State.frameSent_goesOn (train : x.inTrain = true) {w : State} {y : LinkXact}
    (next : ((u.xactDone n x 10).quietSent n x).trainNext n = (w, some y)) : s.frameSent n = w.xactBegin n y true := by
  simp only [State.frameSent, cur, quiet, notPoll, Bool.false_eq_true, or_self, if_false, train, if_true, ← hu, next]

theorem State.frameSent_trainEnds (train : x.inTrain = true) {w : State}
    (last : ((u.xactDone n x 10).quietSent n x).trainNext n = (w, none)) : s.frameSent n = (w.trainDone n).afterXact n := by
  simp only [State.frameSent, cur, quiet, notPoll, Bool.false_eq_true, or_self, if_false, train, if_true, ← hu, last]

end

theorem LinkXact.inTrain_release {x : LinkXact} (src : x.src = .release) : x.inTrain = false := by
  simp only [LinkXact.inTrain, LinkXact.urgent, src, Bool.false_and]

theorem LinkXact.inTrain_shed {x : LinkXact} {k : Nat} (src : x.src = .shed k) (quiet : x.replies = false) : x.inTrain = true := by
  simp only [LinkXact.inTrain, LinkXact.urgent, src, quiet, Bool.not_false, Bool.and_self]

theorem LinkXact.inTrain_desc {x : LinkXact} {q d : Nat} (src : x.src = .desc q d) (behind : 0 < q) : x.inTrain = false := by
  simp only [LinkXact.inTrain, LinkXact.urgent, src, beq_false_of_ne (Nat.pos_iff_ne_zero.mp behind), Bool.false_and]

theorem State.quietSent_release {x : LinkXact} (src : x.src = .release) (more : (s.lk n).releases ≠ 0) : s.quietSent n x = s := by
  simp only [State.quietSent, src, more, false_and, if_false]

theorem State.quietSent_enables {x : LinkXact} (src : x.src = .release) (last : (s.lk n).releases = 0)
    (opening : (s.lk n).opening = true) : s.quietSent n x = s.ledgerLink (.enable n) fun s => s.linkEnable n := by
  simp only [State.quietSent, src, last, opening, and_self, if_true]

theorem State.quietSent_shed {x : LinkXact} {k : Nat} (src : x.src = .shed k) :
    s.quietSent n x = s.modLk n fun l => { l with shedNow := l.shedNow ++ [(x.addr, k)] } := by
  simp only [State.quietSent, src]

theorem State.quietSent_desc {x : LinkXact} {q d : Nat} (src : x.src = .desc q d) (behind : 0 < q) : s.quietSent n x = s := by
  obtain ⟨k, rfl⟩ := Nat.exists_eq_succ_of_ne_zero (Nat.pos_iff_ne_zero.mp behind)
  simp only [State.quietSent, src]

/-- R289: the points of a train are verified, on a port that is not being disabled. -/
theorem State.trainDone_open (running : (s.lk n).closing = false) :
    s.trainDone n = s.modLk n fun l => { l with shedNow := [], verify := l.verify ++ l.shedNow } := by
  simp only [State.trainDone, State.modLk, running, Bool.false_eq_true, if_false]

/-! ## Alerts, collisions, faults and rounds (R270, R278, R292, R295) -/

theorem State.alertSeen_enabled (enabled : s.fb (Fd.LINK_CTRL_ALERTEN n) = true) :
    s.alertSeen n = (s.ev (Fd.LINK_EVRAW_ALERT n)).modLk n fun x => { x with alert := true } := if_pos enabled

theorem State.lineAlert_alerts (on : s.linkOn n = true) (idle : (s.lk n).cur = none)
    (enabled : s.fb (Fd.LINK_CTRL_ALERTEN n) = true) :
    s.lineAlert n = ((s.ev (Fd.LINK_EVRAW_ALERT n)).modLk n fun x => { x with alert := true }).wakeUp := by
  rw [State.lineAlert, if_pos ⟨on, by rw [idle]; rfl, enabled⟩, State.alertSeen_enabled enabled]

section
variable {x : LinkXact} {lo hi : Word} {u : State} (cur : (s.lk n).cur = some x) (poll : x.src = .alertPoll)
  (hu : u = (s.wr (Reg.LINK_ALERTMASK n 0) lo).wr (Reg.LINK_ALERTMASK n 1) hi)
include cur poll hu

theorem State.alertSlots_spurious (undriven : u.pairList (Reg.LINK_ALERTMASK n) = []) : s.alertSlots n lo hi =
    (((((u.incF (Fd.LINK_ALERTSTAT_SPURIOUS n)).incF (Fd.LINK_ALERTSTAT_ALERTS n)).modLk n fun l =>
      { l with follow := [] }).xactEnd n).noCollision n).afterXact n := by
  simp only [State.alertSlots, cur, poll, if_true, ← hu, undriven, List.isEmpty_nil]

theorem State.alertSlots_driven (driven : u.pairList (Reg.LINK_ALERTMASK n) ≠ []) : s.alertSlots n lo hi =
    ((((u.incF (Fd.LINK_ALERTSTAT_ALERTS n)).modLk n fun l =>
      { l with follow := u.pairList (Reg.LINK_ALERTMASK n) }).xactEnd n).noCollision n).afterXact n := by
  simp only [State.alertSlots, cur, poll, if_true, ← hu, List.isEmpty_iff, driven, if_false]

end

theorem State.sendAgain_eq (x : LinkXact) : s.sendAgain n x =
    if x.src = .alertPoll then s.modLk n fun l => { l with alert := true } else s.modLk n fun l => { l with again := x :: l.again } := by
  by_cases poll : x.src = .alertPoll <;> simp only [State.sendAgain, poll, if_true, if_false]

section
variable {x : LinkXact} {u v : State} (cur : (s.lk n).cur = some x) (sending : (s.lk n).onLine = true)
  (hv : v = (s.incF (Fd.LINK_FAULTSTAT_COLLIDE n)).xactEnd n)
  (hu : u = State.alertSeen ((if x.src = .alertPoll then v.modLk n fun l => { l with alert := true }
    else v.modLk n fun l => { l with again := x :: l.again }).modLk n fun l => { l with collRun := l.collRun + 1 }) n)
include cur sending hv hu

theorem State.collision_again (few : (u.lk n).collRun < 8) : s.collision n = u := by
  simp only [State.collision, cur, sending, if_true, State.sendAgain_eq, ← hv, ← hu, not_le.mpr few, if_false]

theorem State.collision_fault (many : 8 ≤ (u.lk n).collRun) :
    s.collision n = (u.modLk n fun l => { l with collRun := 0 }).linkFault n 3 := by
  simp only [State.collision, cur, sending, if_true, State.sendAgain_eq, ← hv, ← hu, many]

end

theorem State.stuck_faults (on : s.linkOn n = true) (idle : (s.lk n).cur = none) :
    s.stuck n = (s.setF (Fd.LINK_STAT_LINELOW n) 1).linkFault n 1 := if_pos ⟨on, by rw [idle]; rfl⟩

section
variable {u : State} (enabled : s.fb (Fd.LINK_SCAN_SCANEN n) = true) (on : s.linkOn n = true) (due : (s.lk n).nextRound ≤ s.ticks)
  (hu : u = (s.modLk n fun x => { x with nextRound := s.ticks + s.f (Fd.LINK_SCAN_PERIOD n) }).wakeUp)
include enabled on due hu

theorem State.scanRound_begins (idle : (u.lk n).cursor = none) : s.scanRound n = (u.roundBegin n).roundCheck n := by
  simp only [State.scanRound, enabled, on, due, and_self, if_true, ← hu, idle, Option.isSome_none, Bool.false_eq_true, if_false]

theorem State.scanRound_overrun (under : (u.lk n).cursor ≠ none) : s.scanRound n =
    ((u.incF (Fd.LINK_SCANSTAT_OVERRUN n)).ev (Fd.LINK_EVRAW_OVERRUN n)).modLk n fun x => { x with roundDue := true } := by
  simp only [State.scanRound, enabled, on, due, and_self, if_true, ← hu, Option.isSome_iff_ne_none.mpr under]

end

theorem State.linkFault_first {c : Nat} {u : State} (first : (s.lk n).episode.contains c = false)
    (hu : u = s.modLk n (fun x => { x with episode := c :: x.episode })) :
    s.linkFault n c = ((u.setF (Fd.LINK_FAULTSTAT_LCAUSE n) c).ev (Fd.LINK_EVRAW_LFAULT n)).raise 29 c n := by
  subst hu
  exact if_neg (ne_true_of_eq_false first)

/-- One report of a cause in an episode. -/
theorem State.linkFault_again {c : Nat} (again : (s.lk n).episode.contains c = true) : s.linkFault n c = s := if_pos again

end

/-- Settles O42: the line's events by what is on it. -/
theorem linkLine : Obligations.LinkLine := by
  refine fun s n ao up => ⟨fun order horder on full idle => ⟨fun x t work => ?_, fun t work => ?_⟩, fun off notOpening => ?_,
    fun x cur replies => ?_, fun x u cur quiet hu => ⟨fun src => ?_, fun k v w src hv => ?_, fun q d src behind => ?_⟩,
    fun on idle enabled => ?_, fun x lo hi u cur poll hu => ⟨fun undriven => ?_, fun driven => ?_⟩,
    fun x u v cur sending hv hu => ⟨fun few => ?_, fun many => ?_⟩, fun on idle => ?_,
    fun enabled on due => ⟨_, rfl, fun idle => ?_, fun under => ?_⟩, fun c u first hu => State.linkFault_first first hu,
    fun c again => State.linkFault_again again⟩
  · rw [exec_linkTransactionStart, live_next _ ao up, State.linkStart_begins horder on full idle work]
  · rw [exec_linkTransactionStart, live_next _ ao up, State.linkStart_idle horder on full idle work]
  · rw [exec_linkTransactionStart, live_next _ ao up, State.linkStart_off off notOpening]
  · rw [exec_frameSent, live_next _ ao up, State.frameSent_awaits cur replies]
  · have sent := State.frameSent_alone cur quiet (by rw [src]; decide) hu (LinkXact.inTrain_release src)
    rw [State.xactDone_own fun q d h => LinkSrc.noConfusion (src.symm.trans h)] at sent
    refine ⟨fun more => ?_, fun last opening => ?_⟩
    · rw [exec_frameSent, live_next _ ao up, sent, State.quietSent_release src more]
    · rw [exec_frameSent, live_next _ ao up, sent, State.quietSent_enables src last opening]
  · have notPoll : x.src ≠ .alertPoll := fun h => LinkSrc.noConfusion (src.symm.trans h)
    have done : (u.xactDone n x 10).quietSent n x = v := by
      rw [State.xactDone_own fun q d h => LinkSrc.noConfusion (src.symm.trans h), State.quietSent_shed src, hv]
    have train := LinkXact.inTrain_shed src quiet
    refine ⟨fun y next => ?_, fun last running => ?_⟩
    · rw [exec_frameSent, live_next _ ao up, State.frameSent_goesOn cur quiet notPoll hu train (done ▸ next)]
    · rw [exec_frameSent, live_next _ ao up, State.frameSent_trainEnds cur quiet notPoll hu train (done ▸ last),
        State.trainDone_open running]
  · rw [exec_frameSent, live_next _ ao up, State.frameSent_alone cur quiet (fun h => LinkSrc.noConfusion (src.symm.trans h)) hu
      (LinkXact.inTrain_desc src behind), State.quietSent_desc src behind, State.xactDone_desc src]
  · rw [exec_lineAlert, live_next _ ao up, State.lineAlert_alerts on idle enabled]
  · rw [exec_alertPollSlotsDone, live_next _ ao up, State.alertSlots_spurious cur poll hu undriven]
  · rw [exec_alertPollSlotsDone, live_next _ ao up, State.alertSlots_driven cur poll hu driven]
  · rw [exec_linkCollision, live_next _ ao up, State.collision_again cur sending hv hu few]
  · rw [exec_linkCollision, live_next _ ao up, State.collision_fault cur sending hv hu many]
  · rw [exec_linkStuck, live_next _ ao up, State.stuck_faults on idle]
  · rw [exec_scanRoundStart, live_next _ ao up, State.scanRound_begins enabled on due rfl idle]
  · rw [exec_scanRoundStart, live_next _ ao up, State.scanRound_overrun enabled on due rfl under]

/-! ## Replies (R269, R274, R282, R283, R288, R289, R293) -/

section
variable {s : State} {n gp : Nat} {x : LinkXact} {t : State} (cur : (s.lk n).cur = some x) (replies : x.replies = true)
  (hgp : gp = gpOf n x.addr) (ht : t = ((s.xactEnd n).noteGood n).setPt gp Pt.MISS 0)
include cur replies hgp

/-- The epoch that a reply should carry: the point's, or for an ACK of a ROLE the new one (R269, R282). -/
def State.replyEpoch (s : State) (x : LinkXact) (gp rkind : Nat) : Nat :=
  if x.kind = kRole ∧ rkind = 1 then x.epoch else s.pt gp Pt.EPOCH

include ht in
/-- A reply of the expected epoch and kind: the errors and misses end, then the kind's own effect. -/
theorem State.reply_taken {e rkind : Nat} {k : LinkXact → State → State} (epoch : e = s.replyEpoch x gp rkind)
    (expected : rkind = 2 ∨ replyKind x.kind = some rkind) : s.reply n rkind e k = (k x t).afterXact n := by
  have asked : ¬ (rkind ≠ 2 ∧ replyKind x.kind ≠ some rkind) := fun h => expected.elim h.1 h.2
  subst hgp ht
  simp only [State.reply, cur, replies, Bool.not_true, Bool.false_eq_true, if_false, epoch, State.replyEpoch, ne_eq, not_true_eq_false]
  exact if_neg asked

theorem State.reply_stale {e rkind : Nat} {k : LinkXact → State → State} (foreign : e ≠ s.replyEpoch x gp rkind) :
    s.reply n rkind e k = s.replyStale n x := by
  subst hgp
  simp only [State.reply, cur, replies, Bool.not_true, Bool.false_eq_true, if_false]
  exact if_pos foreign

omit cur replies hgp in
theorem State.replyEpoch_other {rkind : Nat} (other : x.kind ≠ kRole ∨ rkind ≠ 1) : s.replyEpoch x gp rkind = s.pt gp Pt.EPOCH :=
  if_neg fun h => other.elim (fun o => o h.1) (fun o => o h.2)

/-- The point's own epoch is expected of every reply but an ACK of a ROLE. -/
theorem State.reply_stale_own {e rkind : Nat} {k : LinkXact → State → State} (foreign : e ≠ s.pt gp Pt.EPOCH)
    (other : x.kind ≠ kRole ∨ rkind ≠ 1) : s.reply n rkind e k = s.replyStale n x :=
  State.reply_stale cur replies hgp (by rwa [State.replyEpoch_other other])

include ht

theorem State.reply_own {e rkind : Nat} {k : LinkXact → State → State} (epoch : e = s.pt gp Pt.EPOCH)
    (other : x.kind ≠ kRole ∨ rkind ≠ 1) (expected : rkind = 2 ∨ replyKind x.kind = some rkind) :
    s.reply n rkind e k = (k x t).afterXact n :=
  State.reply_taken cur replies hgp ht (by rwa [State.replyEpoch_other other]) expected

theorem State.statusReply_desc {e q d : Nat} {query : Bool} {y : List Byte} (kind : x.kind = kPoll) (src : x.src = .desc q d)
    (epoch : e = s.pt gp Pt.EPOCH) : s.statusReply n e query y =
      (if query then (((t.takeStatus n x.addr y).storeReply n x 0 y).xactDone n x 1).ev (Fd.LINK_EVRAW_HOSTQ n)
        else ((t.takeStatus n x.addr y).storeReply n x 0 y).xactDone n x 1).afterXact n := by
  rw [State.statusReply, State.reply_own cur replies hgp ht epoch (.inr (by decide)) (.inr (by rw [kind]; rfl))]
  simp only [src]
  rfl

theorem State.ackReply_grant {e out : Nat} (kind : x.kind = kGrant) (epoch : e = s.pt gp Pt.EPOCH) : s.ackReply n e out =
    ((t.storeReply n x 1 [BitVec.ofNat 8 (out % 8 * 32)]).xactDone n x 1).afterXact n := by
  have notRole : x.kind ≠ kRole := by rw [kind]; decide
  rw [State.ackReply, State.reply_own cur replies hgp ht epoch (.inl notRole) (.inr (by rw [kind]; rfl))]
  simp only [if_neg notRole]

/-- R274: the point takes its role and its epoch, and becomes PRESENT. -/
theorem State.ackReply_role {e out : Nat} (kind : x.kind = kRole) (epoch : e = x.epoch) : s.ackReply n e out =
    (((((((if t.pt gp Pt.PRES = 1 then t.setPt gp Pt.PRES 2 else t).setPt gp Pt.ROLE (x.payload.headD 0).toNat).setPt gp Pt.EPOCH
      x.epoch).dropDue n x.addr).storeReply n x 1 [BitVec.ofNat 8 (out % 8 * 32)]).xactDone n x 1)).afterXact n := by
  have want : e = s.replyEpoch x gp 1 := epoch.trans (if_pos ⟨kind, rfl⟩ : s.replyEpoch x gp 1 = _).symm
  rw [State.ackReply, State.reply_taken cur replies hgp ht want (.inr (by rw [kind]; rfl))]
  simp only [if_pos kind, ← hgp]

theorem State.nakReply_desc {e q d r : Nat} (src : x.src = .desc q d) (epoch : e = s.pt gp Pt.EPOCH) : s.nakReply n e r =
    (State.xactDone (((t.incPt gp Pt.NAK).storeReply n x 2 [BitVec.ofNat 8 r]).setDs n q d Ds.RCODE r) n x 2).afterXact n := by
  rw [State.nakReply, State.reply_own cur replies hgp ht epoch (.inr (by decide)) (.inl rfl)]
  simp only [src, ← hgp]

/-- R283: a NAK_EPOCH is taken whatever the epoch. -/
theorem State.nakEpochReply_taken {e : Nat} {u : State} (hu : u = (t.storeReply n x 3 []).xactDone n x 6) : s.nakEpochReply n e =
    (if e = 0 then (if u.pt gp Pt.PRES = 2 then (u.leave n x.addr 3).arrive n x.addr 0 0 0 else u)
      else (u.pointFault n x.addr 3).modLk n fun l => { l with offs := l.offs ++ [x.addr] }).afterXact n := by
  subst hu ht hgp
  simp only [State.nakEpochReply, State.replyTaken, cur, replies, Bool.not_true, Bool.false_eq_true, if_false]

theorem State.dataReply_taken {e : Nat} {query : Bool} {y : List Byte} (kind : x.kind = 0x8) (epoch : e = s.pt gp Pt.EPOCH) :
    s.dataReply n e query y = (if query then ((t.storeReply n x 4 (y.take 8)).xactDone n x 1).ev (Fd.LINK_EVRAW_HOSTQ n)
      else (t.storeReply n x 4 (y.take 8)).xactDone n x 1).afterXact n := by
  rw [State.dataReply, State.reply_own cur replies hgp ht epoch (.inr (by decide)) (.inr (by rw [kind]; rfl))]
  rfl

theorem State.identReply_taken {e vn md sr : Nat} (kind : x.kind = kIdent) (epoch : e = s.pt gp Pt.EPOCH) : s.identReply n e vn md sr =
    ((((if t.ptHere gp then t else t.arrive n x.addr vn md sr).storeReply n x 5 (packBE [(vn, 2), (md, 2), (sr, 4)])).xactDone n x
      1)).afterXact n := by
  rw [State.identReply, State.reply_own cur replies hgp ht epoch (.inr (by decide)) (.inr (by rw [kind]; rfl))]
  simp only [← hgp]

end

section
variable {s : State} {n gp : Nat} {x : LinkXact} (cur : (s.lk n).cur = some x) (replies : x.replies = true)

section
include cur replies

theorem State.badReply_stale : s.badReply n .stale = s.replyStale n x := by
  simp only [State.badReply, cur, replies, if_true]

theorem State.badReply_unexpected : s.badReply n .unexpected = s.replyUnexpected n x := by
  simp only [State.badReply, cur, replies, if_true]

theorem State.replyTimeout_awaited (hgp : gp = gpOf n x.addr) :
    s.replyTimeout n = ((s.incF (Fd.LINK_ERRCNT_NOREPLY n)).incPt gp Pt.NOREPLY).attemptFailed n x := by
  simp only [State.replyTimeout, cur, replies, if_true, hgp]

theorem State.replyInvalid_awaited {r : RxFrame} (hgp : gp = gpOf n x.addr) (on : s.linkOn n = true)
    (bad : rxAccepted r = false) :
    s.replyInvalid n r = ((s.incF (Fd.LINK_ERRCNT_CRCERR n)).incPt gp Pt.CRCERR).attemptFailed n x := by
  have same : ((s.incF (Fd.LINK_ERRCNT_CRCERR n)).lk n).cur = some x := cur
  simp only [State.replyInvalid, bad, on, Bool.not_true, Bool.or_self, Bool.false_eq_true, if_false, same, replies, if_true, hgp]

end

theorem State.replyInvalid_accepted {r : RxFrame} (good : rxAccepted r = true) : s.replyInvalid n r = s :=
  if_pos (by rw [good]; rfl)

section
variable {u : State} (hu : u = (s.xactEnd n).noCollision n) (notScan : x.src ≠ .scan) (notProbe : x.src ≠ .probe)
  (running : (u.lk n).closing = false)
include hu notScan notProbe running

theorem State.attemptFailed_retried (left : x.tries < u.f (Fd.LINK_TIMING_RETRY n)) :
    s.attemptFailed n x = u.modLk n fun l => { l with again := { x with tries := x.tries + 1 } :: l.again } := by
  have many : x.single = false := by simp [LinkXact.single, notScan, notProbe]
  simp only [State.attemptFailed, ← hu, many, left, running, Bool.not_false, and_self, if_true]

omit notScan running in
theorem State.attemptFailed_ends (spent : u.f (Fd.LINK_TIMING_RETRY n) ≤ x.tries) :
    s.attemptFailed n x = (((u.noteError n x.addr).xactDone n x 3).missed n x.addr).afterXact n := by
  simp only [State.attemptFailed, ← hu, not_lt.mpr spent, false_and, and_false, if_false, notProbe]

end

end

/-- Settles O43: a reply is taken, stale or unexpected by its epoch and kind; the taken one by the request's kind. -/
theorem linkReplies : Obligations.LinkReplies := by
  refine fun s n x gp e t ao up cur replies hgp ht => ⟨fun q d y kind src epoch => ⟨_, rfl, ?_, ?_⟩, fun out kind epoch => ?_,
    fun out kind epoch => ⟨_, rfl, ?_⟩, fun q d r src epoch => ?_, fun q d u src hu => ⟨fun known => ?_, fun zero here => ?_⟩,
    fun y kind epoch => ⟨_, rfl, ?_, ?_⟩, fun vn md sr u kind epoch hu => ?_, fun y kind foreign => ?_, ?_, fun r on bad => ?_,
    fun r good => ?_, ?_, fun u hu notScan notProbe running => ⟨State.attemptFailed_retried hu notScan notProbe running,
      State.attemptFailed_ends hu notProbe⟩⟩
  · rw [exec_statusReply, live_next _ ao up, State.statusReply_desc cur replies hgp ht kind src epoch]
    rfl
  · rw [exec_statusReply, live_next _ ao up, State.statusReply_desc cur replies hgp ht kind src epoch]
    rfl
  · rw [exec_ackReply, live_next _ ao up, State.ackReply_grant cur replies hgp ht kind epoch]
  · rw [exec_ackReply, live_next _ ao up, State.ackReply_role cur replies hgp ht kind epoch]
  · rw [exec_nakReply, live_next _ ao up, State.nakReply_desc cur replies hgp ht src epoch]
  · rw [exec_nakEpochReply, live_next _ ao up, State.nakEpochReply_taken cur replies hgp ht hu, if_neg known]
  · rw [exec_nakEpochReply, live_next _ ao up, State.nakEpochReply_taken cur replies hgp ht hu, if_pos zero, if_pos here]
  · rw [exec_dataReply, live_next _ ao up, State.dataReply_taken cur replies hgp ht kind epoch]
    rfl
  · rw [exec_dataReply, live_next _ ao up, State.dataReply_taken cur replies hgp ht kind epoch]
    rfl
  · rw [exec_identRReply, live_next _ ao up, State.identReply_taken cur replies hgp ht kind epoch, hu]
  · have stale : exec (.badReply n .stale) s = .next (s.replyStale n x).settle := by
      rw [exec_badReply, live_next _ ao up, State.badReply_stale cur replies]
    refine ⟨?_, by rw [stale, hgp]; rfl⟩
    rw [stale, exec_statusReply, live_next _ ao up, State.statusReply,
      State.reply_stale_own cur replies hgp foreign (.inr (by decide))]
  · rw [exec_replyTimeout, live_next _ ao up, State.replyTimeout_awaited cur replies hgp]
  · rw [exec_badReply, live_next _ ao up, State.badReply, State.replyInvalid_awaited cur replies hgp on bad]
  · rw [exec_badReply, live_next _ ao up, State.badReply, State.replyInvalid_accepted good]
  · rw [exec_badReply, live_next _ ao up, State.badReply_unexpected cur replies]
    rfl

end Sys2Proof.Machine
end

section
/-! PROOF. Control of a port, its shed set, pushes, descriptors and latched grants (O44); a host's ledger operations and what falls
due in the ledger (O46). -/

namespace Sys2Proof.Machine

section
variable {s : State} {n : Nat}

/-! ## Enabling and disabling (R275, R276) -/

theorem State.linkCtrlWrite_refused {d : Word} (on : getBits d 0 1 = 1) (upper : 4 ≤ n) (compact : s.fb Fd.SYS_CONFIG_CLASS = false) :
    s.linkCtrlWrite n d = s.ev (Fd.LINK_EVRAW_REFUSED n) := if_pos ⟨on, upper, by rw [compact]; rfl⟩

section
variable {t : State} (ht : t = s.setFb (Fd.LINK_CTRL_EN n) false) (was : s.fb (Fd.LINK_CTRL_EN n) = true)
  (up : t.linkOn n = true ∨ (t.lk n).opening = true)
include ht was up

theorem State.linkEnWrite_closes (free : s.therm.holding = false) : s.linkEnWrite n false = t.linkClosing n := by
  have held : t.therm.holding = false := by rw [ht]; exact free
  have runs : (t.linkOn n || (t.lk n).opening) = true := Bool.or_eq_true_iff.mpr up
  simp only [State.linkEnWrite, ← ht, was, runs, held, Bool.not_false, Bool.and_self, if_true]

omit was up in
/-- R338: while a die shut-down holds the ports, the write is only stored. -/
theorem State.linkEnWrite_held (holding : s.therm.holding = true) : s.linkEnWrite n false = t := by
  have held : t.therm.holding = true := by rw [ht]; exact holding
  simp only [State.linkEnWrite, ← ht, held, Bool.not_true, Bool.and_false, Bool.false_eq_true, if_false]

end

/-- The enable itself waits for the settling of the command. -/
theorem State.linkEnWrite_on {t : State} (ht : t = s.setFb (Fd.LINK_CTRL_EN n) true) : s.linkEnWrite n true = t := by
  simp only [State.linkEnWrite, ← ht, Bool.not_true, Bool.and_false, Bool.false_and, Bool.false_eq_true, if_false]

/-! ## The shed set and latched grants (R289, R290) -/

theorem State.shedSet_new {m : Nat} {mask : Word} (new : mask ≠ 0) :
    s.shedSet n m mask = (s.orReg (Reg.LINK_SHEDMASK n m) mask).abandon n 2 := if_neg new

theorem State.shedSet_none {m : Nat} {mask : Word} (none : mask = 0) :
    s.shedSet n m mask = s.orReg (Reg.LINK_SHEDMASK n m) mask := if_pos none

section
variable {a : Nat} (pend : s.pt (gpOf n a) Pt.PEND = 1) (off : s.pt (gpOf n a) Pt.OUTPUT = 0) (free : s.grantHeld n (gpOf n a) = false)
  (unqueued : (s.lk n).grants.contains a = false)
include pend off free unqueued

theorem State.grantDue_queued (same : s.pt (gpOf n a) Pt.PEPOCH = s.pt (gpOf n a) Pt.EPOCH) :
    s.grantDue n a = (s.modLk n fun x => { x with grants := x.grants ++ [a] }).wakeUp :=
  (if_pos ⟨pend, off, by rw [free]; rfl, by rw [unqueued]; rfl⟩).trans (if_pos same)

theorem State.grantDue_stale (other : s.pt (gpOf n a) Pt.PEPOCH ≠ s.pt (gpOf n a) Pt.EPOCH) :
    s.grantDue n a = (s.setPt (gpOf n a) Pt.PEND 0).incF (Fd.LINK_EPCNT_STALEDROP n) :=
  (if_pos ⟨pend, off, by rw [free]; rfl, by rw [unqueued]; rfl⟩).trans (if_neg other)

end

/-! ## Pushes and descriptors (R286, R287) -/

section
variable {a : Nat} {w0 w1 w2 w3 : Word} {b : Bool}

theorem State.push_refused {c : Nat} (code : s.pushCode n a w0 w1 b = c) (refused : c ≠ 0) :
    s.push n a w0 w1 w2 w3 b = (s, BitVec.ofNat 32 (0x80000000 + c)) := by
  obtain ⟨k, rfl⟩ := Nat.exists_eq_succ_of_ne_zero refused
  simp only [State.push, code]

section
variable {q d : Nat} {w : Word} {u : State} (code : s.pushCode n a w0 w1 b = 0) (hq : q = getBits w0 0 3) (hd : d = (s.lk n).tail.getD q 0)
  (hw : w = putBits (putBits (putBits (putBits (w0 &&& 0x0203C3F7) 24 1 (b2n b)) 18 6 a) 10 4 (s.pt (gpOf n a) Pt.EPOCH)) 26 2 1)
  (hu : u = (((s.wr (descAddr n q d 0) w).wr (descAddr n q d 1) w1).wr (descAddr n q d 2) w2).wr (descAddr n q d 3)
    (w3 &&& 0xFFFF0000))
include code hq hd hw hu

theorem State.push_behind (behind : q ≠ 0) : s.push n a w0 w1 w2 w3 b =
    (u.modLk n fun x => { x with tail := x.tail.setIfInBounds q ((d + 1) % 16) }, BitVec.ofNat 32 (slotOf n q d)) := by
  simp only [State.push, code, ← hq, ← hd, ← hw, ← hu, behind, if_false]

/-- R270: a push to Q0 abandons a frame of a lower rank. -/
theorem State.push_first (first : q = 0) : s.push n a w0 w1 w2 w3 b =
    (State.abandon (u.modLk n fun x => { x with tail := x.tail.setIfInBounds 0 ((d + 1) % 16) }) n 3,
      BitVec.ofNat 32 (slotOf n 0 d)) := by
  simp only [State.push, code, ← hq, ← hd, ← hw, ← hu, if_pos first]
  rw [first]

end

end

/-- The result register shows the whole of a refusal code. -/
theorem refusal_fits {c : Nat} (code : c = 1 ∨ c = 2 ∨ c = 3 ∨ c = 4) :
    BitVec.ofNat 32 (0x80000000 + c) &&& 0x80003FFF = BitVec.ofNat 32 (0x80000000 + c) := by
  rcases code with rfl | rfl | rfl | rfl <;> decide

theorem State.hostPush_refused {d : Word} {c : Nat} (code : s.pushCode n (getBits d 0 6) (s.rd (Reg.LINK_HOSTDESC n 0))
    (s.rd (Reg.LINK_HOSTDESC n 1)) (getBits d 7 1 == 1) = c) (hc : c = 1 ∨ c = 2 ∨ c = 3 ∨ c = 4) :
    s.hostPush n d = s.wr (Reg.LINK_HOSTRES n) (BitVec.ofNat 32 (0x80000000 + c)) := by
  simp only [State.hostPush, State.push_refused code (show c ≠ 0 by omega), refusal_fits hc]

section
variable {q i j : Nat} {d : Word}

theorem State.descWrite_busy (busy : s.ds n q i Ds.STATE = 1 ∨ s.ds n q i Ds.STATE = 2) : s.descWrite n q i j d = s :=
  if_neg (by omega)

theorem State.descWrite_payload (free : s.ds n q i Ds.STATE = 0 ∨ s.ds n q i Ds.STATE = 3) (word : j = 1 ∨ j = 2) :
    s.descWrite n q i j d = s.wr (descAddr n q i j) d := by
  rcases word with rfl | rfl <;> exact if_pos free

/-- R285: the reply's half of word 3 stays. -/
theorem State.descWrite_last (free : s.ds n q i Ds.STATE = 0 ∨ s.ds n q i Ds.STATE = 3) : s.descWrite n q i 3 d =
    s.wr (descAddr n q i 3) ((d &&& 0xFFFF0000) ||| (s.rd (descAddr n q i 3) &&& 0x0000FFFF)) := if_pos free

end

end

/-- Settles O44: each write by what its register's write does; a push by its code. -/
theorem linkControl : Obligations.LinkControl := by
  refine fun s n ao => ⟨fun w d m => ?_, fun d on upper compact => State.linkCtrlWrite_refused on upper compact,
    fun t ht was up => ⟨fun free => State.linkEnWrite_closes ht was up free, fun holding => State.linkEnWrite_held ht holding⟩,
    fun t ht => State.linkEnWrite_on ht, fun w m mask may => ⟨_, rfl, fun new => ?_, fun none => ?_⟩, fun w d c m code hc => ?_,
    fun w d m code => ⟨_, rfl, ?_⟩, fun a w0 w1 w2 w3 b q d w u code hq hd hw hu => ⟨State.push_behind code hq hd hw hu,
      State.push_first code hq hd hw hu⟩, fun w q i j d m => ⟨fun busy => ?_, fun free word => ?_, fun free last => ?_⟩,
    fun a up pend off free unqueued => ⟨fun same => ?_, fun other => ?_⟩⟩
  · rw [exec_linkEnable, exec_linkDisable, write_word ao m (busWordAddr_linkCtrl n), write_word ao m (busWordAddr_linkCtrl n),
      busWrite_linkCtrl, busWrite_linkCtrl]
    exact ⟨rfl, rfl⟩
  · rw [exec_shedmaskSet, act_next _ ao, State.shedWrite, if_pos may, State.shedSet_new new]
  · rw [exec_shedmaskSet, act_next _ ao, State.shedWrite, if_pos may, State.shedSet_none none, none]
  · rw [exec_hostpush, write_word ao m (busWordAddr_hostpush n), busWrite_hostpush, State.hostPush_refused code hc]
  · rw [exec_hostpush, write_word ao m (busWordAddr_hostpush n), busWrite_hostpush]
    rfl
  · rw [exec_descriptorWrite, write_word ao m (busWordAddr_descriptor n q i j), busWrite_descriptor, State.descWrite_busy busy]
  · rw [exec_descriptorWrite, write_word ao m (busWordAddr_descriptor n q i j), busWrite_descriptor, State.descWrite_payload free word]
  · rw [exec_descriptorWrite, write_word ao m (busWordAddr_descriptor n q i j), busWrite_descriptor, last, State.descWrite_last free]
  · rw [exec_grantLatchDue, live_next _ ao up, State.grantDue_queued pend off free unqueued same]
  · rw [exec_grantLatchDue, live_next _ ao up, State.grantDue_stale pend off free unqueued other]

/-! ## A host's operations (R18, R316) -/

section
variable {s : State}

theorem State.hostOp_issues {op gp b : Nat} {o : LedgerOp} (issued : hostOpOf op gp b (s.rd Reg.LEDGER_HOSTARG).toNat = some o) :
    s.hostOp op gp b = (s.setF Fd.LEDGER_HOSTRESX_DONE 0).ledgerIssue .host o := by
  simp only [State.hostOp, issued]

theorem busWrite_hostopWord (w : Writer) {o : Nat} (small : o < 5) (p : BitVec 9) (b : BitVec 3) :
    s.busWrite w Reg.LEDGER_HOSTOP (BitVec.ofNat 32 (o * 2 ^ 28 + b.toNat * 2 ^ 16 + p.toNat)) = s.hostOp o p.toNat b.toNat := by
  obtain ⟨hop, hgp, hb⟩ := hostop_bits o small p b
  rw [busWrite_hostop, hop, hgp, hb]

theorem hostOpOf_lcom {gp b arg : Nat} (inRange : b ≤ 4) : hostOpOf 2 gp b arg = some (.lcom gp b) := by
  simp only [hostOpOf, inRange, if_true]

theorem hostOpOf_lcom_outside {gp b arg : Nat} (out : 5 ≤ b) : hostOpOf 2 gp b arg = some .outside := by
  simp only [hostOpOf, not_le.mpr (show 4 < b from out), if_false]

theorem hostOpOf_lshed_outside {gp b arg : Nat} (out : 7 ≤ b) : hostOpOf 4 gp b arg = some .outside := by
  simp only [hostOpOf, not_le.mpr (show 6 < b from out), if_false]

theorem hostOpOf_lshed {gp b arg : Nat} (inRange : b ≤ 6) : hostOpOf 4 gp b arg = some (.lshed arg b) := by
  simp only [hostOpOf, inRange, if_true]

/-- Each of a host's commands issues its operation. -/
theorem exec_hostOp {c : Instr} {k : Nat} {op : LedgerOp} (ao : s.power.ao = true) (h : s.HostOp c k op) :
    exec c s = .next ((s.setF Fd.LEDGER_HOSTRESX_DONE 0).ledgerIssue .host op).settle := by
  cases h with
  | lres w p b m => rw [exec_hostopLres, write_word ao m rfl, busWrite_hostopWord w (by decide), State.hostOp_issues rfl]
  | lcom w p b inRange m =>
    rw [exec_hostopLcom, write_word ao m rfl, busWrite_hostopWord w (by decide), State.hostOp_issues (hostOpOf_lcom inRange)]
  | lrel w p b m => rw [exec_hostopLrel, write_word ao m rfl, busWrite_hostopWord w (by decide), State.hostOp_issues rfl]
  | lshed w p b inRange m =>
    rw [exec_hostopLshed, write_word ao m rfl, busWrite_hostopWord w (by decide), State.hostOp_issues (hostOpOf_lshed inRange)]

theorem State.ledgerIssue_host_free (free : s.ledgerFree = true) (op : LedgerOp) :
    s.ledgerIssue .host op = (s.ledgerRun op).1.hostAnswered (s.ledgerRun op).2 := (if_pos free).trans rfl

theorem State.ledgerIssue_host_waits (busy : s.ledgerFree = false) (op : LedgerOp) :
    s.ledgerIssue .host op = { s with eng := { s.eng with ledgerQ := s.eng.ledgerQ ++ [(.host, op)] } } :=
  (if_neg (ne_true_of_eq_false busy)).trans rfl

/-- An operation out of its range answers what stood, with C. -/
theorem State.ledgerIssue_outside : s.ledgerIssue .host .outside =
    if s.ledgerFree then s.ledgerJudge.hostAnswered
      ⟨s.rd Reg.LEDGER_HOSTRES, some (BitVec.ofNat 32 (s.f Fd.LEDGER_HOSTRESX_COUNT)), true⟩
    else { s with eng := { s.eng with ledgerQ := s.eng.ledgerQ ++ [(.host, .outside)] } } := by
  split
  next free => exact State.ledgerIssue_host_free free .outside
  next busy => exact State.ledgerIssue_host_waits (Bool.eq_false_of_not_eq_true busy) .outside

/-! ## The queue and what falls due (R18, R312, R314) -/

section
variable {op : LedgerOp} {rest : List (LedgerBy × LedgerOp)} {u : State} (idle : s.eng.ledgerBusy = none)
  (hu : u = { s with eng := { s.eng with ledgerQ := rest } })
include idle hu

theorem State.ledgerDequeue_host (front : s.eng.ledgerQ = (.host, op) :: rest) :
    s.ledgerDequeue = (u.ledgerRun op).1.hostAnswered (u.ledgerRun op).2 := by
  subst hu
  simp only [State.ledgerDequeue, idle, Option.isSome_none, Bool.false_eq_true, if_false, front]
  rfl

theorem State.ledgerDequeue_link (front : s.eng.ledgerQ = (.link, op) :: rest) : s.ledgerDequeue = (u.ledgerRun op).1 := by
  subst hu
  simp only [State.ledgerDequeue, idle, Option.isSome_none, Bool.false_eq_true, if_false, front]
  rfl

end

theorem State.ledgerDequeue_busy (busy : s.eng.ledgerBusy ≠ none) : s.ledgerDequeue = s :=
  if_pos (Option.isSome_iff_ne_none.mpr busy)

theorem State.reservationTimeout_releases {gp due : Nat} (timer : s.resDue gp = some due) (passed : due ≤ s.ticks)
    (reserved : s.pt gp Pt.LSTATE = 1) : s.reservationTimeout gp =
      ((s.releaseRecord gp).1.ev Fd.LEDGER_EVRAW_RESEXP).almanacBlock 3 3 gp (s.releaseRecord gp).2 := by
  simp only [State.reservationTimeout, timer, passed, reserved, and_self, if_true]

theorem State.reservationTimeout_none {gp : Nat} (timer : s.resDue gp = none) : s.reservationTimeout gp = s := by
  simp only [State.reservationTimeout, timer]

theorem State.forecastHoldEnd_ends {n : Nat} (held : s.fb (Fd.LOOP_STAT_FCAST n) = true) (passed : (s.loop n).fcDue ≤ s.halfUs) :
    s.forecastHoldEnd n = ((s.setF (Fd.LEDGER_LOOP_FCMW_MW n) 0).ev Fd.LEDGER_EVRAW_FCEND).forecastOut n :=
  if_pos ⟨held, passed⟩

theorem State.forecastHoldEnd_early {n : Nat} (early : s.fb (Fd.LOOP_STAT_FCAST n) = false ∨ s.halfUs < (s.loop n).fcDue) :
    s.forecastHoldEnd n = s :=
  if_neg fun h => early.elim (fun free => absurd h.1 (ne_true_of_eq_false free)) (fun later => absurd h.2 (not_le.mpr later))

end

/-- Settles O46: an operation by whether the ledger is free, the dues by their timers. -/
theorem ledgerHost : Obligations.LedgerHost := by
  refine fun s ao => ⟨fun c k op u h hu => ⟨fun free => ?_, fun busy => ?_⟩, fun w p u v m hu hv => ?_,
    fun op rest u up idle front hu => ?_, fun op rest u up idle front hu => ?_, fun up busy => ?_,
    fun gp due up timer passed reserved => ?_, fun gp up timer => ?_, fun n up held passed => ?_, fun n up early => ?_⟩
  · rw [exec_hostOp ao h, ← hu, State.ledgerIssue_host_free (by rw [hu]; exact free)]
  · have waits : u.ledgerFree = false := by rw [hu]; exact busy
    have eng : u.eng = s.eng := by rw [hu]; rfl
    rw [exec_hostOp ao h, ← hu, State.ledgerIssue_host_waits waits, eng]
  · have outside : u.ledgerIssue .host .outside = v := by
      rw [State.ledgerIssue_outside, hv, hu]
      rfl
    refine ⟨fun b out => ?_, ?_⟩
    · rw [exec_hostopLcom, write_word ao m rfl, busWrite_hostopWord w (by decide), State.hostOp_issues (hostOpOf_lcom_outside out),
        ← hu, outside]
    · rw [exec_hostopLshed, write_word ao m rfl, busWrite_hostopWord w (by decide),
        State.hostOp_issues (hostOpOf_lshed_outside (by decide)), ← hu, outside]
  · rw [exec_ledgerOpDequeue, live_next _ ao up, State.ledgerDequeue_host idle hu front]
  · rw [exec_ledgerOpDequeue, live_next _ ao up, State.ledgerDequeue_link idle hu front]
  · rw [exec_ledgerOpDequeue, live_next _ ao up, State.ledgerDequeue_busy busy]
  · rw [exec_reservationTimeout, live_next _ ao up, State.reservationTimeout_releases timer passed reserved]
  · rw [exec_reservationTimeout, live_next _ ao up, State.reservationTimeout_none timer]
  · rw [exec_forecastHoldEnd, live_next _ ao up, State.forecastHoldEnd_ends held passed]
  · rw [exec_forecastHoldEnd, live_next _ ao up, State.forecastHoldEnd_early early]

end Sys2Proof.Machine
end

section
/-! PROOF. Thermal samples, the die shut-down, the hold and the Thaw, and the limits written (O47). -/

namespace Sys2Proof.Machine

/-! ## Samples, the shut-down and the Thaw (R327, R334–R336) -/

section
variable {s : State}

section
variable {die : List Int} {ends : Nat} {td : List TdReading} {t : State} (ht : t = s.thermalSample die ends td)
include ht

theorem State.sampleAll_below (below : newShut s t = none) : s.sampleAll die ends td = t := by
  simp only [State.sampleAll, ← ht, below]

theorem State.sampleAll_shut {k : Nat} (shut : newShut s t = some k) : s.sampleAll die ends td = t.dieShutdown k := by
  simp only [State.sampleAll, ← ht, shut]

end

section
variable {k : Nat} (on : s.power.state ≠ .off) (noHold : s.seq.hold = false) (notHolding : s.therm.holding = false)
  (inService : s.posIn k = true)
include on noHold notHolding inService

/-- R334: everything off, FS5 and the counts, then the record, with the key needed after too many automatic Thaws. -/
theorem State.dieShutdown_acts {u v : State}
    (hu : u = (((s.outputsOff.haltAll).raise 5 0 k).setF Fd.THERM_STAT_TSD 1).incF Fd.THERM_TSDCNT_TOTAL)
    (hv : v = u.setRec { u.rflash with counters := { u.rflash.counters with
      dieShut := satInc (2 ^ 32 - 1) u.rflash.counters.dieShut } }) {w : State}
    (hw : w = v.setTherm { v.therm with
      needKey := decide (v.f Fd.THERM_CTRL_THAWMAX ≤ min 15 v.thawsKept.length), holding := true }) :
    s.dieShutdown k = (w.recRing .shutdown .shutdown fun _ => w.tsdRecord k s.ho s.chg s.onMask).recStart := by
  have acts : ¬ (s.power.state = .off ∨ s.seq.hold = true ∨ s.therm.holding = true ∨ (!s.posIn k) = true) := by
    simp [on, noHold, notHolding, inService]
  simp only [State.dieShutdown, if_neg acts, ← hu, ← hv, ← hw]

end

theorem State.dieShutdown_out {k : Nat} (out : s.posIn k = false) : s.dieShutdown k = s :=
  if_pos (.inr (.inr (.inr (by rw [out]; rfl))))

theorem State.holdBegin_holds (holding : s.therm.holding = true) (written : s.recPending .shutdown = false ∨ s.portUp = false) :
    s.holdBegin = State.setSeq (State.setTherm (((s.chipClear true).bootClocks).setF Fd.THERM_STAT_HELD 1)
      { (((s.chipClear true).bootClocks).setF Fd.THERM_STAT_HELD 1).therm with holding := false, cool := none })
        { (((s.chipClear true).bootClocks).setF Fd.THERM_STAT_HELD 1).seq with
          stage := .step2, step6 := false, rsto := false, rstoDue := none, reload := false, hold := true } :=
  if_pos ⟨holding, written.imp (fun h => by rw [h]; rfl) fun h => by rw [h]; rfl⟩

theorem State.holdBegin_idle (idle : s.therm.holding = false) : s.holdBegin = s := if_neg fun h => absurd h.1 (ne_true_of_eq_false idle)

theorem State.thawReady_hold (ready : s.thawReady = true) : s.seq.hold = true := by
  unfold State.thawReady at ready
  split at ready
  · exact (Bool.and_eq_true_iff.mp ready).1
  · exact absurd ready Bool.false_ne_true

theorem State.thawAuto_acts (ready : s.thawReady = true) (alone : s.thawsAlone = true) : s.thawAuto = s.countThaw.thaw :=
  if_pos ⟨ready, alone⟩

theorem State.thawAuto_noHold (noHold : s.seq.hold = false) : s.thawAuto = s :=
  if_neg fun h => absurd (State.thawReady_hold h.1) (ne_true_of_eq_false noHold)

theorem busWrite_thaw (s : State) (w : Writer) (d : Word) : s.busWrite w Reg.THERM_THAW d =
    if getBits d 0 16 = 0x7A4E ∧ s.thawReady ∧ !s.thawsAlone then { s with resetReq := { s.resetReq with thaw := true } } else s :=
  (busWrite_at (p := 0xF) (k := Reg.THERM_THAW) rfl (by decide) (by decide) rfl rfl rfl).trans rfl

/-- DS8 is no position. -/
theorem State.posIn_lt {k : Nat} (inService : s.posIn k = true) : k < 8 := of_decide_eq_true (Bool.and_eq_true_iff.mp inService).1

end

/-! ## Limits written (R332) -/

theorem signed_nine_bounds (n : Nat) : -256 ≤ signed 9 n ∧ signed 9 n ≤ 255 := by
  unfold signed
  have small : n % 2 ^ 9 < 2 ^ 9 := Nat.mod_lt _ (by decide)
  split <;> omega

theorem toSigned_nine_lt {i : Int} (lo : -256 ≤ i) (hi : i ≤ 255) : toSigned 9 i < 512 := by
  simp only [toSigned]
  split <;> omega

theorem signed_toSigned_nine {i : Int} (lo : -256 ≤ i) (hi : i ≤ 255) : signed 9 (toSigned 9 i) = i := by
  simp only [toSigned, signed]
  split <;> split <;> omega

/-- The three thresholds that a write of a limit register stores. -/
def limShut (die : Bool) (d : Word) : Int := clampInt (if die then 125 else -55) 150 (signed 9 (getBits d 18 9))

def limThrot (die : Bool) (d : Word) : Int :=
  let th := min (limShut die d) (signed 9 (getBits d 9 9))
  if die then th else max (-55) th

def limWarn (die : Bool) (d : Word) : Int :=
  let wa := min (limThrot die d) (signed 9 (getBits d 0 9))
  if die then wa else max (-55) wa

theorem limWord_eq (die : Bool) (d : Word) : limWord die d =
    BitVec.ofNat 32 (toSigned 9 (limShut die d) * 2 ^ 18 + toSigned 9 (limThrot die d) * 2 ^ 9 + toSigned 9 (limWarn die d)) := rfl

/-- Nine-bit parts packed and read back. -/
theorem getBits_three_nines {a b c : Nat} (ha : a < 512) (hb : b < 512) (hc : c < 512) :
    getBits (BitVec.ofNat 32 (a * 2 ^ 18 + b * 2 ^ 9 + c)) 0 9 = c ∧ getBits (BitVec.ofNat 32 (a * 2 ^ 18 + b * 2 ^ 9 + c)) 9 9 = b ∧
      getBits (BitVec.ofNat 32 (a * 2 ^ 18 + b * 2 ^ 9 + c)) 18 9 = a := by
  unfold getBits
  simp only [BitVec.toNat_ofNat, Nat.shiftRight_eq_div_pow]
  refine ⟨by omega, by omega, by omega⟩

theorem limShut_bounds (die : Bool) (d : Word) : (if die then 125 else -55) ≤ limShut die d ∧ limShut die d ≤ 150 := by
  cases die <;> simp only [limShut, clampInt, if_true, if_false, Bool.false_eq_true] <;> omega

theorem limThrot_bounds (die : Bool) (d : Word) :
    (if die then -256 else -55) ≤ limThrot die d ∧ limThrot die d ≤ limShut die d := by
  have range := signed_nine_bounds (getBits d 9 9)
  have shut := limShut_bounds die d
  cases die <;> simp only [limThrot, if_true, if_false, Bool.false_eq_true] at * <;> omega

theorem limWarn_bounds (die : Bool) (d : Word) : (if die then -256 else -55) ≤ limWarn die d ∧ limWarn die d ≤ limThrot die d := by
  have range := signed_nine_bounds (getBits d 0 9)
  have throt := limThrot_bounds die d
  cases die <;> simp only [limWarn, if_true, if_false, Bool.false_eq_true] at * <;> omega

/-- What a limit register reads after a write. -/
theorem limWord_reads (die : Bool) (d : Word) : signed 9 (getBits (limWord die d) 0 9) = limWarn die d ∧
    signed 9 (getBits (limWord die d) 9 9) = limThrot die d ∧ signed 9 (getBits (limWord die d) 18 9) = limShut die d := by
  have shut := limShut_bounds die d
  have throt := limThrot_bounds die d
  have warn := limWarn_bounds die d
  have low : -256 ≤ (if die then (-256 : Int) else -55) := by cases die <;> decide
  have lowShut : -256 ≤ (if die then (125 : Int) else -55) := by cases die <;> decide
  obtain ⟨hw, ht, hs⟩ := getBits_three_nines (toSigned_nine_lt (i := limShut die d) (by omega) (by omega))
    (toSigned_nine_lt (i := limThrot die d) (by omega) (by omega)) (toSigned_nine_lt (i := limWarn die d) (by omega) (by omega))
  rw [limWord_eq, hw, ht, hs]
  exact ⟨signed_toSigned_nine (by omega) (by omega), signed_toSigned_nine (by omega) (by omega),
    signed_toSigned_nine (by omega) (by omega)⟩

/-- The order of the thresholds, and the range of SHUT. -/
theorem limWord_ordered (b : Bool) (d : Word) : signed 9 (getBits (limWord b d) 0 9) ≤ signed 9 (getBits (limWord b d) 9 9) ∧
    signed 9 (getBits (limWord b d) 9 9) ≤ signed 9 (getBits (limWord b d) 18 9) ∧
    signed 9 (getBits (limWord b d) 18 9) ≤ 150 ∧ (b = true → 125 ≤ signed 9 (getBits (limWord b d) 18 9)) ∧
    (b = false → -55 ≤ signed 9 (getBits (limWord b d) 0 9)) := by
  obtain ⟨hw, ht, hs⟩ := limWord_reads b d
  obtain ⟨shutLo, shutHi⟩ := limShut_bounds b d
  obtain ⟨_, throtHi⟩ := limThrot_bounds b d
  obtain ⟨warnLo, warnHi⟩ := limWarn_bounds b d
  rw [hw, ht, hs]
  refine ⟨warnHi, throtHi, shutHi, ?_, ?_⟩
  · rintro rfl
    exact shutLo
  · rintro rfl
    exact warnLo

/-- Settles O47: the sample by what it finds, the shut-down and the Thaw by their conditions, the limits by their order. -/
theorem thermal : Obligations.Thermal := by
  refine ⟨fun s ao on => ⟨fun die ends td t ht => ⟨fun below => ?_, fun k shut => ?_⟩,
      fun k u v noHold notHolding inService hu hv => ⟨_, rfl, ?_⟩, fun k out => ?_, fun holding written => ⟨_, rfl, ?_⟩,
      fun idle => ?_, fun ready alone => ?_, fun noHold => ?_⟩,
    fun s ao => ⟨fun w d m => ⟨fun key ready kept => ?_, fun bar => ?_⟩, ⟨_, rfl, ?_⟩, State.thawReady_hold,
      fun k _ inService => State.posIn_lt inService⟩, fun d b => limWord_ordered b d⟩
  · rw [exec_thermalSample, awake_next _ ao on, State.sampleAll_below ht below]
  · rw [exec_thermalSample, awake_next _ ao on, State.sampleAll_shut ht shut]
  · rw [exec_dieShutdown, awake_next _ ao on, State.dieShutdown_acts on noHold notHolding inService hu hv rfl]
  · rw [exec_dieShutdown, awake_next _ ao on, State.dieShutdown_out out]
  · rw [exec_shutdownRecordWritten, awake_next _ ao on, State.holdBegin_holds holding written]
    rfl
  · rw [exec_shutdownRecordWritten, awake_next _ ao on, State.holdBegin_idle idle]
  · rw [exec_thawAuto, awake_next _ ao on, State.thawAuto_acts ready alone]
  · rw [exec_thawAuto, awake_next _ ao on, State.thawAuto_noHold noHold]
  · rw [exec_thawKey, write_word ao m rfl, busWrite_thaw, if_pos ⟨key, ready, by rw [kept]; rfl⟩]
  · rw [exec_thawKey, write_word ao m rfl, busWrite_thaw,
      if_neg fun h => bar.elim (fun wrong => wrong h.1) fun early => absurd h.2.1 (ne_true_of_eq_false early)]
  · rw [exec_recentThawExpire, act_next _ ao]
    rfl

end Sys2Proof.Machine
end

section
/-! PROOF. The timers (O53) and the CRC unit (O54). -/

namespace Sys2Proof.Machine

/-! ## Increments and matches (R412–R414) -/

section
variable {s : State} {n : Nat}

/-- An event leaves every register but EVRAW. -/
theorem State.rd_timerEvent_ne {a b : Nat} (other : a ≠ Reg.TIMER_EVRAW) : (s.timerEvent n b).rd a = s.rd a := by
  unfold State.timerEvent
  dsimp only
  split
  · rw [State.rd_pulse]
    exact State.rd_wr_ne _ _ other
  · exact State.rd_wr_ne _ _ other

theorem State.rd_timerEvent_evraw {b : Nat} :
    (s.timerEvent n b).rd Reg.TIMER_EVRAW = s.rd Reg.TIMER_EVRAW ||| bitAt (4 * n + b) := by
  unfold State.timerEvent
  dsimp only
  split
  · rw [State.rd_pulse]
    exact State.rd_wr_self _ _ _
  · exact State.rd_wr_self _ _ _

theorem State.rd_ite_wakeUp (c : Prop) [Decidable c] (a : Nat) : (if c then s.wakeUp else s).rd a = s.rd a := by
  split
  · exact State.rd_wakeUp s a
  · rfl

/-- Beside the event, a match writes no register. -/
theorem State.rd_timerMatch {x a : Nat} : (s.timerMatch n x).rd a = (s.timerEvent n x).rd a := by
  unfold State.timerMatch
  dsimp only
  rw [State.rd_ite_wakeUp]
  split <;> rfl

theorem State.timerMatch_event {x : Nat} (small : 4 * n + x < 32) :
    bit ((s.timerMatch n x).rd Reg.TIMER_EVRAW) (4 * n + x) = true := by
  rw [State.rd_timerMatch, State.rd_timerEvent_evraw, bit, BitVec.getLsbD_or, bitAt_getLsbD _ small, Bool.or_true]

/-- The compare values lie outside EVRAW. -/
theorem cmp_apart (n : Fin 4) : Reg.TIMER_CMP1_HI n ≠ Reg.TIMER_EVRAW ∧ Reg.TIMER_CMP1_LO n ≠ Reg.TIMER_EVRAW := by
  revert n
  decide

theorem State.cmpOf_timerMatch (n : Fin 4) (x : Nat) : (s.timerMatch n x).cmpOf n 1 = s.cmpOf n 1 := by
  obtain ⟨hi, lo⟩ := cmp_apart n
  show ((s.timerMatch n x).rd _).toNat * 2 ^ 32 + ((s.timerMatch n x).rd _).toNat = _
  rw [State.rd_timerMatch, State.rd_timerMatch, State.rd_timerEvent_ne hi, State.rd_timerEvent_ne lo]
  rfl

/-- The count that follows (R412). -/
def State.nextCount (s : State) (n : Nat) : Nat :=
  if s.fb (Fd.TIMER_TCFG_WRAP n) && (s.tm n).count == s.cmpOf n 0 then 0 else ((s.tm n).count + 1) % 2 ^ 64

theorem State.nextCount_eq {c : Nat} (wraps : s.fb (Fd.TIMER_TCFG_WRAP n) = true → (s.tm n).count = s.cmpOf n 0 → c = 0)
    (counts : s.fb (Fd.TIMER_TCFG_WRAP n) = false ∨ (s.tm n).count ≠ s.cmpOf n 0 → c = ((s.tm n).count + 1) % 2 ^ 64) :
    c = s.nextCount n := by
  unfold State.nextCount
  split
  next h =>
    obtain ⟨wrap, top⟩ := Bool.and_eq_true_iff.mp h
    exact wraps wrap (beq_iff_eq.mp top)
  next h =>
    refine counts ?_
    by_contra both
    push Not at both
    exact h (by rw [Bool.eq_true_of_not_eq_false both.1, both.2, beq_self_eq_true]; rfl)

/-- The matches of an increment, the first compare before the second. -/
theorem State.timerIncrement_counts {n : Fin 4} {c : Nat} {u : State} (enabled : s.fb (Fd.TIMER_TCFG_EN n) = true)
    (runs : s.sourceRuns n = true) (hc : c = s.nextCount n)
    (hu : u = s.setTm n { s.tm n with count := c, phase := nextPhase (s.tm n).phase (s.f (Fd.TIMER_DIV_DIV n)) }) :
    s.timerIncrement n = if s.cmpOf n 1 = c then (if s.cmpOf n 0 = c then u.timerMatch n 0 else u).timerMatch n 1
      else if s.cmpOf n 0 = c then u.timerMatch n 0 else u := by
  have cmp0 : u.cmpOf n 0 = s.cmpOf n 0 := by rw [hu]; rfl
  have cmp1 : u.cmpOf n 1 = s.cmpOf n 1 := by rw [hu]; rfl
  have kept : (if s.cmpOf n 0 = c then u.timerMatch n 0 else u).cmpOf n 1 = s.cmpOf n 1 := by
    split
    · rw [State.cmpOf_timerMatch, cmp1]
    · exact cmp1
  unfold State.nextCount at hc
  simp only [State.timerIncrement, enabled, runs, Bool.and_self, if_true, ← hc, ← hu, cmp0, kept]

theorem State.timerIncrement_stopped (stopped : s.fb (Fd.TIMER_TCFG_EN n) = false ∨ s.sourceRuns n = false) : s.timerIncrement n = s := by
  refine if_neg ?_
  rcases stopped with h | h <;> simp [h]

/-! ## Captures (R415) -/

section
variable {r late : Bool} (enabled : s.fb (Fd.TIMER_TIO_CAPEN n) = true)
  (edge : s.f (Fd.TIMER_TIO_CEDGE n) = 3 ∨ s.f (Fd.TIMER_TIO_CEDGE n) = (if r then 1 else 2)) (wake : s.power.wakeRuns = true)
  (noHold : s.seq.hold = false)
include enabled edge wake noHold

theorem State.timerCapture_taken : s.timerCapture n r late =
    if (s.tm n).queue.length < 8 then
      (s.setTm n { s.tm n with queue := (s.tm n).queue ++ [((s.tm n).count, late)] }).timerEvent n 2
    else (s.incF (Fd.TIMER_TSTAT_QOVF n)).timerEvent n 3 := by
  have hit : (s.f (Fd.TIMER_TIO_CEDGE n) == 3 || (r && s.f (Fd.TIMER_TIO_CEDGE n) == 1) ||
      (!r && s.f (Fd.TIMER_TIO_CEDGE n) == 2)) = true := by
    cases r <;> rcases edge with h | h <;> rw [h] <;> rfl
  simp only [State.timerCapture, enabled, hit, wake, noHold, Bool.not_false, Bool.and_self, if_true]

end

theorem State.timerCapture_ignored {r late : Bool} (bar : s.fb (Fd.TIMER_TIO_CAPEN n) = false ∨ s.f (Fd.TIMER_TIO_CEDGE n) = 0 ∨
    s.power.wakeRuns = false) : s.timerCapture n r late = s := by
  refine if_neg ?_
  rcases bar with h | h | h <;> simp [h]

/-! ## Commands (R416) -/

theorem State.timerCmd_pop {w : Writer} {v : Nat} {late : Bool} {rest : List (Nat × Bool)} (front : (s.tm n).queue = (v, late) :: rest) :
    s.timerCmd w n 2 = s.setTm n { s.tm n with
      queue := rest, banks := (s.tm n).banks.set (bankIx w) (v, if late then 13 else 5) } := by
  cases late <;> simp only [State.timerCmd, front] <;> rfl

theorem State.timerCmd_popEmpty {w : Writer} (empty : (s.tm n).queue = []) : s.timerCmd w n 2 = s.setTm n { s.tm n with
    banks := (s.tm n).banks.set (bankIx w) ((s.tm n).banks[bankIx w].1, 0) } := by
  simp only [State.timerCmd, empty]
  rfl

end

/-- R412: the phase that an increment leaves lies below one source edge and is DIV away from the old one by whole edges. -/
theorem nextPhase_bounds {p d : Nat} (short : p < d) : nextPhase p d < 65536 ∧ (nextPhase p d + d - p) % 65536 = 0 := by
  unfold nextPhase divCeil
  dsimp only
  omega

/-- Settles O53: an increment by the compares it meets, a capture by the room in its queue, the commands by their code. -/
theorem timers : Obligations.Timers := by
  refine ⟨fun s n ao up => ⟨fun c u enabled runs wraps counts hu => ?_, fun stopped => ?_,
      fun x hx => State.timerMatch_event (by omega), fun r late enabled edge wake noHold => ⟨fun room => ?_, fun full => ?_⟩,
      fun r late bar => ?_⟩,
    fun s n w ao m => ⟨?_, fun v late rest front => ?_, fun empty => ?_, ?_, ?_⟩, fun p d short => nextPhase_bounds short⟩
  · have increment : exec (.timerIncrement n) s = .next (State.settle (if s.cmpOf n 1 = c then
        (if s.cmpOf n 0 = c then u.timerMatch n 0 else u).timerMatch n 1 else if s.cmpOf n 0 = c then u.timerMatch n 0 else u)) := by
      rw [exec_timerIncrement, live_next _ ao up, State.timerIncrement_counts enabled runs (State.nextCount_eq wraps counts) hu]
    refine ⟨fun ne0 ne1 => ?_, fun eq0 ne1 => ?_, fun ne0 eq1 => ?_, fun eq0 eq1 => ?_⟩
    · rw [increment, if_neg (Ne.symm ne1), if_neg (Ne.symm ne0)]
    · rw [increment, if_neg (Ne.symm ne1), if_pos eq0.symm]
    · rw [increment, if_pos eq1.symm, if_neg (Ne.symm ne0)]
    · rw [increment, if_pos eq1.symm, if_pos eq0.symm]
  · rw [exec_timerIncrement, live_next _ ao up, State.timerIncrement_stopped stopped]
  · rw [exec_timerCapture, live_next _ ao up, State.timerCapture_taken enabled edge wake noHold, if_pos room]
  · rw [exec_timerCapture, live_next _ ao up, State.timerCapture_taken enabled edge wake noHold, if_neg (not_lt.mpr full)]
  · rw [exec_timerCapture, live_next _ ao up, State.timerCapture_ignored bar]
  · rw [exec_timerSnap, write_word ao m (busWordAddr_timerCmd n), busWrite_timerCmd]
    rfl
  · rw [exec_timerPop, write_word ao m (busWordAddr_timerCmd n), busWrite_timerCmd]
    exact next_settle (State.timerCmd_pop front)
  · rw [exec_timerPop, write_word ao m (busWordAddr_timerCmd n), busWrite_timerCmd]
    exact next_settle (State.timerCmd_popEmpty empty)
  · rw [exec_timerLoad, write_word ao m (busWordAddr_timerCmd n), busWrite_timerCmd]
    rfl
  · rw [exec_timerClrq, write_word ao m (busWordAddr_timerCmd n), busWrite_timerCmd]
    rfl

/-! ## The CRC unit (R420–R423) -/

section
variable {s : State}

theorem busWrite_crcCtrl (s : State) (w : Writer) (d : Word) : s.busWrite w Reg.CRC_CTRL d = s.crcCtrl w d :=
  (busWrite_at (p := 0x16) (k := Reg.CRC_CTRL) rfl (by decide) (by decide) rfl rfl rfl).trans rfl

theorem busWrite_crcDin8 (s : State) (w : Writer) (d : Word) : s.busWrite w Reg.CRC_DIN8 d = s.crcDin w 1 d :=
  (busWrite_at (p := 0x16) (k := Reg.CRC_DIN8) rfl (by decide) (by decide) rfl rfl rfl).trans rfl

theorem busWrite_crcDin16 (s : State) (w : Writer) (d : Word) : s.busWrite w Reg.CRC_DIN16 d = s.crcDin w 2 d :=
  (busWrite_at (p := 0x16) (k := Reg.CRC_DIN16) rfl (by decide) (by decide) rfl rfl rfl).trans rfl

theorem busWrite_crcDin32 (s : State) (w : Writer) (d : Word) : s.busWrite w Reg.CRC_DIN32 d = s.crcDin w 4 d :=
  (busWrite_at (p := 0x16) (k := Reg.CRC_DIN32) rfl (by decide) (by decide) rfl rfl rfl).trans rfl

theorem busWrite_crcOwner (s : State) (w : Writer) (d : Word) : s.busWrite w Reg.CRC_OWNER d = s.crcOwner w d :=
  (busWrite_at (p := 0x16) (k := Reg.CRC_OWNER) rfl (by decide) (by decide) rfl rfl rfl).trans rfl

/-- Each of the three feed commands writes its register, which queues its bytes. -/
theorem exec_crcFeed {c : Instr} {k n : Nat} {w : Writer} {d : Word} (ao : s.power.ao = true)
    (h : (c = .crcDin8 w d ∧ k = Reg.CRC_DIN8 ∧ n = 1) ∨ (c = .crcDin16 w d ∧ k = Reg.CRC_DIN16 ∧ n = 2) ∨
      (c = .crcDin32 w d ∧ k = Reg.CRC_DIN32 ∧ n = 4)) (m : s.mayWrite w k = true) : exec c s = .next (s.crcDin w n d).settle := by
  rcases h with ⟨rfl, rfl, rfl⟩ | ⟨rfl, rfl, rfl⟩ | ⟨rfl, rfl, rfl⟩
  · rw [exec_crcDin8, write_word ao m rfl, busWrite_crcDin8]
  · rw [exec_crcDin16, write_word ao m rfl, busWrite_crcDin16]
  · rw [exec_crcDin32, write_word ao m rfl, busWrite_crcDin32]

theorem State.crcForeign_owner {w : Writer} (own : s.f Fd.CRC_OWNER_ID = 0 ∨ s.f Fd.CRC_OWNER_ID = ownerId w) :
    s.crcForeign w = s := if_neg fun h => own.elim h.1 h.2

theorem State.crcForeign_other {w : Writer} (taken : s.f Fd.CRC_OWNER_ID ≠ 0) (other : s.f Fd.CRC_OWNER_ID ≠ ownerId w) :
    s.crcForeign w = s.setF Fd.CRC_STAT_FOREIGN 1 := if_pos ⟨taken, other⟩

/-- A state that is `s` for the owner and has FOREIGN set for others is the foreign check's. -/
theorem State.crcForeign_eq {v : State} {w : Writer} (own : s.f Fd.CRC_OWNER_ID = 0 ∨ s.f Fd.CRC_OWNER_ID = ownerId w → v = s)
    (other : s.f Fd.CRC_OWNER_ID ≠ 0 → s.f Fd.CRC_OWNER_ID ≠ ownerId w → v = s.setF Fd.CRC_STAT_FOREIGN 1) : s.crcForeign w = v := by
  by_cases free : s.f Fd.CRC_OWNER_ID = 0
  · rw [State.crcForeign_owner (.inl free), own (.inl free)]
  · by_cases mine : s.f Fd.CRC_OWNER_ID = ownerId w
    · rw [State.crcForeign_owner (.inr mine), own (.inr mine)]
    · rw [State.crcForeign_other free mine, other free mine]

theorem State.crcForeign_crc (w : Writer) : (s.crcForeign w).crc = s.crc := by
  unfold State.crcForeign
  dsimp only
  split <;> rfl

theorem State.crcPush_room {e : CrcEntry} (room : s.crc.queue.length < 8) :
    s.crcPush e = s.setCrc { s.crc with queue := s.crc.queue ++ [e] } := if_pos room

theorem State.crcPush_full {e : CrcEntry} (full : 8 ≤ s.crc.queue.length) :
    s.crcPush e = (s.setF Fd.CRC_STAT_OVF 1).ev Fd.CRC_EVRAW_OVF := if_neg (not_lt.mpr full)

section
variable {w : Writer} {v : State} (foreign : s.crcForeign w = v)
include foreign

theorem State.crcDin_room {n : Nat} {d : Word} (room : s.crc.queue.length < 8) :
    s.crcDin w n d = v.setCrc { s.crc with queue := s.crc.queue ++ [.feed (bytesBE n d.toNat)] } := by
  have crc : v.crc = s.crc := foreign ▸ s.crcForeign_crc w
  rw [State.crcDin, foreign, State.crcPush_room (by rwa [crc]), crc]

theorem State.crcDin_full {n : Nat} {d : Word} (full : 8 ≤ s.crc.queue.length) :
    s.crcDin w n d = (v.setF Fd.CRC_STAT_OVF 1).ev Fd.CRC_EVRAW_OVF := by
  have crc : v.crc = s.crc := foreign ▸ s.crcForeign_crc w
  rw [State.crcDin, foreign, State.crcPush_full (by rwa [crc])]

section
variable {d : Word} (init : bit d 8 = true)
include init

theorem State.crcCtrl_room (room : s.crc.queue.length < 8) : s.crcCtrl w d =
    (v.setCrc { s.crc with queue := s.crc.queue ++ [.init (getBits d 0 2)] }).setF Fd.CRC_CTRL_POLY (getBits d 0 2) := by
  have crc : v.crc = s.crc := foreign ▸ s.crcForeign_crc w
  have space : v.crc.queue.length < 8 := by rwa [crc]
  simp only [State.crcCtrl, foreign, init, Bool.true_or, if_true, State.crcPush_room space, crc, room]

omit init in
theorem State.crcCtrl_full (full : 8 ≤ s.crc.queue.length) :
    s.crcCtrl w d = (v.setF Fd.CRC_STAT_OVF 1).ev Fd.CRC_EVRAW_OVF := by
  have crc : v.crc = s.crc := foreign ▸ s.crcForeign_crc w
  have none : 8 ≤ v.crc.queue.length := by rwa [crc]
  simp only [State.crcCtrl, foreign, State.crcPush_full none, not_lt.mpr none, if_false]

end

end

theorem bit_or_init (d : Word) : bit (d ||| 0x100) 8 = true := by simp [bit]

theorem getBits_or_init (d : Word) : getBits (d ||| 0x100) 0 2 = getBits d 0 2 := getBits_or_mask _ _ _ _ (by decide)

section
variable {rest : List CrcEntry} (wake : s.power.wakeRuns = true)
include wake

theorem State.crcApply_feed {bs : List Byte} (front : s.crc.queue = .feed bs :: rest) : s.crcApply =
    s.setCrc { s.crc with queue := rest, value := bs.foldl (crcFeed s.crc.poly) s.crc.value } := by
  simp only [State.crcApply, wake, if_true, front]

theorem State.crcApply_init {p : Nat} (front : s.crc.queue = .init p :: rest) : s.crcApply = s.setCrc ⟨p, crcInit p, rest⟩ := by
  simp only [State.crcApply, wake, if_true, front]

end

theorem State.crcApply_idle (idle : s.crc.queue = [] ∨ s.power.wakeRuns = false) : s.crcApply = s := by
  unfold State.crcApply
  rcases idle with empty | asleep
  · rw [empty]
    split <;> rfl
  · exact if_neg (ne_true_of_eq_false asleep)

/-! ## The owner (R423) -/

theorem State.crcOwner_eq (w : Writer) (d : Word) : s.crcOwner w d =
    if getBits d 0 8 = 0 then
      if s.f Fd.CRC_OWNER_ID ≠ 0 ∧ (isHost w ∨ s.f Fd.CRC_OWNER_ID = ownerId w) then
        (((s.setF Fd.CRC_OWNER_ID 0).ev Fd.CRC_EVRAW_FREE).pulse 68).pulse 84
      else s
    else if getBits d 0 8 = ownerId w ∧ s.f Fd.CRC_OWNER_ID = 0 then s.setF Fd.CRC_OWNER_ID (getBits d 0 8)
    else s := by
  cases w <;> rfl

section
variable {w : Writer} {d : Word}

theorem State.crcOwner_claims (mine : getBits d 0 8 = ownerId w) (nz : ownerId w ≠ 0) (free : s.f Fd.CRC_OWNER_ID = 0) :
    s.crcOwner w d = s.setF Fd.CRC_OWNER_ID (ownerId w) := by
  rw [State.crcOwner_eq, mine, if_neg nz, if_pos ⟨rfl, free⟩]

theorem State.crcOwner_refused (claims : getBits d 0 8 ≠ 0) (bar : getBits d 0 8 ≠ ownerId w ∨ s.f Fd.CRC_OWNER_ID ≠ 0) :
    s.crcOwner w d = s := by
  rw [State.crcOwner_eq, if_neg claims, if_neg fun h => bar.elim (fun o => o h.1) fun o => o h.2]

theorem State.crcOwner_releases (zero : getBits d 0 8 = 0) (taken : s.f Fd.CRC_OWNER_ID ≠ 0)
    (may : isHost w = true ∨ s.f Fd.CRC_OWNER_ID = ownerId w) :
    s.crcOwner w d = (((s.setF Fd.CRC_OWNER_ID 0).ev Fd.CRC_EVRAW_FREE).pulse 68).pulse 84 := by
  rw [State.crcOwner_eq, if_pos zero, if_pos ⟨taken, may⟩]

theorem State.crcOwner_keeps_other (zero : getBits d 0 8 = 0)
    (bar : s.f Fd.CRC_OWNER_ID = 0 ∨ (isHost w = false ∧ s.f Fd.CRC_OWNER_ID ≠ ownerId w)) : s.crcOwner w d = s := by
  rw [State.crcOwner_eq, if_pos zero, if_neg]
  rintro ⟨taken, may⟩
  rcases bar with free | ⟨row, other⟩
  · exact taken free
  · exact may.elim (ne_true_of_eq_false row) other

end

end

/-- The check value of each algorithm over "123456789". -/
theorem crc_check (i : Fin 4) : CrcUnit.result ⟨i, (bytesBE 9 0x313233343536373839).foldl (crcFeed i) (crcInit i), []⟩ =
    if i = 0 then 0xF4 else if i = 1 then 0x29B1 else if i = 2 then 0xCBF43926 else 0xE3069283 := by
  revert i
  decide +kernel

/-- Settles O54: a feed or a CTRL write by the room in the queue, its application by the entry, OWNER by who holds it. -/
theorem crcFeeds : Obligations.CrcFeeds := by
  refine ⟨fun s u w ao hu => ?_, fun i => ?_⟩
  · have foreign : s.crcForeign w = u w := State.crcForeign_eq (hu w).1 (hu w).2
    refine ⟨fun d m => ⟨fun room => ?_, fun full => ?_⟩, fun d c k n h m => ⟨fun room => ?_, fun full => ?_⟩,
      fun rest up wake => ⟨fun bs front => ?_, fun p front => ?_⟩, fun up idle => ?_,
      fun d m => ⟨fun mine nz free => ?_, fun claims bar => ?_, fun zero taken may => ?_, fun zero bar => ?_⟩⟩
    · rw [exec_crcInit, write_word ao m rfl, busWrite_crcCtrl, State.crcCtrl_room foreign (bit_or_init d) room, getBits_or_init]
    · rw [exec_crcInit, write_word ao m rfl, busWrite_crcCtrl, State.crcCtrl_full foreign full]
    · rw [exec_crcFeed ao h m, State.crcDin_room foreign room]
    · rw [exec_crcFeed ao h m, State.crcDin_full foreign full]
    · rw [exec_crcQueueApply, live_next _ ao up, State.crcApply_feed wake front]
    · rw [exec_crcQueueApply, live_next _ ao up, State.crcApply_init wake front]
    · rw [exec_crcQueueApply, live_next _ ao up, State.crcApply_idle idle]
    · rw [exec_crcOwnerWrite, write_word ao m rfl, busWrite_crcOwner, State.crcOwner_claims mine nz free]
    · rw [exec_crcOwnerWrite, write_word ao m rfl, busWrite_crcOwner, State.crcOwner_refused claims bar]
    · rw [exec_crcOwnerWrite, write_word ao m rfl, busWrite_crcOwner, State.crcOwner_releases zero taken may]
    · rw [exec_crcOwnerWrite, write_word ao m rfl, busWrite_crcOwner, State.crcOwner_keeps_other zero bar]
  · rw [crc_check]
    fin_cases i <;> rfl

end Sys2Proof.Machine
end

section
/-! PROOF. The interrupt controller (O49): inputs taken in, pending bits and hold-off groups, clears and CFG writes. -/

namespace Sys2Proof.Machine

/-! ## Where the registers of a source lie -/

theorem cfgReg_apart (i : Fin 96) : cfgReg i ≠ (pendReg i).1 ∧ cfgReg i ≠ Reg.INTC_EVRAW ∧ (pendReg i).1 ≠ Reg.INTC_EVRAW := by
  revert i
  decide

theorem holdoff_apart (i : Fin 96) (g : Fin 8) : Reg.INTC_HOLDOFF g ≠ (pendReg i).1 := by
  revert i g
  decide

theorem cfgReg_page (i : Fin 96) : cfgReg i / 0x1000 = 0x11 := by
  revert i
  decide

theorem group_lt (w : Word) : getBits w 8 3 < 8 := Nat.mod_lt _ (by decide)

/-! ## An input taken in (R357) -/

section
variable {s : State} {i : Nat} {now was : Bool} {u : State} (apart : i < 48 ∨ 56 ≤ i) (noPulse : s.intc.pulse.contains i = false)
  (hnow : now = s.inputLevel i) (hwas : was = tget (fun _ => false) s.intc.prev i)
  (hu : u = ({ s with intc := { s.intc with
    prev := tset (fun _ => false) s.intc.prev i now, pulse := s.intc.pulse.filter (· != i) } } : State))
include apart noPulse hnow hwas hu

omit hwas in
/-- HIGH: the pending bit follows the input. -/
theorem State.takeIn_high (sense : s.sense i = 0) : s.takeIn i = u.setIntPend i now := by
  have same : u.sense i = 0 := by rw [hu]; exact sense
  have out : ¬ (48 ≤ i ∧ i < 56) := by omega
  simp only [State.takeIn, noPulse, ← hnow, ← hu, out, if_false, same, Bool.false_eq_true]

omit hwas in
theorem State.takeIn_low (sense : s.sense i = 1) : s.takeIn i = u.setIntPend i (!now) := by
  have same : u.sense i = 1 := by rw [hu]; exact sense
  have out : ¬ (48 ≤ i ∧ i < 56) := by omega
  simp only [State.takeIn, noPulse, ← hnow, ← hu, out, if_false, same, Bool.false_eq_true]

theorem State.takeIn_rising (sense : s.sense i = 2) : s.takeIn i = if now && !was then u.setIntPend i true else u := by
  have same : u.sense i = 2 := by rw [hu]; exact sense
  have out : ¬ (48 ≤ i ∧ i < 56) := by omega
  simp only [State.takeIn, noPulse, ← hnow, ← hwas, ← hu, out, if_false, same, Bool.false_or]

theorem State.takeIn_falling (sense : s.sense i = 3) : s.takeIn i = if !now && was then u.setIntPend i true else u := by
  have same : u.sense i = 3 := by rw [hu]; exact sense
  have out : ¬ (48 ≤ i ∧ i < 56) := by omega
  simp only [State.takeIn, noPulse, ← hnow, ← hwas, ← hu, out, if_false, same, Bool.false_or]

theorem State.takeIn_both (sense : s.sense i = 4) : s.takeIn i = if now != was then u.setIntPend i true else u := by
  have same : u.sense i = 4 := by rw [hu]; exact sense
  have out : ¬ (48 ≤ i ∧ i < 56) := by omega
  have edge : (now && !was || !now && was) = (now != was) := by cases now <;> cases was <;> rfl
  simp only [State.takeIn, noPulse, ← hnow, ← hwas, ← hu, out, if_false, same, Bool.false_or, edge]

end

section
variable {s : State} {i : Fin 96}

/-! ## The hold-off groups (R360) -/

theorem State.setIntPend_false : s.setIntPend i false =
    if s.pend i then (s.clrReg (pendReg i).1 (bitAt (pendReg i).2)).groupFall i else s := rfl

/-- A fall writes the pending register alone. -/
theorem State.rd_setIntPend_false {a : Nat} (other : a ≠ (pendReg i).1) : (s.setIntPend i false).rd a = s.rd a := by
  rw [State.setIntPend_false]
  split
  · rw [State.rd_groupFall]
    exact State.rd_wr_ne _ _ other
  · rfl

/-- What a group's closing depends on is the same before and after the pending bit is cleared. -/
theorem State.groupFall_cleared : (s.clrReg (pendReg i).1 (bitAt (pendReg i).2)).groupFall i =
    if bit (s.rd (cfgReg i)) 11 ∧ s.f (Fd.INTC_HOLDOFF_TICKS (getBits (s.rd (cfgReg i)) 8 3)) ≠ 0 ∧
        !s.groupShut (getBits (s.rd (cfgReg i)) 8 3) then
      { s.clrReg (pendReg i).1 (bitAt (pendReg i).2) with intc := { s.intc with
          shutAt := tset (fun _ => none) s.intc.shutAt (getBits (s.rd (cfgReg i)) 8 3)
            (some (s.ticks + s.f (Fd.INTC_HOLDOFF_TICKS (getBits (s.rd (cfgReg i)) 8 3)))) } }
    else s.clrReg (pendReg i).1 (bitAt (pendReg i).2) := by
  have cfg : (s.clrReg (pendReg i).1 (bitAt (pendReg i).2)).rd (cfgReg i) = s.rd (cfgReg i) := State.rd_wr_ne _ _ (cfgReg_apart i).1
  have ticks : ∀ g, g < 8 → (s.clrReg (pendReg i).1 (bitAt (pendReg i).2)).f (Fd.INTC_HOLDOFF_TICKS g) = s.f (Fd.INTC_HOLDOFF_TICKS g) :=
    fun g hg => congrArg (getBits · 0 16) (State.rd_wr_ne _ _ (holdoff_apart i ⟨g, hg⟩))
  unfold State.groupFall
  dsimp only
  rw [cfg, ticks _ (group_lt _)]
  rfl

theorem State.setIntPend_shuts {g n : Nat} (pend : s.pend i = true) (member : bit (s.rd (cfgReg i)) 11 = true)
    (hg : g = getBits (s.rd (cfgReg i)) 8 3) (hn : n = s.f (Fd.INTC_HOLDOFF_TICKS g)) (nz : n ≠ 0) (opened : s.groupShut g = false) :
    tget (fun _ => none) (s.setIntPend i false).intc.shutAt g = some (s.ticks + n) := by
  subst hg hn
  rw [State.setIntPend_false, if_pos pend, State.groupFall_cleared, if_pos ⟨member, nz, by rw [opened]; rfl⟩]
  dsimp only
  exact tget_tset_self _ _ _ _

theorem State.setIntPend_leaves (bar : bit (s.rd (cfgReg i)) 11 = false ∨
    s.f (Fd.INTC_HOLDOFF_TICKS (getBits (s.rd (cfgReg i)) 8 3)) = 0 ∨ s.groupShut (getBits (s.rd (cfgReg i)) 8 3) = true) :
    (s.setIntPend i false).intc.shutAt = s.intc.shutAt := by
  rw [State.setIntPend_false]
  split
  · rw [State.groupFall_cleared, if_neg]
    · rfl
    · rintro ⟨member, nz, opened⟩
      rcases bar with h | h | h
      · exact ne_true_of_eq_false h member
      · exact nz h
      · exact absurd opened (by rw [h]; decide)
  · rfl

theorem State.groupReopen_opens {g due : Nat} {u : State} (runs : s.pagesRun = true)
    (shut : tget (fun _ => none) s.intc.shutAt g = some due) (passed : due ≤ s.ticks)
    (hu : u = ({ s with intc := { s.intc with shutAt := tset (fun _ => none) s.intc.shutAt g none } } : State)) :
    s.groupReopen g = (s.noteOutputs u).ev Fd.INTC_EVRAW_HOLDEXP := by
  simp only [State.groupReopen, shut, passed, if_true, runs, ← hu]

/-- R363: in FALLOW the device wakes first. -/
theorem State.groupReopen_wakes {g due : Nat} (stopped : s.pagesRun = false)
    (shut : tget (fun _ => none) s.intc.shutAt g = some due) (passed : due ≤ s.ticks) : s.groupReopen g = s.wakeUp := by
  simp only [State.groupReopen, shut, passed, if_true, stopped, Bool.false_eq_true, if_false]

theorem State.groupReopen_early {g : Nat} (early : ∀ due, tget (fun _ => none) s.intc.shutAt g = some due → s.ticks < due) :
    s.groupReopen g = s := by
  unfold State.groupReopen
  split
  next due shut => exact if_neg (not_le.mpr (early due shut))
  next => rfl

/-! ## Writes of CFG and PCFG (R357, R361) -/

/-- The word that a CFG or PCFG register takes. -/
def cfgWord (i : Nat) (v : Word) (se : Nat) : Word := putBits (v &&& (if i < 64 then 0x00000F17 else 0x00000F07)) 0 3 se

theorem State.cfgWrite_same {v : Word} (same : getBits v 0 3 = s.sense i) (mode : s.sense i ≤ 4) :
    s.cfgWrite i v = s.noteOutputs (s.wr (cfgReg i) (cfgWord i v (s.sense i))) := by
  simp only [State.cfgWrite, same, not_lt.mpr mode, if_false, if_true]
  rfl

/-- The state in which a new edge mode starts: the pending bit cleared, the present level as the previous one. -/
def State.cfgStart (t : State) (i : Nat) : State :=
  { t.setIntPend i false with intc := { (t.setIntPend i false).intc with
      prev := tset (fun _ => false) (t.setIntPend i false).intc.prev i (t.inputLevel i)
      pulse := (t.setIntPend i false).intc.pulse.filter (· != i) } }

theorem State.sense_cfgStart (t : State) : (t.cfgStart i).sense i = t.sense i :=
  congrArg (getBits · 0 3) (State.rd_setIntPend_false (cfgReg_apart i).1 : (t.setIntPend i false).rd (cfgReg i) = _)

theorem State.sense_wr_cfg (v : Word) {se : Nat} (small : se < 8) : (s.wr (cfgReg i) (cfgWord i v se)).sense i = se := by
  rw [State.sense, State.rd_wr_self, cfgWord, getBits_putBits_self _ _ _ _ (by decide)]
  exact Nat.mod_eq_of_lt small

theorem State.cfgWrite_edge {v : Word} (change : getBits v 0 3 ≠ s.sense i) (lo : 2 ≤ getBits v 0 3) (hi : getBits v 0 3 ≤ 4) :
    s.cfgWrite i v = s.noteOutputs ((s.wr (cfgReg i) (cfgWord i v (getBits v 0 3))).cfgStart i) := by
  have sense : ((s.wr (cfgReg i) (cfgWord i v (getBits v 0 3))).cfgStart i).sense i = getBits v 0 3 := by
    rw [State.sense_cfgStart, State.sense_wr_cfg _ (by omega)]
  have edge : ((s.wr (cfgReg i) (cfgWord i v (getBits v 0 3))).cfgStart i).levelMode i = false := by
    rw [State.levelMode, sense, decide_eq_false (not_lt.mpr lo), Bool.false_and]
  simp only [State.cfgWrite, not_lt.mpr hi, if_false, change]
  refine congrArg (State.noteOutputs s) (if_neg ?_)
  rw [← Bool.not_eq_true] at edge
  exact edge

theorem State.cfgWrite_edge_reads {v : Word} (change : getBits v 0 3 ≠ s.sense i) (lo : 2 ≤ getBits v 0 3) (hi : getBits v 0 3 ≤ 4) :
    (s.cfgWrite i v).sense i = getBits v 0 3 ∧ (s.cfgWrite i v).pend i = false := by
  obtain ⟨_, cfgEv, pendEv⟩ := cfgReg_apart i
  rw [State.cfgWrite_edge change lo hi]
  constructor
  · rw [State.sense, State.rd_noteOutputs _ _ _ cfgEv, ← State.sense, State.sense_cfgStart, State.sense_wr_cfg _ (by omega)]
  · rw [State.pend, State.rd_noteOutputs _ _ _ pendEv]
    exact State.pend_setIntPend _ i false

end

/-! ## The writes as register writes -/

/-- Below a processor's own bank every writer sees the same registers. -/
theorem accessOf_shared (w : Writer) {a : Nat} (page : a / 0x1000 ≠ 1) (low : a % 0x1000 % 0x400 < 0x200) :
    accessOf w a = accessOf .boot a := by
  have out : ¬ (a / 0x1000 = 0x11 ∧ 0x200 ≤ a % 0x1000 % 0x400 ∧ a % 0x1000 % 0x400 < 0x400) := by omega
  simp only [accessOf, page, out, if_false]

/-- A row sees both processors' banks where they lie. -/
theorem accessOf_row (t : Fin 16) {a : Nat} (page : a / 0x1000 ≠ 1) : accessOf (.row t) a = accessOf .boot a := by
  simp only [accessOf, page, if_false]

/-- A host sees its own bank in the place of the first. -/
theorem accessOf_ownBank (p : Proc) (k : Fin 16) :
    accessOf (.host p) (Reg.INTC_PCFG 0 k) = accessOf .boot (Reg.INTC_PCFG (procIx p) k) := by
  cases p <;> revert k <;> decide

theorem cfgReg_row (i : Fin 96) : ∃ r, accessOf .boot (cfgReg i) = some (cfgReg i, r, 0) ∧ r.sc = 0 ∧ r.writable = true := by
  have found : ∀ i : Fin 96, ((accessOf .boot (cfgReg i)).map fun x => (x.1, x.2.1.sc, x.2.1.writable, x.2.2)) = some (cfgReg i, 0, true, 0) := by
    decide +kernel
  obtain ⟨⟨k, r, al⟩, access, parts⟩ := Option.map_eq_some_iff.mp (found i)
  obtain ⟨rfl, sc, writable, rfl⟩ : k = cfgReg i ∧ r.sc = 0 ∧ r.writable = true ∧ al = 0 := by simpa using parts
  exact ⟨r, access, sc, writable⟩

theorem regionOf_intc {a : Nat} (page : a / 0x1000 = 0x11) : regionOf a = .page 0x11 := by
  unfold regionOf
  rw [if_pos (by omega), page]

/-- The three ranges of CFG registers in their page. -/
theorem writeIntc_cfg (s : State) (i : Fin 96) (v new : Word) :
    s.writeIntc (cfgReg i) (cfgReg i % 0x1000) v new = s.cfgWrite i v := by
  have hi := i.isLt
  by_cases shared : i.val < 64
  · have off : cfgReg i % 0x1000 = 0x100 + 4 * i.val := by simp only [cfgReg, shared, if_true, Reg.INTC_CFG]; omega
    rw [State.writeIntc, off, if_pos (by omega), show (0x100 + 4 * i.val - 0x100) / 4 = i.val by omega]
  · have off : cfgReg i % 0x1000 = 0x200 + 0x100 * ((i.val - 64) / 16) + 4 * (i.val % 16) := by
      simp only [cfgReg, shared, if_false, Reg.INTC_PCFG]; omega
    by_cases bankA : i.val < 80
    · rw [State.writeIntc, off, if_neg (by omega), if_pos (by omega),
        show 64 + (0x200 + 0x100 * ((i.val - 64) / 16) + 4 * (i.val % 16) - 0x200) / 4 = i.val by omega]
    · rw [State.writeIntc, off, if_neg (by omega), if_neg (by omega), if_pos (by omega),
        show 80 + (0x200 + 0x100 * ((i.val - 64) / 16) + 4 * (i.val % 16) - 0x300) / 4 = i.val by omega]

theorem busWrite_cfg (s : State) {w : Writer} {a : Nat} (i : Fin 96) (d : Word) (page : a / 0x1000 = 0x11)
    (same : accessOf w a = accessOf .boot (cfgReg i)) :
    s.busWrite w a d = s.cfgWrite i (normWord 0x11 (cfgReg i % 0x1000) d) := by
  obtain ⟨r, access, sc, writable⟩ := cfgReg_row i
  have cfgPage := cfgReg_page i
  rw [busWrite_base (regionOf_intc page) (same.trans access) sc writable]
  simp only [State.baseWrite, cfgPage]
  exact writeIntc_cfg s i _ _

theorem busWrite_pend0Clear (s : State) (w : Writer) (d : Word) :
    s.busWrite w (Reg.INTC_PEND0 + 0x800) d = s.pendWrite 0 32 (s.rd Reg.INTC_PEND0 &&& ~~~ d) := by
  rw [busWrite_clrAlias (k := Reg.INTC_PEND0) rfl rfl (by decide) (by decide), show d &&& 0xFFFFFFFF = d from BitVec.and_allOnes]
  rfl

theorem busWrite_pend1Clear (s : State) (w : Writer) (d : Word) :
    s.busWrite w (Reg.INTC_PEND1 + 0x800) d = s.pendWrite 32 32 (s.rd Reg.INTC_PEND1 &&& ~~~ d) := by
  rw [busWrite_clrAlias (k := Reg.INTC_PEND1) rfl rfl (by decide) (by decide), show d &&& 0xFFFFFFFF = d from BitVec.and_allOnes]
  rfl

theorem busWrite_nmi0Clear (s : State) (w : Writer) (d : Word) :
    s.busWrite w (Reg.INTC_NMIPEND0 + 0x800) d = s.noteOutputs (s.wr Reg.INTC_NMIPEND0 (s.rd Reg.INTC_NMIPEND0 &&& ~~~ d)) := by
  rw [busWrite_clrAlias (k := Reg.INTC_NMIPEND0) rfl rfl (by decide) (by decide), show d &&& 0xFFFFFFFF = d from BitVec.and_allOnes]
  rfl

theorem busWrite_nmi1Clear (s : State) (w : Writer) (d : Word) : s.busWrite w (Reg.INTC_NMIPEND1 + 0x800) d =
    s.noteOutputs (s.wr Reg.INTC_NMIPEND1 (s.rd Reg.INTC_NMIPEND1 &&& ~~~ (d &&& 0xFFFF))) := by
  rw [busWrite_clrAlias (k := Reg.INTC_NMIPEND1) rfl rfl (by decide) (by decide)]
  rfl

theorem busWrite_ppendClear_host (s : State) (p : Proc) (d : Word) : s.busWrite (.host p) (Reg.INTC_PPEND 0 + 0x800) d =
    s.pendWrite (64 + 16 * procIx p) 16 (s.rd (Reg.INTC_PPEND (procIx p)) &&& ~~~ (d &&& 0xFFFF)) := by
  cases p
  · rw [busWrite_clrAlias (k := Reg.INTC_PPEND 0) rfl rfl (by decide) (by decide)]
    rfl
  · rw [busWrite_clrAlias (k := Reg.INTC_PPEND 1) rfl rfl (by decide) (by decide)]
    rfl

theorem busWrite_ppendClear_row (s : State) (t : Fin 16) (i : Fin 2) (d : Word) : s.busWrite (.row t) (Reg.INTC_PPEND i + 0x800) d =
    s.pendWrite (64 + 16 * i) 16 (s.rd (Reg.INTC_PPEND i) &&& ~~~ (d &&& 0xFFFF)) := by
  fin_cases i
  · rw [busWrite_clrAlias (k := Reg.INTC_PPEND 0) rfl rfl (by decide) (by decide)]
    rfl
  · rw [busWrite_clrAlias (k := Reg.INTC_PPEND 1) rfl rfl (by decide) (by decide)]
    rfl

theorem busWordAddr_multiple {a : Nat} (word : a % 4 = 0) (small : a < 2 ^ 24) : busWordAddr a = a := by
  unfold busWordAddr
  omega

section
variable {s : State} (ao : s.power.ao = true)
include ao

theorem exec_cfgWrite_shared (w : Writer) (k : Fin 64) (d : Word) (m : s.mayWrite w (Reg.INTC_CFG k) = true) :
    exec (.intcCfgWrite w ⟨k, by omega⟩ d) s = .next (s.cfgWrite k (normWord 0x11 (0x100 + 4 * k) d)).settle := by
  have hk := k.isLt
  have reg : cfgReg k = Reg.INTC_CFG k := if_pos hk
  have addr : cfgAddr k = Reg.INTC_CFG k := if_pos hk
  have off : Reg.INTC_CFG k % 0x1000 = 0x100 + 4 * k.val := by unfold Reg.INTC_CFG; omega
  have page : Reg.INTC_CFG k / 0x1000 = 0x11 := by unfold Reg.INTC_CFG; omega
  have access : accessOf w (Reg.INTC_CFG k) = accessOf .boot (cfgReg k) := by
    rw [reg]
    exact accessOf_shared w (by omega) (by omega)
  rw [exec_intcCfgWrite, addr, write_word ao m (busWordAddr_multiple (by unfold Reg.INTC_CFG; omega) (by unfold Reg.INTC_CFG; omega)),
    busWrite_cfg s ⟨k, by omega⟩ d page access, reg, off]

theorem exec_cfgWrite_host (p : Proc) (k : Fin 16) (d : Word) (m : s.mayWrite (.host p) (Reg.INTC_PCFG 0 k) = true) :
    exec (.intcCfgWrite (.host p) ⟨64 + k, by omega⟩ d) s =
      .next (s.cfgWrite (64 + 16 * procIx p + k) (normWord 0x11 (0x200 + 0x100 * procIx p + 4 * k) d)).settle := by
  have hk := k.isLt
  have hp : procIx p < 2 := by cases p <;> decide
  have reg : cfgReg (64 + 16 * procIx p + k) = Reg.INTC_PCFG (procIx p) k := by
    rw [cfgReg, if_neg (by omega), show (64 + 16 * procIx p + k.val - 64) / 16 = procIx p by omega,
      show (64 + 16 * procIx p + k.val) % 16 = k.val by omega]
  have addr : cfgAddr (64 + k) = Reg.INTC_PCFG 0 k := by
    rw [cfgAddr, if_neg (by omega), if_pos (by omega), Nat.add_sub_cancel_left]
  have off : Reg.INTC_PCFG (procIx p) k % 0x1000 = 0x200 + 0x100 * procIx p + 4 * k.val := by unfold Reg.INTC_PCFG; omega
  have page : Reg.INTC_PCFG 0 k / 0x1000 = 0x11 := by unfold Reg.INTC_PCFG; omega
  have access : accessOf (.host p) (Reg.INTC_PCFG 0 k) = accessOf .boot (cfgReg (64 + 16 * procIx p + k)) := by
    rw [reg]
    exact accessOf_ownBank p k
  rw [exec_intcCfgWrite, addr, write_word ao m (busWordAddr_multiple (by unfold Reg.INTC_PCFG; omega) (by unfold Reg.INTC_PCFG; omega)),
    busWrite_cfg s ⟨64 + 16 * procIx p + k, by omega⟩ d page access, reg, off]

theorem exec_cfgWrite_row (t : Fin 16) (k : Fin 32) (d : Word)
    (m : s.mayWrite (.row t) (Reg.INTC_PCFG (k / 16) (k % 16)) = true) :
    exec (.intcCfgWrite (.row t) ⟨64 + k, by omega⟩ d) s =
      .next (s.cfgWrite (64 + k) (normWord 0x11 (0x200 + 0x100 * (k / 16) + 4 * (k % 16)) d)).settle := by
  have hk := k.isLt
  have reg : cfgReg (64 + k) = Reg.INTC_PCFG (k / 16) (k % 16) := by
    rw [cfgReg, if_neg (by omega), Nat.add_sub_cancel_left, show (64 + k.val) % 16 = k.val % 16 by omega]
  have addr : cfgAddr (64 + k) = Reg.INTC_PCFG (k / 16) (k % 16) := by
    unfold cfgAddr Reg.INTC_PCFG Reg.INTC_CFG
    split_ifs <;> omega
  have off : Reg.INTC_PCFG (k / 16) (k % 16) % 0x1000 = 0x200 + 0x100 * (k.val / 16) + 4 * (k.val % 16) := by
    unfold Reg.INTC_PCFG
    omega
  have page : Reg.INTC_PCFG (k / 16) (k % 16) / 0x1000 = 0x11 := by unfold Reg.INTC_PCFG; omega
  have access : accessOf (.row t) (Reg.INTC_PCFG (k / 16) (k % 16)) = accessOf .boot (cfgReg (64 + k)) := by
    rw [reg]
    exact accessOf_row t (by omega)
  rw [exec_intcCfgWrite, addr, write_word ao m (busWordAddr_multiple (by unfold Reg.INTC_PCFG; omega) (by unfold Reg.INTC_PCFG; omega)),
    busWrite_cfg s ⟨64 + k, by omega⟩ d page access, reg, off]

theorem exec_ppendClear_row (t : Fin 16) (i : Fin 2) (mask : Word) (m : s.mayWrite (.row t) (Reg.INTC_PPEND i + 0x800) = true) :
    exec (.pendClear (.row t) ⟨2 + i, by omega⟩ mask) s =
      .next (s.pendWrite (64 + 16 * i) 16 (s.rd (Reg.INTC_PPEND i) &&& ~~~ (mask &&& 0xFFFF))).settle := by
  have addr : pendAddr ⟨2 + i, by omega⟩ + 0x800 = Reg.INTC_PPEND i + 0x800 := by
    clear m
    revert i
    decide
  have word : busWordAddr (Reg.INTC_PPEND i + 0x800) = Reg.INTC_PPEND i + 0x800 :=
    busWordAddr_multiple (by unfold Reg.INTC_PPEND; omega) (by unfold Reg.INTC_PPEND; omega)
  rw [exec_pendClear, addr, write_word ao m word, busWrite_ppendClear_row]

end

/-- Settles O49: an input by its SENSE, a fall by its group, the clears and CFG writes by their register. -/
theorem interrupts : Obligations.Interrupts := by
  refine fun s ao => ⟨fun i up runs => ?_, fun i up stopped => ?_, fun i now was u apart noPulse hnow hwas hu => ?_,
    State.pend_setIntPend s, fun i g n pend member hg hn nz opened => State.setIntPend_shuts pend member hg hn nz opened,
    fun i bar => State.setIntPend_leaves bar, fun w mask m => ?_, fun w mask m => ?_, fun p mask m => ?_,
    fun t i mask m => ⟨_, rfl, exec_ppendClear_row ao t i mask m⟩, fun w mask m => ?_, fun w mask m => ?_,
    fun w k d m => ⟨_, rfl, exec_cfgWrite_shared ao w k d m⟩, fun p k d m => ⟨_, rfl, exec_cfgWrite_host ao p k d m⟩,
    fun t k d m => ⟨_, rfl, exec_cfgWrite_row ao t k d m⟩, fun i v same mode => State.cfgWrite_same same mode,
    fun i v change lo hi => State.cfgWrite_edge_reads change lo hi, fun g due u up runs shut passed hu => ?_,
    fun g due up stopped shut passed => ?_, fun g up early => ?_⟩
  · rw [exec_intcSourceEdge, live_next _ ao up, if_pos runs, State.intcEdge, if_pos runs]
  · rw [exec_intcSourceEdge, live_next _ ao up, if_neg (ne_true_of_eq_false stopped)]
  · refine ⟨State.takeIn_high apart noPulse hnow hu, State.takeIn_low apart noPulse hnow hu, fun sense high low => ?_,
      fun sense level => ?_, fun sense low high => ?_, fun sense level => ?_, fun sense edge => ?_, fun sense level => ?_⟩
    · rw [State.takeIn_rising apart noPulse hnow hwas hu sense, high, low]
      rfl
    · rw [State.takeIn_rising apart noPulse hnow hwas hu sense]
      rcases level with h | h <;> simp [h]
    · rw [State.takeIn_falling apart noPulse hnow hwas hu sense, high, low]
      rfl
    · rw [State.takeIn_falling apart noPulse hnow hwas hu sense]
      rcases level with h | h <;> simp [h]
    · rw [State.takeIn_both apart noPulse hnow hwas hu sense, if_pos (bne_iff_ne.mpr edge)]
    · rw [State.takeIn_both apart noPulse hnow hwas hu sense, level, bne_self_eq_false]
      rfl
  · rw [exec_pendClear]
    exact (write_word ao m rfl).trans (congrArg _ (congrArg _ (busWrite_pend0Clear s w mask)))
  · rw [exec_pendClear]
    exact (write_word ao m rfl).trans (congrArg _ (congrArg _ (busWrite_pend1Clear s w mask)))
  · rw [exec_pendClear]
    exact (write_word ao m rfl).trans (congrArg _ (congrArg _ (busWrite_ppendClear_host s p mask)))
  · rw [exec_nmipendClear]
    exact (write_word ao m rfl).trans (congrArg _ (congrArg _ (busWrite_nmi0Clear s w mask)))
  · rw [exec_nmipendClear]
    exact (write_word ao m rfl).trans (congrArg _ (congrArg _ (busWrite_nmi1Clear s w mask)))
  · rw [exec_holdoffReopen, live_next _ ao up, State.groupReopen_opens runs shut passed hu]
  · rw [exec_holdoffReopen, live_next _ ao up, State.groupReopen_wakes stopped shut passed]
  · rw [exec_holdoffReopen, live_next _ ao up, State.groupReopen_early early]

end Sys2Proof.Machine
end

section
/-! PROOF. Record commands, the Almanac's freeze and the work of record flash (O50). -/

namespace Sys2Proof.Machine

/-! ## Record commands (R373, R376, R390) -/

section
variable {s : State} {d : Word} {op : Nat} (hop : getBits d 28 4 = op)
include hop

theorem State.recordCmd_busy (known : 1 ≤ op) (last : op ≤ 5) (busy : s.fb Fd.RECORD_STAT_BUSY = true) :
    s.recordCmd d = s.recCmdDone 1 0 := by
  have out : ¬ (op = 0 ∨ 5 < op) := by omega
  simp only [State.recordCmd, hop, out, if_false, busy, if_true]

/-- The operation of a command that finds the record flash idle. -/
def State.recordOp (s : State) (op arg : Nat) : State :=
  if op = 1 then s.recReadPage arg else if op = 2 then s.recTails else if op = 3 then s.recSdwrite arg
  else if op = 4 then s.recTrig else s.recResume

theorem State.recordCmd_idle (known : 1 ≤ op) (last : op ≤ 5) (idle : s.fb Fd.RECORD_STAT_BUSY = false) :
    s.recordCmd d = s.recordOp op (getBits d 0 8) := by
  have out : ¬ (op = 0 ∨ 5 < op) := by omega
  simp only [State.recordCmd, hop, out, if_false, idle, Bool.false_eq_true]
  obtain rfl | rfl | rfl | rfl | rfl : op = 1 ∨ op = 2 ∨ op = 3 ∨ op = 4 ∨ op = 5 := by omega
  all_goals rfl

end

section
variable {s : State} {w : Writer} (ao : s.power.ao = true) (m : s.mayWrite w Reg.RECORD_CMD = true)
include ao m

theorem exec_record {d : Word} : write s w Reg.RECORD_CMD d = .next (s.recordCmd d).settle := by
  rw [write_word ao m rfl, busWrite_recordCmd]

theorem exec_record_busy {d : Word} {op : Nat} (hop : getBits d 28 4 = op) (known : 1 ≤ op) (last : op ≤ 5)
    (busy : s.fb Fd.RECORD_STAT_BUSY = true) : write s w Reg.RECORD_CMD d = .next (s.recCmdDone 1 0).settle := by
  rw [exec_record ao m, State.recordCmd_busy hop known last busy]

theorem exec_record_idle {d : Word} {op : Nat} (hop : getBits d 28 4 = op) (known : 1 ≤ op) (last : op ≤ 5)
    (idle : s.fb Fd.RECORD_STAT_BUSY = false) :
    write s w Reg.RECORD_CMD d = .next (s.recordOp op (getBits d 0 8)).settle := by
  rw [exec_record ao m, State.recordCmd_idle hop known last idle]

end

section
variable {s : State}

theorem State.recResume_held (held : s.f Fd.RECORD_STAT_ASTATE = 3) : s.recResume = s.almanacRun.recCmdDone 0 0 := if_pos held

theorem State.recResume_notHeld (other : s.f Fd.RECORD_STAT_ASTATE ≠ 3) : s.recResume = s.recCmdDone 5 0 := if_neg other

/-! The result register of a command that is over. -/

/-- The fields that a completed command writes. -/
theorem State.recCmdDone_eq (c n : Nat) : s.recCmdDone c n = ((((((s.wr Reg.RECORD_CMDRES 0).setF Fd.RECORD_CMDRES_DONE 1).setFb
    Fd.RECORD_CMDRES_ERR (c != 0)).setF Fd.RECORD_CMDRES_CODE c).setF Fd.RECORD_CMDRES_RECNO n).ev Fd.RECORD_EVRAW_CMDDONE).pulse 63 := rfl

theorem State.f_recCmdDone {c n : Nat} {fd : Fld} (result : fd.addr = Reg.RECORD_CMDRES) : (s.recCmdDone c n).f fd =
    (((((s.wr Reg.RECORD_CMDRES 0).setF Fd.RECORD_CMDRES_DONE 1).setFb Fd.RECORD_CMDRES_ERR (c != 0)).setF
      Fd.RECORD_CMDRES_CODE c).setF Fd.RECORD_CMDRES_RECNO n).f fd := by
  rw [State.recCmdDone_eq, State.f, State.rd_pulse, State.rd_ev_ne _ (by rw [result]; decide), ← State.f]

theorem State.recCmdDone_code {c : Nat} (n : Nat) (small : c < 8) : (s.recCmdDone c n).f Fd.RECORD_CMDRES_CODE = c := by
  rw [State.f_recCmdDone rfl, State.f_setF_apart _ _ (by decide) (by decide), State.f_setF_self _ _ (by decide)]
  exact Nat.mod_eq_of_lt (show c < 16 by omega)

theorem State.recCmdDone_done (c n : Nat) : (s.recCmdDone c n).fb Fd.RECORD_CMDRES_DONE = true := by
  have one : (s.recCmdDone c n).f Fd.RECORD_CMDRES_DONE = 1 := by
    rw [State.f_recCmdDone rfl, State.f_setF_apart _ _ (by decide) (by decide), State.f_setF_apart _ _ (by decide) (by decide),
      State.setFb, State.f_setF_apart _ _ (by decide) (by decide), State.f_setF_self _ _ (by decide)]
    rfl
  rw [State.fb, one]
  rfl

theorem State.recCmdDone_err (c n : Nat) : (s.recCmdDone c n).fb Fd.RECORD_CMDRES_ERR = true ↔ c ≠ 0 := by
  have err : (s.recCmdDone c n).f Fd.RECORD_CMDRES_ERR = b2n (c != 0) % 2 := by
    rw [State.f_recCmdDone rfl, State.f_setF_apart _ _ (by decide) (by decide), State.f_setF_apart _ _ (by decide) (by decide),
      State.setFb, State.f_setF_self _ _ (by decide)]
    rfl
  rw [State.fb, err]
  by_cases zero : c = 0 <;> simp [zero, b2n]

/-! ## The freeze and the mirror (R376, R378, R381) -/

theorem State.almanacFreeze_freezes {u : State} (post : s.f Fd.RECORD_STAT_ASTATE = 1)
    (spent : s.almanac.postLeft = 0 ∨ s.almanac.postDue ≤ s.ticks) (hu : u = s.setF Fd.RECORD_STAT_ASTATE 2) :
    s.almanacFreeze = State.recStart (State.queueTails
      { u with almanac := { s.almanac with lostAt := s.f Fd.RECORD_ASTAT_LOST, archWait := true } } .freeze) := by
  have lost : u.f Fd.RECORD_ASTAT_LOST = s.f Fd.RECORD_ASTAT_LOST := by rw [hu]; exact s.f_setF_ne 2 (by decide)
  have almanac : u.almanac = s.almanac := by rw [hu]; rfl
  simp only [State.almanacFreeze, post, spent, and_self, if_true, ← hu, lost, almanac]

theorem State.almanacFreeze_other (other : s.f Fd.RECORD_STAT_ASTATE ≠ 1) : s.almanacFreeze = s := if_neg fun h => other h.1

section
variable {u v : State} (frozen : s.f Fd.RECORD_STAT_ASTATE = 2) (copied : s.recPending .freeze = false)
  (archived : s.almanac.archWait = false) (idle : s.archiving = false) (hu : u = (s.ev Fd.RECORD_EVRAW_FROZEN).pulse 63)
  (hv : v = (u.setRec { u.rflash with counters := { u.rflash.counters with
    freezes := satInc (2 ^ 32 - 1) u.rflash.counters.freezes } }).recCounters.recStart)
include frozen copied archived idle hu hv

theorem State.freezeCopyDone_eq :
    s.freezeCopyDone = if v.fb Fd.RECORD_CTRL_AUTORESUME then v.almanacRun else v.setF Fd.RECORD_STAT_ASTATE 3 := by
  simp only [State.freezeCopyDone, frozen, copied, archived, idle, Bool.not_false, and_self, if_true, ← hu, ← hv]

end

theorem State.freezeCopyDone_waits (bar : s.f Fd.RECORD_STAT_ASTATE ≠ 2 ∨ s.recPending .freeze = true ∨ s.almanac.archWait = true ∨
    s.archiving = true) : s.freezeCopyDone = s := by
  refine if_neg fun ⟨frozen, copied, archived, idle⟩ => ?_
  rcases bar with h | h | h | h
  · exact h frozen
  · exact absurd copied (by rw [h]; decide)
  · exact absurd archived (by rw [h]; decide)
  · exact absurd idle (by rw [h]; decide)

theorem State.logbookFlush_flushes {t : Nat} (since : s.xflash.mirSince = some t) (mirroring : s.mirroring = true)
    (part : s.unmirrored < 8) (passed : t + msTicks (s.f Fd.RECORD_LCFG_FLUSH) ≤ s.ticks) :
    s.logbookFlush = s.setX { s.xflash with mirFlush := true } := by
  simp only [State.logbookFlush, since]
  exact if_pos ⟨mirroring, part, passed⟩

theorem State.logbookFlush_idle (bar : s.xflash.mirSince = none ∨ s.mirroring = false ∨ 8 ≤ s.unmirrored) : s.logbookFlush = s := by
  unfold State.logbookFlush
  cases since : s.xflash.mirSince with
  | none => rfl
  | some t =>
    refine if_neg fun ⟨mirroring, part, _⟩ => ?_
    rcases bar with h | h | h
    · exact absurd (since.symm.trans h) (by simp)
    · exact absurd mirroring (by rw [h]; decide)
    · omega

/-! ## Programs and erases (R368–R370) -/

section
variable {o : RecOp} (busy : s.rflash.busy = some o)
include busy

section
variable {u : State} (program : o.erase = false) (hu : u = State.setRec s { s.rflash with
  busy := none, cells := putCells s.rflash.cells (128 * s.rflash.phys o.page + o.off) o.data })
include program hu

theorem State.recProgramDone_job {j : RecJob} (job : o.job = some j) : s.recProgramDone true = (u.recAdvance j).recStart := by
  subst hu
  simp only [State.recProgramDone, busy, program, Bool.false_eq_true, if_false, if_true, job]
  rfl

theorem State.recProgramDone_free (job : o.job = none) : s.recProgramDone true = u.recStart := by
  subst hu
  simp only [State.recProgramDone, busy, program, Bool.false_eq_true, if_false, if_true, job]
  rfl

end

section
variable {t : State} (program : o.erase = false) (ht : t = ({ s with
  rflash := { s.rflash with cells := putCells s.rflash.cells (128 * s.rflash.phys o.page + o.off) (tornBytes s.freeCtr o.data.length) }
  freeCtr := s.freeCtr + o.data.length } : State))
include program ht

omit busy in
theorem State.recTorn_program : s.recTorn o = t := by
  subst ht
  simp only [State.recTorn, program, Bool.false_eq_true, if_false]

/-- R369: the first mismatch erases the page and programs it again. -/
theorem State.recProgramDone_retries (first : o.retry = false) :
    s.recProgramDone false = (t.recGoOn ⟨true, o.page, 0, s.rflash.intended o, true, o.job⟩).recStart := by
  simp only [State.recProgramDone, busy, program, first, Bool.false_eq_true, if_false, State.recTorn_program program ht]

theorem State.recProgramDone_worn (again : o.retry = true) : s.recProgramDone false = (t.recWorn o).recStart := by
  simp only [State.recProgramDone, busy, program, again, Bool.false_eq_true, if_false, if_true, State.recTorn_program program ht]

end

section
variable {r : RecFlash} (erase : o.erase = true) (hr : r = { s.rflash with
  cells := eraseCells s.rflash.cells (s.rflash.phys o.page)
  counters := s.rflash.counters.countErase o.page
  eraseDue := s.rflash.eraseDue.filter (· != o.page)
  busy := none })
include erase hr

theorem State.recEraseDone_retry (retry : o.retry = true) :
    s.recEraseDone = State.recStart ((s.setRec r).recGoOn ⟨false, o.page, 0, o.data, true, o.job⟩) := by
  subst hr
  simp only [State.recEraseDone, busy, erase, retry, if_true]

theorem State.recEraseDone_job {j : RecJob} (first : o.retry = false) (job : o.job = some j) :
    s.recEraseDone = State.recStart (s.setRec { r with queue := { j with erased := true } :: r.queue }) := by
  subst hr
  simp only [State.recEraseDone, busy, erase, first, job, if_true, Bool.false_eq_true, if_false]

theorem State.recEraseDone_free (first : o.retry = false) (job : o.job = none) : s.recEraseDone = (s.setRec r).recStart := by
  subst hr
  simp only [State.recEraseDone, busy, erase, first, job, if_true, Bool.false_eq_true, if_false]

end

end

theorem State.recProgramDone_idle (idle : s.rflash.busy = none) (ok : Bool) : s.recProgramDone ok = s := by
  simp only [State.recProgramDone, idle]

theorem State.recEraseDone_idle (idle : s.rflash.busy = none) : s.recEraseDone = s := by
  simp only [State.recEraseDone, idle]

theorem State.recGoOn_held {o : RecOp} (held : 6000 ≤ s.plant.vhold.getD 8000) :
    s.recGoOn o = s.setRec { s.rflash with busy := some o } := if_pos (decide_eq_true held)

theorem State.recStart_stopped (stopped : s.pagesRun = false) : s.recStart = s := by
  simp only [State.recStart, recStartN, stopped, Bool.not_false, Bool.or_true, if_true]

section
variable {j : RecJob} (up : s.portUp = true) (runs : s.pagesRun = true) (idle : s.rflash.busy = none)
  (queue : s.rflash.queue = [j]) (free : j.free s.rflash = true)
include up runs idle queue free

theorem State.recStart_job (held : 6000 ≤ s.plant.vhold.getD 8000) :
    s.recStart = s.setRec { s.rflash with queue := [], busy := some (j.op s.rflash) } := by
  have high : s.vholdAt 6000 = true := decide_eq_true held
  simp only [State.recStart, recStartN, idle, up, runs, queue, recPick, free, high, Option.isSome_none, Bool.not_true, Bool.or_self,
    Bool.false_eq_true, if_false, if_true]

/-- R368: below 6.0 V the job is abandoned. -/
theorem State.recStart_abandons (low : s.plant.vhold.getD 8000 < 6000) :
    s.recStart = recStartN 1 ((State.recLost (s.setRec { s.rflash with queue := [] }) j 2).storeFail) := by
  have fails : s.vholdAt 6000 = false := decide_eq_false (not_le.mpr low)
  rw [State.recStart, queue, recStartN]
  simp only [idle, up, runs, queue, recPick, free, fails, Option.isSome_none, Bool.not_true, Bool.or_self, Bool.false_eq_true, if_false,
    if_true, List.length_singleton]

end

end

/-- Settles O50: RECORD.CMD by its operation, the freeze and the mirror, then the record flash's own work by what is under way. -/
theorem records : Obligations.Records := by
  refine ⟨fun s ao up => ⟨fun w m busy => ⟨fun page => ?_, ?_, fun reason => ?_, ?_, ?_⟩,
      fun w b m idle hb => ⟨fun page => ⟨_, rfl, ?_⟩, ?_, fun reason => ?_, ?_, fun held => ?_, fun other => ?_⟩,
      fun u post spent hu => ?_, fun other => ?_, fun u v frozen copied archived done hu hv => ?_, fun bar => ?_,
      fun t since mirroring part passed => ?_, fun bar => ?_⟩,
    fun s ao => ⟨fun o u busy program hu => ⟨fun j job => ?_, fun job => ?_⟩,
      fun o t busy program ht => ⟨fun first => ?_, fun again => ?_⟩, fun ok idle => ?_,
      fun o r busy erase hr => ⟨fun retry => ?_, fun j first job => ?_, fun first job => ?_⟩, fun idle => ?_,
      fun o held => State.recGoOn_held held, fun stopped => State.recStart_stopped stopped,
      fun j up runs idle queue free => ⟨State.recStart_job up runs idle queue free, State.recStart_abandons up runs idle queue free⟩⟩,
    fun s c n small => ⟨State.recCmdDone_code n small, State.recCmdDone_done c n, State.recCmdDone_err c n⟩⟩
  · exact exec_record_busy ao m (recordWord_bits 1 page.toNat (by decide) page.isLt).1 (by decide) (by decide) busy
  · exact exec_record_busy ao m (op := 2) (by decide) (by decide) (by decide) busy
  · exact exec_record_busy ao m (recordWord_bits 3 reason.toNat (by decide) reason.isLt).1 (by decide) (by decide) busy
  · exact exec_record_busy ao m (op := 4) (by decide) (by decide) (by decide) busy
  · exact exec_record_busy ao m (op := 5) (by decide) (by decide) (by decide) busy
  · obtain ⟨op, arg⟩ := recordWord_bits 1 page.toNat (by decide) page.isLt
    refine (exec_record_idle ao m op (by decide) (by decide) idle).trans ?_
    rw [arg]
    rfl
  · subst hb
    exact exec_record_idle ao m (op := 2) (by decide) (by decide) (by decide) idle
  · subst hb
    obtain ⟨op, arg⟩ := recordWord_bits 3 reason.toNat (by decide) reason.isLt
    refine (exec_record_idle ao m op (by decide) (by decide) idle).trans ?_
    rw [arg]
    rfl
  · exact exec_record_idle ao m (op := 4) (by decide) (by decide) (by decide) idle
  · rw [← State.recResume_held held]
    exact exec_record_idle ao m (op := 5) (by decide) (by decide) (by decide) idle
  · rw [← State.recResume_notHeld other]
    exact exec_record_idle ao m (op := 5) (by decide) (by decide) (by decide) idle
  · rw [exec_almanacFreeze, live_next _ ao up, State.almanacFreeze_freezes post spent hu]
  · rw [exec_almanacFreeze, live_next _ ao up, State.almanacFreeze_other other]
  · rw [exec_freezeCopyDone, live_next _ ao up, State.freezeCopyDone_eq frozen copied archived done hu hv]
    exact ⟨fun auto => by rw [if_pos auto], fun hold => by rw [if_neg (ne_true_of_eq_false hold)]⟩
  · rw [exec_freezeCopyDone, live_next _ ao up, State.freezeCopyDone_waits bar]
  · rw [exec_logbookFlush, live_next _ ao up, State.logbookFlush_flushes since mirroring part passed]
    rfl
  · rw [exec_logbookFlush, live_next _ ao up, State.logbookFlush_idle bar]
  · rw [exec_recordProgramDone, act_next _ ao, State.recProgramDone_job busy program hu job]
  · rw [exec_recordProgramDone, act_next _ ao, State.recProgramDone_free busy program hu job]
  · rw [exec_recordProgramDone, act_next _ ao, State.recProgramDone_retries busy program ht first]
  · rw [exec_recordProgramDone, act_next _ ao, State.recProgramDone_worn busy program ht again]
  · rw [exec_recordProgramDone, act_next _ ao, State.recProgramDone_idle idle]
  · rw [exec_recordEraseDone, act_next _ ao, State.recEraseDone_retry busy erase hr retry]
  · rw [exec_recordEraseDone, act_next _ ao, State.recEraseDone_job busy erase hr first job]
  · rw [exec_recordEraseDone, act_next _ ao, State.recEraseDone_free busy erase hr first job]
  · rw [exec_recordEraseDone, act_next _ ao, State.recEraseDone_idle idle]

end Sys2Proof.Machine
end

section
/-! PROOF. The external flash port: host commands, its work, its limits and discovery (O51). -/

namespace Sys2Proof.Machine

/-! ## The bits of a host command and of CTRL (R383, R388) -/

theorem getBits_bit (d : Word) (i : Nat) : getBits d i 1 = (bit d i).toNat := by
  rw [getBits, bit, BitVec.getLsbD, Nat.toNat_testBit, Nat.shiftRight_eq_div_pow, pow_one]

theorem or_four_enables (d : Word) : (d ||| 4) &&& 3 = d &&& 3 := by
  rw [BitVec.and_comm, BitVec.and_or_distrib_left, BitVec.and_comm 3 d, show d &&& 3 ||| (3 : Word) &&& 4 = d &&& 3 from BitVec.or_zero]

theorem and_not_four_enables (d : Word) : (d &&& ~~~4) &&& 3 = d &&& 3 := by
  rw [BitVec.and_assoc, show ~~~(4 : Word) &&& 3 = 3 from rfl]

theorem bit_or_four (d : Word) : bit (d ||| 4) 2 = true := by simp [bit]

theorem bit_and_not_four (d : Word) : bit (d &&& ~~~4) 2 = false := by simp [bit]

theorem bit_or_four_enable (d : Word) : bit (d ||| 4) 0 = bit d 0 := by simp [bit]

theorem bit_and_not_four_enable (d : Word) : bit (d &&& ~~~4) 0 = bit d 0 := by simp [bit]

/-! ## Host commands (R388) -/

/-- The range that a host command names: an erase takes its whole sector. -/
def State.hostFlashRange (s : State) (op len : Nat) : Nat × Nat :=
  if op = 3 then (s.f Fd.FLASH_HADDR_ADDR / 4096 * 4096, 4096) else (s.f Fd.FLASH_HADDR_ADDR, clampNat 1 256 len)

/-- The operation that a host command asks for. -/
def State.hostFlashOp (s : State) (op a n : Nat) : FlashOp :=
  if op = 1 then .read (s.f Fd.FLASH_HADDR_CS) a n
  else if op = 2 then .prog (s.f Fd.FLASH_HADDR_CS) a (s.flashBuf n) else .erase (s.f Fd.FLASH_HADDR_CS) a

section
variable {s : State} {d : Word} {op a n : Nat} (hop : getBits d 28 4 = op) (known : 1 ≤ op) (last : op ≤ 3)
  (range : s.hostFlashRange op (getBits d 0 9) = (a, n)) (by' : Option Proc)
include hop known last range

theorem State.hostFlash_refused (refused : s.hostFlashCode op (s.f Fd.FLASH_HADDR_CS) a n ≠ 0) :
    s.hostFlash by' d = s.hostFlashEnd by' (s.hostFlashCode op (s.f Fd.FLASH_HADDR_CS) a n) := by
  have out : ¬ (op = 0 ∨ 3 < op) := by omega
  rw [State.hostFlashRange] at range
  simp only [State.hostFlash, hop, out, if_false, range]

theorem State.hostFlash_accepted (accepted : s.hostFlashCode op (s.f Fd.FLASH_HADDR_CS) a n = 0) :
    s.hostFlash by' d = State.setX ((s.wr Reg.FLASH_HRES 0).setF Fd.FLASH_STAT_BUSY 1)
      { s.xflash with queue := ⟨.host by', [s.hostFlashOp op a n], 0⟩ :: s.xflash.queue } := by
  have out : ¬ (op = 0 ∨ 3 < op) := by omega
  rw [State.hostFlashRange] at range
  simp only [State.hostFlash, hop, out, if_false, range, accepted]
  rfl

end

section
variable {s : State} {op cs a n : Nat}

theorem State.hostFlashCode_busy (busy : s.fb Fd.FLASH_STAT_BUSY = true) : s.hostFlashCode op cs a n = 6 := if_pos busy

theorem State.hostFlashCode_absent (idle : s.fb Fd.FLASH_STAT_BUSY = false)
    (absent : s.csPresent cs = false ∨ s.f Fd.FLASH_CTRL_EN = 0) : s.hostFlashCode op cs a n = 1 :=
  (if_neg (ne_true_of_eq_false idle)).trans (if_pos (absent.imp_left fun h => by rw [h]; rfl))

theorem State.hostFlashCode_beyond (idle : s.fb Fd.FLASH_STAT_BUSY = false) (present : s.csPresent cs = true)
    (enabled : s.f Fd.FLASH_CTRL_EN ≠ 0) (beyond : s.csSize cs < a + n) : s.hostFlashCode op cs a n = 2 := by
  have there : ¬ ((!s.csPresent cs) = true ∨ s.f Fd.FLASH_CTRL_EN = 0) := by rw [present]; simpa using enabled
  exact (if_neg (ne_true_of_eq_false idle)).trans ((if_neg there).trans (if_pos (.inl beyond)))

/-- An accepted program or erase touches none of the partitions that the device writes. -/
theorem State.hostFlashCode_untouched {id : Nat} (accepted : s.hostFlashCode op cs a n = 0) (writes : op ≠ 1)
    (own : id = 3 ∨ id = 4 ∨ id = 5 ∨ id = 6) : s.touches id cs a n = false := by
  by_contra touched
  have member : id ∈ [3, 4, 5, 6] := by simpa using own
  have any : [3, 4, 5, 6].any (fun id => s.touches id cs a n) = true :=
    List.any_eq_true.mpr ⟨id, member, eq_true_of_ne_false touched⟩
  have wrote : (op != 1) = true := bne_iff_ne.mpr writes
  unfold State.hostFlashCode at accepted
  simp only [any, wrote, Bool.true_or, Bool.and_self, if_true] at accepted
  split_ifs at accepted

end

section
variable {s : State} {w : Writer} {op a n : Nat} {len : BitVec 9} (ao : s.power.ao = true)
  (m : s.mayWrite w Reg.FLASH_HCMD = true) (known : 1 ≤ op) (last : op ≤ 3)
  (range : s.hostFlashRange op len.toNat = (a, n))
include ao m known last range

theorem exec_flashHost_refused (refused : s.hostFlashCode op (s.f Fd.FLASH_HADDR_CS) a n ≠ 0) :
    write s w Reg.FLASH_HCMD (BitVec.ofNat 32 (op * 2 ^ 28 + len.toNat)) =
      .next (s.hostFlashEnd (hostOf w) (s.hostFlashCode op (s.f Fd.FLASH_HADDR_CS) a n)).settle := by
  obtain ⟨hop, hlen⟩ := flashWord_bits len op (by omega)
  rw [write_word ao m rfl, busWrite_flashHcmd, State.hostFlash_refused hop known last (by rw [hlen]; exact range) _ refused]

theorem exec_flashHost_accepted (accepted : s.hostFlashCode op (s.f Fd.FLASH_HADDR_CS) a n = 0) :
    write s w Reg.FLASH_HCMD (BitVec.ofNat 32 (op * 2 ^ 28 + len.toNat)) =
      .next (State.settle (State.setX ((s.wr Reg.FLASH_HRES 0).setF Fd.FLASH_STAT_BUSY 1)
        { s.xflash with queue := ⟨.host (hostOf w), [s.hostFlashOp op a n], 0⟩ :: s.xflash.queue })) := by
  obtain ⟨hop, hlen⟩ := flashWord_bits len op (by omega)
  rw [write_word ao m rfl, busWrite_flashHcmd, State.hostFlash_accepted hop known last (by rw [hlen]; exact range) _ accepted]

end

/-! ## CTRL and discovery (R383) -/

section
variable {s : State} {d : Word}

theorem State.flashCtrlWrite_off (off : bit d 0 = false) :
    s.flashCtrlWrite d = (s.wr Reg.FLASH_CTRL (d &&& 3)).hostAbsent := if_pos (by rw [getBits_bit, off]; rfl)

theorem State.flashCtrlWrite_starts (on : bit d 0 = true) (plain : bit d 2 = false) :
    s.flashCtrlWrite d = (s.wr Reg.FLASH_CTRL (d &&& 3)).discStart :=
  (if_neg (by rw [getBits_bit, on]; decide)).trans (if_neg (by rw [getBits_bit, plain]; decide))

theorem State.flashCtrlWrite_rediscovers (on : bit d 0 = true) (again : bit d 2 = true) :
    s.flashCtrlWrite d = (s.wr Reg.FLASH_CTRL (d &&& 3)).setX { s.xflash with disc := true, discDone := true } := by
  have enabled : (s.wr Reg.FLASH_CTRL (d &&& 3)).fb Fd.FLASH_CTRL_EN = true := by
    rw [State.fb, State.f, State.rd_wr_self, getBits_and_mask _ _ _ _ (by decide), getBits_bit, on]
    rfl
  exact (if_neg (by rw [getBits_bit, on]; decide)).trans ((if_pos (by rw [getBits_bit, again]; rfl)).trans (if_pos enabled))

theorem State.discStart_begins (ready : s.fb Fd.SYS_STAT_READY = true) (full : s.power.state = .full)
    (owed : s.xflash.discDone = false) (enabled : s.fb Fd.FLASH_CTRL_EN = true) :
    s.discStart = s.setX { s.xflash with disc := true, discDone := true } :=
  (if_pos ⟨ready, full, by rw [owed]; rfl⟩).trans (if_pos enabled)

theorem State.discStart_waits (bar : s.fb Fd.SYS_STAT_READY = false ∨ s.power.state ≠ .full ∨ s.xflash.discDone = true ∨
    s.fb Fd.FLASH_CTRL_EN = false) : s.discStart = s := by
  unfold State.discStart State.discBegin
  rcases bar with h | h | h | h <;> simp [h]

theorem State.discFinish_drops {c0 c1 : Option Sfdp} (bar : s.xflash.disc = false ∨ s.fb Fd.FLASH_CTRL_EN = false ∨
    s.power.state ≠ .full) : s.discFinish c0 c1 = s := by
  refine if_neg fun runs => ?_
  simp only [Bool.and_eq_true, beq_iff_eq] at runs
  obtain ⟨⟨disc, enabled⟩, full⟩ := runs
  rcases bar with h | h | h
  · exact absurd disc (by rw [h]; decide)
  · exact absurd enabled (by rw [h]; decide)
  · exact h full

end

section
variable {x : Sfdp}

theorem usedDensity_small (small : x.log2 < 24) : usedDensity (some x) = none := if_pos small

theorem usedDensity_threeBytes (large : 24 < x.log2) (three : x.addr3 = true) : usedDensity (some x) = some (24, true) :=
  (if_neg (by omega)).trans (if_pos ⟨large, three⟩)

theorem usedDensity_large (large : 26 < x.log2) (four : x.addr3 = false) : usedDensity (some x) = some (26, true) :=
  (if_neg (by omega)).trans ((if_neg fun h => ne_true_of_eq_false four h.2).trans (if_pos large))

theorem usedDensity_whole (atLeast : 24 ≤ x.log2) (atMost : x.log2 ≤ 26) (four : x.addr3 = false) :
    usedDensity (some x) = some (x.log2, false) :=
  (if_neg (by omega)).trans ((if_neg fun h => ne_true_of_eq_false four h.2).trans (if_neg (by omega)))

end

/-! ## The port's work (R387, R389) -/

section
variable (s : State) (by' : Option Proc) (o : FlashOp)

/-- A host command's one operation. -/
theorem State.jobOp_host : s.jobOp ⟨.host by', [o], 0⟩ = some o := by simp [State.jobOp, State.jobOps]

theorem State.jobOp_host_next (u : State) : u.jobOp (s.jobNext ⟨.host by', [o], 0⟩) = none := by
  simp [State.jobOp, State.jobNext, State.jobOps]

end

section
variable {s : State}

theorem State.flashStart_held (bar : s.f Fd.FLASH_CTRL_EN = 0 ∨ s.power.state ≠ .full ∨ s.xflash.disc = true ∨ s.loadReads = true) :
    s.flashStart = s := if_pos bar

theorem State.flashStart_host {by' : Option Proc} {o : FlashOp} {rest : List FlashJob} (enabled : s.f Fd.FLASH_CTRL_EN ≠ 0)
    (full : s.power.state = .full) (known : s.xflash.disc = false) (noLoad : s.loadReads = false)
    (queue : s.xflash.queue = ⟨.host by', [o], 0⟩ :: rest) (free : s.xflash.busy o.cs = none) : s.flashStart =
      s.setX ((XFlash.setBusy { s.xflash with queue := rest } o.cs (some ⟨.host by', [o], 0⟩)).begin o.cs s.ticks) := by
  have runs : ¬ (s.f Fd.FLASH_CTRL_EN = 0 ∨ s.power.state ≠ .full ∨ s.xflash.disc = true ∨ s.loadReads = true) := by
    simp [enabled, full, known, noLoad]
  have first : (FlashKind.host by').rank = 1 := rfl
  simp only [State.flashStart, runs, if_false, queue, List.cons_append, List.findSome?_cons, List.find?_cons, State.jobOp_host, free,
    first, beq_self_eq_true, Option.isNone_none, Bool.and_self, List.erase_cons_head]

section
variable {cs : Nat} (idle : s.xflash.busy cs = none)
include idle

theorem State.flashOpDone_idle (ok : Bool) : s.flashOpDone cs ok = s := by simp only [State.flashOpDone, idle]

theorem State.flashTimeout_idle : s.flashTimeout cs = s := by simp only [State.flashTimeout, idle]

end

section
variable {cs : Nat} {by' : Option Proc} {o : FlashOp} (busy : s.xflash.busy cs = some ⟨.host by', [o], 0⟩)
include busy

theorem State.flashOpDone_commits : s.flashOpDone cs true =
    (((s.setX (s.xflash.setBusy cs none)).flashCommit o).setF Fd.FLASH_STAT_BUSY 0).hostFlashEnd by' 0 := by
  simp only [State.flashOpDone, busy, State.jobOp_host, State.jobOp_host_next, Bool.not_true, Bool.false_and, Bool.false_eq_true, if_false]
  rfl

theorem State.flashOpDone_fails {c a : Nat} {data : List Byte} (program : o = .prog c a data) :
    s.flashOpDone cs false = s.flashBad cs ⟨.host by', [o], 0⟩ 5 4 := by
  subst program
  simp only [State.flashOpDone, busy, State.jobOp_host, Bool.not_false, Bool.and_self, if_true]

section
variable {t : Nat} (limit : s.flashLimit o = some t)
include limit

theorem State.flashTimeout_fails (passed : s.xflash.since cs + t ≤ s.ticks) :
    s.flashTimeout cs = s.flashBad cs ⟨.host by', [o], 0⟩ 4 3 := by
  simp only [State.flashTimeout, busy, State.jobOp_host, Option.bind_some, limit, passed, if_true]

theorem State.flashTimeout_early (early : s.ticks < s.xflash.since cs + t) : s.flashTimeout cs = s := by
  simp only [State.flashTimeout, busy, State.jobOp_host, Option.bind_some, limit, not_le.mpr early, if_false]

end

theorem State.flashTimeout_unlimited (free : s.flashLimit o = none) : s.flashTimeout cs = s := by
  simp only [State.flashTimeout, busy, State.jobOp_host, Option.bind_some, free]

end

/-- An erase leaves the cells of every other sector. -/
theorem State.flashCommit_erase_apart {cs a k : Nat} (apart : k / 4096 ≠ xKey cs a / 4096) :
    tget erasedCell (s.flashCommit (.erase cs a)).xflash.cells k = tget erasedCell s.xflash.cells k :=
  tget_filter erasedCell s.xflash.cells (fun k => !(k / 4096 == xKey cs a / 4096)) k (by simp [apart])

end

/-- Settles O51: a host command by its code, CTRL by its EN and REDISC, then the port's work by what is under way. -/
theorem flashPort : Obligations.FlashPort := by
  refine ⟨fun s ao => ⟨fun w op len c a n o m command => ?_, fun op cs a n => ⟨State.hostFlashCode_busy, State.hostFlashCode_absent,
      State.hostFlashCode_beyond, fun id => State.hostFlashCode_untouched⟩, fun w d u m hu => ?_⟩,
    fun s ao up => ⟨fun bar => ?_, fun by' o rest enabled full known noLoad queue free => ?_, fun cs ok idle => ?_,
      fun cs by' o u busy hu => ⟨?_, fun v hv => ⟨fun c a data program => ?_, fun t limit passed => ?_⟩, fun t limit early => ?_,
        fun free => ?_⟩, ⟨fun _ _ _ => rfl, fun _ _ _ => rfl, fun _ _ => rfl⟩, fun cs idle => ?_,
      fun ready full owed enabled => ?_, fun bar => ?_, fun c0 c1 disc enabled full => ?_, fun c0 c1 bar => ?_⟩,
    fun x => ⟨usedDensity_small, usedDensity_threeBytes, usedDensity_large, usedDensity_whole⟩,
    fun s cs a o erase k apart => by rw [erase]; exact State.flashCommit_erase_apart apart⟩
  · have asks : 1 ≤ op ∧ op ≤ 3 ∧ s.hostFlashRange op len.toNat = (a, n) ∧ s.hostFlashOp op a n = o ∧
        exec c s = write s w Reg.FLASH_HCMD (BitVec.ofNat 32 (op * 2 ^ 28 + len.toNat)) := by
      rcases command with ⟨rfl, rfl, rfl, rfl, rfl⟩ | ⟨rfl, rfl, rfl, rfl, rfl⟩ | ⟨rfl, rfl, rfl, rfl, rfl⟩
      · exact ⟨by decide, by decide, rfl, rfl, exec_flashHostRead s w len⟩
      · exact ⟨by decide, by decide, rfl, rfl, exec_flashHostProgram s w len⟩
      · exact ⟨by decide, by decide, rfl, rfl, exec_flashHostErase s w len⟩
    obtain ⟨known, last, range, operation, run⟩ := asks
    rw [run]
    refine ⟨fun code hcode refused => ?_, fun accepted => ⟨_, rfl, ?_⟩⟩
    · subst hcode
      exact exec_flashHost_refused ao m known last range refused
    · rw [exec_flashHost_accepted ao m known last range accepted, operation]
  · subst hu
    refine ⟨fun on => ?_, fun on => ?_, fun off => ⟨?_, ?_⟩⟩
    · rw [exec_flashRediscover, write_word ao m rfl, busWrite_flashCtrl,
        State.flashCtrlWrite_rediscovers ((bit_or_four_enable d).trans on) (bit_or_four d), or_four_enables]
    · rw [exec_flashEnWrite, write_word ao m rfl, busWrite_flashCtrl,
        State.flashCtrlWrite_starts ((bit_and_not_four_enable d).trans on) (bit_and_not_four d), and_not_four_enables]
    · rw [exec_flashRediscover, write_word ao m rfl, busWrite_flashCtrl,
        State.flashCtrlWrite_off ((bit_or_four_enable d).trans off), or_four_enables]
    · rw [exec_flashEnWrite, write_word ao m rfl, busWrite_flashCtrl,
        State.flashCtrlWrite_off ((bit_and_not_four_enable d).trans off), and_not_four_enables]
  · rw [exec_flashWorkStart, live_next _ ao up, State.flashStart_held bar]
  · rw [exec_flashWorkStart, live_next _ ao up, State.flashStart_host enabled full known noLoad queue free]
  · rw [exec_flashOpDone, live_next _ ao up, State.flashOpDone_idle idle]
  · subst hu
    rw [exec_flashOpDone, live_next _ ao up, State.flashOpDone_commits busy]
  · subst hv
    rw [exec_flashOpDone, live_next _ ao up, State.flashOpDone_fails busy program]
    rfl
  · subst hv
    rw [exec_flashOpTimeout, live_next _ ao up, State.flashTimeout_fails busy limit passed]
    rfl
  · rw [exec_flashOpTimeout, live_next _ ao up, State.flashTimeout_early busy limit early]
  · rw [exec_flashOpTimeout, live_next _ ao up, State.flashTimeout_unlimited busy free]
  · rw [exec_flashOpTimeout, live_next _ ao up, State.flashTimeout_idle idle]
  · rw [exec_flashDiscoveryStart, live_next _ ao up, State.discStart_begins ready full owed enabled]
  · rw [exec_flashDiscoveryStart, live_next _ ao up, State.discStart_waits bar]
  · rw [exec_flashDiscoveryDone, live_next _ ao up]
  · rw [exec_flashDiscoveryDone, live_next _ ao up, State.discFinish_drops bar]

end Sys2Proof.Machine
end
